-- ==== Sys2Proof/Word.lean ====
section
/-! DEFINITION. The word types: registers and program words are 64 bits, memory is bytes (R6, R591). -/

namespace Sys2Proof

/-- A 64-bit register, program word or memory word. -/
abbrev Word := BitVec 64

/-- One byte of memory. -/
abbrev Byte := BitVec 8

end Sys2Proof
end

