-- ==== Sys2Proof/Syntax.lean ====
section
/-! DEFINITION. The commands of the block, one constructor per row of spec/opcode_table.json, and the types of their
operands. A command is a write or a read of a register, an operation of a sequencer or engine, the receipt of a symbol,
packet or flit, or an event of the hardware that the table lists as a step of its own. -/

namespace Sys2Proof

/-- Bits [51:0] of a sequencer instruction word (Table TCR-2): everything but CLASS and OP, which the command fixes. -/
abbrev Rest := BitVec 52

/-- Who writes or reads a register (R274, R590). A hart acts in the management context or the partition context by R274;
`mmode` says that it executes in M-mode. Lanyard and mailbox commands act as the management context. -/
inductive Agent where
  | bowline
  | lanyard
  | hart (h : Nat) (mmode : Bool)
  deriving DecidableEq, Repr

/-- A Halyard tick symbol (Table HLY-1) without its TYPE, which the command fixes. -/
structure TickSymbol where
  verMajor : Nat
  verMinor : Nat
  domain   : Nat
  gen      : Nat
  slips    : Nat
  children : Nat
  pending  : Bool
  seq      : Nat
  level    : Nat
  step     : Nat
  timeA    : Nat
  timeB    : Nat
  deriving DecidableEq, Repr

/-- A packet of classes 1 to 5 (R347): the four header words of Table HWS-2, the payload and the trailer. -/
structure Packet where
  w0      : Word
  w1      : Word
  w2      : Word
  w3      : Word
  payload : List Byte
  trailer : Word
  deriving DecidableEq, Repr

/-- A flit (Table OPT-4): SEQ, FTYPE, the reserved bits, the control field, 632 bytes of payload and the CRC. -/
structure Flit where
  seq      : Nat
  ftype    : Nat
  rsv      : Nat
  ackSeq   : Nat
  ackValid : Bool
  crTc     : Nat
  crTotal  : Nat
  rsv2     : Nat
  payload  : List Byte
  crc      : Nat
  deriving DecidableEq, Repr

/-- What the payload of a TRAIN flit says (R406, R407, R411, R412), where the spec gives its content and no layout: a
codeword-lock pattern, the partner's receive lanes in logical order with its spares, the CAPS record (Table OPT-6, read
from the payload), a timestamped flit to be answered, or the answer to the oldest one this end has sent, with the partner's receive time of
that flit and its own send time, in ns. -/
inductive TrainBody where
  | lock
  | lanes (map spares : List Nat)
  | caps
  | stamped
  | answer (rx tx : Nat)
  deriving DecidableEq, Repr

/-- The lanes in error of a stored line as the controller reads it, the one with the largest error first: the lanes of a stack
(R319), those of a DDR5 subchannel (R328), or in a tile store bit `b` of the 72 of word `w` as lane 72w + b (R549). `located`: the
code locates the largest error of one that it cannot correct. -/
structure LaneErr where
  lanes   : List Nat
  located : Bool
  deriving DecidableEq, Repr

/-- What the controller code makes of a stored line (R319, R320, R328): nothing, a correctable error or an uncorrectable one,
with the symbol of the largest error. -/
inductive LineErr where
  | none
  | ce (symbol : Nat)
  | ue (symbol : Nat)
  deriving DecidableEq, Repr

/-- The outcome of a hart's address translation: a host physical address, or a page fault (of the guest where `guest`). -/
inductive HartXlat where
  | ok (pa : Nat)
  | fault (guest : Bool)
  deriving DecidableEq, Repr

/-- An access of a hart (R251): a scalar load or store, an AMO by its OP code of Hawser, an LR, an SC, or a vector access of elements of
`size` bytes of the group at `vreg`, unit-stride or not, with the virtual and physical address of every element in order. -/
inductive HartAccess where
  | load (size : Nat) (signed : Bool) (rd : Nat)
  | store (size : Nat) (value : Word)
  | amo (op size : Nat) (value : Word) (rd : Nat)
  | lr (size rd : Nat)
  | sc (size : Nat) (value : Word) (rd : Nat)
  | vec (st unitStride vm : Bool) (size vreg : Nat) (elems : List (Word × Nat))
  deriving DecidableEq, Repr

/-- A level that takes an interrupt: M, HS or VS. -/
inductive HartLevel where
  | m
  | s
  | vs
  deriving DecidableEq, Repr

/-- A DIMM as its SPD describes it (R323): capacity in GiB, ranks, device width, type (1 RDIMM, 2 MRDIMM) and highest rate. -/
structure Dimm where
  size  : Nat
  ranks : Nat
  width : Nat
  type  : Nat
  mts   : Nat
  deriving DecidableEq, Repr

/-- What Bowline finds while a release step runs: stacks and channels that fail training or their memory test, the lanes of the
channels of a stack that fail training, by stack and channel (R318), the DIMMs of each channel by slot (R324), lines that the memory test reads as uncorrectable with their
symbol (R455), physical strands that fail their test by T-die (R73), and ports whose optical engine fails (R408). -/
structure Found where
  stackFail  : List Nat
  lanes      : List (Nat × Nat × List Nat)
  dimms      : List (Nat × List (Option Dimm))
  chanFail   : List Nat
  sick       : List (Nat × Nat)
  strandFail : List (Nat × Nat)
  engineFail : List Nat
  deriving DecidableEq, Repr

/-- How a PCI Express request completes (R593, R554): with data, with Unsupported Request or Completer Abort, or poisoned. -/
inductive PcieCpl where
  | ok
  | refused
  | poisoned
  deriving DecidableEq, Repr

/-- The commands of the block: one constructor per row of the table of operations and events. -/
inductive Instr where
  /-- ADD (R81): Scalar add of SA and SB or IMM into SD, wrapping modulo 2^64. -/
  | add (core : Nat) (immForm : Bool) (rest : Rest)
  /-- SUB (R81): Scalar subtract into SD, wrapping modulo 2^64. -/
  | sub (core : Nat) (immForm : Bool) (rest : Rest)
  /-- AND (R81): Scalar bitwise and into SD. -/
  | and (core : Nat) (immForm : Bool) (rest : Rest)
  /-- OR (R81): Scalar bitwise or into SD. -/
  | or (core : Nat) (immForm : Bool) (rest : Rest)
  /-- XOR (R81): Scalar bitwise exclusive or into SD. -/
  | xor (core : Nat) (immForm : Bool) (rest : Rest)
  /-- SLL (R81): Scalar shift left by the low 6 bits of the second operand. -/
  | sll (core : Nat) (immForm : Bool) (rest : Rest)
  /-- SRL (R81): Scalar logical shift right, zeros entering. -/
  | srl (core : Nat) (immForm : Bool) (rest : Rest)
  /-- SRA (R81): Scalar arithmetic shift right, sign entering. -/
  | sra (core : Nat) (immForm : Bool) (rest : Rest)
  /-- MUL (R81): Low 64 bits of the product into SD. -/
  | mul (core : Nat) (immForm : Bool) (rest : Rest)
  /-- MULHU (R81): High 64 bits of the unsigned product into SD. -/
  | mulhu (core : Nat) (immForm : Bool) (rest : Rest)
  /-- DIVU (R82): Unsigned quotient into SD; division by zero gives all ones without a fault. -/
  | divu (core : Nat) (immForm : Bool) (rest : Rest)
  /-- REMU (R82): Unsigned remainder into SD; division by zero gives the dividend. -/
  | remu (core : Nat) (immForm : Bool) (rest : Rest)
  /-- MIN (R81): Signed minimum into SD. -/
  | min (core : Nat) (immForm : Bool) (rest : Rest)
  /-- MAX (R81): Signed maximum into SD. -/
  | max (core : Nat) (immForm : Bool) (rest : Rest)
  /-- MINU (R81): Unsigned minimum into SD. -/
  | minu (core : Nat) (immForm : Bool) (rest : Rest)
  /-- MAXU (R81): Unsigned maximum into SD. -/
  | maxu (core : Nat) (immForm : Bool) (rest : Rest)
  /-- SLT (R81): SD gets 1 if the first operand is less than the second, signed. -/
  | slt (core : Nat) (immForm : Bool) (rest : Rest)
  /-- SLTU (R81): SD gets 1 if the first operand is less than the second, unsigned. -/
  | sltu (core : Nat) (immForm : Bool) (rest : Rest)
  /-- SEQ (R81): SD gets 1 if the operands are equal. -/
  | seq (core : Nat) (immForm : Bool) (rest : Rest)
  /-- SLOAD (R83): Loads 8 bytes of program memory at SA + IMM into SD, or faults PM_BOUNDS. -/
  | sload (core : Nat) (rest : Rest)
  /-- SSTORE (R83): Stores SB to program memory at SA + IMM, or faults PM_BOUNDS. -/
  | sstore (core : Nat) (rest : Rest)
  /-- LIL (R84): Sets SD to the sign-extended immediate. -/
  | lil (core : Nat) (rest : Rest)
  /-- LIH (R84): Sets SD bits [63:32] to the immediate, keeping the low half. -/
  | lih (core : Nat) (rest : Rest)
  /-- BEQ (R85): Branches to PC + 8 × IMM when SA equals SB. -/
  | beq (core : Nat) (rest : Rest)
  /-- BNE (R85): Branches when SA differs from SB. -/
  | bne (core : Nat) (rest : Rest)
  /-- BLT (R85): Branches when SA is less than SB, signed. -/
  | blt (core : Nat) (rest : Rest)
  /-- BGE (R85): Branches when SA is at least SB, signed. -/
  | bge (core : Nat) (rest : Rest)
  /-- BLTU (R85): Branches when SA is less than SB, unsigned. -/
  | bltu (core : Nat) (rest : Rest)
  /-- BGEU (R85): Branches when SA is at least SB, unsigned. -/
  | bgeu (core : Nat) (rest : Rest)
  /-- JAL (R85): Writes PC + 8 to SD and jumps to PC + 8 × IMM. -/
  | jal (core : Nat) (rest : Rest)
  /-- JR (R85): Jumps to the address in SA, faulting PC_BOUNDS when out of range. -/
  | jr (core : Nat) (rest : Rest)
  /-- LOOP (R86): Starts a hardware loop repeating the body SA times, faulting LOOP_DEPTH beyond four. -/
  | loop (core : Nat) (rest : Rest)
  /-- HALT (R104): Drains the engines, optionally signals step-done, and ends the program leaving the core IDLE. -/
  | halt (core : Nat) (rest : Rest)
  /-- TWAITA (R101): Waits for a phase of the step in SA, completing at once with a late code if it has passed. -/
  | twaita (core : Nat) (rest : Rest)
  /-- TWAITN (R101): Waits for a phase of the step after the current one. -/
  | twaitn (core : Nat) (rest : Rest)
  /-- TWAIT_MOMENT (R101): Halyard reaches the awaited moment and the pending tick wait ends with its result in SD. -/
  | twaitMoment (core : Nat)
  /-- DONE (R104): Starts a drain of every earlier engine instruction and remote completion before signalling step-done. -/
  | done (core : Nat) (rest : Rest)
  /-- DONE_SIGNAL (R104): The drain of DONE or HALT ends and the core's step-done reaches Halyard. -/
  | doneSignal (core : Nat)
  /-- SEMINC (R107): Adds to a semaphore after earlier writes are visible, then serves waiting SEMWAITs in order. -/
  | seminc (core : Nat) (rest : Rest)
  /-- SEMWAIT (R108): Waits until a semaphore reaches a value, then subtracts it. -/
  | semwait (core : Nat) (rest : Rest)
  /-- SEMREAD (R106): Reads a semaphore value into SD after ownership checks. -/
  | semread (core : Nat) (rest : Rest)
  /-- FENCE (R87): Waits for completion of the earlier work classes selected by IMM. -/
  | fence (core : Nat) (rest : Rest)
  /-- ARM (R60): Commits a TALQ entry from SA and SB to the core's own T-die queue and returns the result code. -/
  | arm (core : Nat) (rest : Rest)
  /-- READSYS (R88): Reads a system value selected by IMM into SD. -/
  | readsys (core : Nat) (rest : Rest)
  /-- EVPOST (R89): Posts a USER event to a T-die event queue and reports posted, full or disabled in SD. -/
  | evpost (core : Nat) (rest : Rest)
  /-- TRAP (R89): Raises fault TRAP with DETAIL from IMM. -/
  | trap (core : Nat) (rest : Rest)
  /-- TC_DOORBELL (R96): A doorbell write requests a launch and reports the result in TC_LAUNCH_STATUS. -/
  | tcDoorbell (agent : Agent) (die : Nat) (phys : Nat) (value : Word)
  /-- PROGRAM_LOAD_COMPLETE (R99): The program image copy ends, S registers are loaded and the core enters RUNNING. -/
  | programLoadComplete (core : Nat)
  /-- TC_CTX (R100): A context write is taken only in IDLE, FAULTED or OFFLINE and a partition change starts SCRUBBING. -/
  | tcCtx (agent : Agent) (die : Nat) (phys : Nat) (value : Word)
  /-- SCRUB_COMPLETE (R100): Core scrubbing of program memory, tile store and registers ends and the core enters IDLE. -/
  | scrubComplete (die : Nat) (phys : Nat)
  /-- STOP (R115): A write of TC_CTRL.STOP halts issue and withdraws pending waits. -/
  | stop (agent : Agent) (die : Nat) (phys : Nat)
  /-- STOP_COMPLETE (R115): The engines finish their queues and the stopped core enters IDLE with a STOPPED event. -/
  | stopComplete (core : Nat)
  /-- CLEAR_FAULT (R115): A write of TC_CTRL.CLEAR_FAULT moves a FAULTED core to IDLE. -/
  | clearFault (agent : Agent) (die : Nat) (phys : Nat)
  /-- STRAND_LOST (R75): A strand taken out of service stops its eight cores as OFFLINE with STRAND_LOST faults. -/
  | strandLost (die : Nat) (strand : Nat)
  /-- TC_SEM_VALUE (R108): A host write adds its value to a semaphore as an increment. -/
  | tcSemValue (agent : Agent) (die : Nat) (sem : Nat) (value : Word)
  /-- TC_SEM_OWNER (R119): A write of a semaphore owner, changing the owner, clears its value and poison. -/
  | tcSemOwner (agent : Agent) (die : Nat) (sem : Nat) (value : Word)
  /-- TC_EVQ_OWNER (R119): A write that changes a queue's owner clears ENABLE and DROPPED. -/
  | tcEvqOwner (agent : Agent) (die : Nat) (queue : Nat) (value : Word)
  /-- TC_EVQ_BASE (R110): A ring base write takes effect only while the queue is disabled. -/
  | tcEvqBase (agent : Agent) (die : Nat) (queue : Nat) (value : Word)
  /-- TC_EVQ_CTRL (R110): A queue control write ignores a size change while enabled and sets HEAD to TAIL on enable. -/
  | tcEvqCtrl (agent : Agent) (die : Nat) (queue : Nat) (value : Word)
  /-- MMA (R156): Accumulates up to 256 blocks of one span into a span-sum tile by the canonical procedure. -/
  | mma (core : Nat) (rest : Rest)
  /-- MCOMB (R166): Combines span-sum tiles by the span tree, adds C, converts and stores to D. -/
  | mcomb (core : Nat) (rest : Rest)
  /-- MREC (R175): Stores the matrix flags, exception record and histogram, and may clear them. -/
  | mrec (core : Nat) (rest : Rest)
  /-- ME_CLEAR_FLAGS (R171): A write of ME_CTRL.CLEAR_FLAGS clears the matrix flags. -/
  | meClearFlags (agent : Agent) (die : Nat) (phys : Nat)
  /-- ME_CLEAR_EXC (R173): A write of ME_CTRL.CLEAR_EXC clears the matrix exception record. -/
  | meClearExc (agent : Agent) (die : Nat) (phys : Nat)
  /-- ME_CLEAR_HIST (R174): A write of ME_CTRL.CLEAR_HIST zeroes the matrix histogram. -/
  | meClearHist (agent : Agent) (die : Nat) (phys : Nat)
  /-- VADD (R189): Element-wise add with one rounding under CC. -/
  | vadd (core : Nat) (rest : Rest)
  /-- VSUB (R189): Element-wise subtract with one rounding under CC. -/
  | vsub (core : Nat) (rest : Rest)
  /-- VMUL (R189): Element-wise multiply, low bits for integers. -/
  | vmul (core : Nat) (rest : Rest)
  /-- VFMA (R189): Fused a × b + c with one rounding. -/
  | vfma (core : Nat) (rest : Rest)
  /-- VFNMA (R189): Fused −(a × b) + c with one rounding. -/
  | vfnma (core : Nat) (rest : Rest)
  /-- VMIN (R192): Element-wise minimum with −0 below +0 and canonical NaN. -/
  | vmin (core : Nat) (rest : Rest)
  /-- VMAX (R192): Element-wise maximum with −0 below +0 and canonical NaN. -/
  | vmax (core : Nat) (rest : Rest)
  /-- VABS (R192): Clears the sign bit of each element. -/
  | vabs (core : Nat) (rest : Rest)
  /-- VNEG (R192): Inverts the sign bit of each element. -/
  | vneg (core : Nat) (rest : Rest)
  /-- VAND (R191): Element-wise bitwise and of integers. -/
  | vand (core : Nat) (rest : Rest)
  /-- VOR (R191): Element-wise bitwise or of integers. -/
  | vor (core : Nat) (rest : Rest)
  /-- VXOR (R191): Element-wise bitwise exclusive or of integers. -/
  | vxor (core : Nat) (rest : Rest)
  /-- VSLL (R191): Element-wise shift left by b mod 8w. -/
  | vsll (core : Nat) (rest : Rest)
  /-- VSRL (R191): Element-wise logical shift right. -/
  | vsrl (core : Nat) (rest : Rest)
  /-- VSRA (R191): Element-wise arithmetic shift right. -/
  | vsra (core : Nat) (rest : Rest)
  /-- VRED (R194): Reduces rows, columns or all by fixed pairwise trees under RNE. -/
  | vred (core : Nat) (rest : Rest)
  /-- VCMP (R193): Writes a mask from a comparison predicate. -/
  | vcmp (core : Nat) (rest : Rest)
  /-- VSEL (R186): Selects a or b per element by the mask. -/
  | vsel (core : Nat) (rest : Rest)
  /-- VMOV (R195): Copies a register with bits unchanged. -/
  | vmov (core : Nat) (rest : Rest)
  /-- VSPLAT (R186): Fills elements with the low bits of an S register. -/
  | vsplat (core : Nat) (rest : Rest)
  /-- VIOTA (R186): Fills elements with an index sequence from an S register. -/
  | viota (core : Nat) (rest : Rest)
  /-- VROT (R195): Rotates rows or columns by an S register amount. -/
  | vrot (core : Nat) (rest : Rest)
  /-- VMAND (R186): Mask and. -/
  | vmand (core : Nat) (rest : Rest)
  /-- VMOR (R186): Mask or. -/
  | vmor (core : Nat) (rest : Rest)
  /-- VMXOR (R186): Mask exclusive or. -/
  | vmxor (core : Nat) (rest : Rest)
  /-- VMANDN (R186): Mask and-not. -/
  | vmandn (core : Nat) (rest : Rest)
  /-- VMSET (R186): Sets a mask to all ones or all zeros. -/
  | vmset (core : Nat) (rest : Rest)
  /-- VMNOT (R186): Inverts a mask. -/
  | vmnot (core : Nat) (rest : Rest)
  /-- VCVT (R197): Converts elements between views, widening or narrowing into half H. -/
  | vcvt (core : Nat) (rest : Rest)
  /-- VPACK (R198): Block-encodes a row into a packed slot and its scale byte. -/
  | vpack (core : Nat) (rest : Rest)
  /-- VUNPACK (R198): Decodes a packed slot to FP32 under its scale. -/
  | vunpack (core : Nat) (rest : Rest)
  /-- RCPS (R200): Computes the defined reciprocal seed. -/
  | rcps (core : Nat) (rest : Rest)
  /-- RSQS (R200): Computes the defined reciprocal square-root seed. -/
  | rsqs (core : Nat) (rest : Rest)
  /-- EXP2S (R200): Computes the defined power-of-two seed. -/
  | exp2s (core : Nat) (rest : Rest)
  /-- VRAND (R199): Fills elements with Reef words or uniform FP32 values from the key block. -/
  | vrand (core : Nat) (rest : Rest)
  /-- VLD (R201): Loads 32 rows of a tile register from the tile store. -/
  | vld (core : Nat) (rest : Rest)
  /-- VST (R201): Stores active elements of a tile register to the tile store. -/
  | vst (core : Nat) (rest : Rest)
  /-- VSTC (R201): Converts and stores active elements to the tile store. -/
  | vstc (core : Nat) (rest : Rest)
  /-- VMLD (R202): Loads a mask register from 512 bytes. -/
  | vmld (core : Nat) (rest : Rest)
  /-- VMST (R202): Stores a mask register as 512 bytes. -/
  | vmst (core : Nat) (rest : Rest)
  /-- VHREC (R210): Stores the vector flags, exception record and histogram, and may clear them. -/
  | vhrec (core : Nat) (rest : Rest)
  /-- VE_CLEAR_FLAGS (R207): A write of VE_CTRL.CLEAR_FLAGS clears the vector flags. -/
  | veClearFlags (agent : Agent) (die : Nat) (phys : Nat)
  /-- VE_CLEAR_EXC (R208): A write of VE_CTRL.CLEAR_EXC clears the vector exception record. -/
  | veClearExc (agent : Agent) (die : Nat) (phys : Nat)
  /-- VE_CLEAR_HIST (R209): A write of VE_CTRL.CLEAR_HIST zeroes the vector histogram. -/
  | veClearHist (agent : Agent) (die : Nat) (phys : Nat)
  /-- FXFER (R213): Reaching the head of the Fid queue, reads and validates a descriptor and runs the transfer. -/
  | fxfer (core : Nat) (rest : Rest)
  /-- FXFER_COMPLETE (R228): Every write of a transfer is visible or acknowledged and its completion semaphore is incremented. -/
  | fxferComplete (core : Nat)
  /-- ARMED_TRANSFER_START (R214): An armed transfer begins in the Fid engine once the running transfer has issued its last local access. -/
  | armedTransferStart (core : Nat)
  /-- FREC (R227): Stores the Fid flags, exception record and histogram, and may clear them. -/
  | frec (core : Nat) (rest : Rest)
  /-- FID_CLEAR_FLAGS (R224): A write of FID_CTRL.CLEAR_FLAGS clears the Fid flags. -/
  | fidClearFlags (agent : Agent) (die : Nat) (phys : Nat)
  /-- FID_CLEAR_EXC (R225): A write of FID_CTRL.CLEAR_EXC clears the Fid exception record. -/
  | fidClearExc (agent : Agent) (die : Nat) (phys : Nat)
  /-- FID_CLEAR_HIST (R226): A write of FID_CTRL.CLEAR_HIST zeroes the Fid histogram. -/
  | fidClearHist (agent : Agent) (die : Nat) (phys : Nat)
  /-- TIME_EXCHANGE (R36): Every 125,000 ns a child sends TIME_REQ to its parent and counts missed responses. -/
  | timeExchange
  /-- TIME_REQ (R30): A parent receives TIME_REQ, attaches the child or refuses a 65th, and answers TIME_RESP. -/
  | timeReq (src : Nat) (sym : TickSymbol)
  /-- TIME_RESP (R36): A child receives TIME_RESP, sets its level, slews or steps TIMEBASE and updates lock state. -/
  | timeResp (src : Nat) (sym : TickSymbol)
  /-- SLIP_STATE (R51): Receipt of a child's slip state updates the aggregate state and subtree latency. -/
  | slipState (src : Nat) (sym : TickSymbol)
  /-- TICK_EXTEND (R53): Receipt of a new tick end sets E and is relayed to children. -/
  | tickExtend (sym : TickSymbol)
  /-- TICK_FINAL (R53): Receipt of the final end of a tick fixes the tick end and is relayed to children. -/
  | tickFinal (sym : TickSymbol)
  /-- TICK_FAULT (R55): Receipt of a tick fault holds the node in HOLD_FAULT at the boundary. -/
  | tickFault (sym : TickSymbol)
  /-- JOIN_COMPLETE (R41): At the end time of the first TICK_FINAL after lock the joining node loads the step counter and becomes RUNNING. -/
  | joinComplete
  /-- GUARD_POINT (R49): At the guard point the node copies late units and becomes pending while any is late. -/
  | guardPoint
  /-- DECISION_POINT (R52): At E − L the master sends TICK_FINAL, grants a slip with TICK_EXTEND, or sends TICK_FAULT. -/
  | decisionPoint
  /-- TICK_END (R46): At the tick end the step counter advances, done state clears and a new tick and parameter set begin. -/
  | tickEnd
  /-- BOUNDARY_HOLD (R53): A node reaching E without a TICK_FINAL holds at the boundary and sets LATE_FINAL. -/
  | boundaryHold
  /-- QUIET_BAND_START (R63): The quiet band begins and background work takes priority. -/
  | quietBandStart
  /-- HLY_CTRL (R42): A write of HLY_CTRL enables Halyard or makes a member leave its domain. -/
  | hlyCtrl (agent : Agent) (value : Word)
  /-- HLY_PARAM (R44): A write checks the staged tick parameters and commits them for an effective step. -/
  | hlyParam (agent : Agent) (value : Word)
  /-- HLY_HOST_DONE (R48): A write of 1 signals host step-done. -/
  | hlyHostDone (agent : Agent) (value : Word)
  /-- HLY_TALQ_ARM1 (R60): A write commits the agent's TALQ entry and records ACCEPTED, FULL, PAST, INVALID or UNIT_ABSENT. -/
  | hlyTalqArm1 (agent : Agent) (queue : Nat) (value : Word)
  /-- HLY_TALQ_CANCEL (R62): A write removes unlaunched entries carrying the tag. -/
  | hlyTalqCancel (agent : Agent) (queue : Nat) (value : Word)
  /-- PROGRAM_START (R98): A TALQ entry launches a program on a core as a doorbell would. -/
  | programStart (die : Nat)
  /-- FID_TRANSFER (R214): A TALQ entry launches an armed Fid transfer on a core or refuses it. -/
  | fidTransfer (die : Nat)
  /-- FABRIC_PUT (R380): A TALQ entry reads a put descriptor and issues WR requests in ascending offset. -/
  | fabricPut (f : Nat)
  /-- REPLICA_REFRESH (R375): In the quiet band the home sends dirty or all lines of a window to its replicas. -/
  | replicaRefresh (f : Nat)
  /-- CHECKPOINT_CUT (R508): A TALQ entry reads and validates a cut descriptor and arms the cut of its step. -/
  | checkpointCut
  /-- RSE_SUBMIT (R282): A TALQ entry submits an RSE command or posts a refusal. -/
  | rseSubmit
  /-- HOST_EVENT (R273): A TALQ entry writes a TICK_EVENT or HOST_EVENT_INVALID entry to a host event queue. -/
  | hostEvent
  /-- FDIE_DONE (R379): An F-die signals step-done once past the guard point with all requests and refreshes complete. -/
  | fdieDone (f : Nat)
  /-- TICK_RD (R260): Hart reads a Halyard value selected by sel. -/
  | tickRd (hart : Nat) (word : BitVec 32)
  /-- TICK_WAIT (R261): Hart waits for a phase of a step. -/
  | tickWait (hart : Nat) (word : BitVec 32)
  /-- TICK_WAIT_END (R261): The awaited moment arrives or the node goes IDLE and TICK.WAIT writes its result. -/
  | tickWaitEnd (hart : Nat)
  /-- TICK_WAIT_INTERRUPT (R262): An interrupt taken during TICK.WAIT traps with the wait unretired. -/
  | tickWaitInterrupt (hart : Nat) (lvl : HartLevel) (cause : Nat)
  /-- TICK_DONE (R263): Hart drains its posted operations then signals host step-done. -/
  | tickDone (hart : Nat) (word : BitVec 32)
  /-- TICK_DONE_DRAINED (R263): The drain of TICK.DONE or FWAIT ends and the error count is written. -/
  | tickDoneDrained (hart : Nat)
  /-- FWAIT (R263): Hart drains its posted operations without signalling. -/
  | fwait (hart : Nat) (word : BitVec 32)
  /-- RSE_SUBMIT_INSN (R268): Hart translates and submits an RSE command descriptor and receives sequence and status. -/
  | rseSubmitInsn (hart : Nat) (word : BitVec 32) (xlat : HartXlat)
  /-- FACC_D (R265): Hart posts an FP64 accumulate through an aperture. -/
  | faccD (hart : Nat) (word : BitVec 32) (xlat : HartXlat)
  /-- FACC_S (R265): Hart posts an FP32 accumulate through an aperture. -/
  | faccS (hart : Nat) (word : BitVec 32) (xlat : HartXlat)
  /-- VDOT4_I8 (R270): Adds four INT8 products to each 32-bit lane, wrapping. -/
  | vdot4I8 (hart : Nat) (word : BitVec 32)
  /-- VDOT4_E4M3 (R270): Adds four E4M3 products to each FP32 lane with one rounding. -/
  | vdot4E4m3 (hart : Nat) (word : BitVec 32)
  /-- VDOT4_E5M2 (R270): Adds four E5M2 products to each FP32 lane with one rounding. -/
  | vdot4E5m2 (hart : Nat) (word : BitVec 32)
  /-- VDOT2_BF16 (R270): Adds two BF16 products to each FP32 lane with one rounding. -/
  | vdot2Bf16 (hart : Nat) (word : BitVec 32)
  /-- VDOT2_W_S (R270): Adds two FP32 products to each FP64 lane with one rounding. -/
  | vdot2WS (hart : Nat) (word : BitVec 32)
  /-- VFREDUSUM (R250): Unordered sum reduction by the fixed span tree. -/
  | vfredusum (hart : Nat) (word : BitVec 32)
  /-- VFWREDUSUM (R250): Widening unordered sum reduction by the fixed span tree. -/
  | vfwredusum (hart : Nat) (word : BitVec 32)
  /-- APERTURE_ACCESS (R252): A hart access in the aperture region goes to a remote node or faults APERTURE or SIZE. -/
  | apertureAccess (hart : Nat) (va : Word) (pa : Nat) (access : HartAccess)
  /-- HOST_FT_CACHE (R256): A write changes host-cacheable fast-tier regions, completing after write-back or agent drain. -/
  | hostFtCache (agent : Agent) (index : Nat) (value : Word)
  /-- HOST_HART_RELEASE (R275): A W1S write releases harts from reset hold. -/
  | hostHartRelease (agent : Agent) (index : Nat) (value : Word)
  /-- SETUP (R289): RSE checks a sparse pattern, orders it, analyses ranges and allocates a slot. -/
  | setup
  /-- UPDATE (R299): RSE checks and applies new values to a slot, marking range excess. -/
  | update
  /-- FACTOR (R294): RSE factorises a slot in FX128, with analysis, growth restarts, import or export. -/
  | factor
  /-- SOLVE (R302): RSE solves with the held factor for up to 64 right-hand sides. -/
  | solve
  /-- REFINE (R304): RSE runs iterative refinement against A. -/
  | refine
  /-- ITER (R305): RSE runs preconditioned CG or BiCGStab. -/
  | iter
  /-- RSE_RELEASE (R278): RSE frees a slot's granules and empties it. -/
  | rseRelease
  /-- RSE_LOST (R310): RSE taken out of service posts RSE_LOST and loses its slots. -/
  | rseLost
  /-- RSE_ZEROING_DONE (R311): Zeroing of the reserved region ends and submissions are taken again. -/
  | rseZeroingDone
  /-- MEMORY_READ (R320): A line read corrects, poisons or delivers data and counts errors. -/
  | memoryRead (line : Nat) (err : LaneErr)
  /-- MEMORY_WRITE (R321): A write replaces a whole line or is done as read-modify-write. -/
  | memoryWrite (addr : Nat) (data : List Byte) (err : LaneErr)
  /-- WC_AGE_EXPIRY (R331): An entry reaches AGE_US and is flushed. -/
  | wcAgeExpiry (line : Nat)
  /-- MEMC_WC_FLUSH (R331): A write of MEMC_WC_CTRL.FLUSH flushes every entry of every channel. -/
  | memcWcFlush (agent : Agent)
  /-- DRAM_REFRESH (R322): A refresh of DRAM rows falls due at the rate in force. -/
  | dramRefresh (unit : Nat)
  /-- SCRUB_READ (R336): A scrubber reads its next line and corrects or poisons it. -/
  | scrubRead (unit : Nat) (err : LaneErr)
  /-- SCRUB_PERIOD_END (R335): A pass not complete at its period end sets SCRUB_LATE. -/
  | scrubPeriodEnd (unit : Nat)
  /-- MEMORY_FAIL (R337): A stack or channel whose link fails or reaches 64 UEs per second is declared FAILED. -/
  | memoryFail (unit : Nat)
  /-- RD (R351): A home checks and serves a remote read. -/
  | rd (packet : Packet)
  /-- WR (R355): A home checks and applies or holds a remote write. -/
  | wr (packet : Packet)
  /-- ATOMIC (R350): A home applies an indivisible integer atomic and returns the old value. -/
  | atomic (packet : Packet)
  /-- ACC (R367): A home holds a tick-ordered accumulate or applies it on arrival. -/
  | acc (packet : Packet)
  /-- REFRESH (R376): A replica stages refresh lines or checks the end marker. -/
  | refresh (packet : Packet)
  /-- TFENCE (R520): A designated home counts a gather fence or answers DENIED. -/
  | tfence (packet : Packet)
  /-- CPL (R364): A requester receives a completion for a write-like request. -/
  | cpl (p : Packet)
  /-- RD_DATA (R364): A requester receives read data or a failing status. -/
  | rdData (p : Packet)
  /-- ATOMIC_DATA (R364): A requester receives an atomic's old value or a failing status. -/
  | atomicData (p : Packet)
  /-- RELEASE (R358): A home frees the replay-cache entries named in a RELEASE packet. -/
  | releaseCmd (packet : Packet)
  /-- REQUEST_RETRY (R361): A request without response is sent again at t0 + kT. -/
  | requestRetry (port : Nat) (tag : Nat)
  /-- REQUEST_FAILURE (R361): A request is declared TIMEOUT or AMBIGUOUS at the end of its retries. -/
  | requestFailure (port : Nat) (tag : Nat)
  /-- RELEASE_SEND (R359): The requester's F-die sends pending RELEASE words within 1 µs. -/
  | releaseSend (dst : Nat)
  /-- REPLAY_LEASE_EXPIRY (R365): A replay entry's lease ends and it is freed and journaled. -/
  | replayLeaseExpiry (src : Nat) (sport : Nat) (tag : Nat)
  /-- BACKOFF_EXPIRY (R382): A back-off hint expires and the agent may send to the hot line again. -/
  | backoffExpiry (agent : Nat) (dst : Nat) (line : Nat)
  /-- TO_APPLY_COMPLETE (R369): The last held operation of the ended step is applied and window accesses resume. -/
  | toApplyComplete
  /-- HWS_WIN_CFG (R373): A window validation is checked against limits and overlaps or ignored. -/
  | hwsWinCfg (agent : Agent) (win : Nat) (value : Word)
  /-- IDLE_FLIT (R396): Receipt of an IDLE flit takes its acknowledgement and credit fields. -/
  | idleFlit (port : Nat) (lane : Nat) (errs : Nat) (flit : Flit)
  /-- DATA_FLIT (R403): Receipt of a DATA flit accepts it in sequence or discards it and sends NAK. -/
  | dataFlit (port : Nat) (lane : Nat) (errs : Nat) (flit : Flit)
  /-- TICK_FLIT (R399): Receipt of a TICK flit delivers its Halyard symbol. -/
  | tickFlit (port : Nat) (lane : Nat) (errs : Nat) (flit : Flit)
  /-- NAK_FLIT (R403): Receipt of a NAK starts a replay, or takes the link down at the eighth. -/
  | nakFlit (port : Nat) (lane : Nat) (errs : Nat) (flit : Flit)
  /-- TRAIN_FLIT (R406): Receipt of a TRAIN flit during training, carrying lanes, CAPS or timestamps. -/
  | trainFlit (port : Nat) (lane : Nat) (errs : Nat) (flit : Flit) (body : TrainBody)
  /-- CAL_FLIT (R415): Receipt of a CAL flit takes its control field and discards the payload. -/
  | calFlit (port : Nat) (lane : Nat) (errs : Nat) (flit : Flit)
  /-- REMAP_FLIT (R409): Receipt of a REMAP flit schedules a spare or width change. -/
  | remapFlit (port : Nat) (lane : Nat) (errs : Nat) (flit : Flit) (logical : Nat) (spare : Option Nat) (period : Nat)
  /-- REMAP_TAKE_EFFECT (R409): At the named codeword period the lane map changes. -/
  | remapTakeEffect (port : Nat) (rx : Bool)
  /-- FLIT_TRANSMIT (R397): Each codeword period the transmitter sends w flits chosen by priority and credit. -/
  | flitTransmit (port : Nat)
  /-- NAK_RESEND (R403): Every 2 µs the receiver repeats a NAK until the expected sequence arrives. -/
  | nakResend (port : Nat)
  /-- REPLAY_TIMEOUT (R403): The oldest unacknowledged flit waits 4 µs and a replay starts. -/
  | replayTimeout (port : Nat)
  /-- TRAINING_STEP_DONE (R406): A training step completes and the port moves to the next. -/
  | trainingStepDone (port : Nat) (lasers : List Nat) (lanes : List (Nat×Nat))
  /-- TRAINING_STEP_TIMEOUT (R406): A training step overruns its limit and the port waits 10 ms. -/
  | trainingStepTimeout (port : Nat) (silent : Bool)
  /-- TRAINING_RETRY (R406): The 10 ms wait after a training failure ends and training restarts. -/
  | trainingRetry (port : Nat)
  /-- LANE_WINDOW_END (R409): A lane's 2^20-codeword window ends and a degraded lane is spared, narrowed or drops the link. -/
  | laneWindowEnd (port : Nat)
  /-- LANE_SIGNAL_LOSS (R409): A lane in use loses signal and is treated as degraded. -/
  | laneSignalLoss (port : Nat) (lanes : List Nat)
  /-- CAL_DUE (R414): A port's calibration burst falls due. -/
  | calDue (port : Nat)
  /-- CAL_BURST_END (R415): A calibration burst completes and resets the deferral count. -/
  | calBurstEnd (port : Nat)
  /-- OPTICAL_ENGINE_FAIL (R408): A port's optical engine fails in operation and is mapped out. -/
  | opticalEngineFail (port : Nat)
  /-- RETRAIN (R411): A write of OPT_Pp_CTRL.RETRAIN takes the link down and trains. -/
  | retrain (agent : Agent) (port : Nat)
  /-- MGMT_ONLY (R417): A write of OPT_Pp_CTRL.MGMT_ONLY changes management-only operation and retrains. -/
  | mgmtOnly (agent : Agent) (port : Nat) (on : Bool)
  /-- SBPOR (R447): 3.3 V enters range and standby power-on resets the whole package. -/
  | sbpor
  /-- VSB33_LOW (R580): VSB33 below 2.9 V stops the converters and resets every domain. -/
  | vsb33Low
  /-- PWROK (R452): PWR_OK low for 400 BCLK cycles resets the package. -/
  | pwrok (also : List Nat)
  /-- PWR_OK_RISE (R450): PWR_OK rises and the release sequence may begin after 100,000 REFCLK cycles. -/
  | pwrOkRise
  /-- VIN48_OUT_OF_RANGE (R580): VIN48 outside 38 V to 62 V stops the converters and resets as PWROK. -/
  | vin48OutOfRange
  /-- PIN (R452): RESET_N low for 400 BCLK cycles resets the package. -/
  | pin (also : List Nat)
  /-- RESET_N_RELEASE (R451): RESET_N is released and the straps are sampled. -/
  | resetNRelease (bootSrc : Nat) (clkMode : Nat) (sbAddr : Nat)
  /-- THERM_RESTART (R456): Every die has read below 95 °C for 1 s and the release sequence begins. -/
  | thermRestart
  /-- RELEASE_STEP (R461): A release step's gap elapses and its domains are released in order. -/
  | releaseStep
  /-- RELEASE_REQUEST (R461): Firmware requests the next release step, refused if out of order. -/
  | releaseRequest (step : Nat)
  /-- STEP_READY (R461): A release step meets its readiness condition. -/
  | stepReady (step : Nat) (found : Found)
  /-- STEP_TIMEOUT (R462): A step overruns its limit and the sequence holds. -/
  | stepTimeout (nvmOk : Bool)
  /-- CONFIGURATION_CHOICE (R434): ROM reads and checks both copies and chooses the configuration. -/
  | configurationChoice (nvmOk : Bool)
  /-- FIRMWARE_ENTRY (R463): ROM chooses and verifies firmware, counts the start and enters it. -/
  | firmwareEntry (nvmOk : Bool)
  /-- WATCHDOG_EXPIRY (R478): The confirmation window or kick period expires and the device resets under WDOG. -/
  | watchdogExpiry (also : List Nat)
  /-- WDOG_KICK (R478): A write of BWL_WDOG.KICK restarts the watchdog period. -/
  | wdogKick (agent : Agent) (value : Word)
  /-- HEALTH_CONFIRM (R464): A write of BWL_HEALTH_CONFIRM confirms the start, clears the count and may advance fuses. -/
  | healthConfirm (agent : Agent) (value : Word) (nvmOk : Bool)
  /-- RST_CTRL_RESET (R472): A keyed write of RST_CTRL.RESET resets under HOST. -/
  | rstCtrlReset (agent : Agent) (value : Word) (also : List Nat)
  /-- OTHER_SLOT_CHECK (R482): After confirmation firmware validates the other firmware slot. -/
  | otherSlotCheck
  /-- CFG_WRITE_DONE (R440): Erase, programme and read-back of a configuration copy end with DONE or a failure. -/
  | cfgWriteDone (nvmOk : Bool) (flaws : List (Nat × Byte))
  /-- FABRIC_CONFIG_REQUEST (R443): Every 5 s Bowline asks partners for a configuration image. -/
  | fabricConfigRequest (images : List (Nat×List Byte))
  /-- FABRIC_CONFIG_TIMEOUT (R445): No image in 60 s: Bowline falls back to the flash. -/
  | fabricConfigTimeout (nvmOk : Bool)
  /-- HELLO1 (R485): A peer's HELLO1 opens session set-up, answered by HELLO2 or CLOSE. -/
  | hello1 (port : Nat) (p : Packet)
  /-- HELLO3 (R486): The peer's static key and signature are verified and the session opens or is refused. -/
  | hello3 (port : Nat) (p : Packet)
  /-- DATA (R487): An authenticated Lanyard DATA packet is accepted, rate-limited and carries a command. -/
  | dataCmd (p : Packet)
  /-- CLOSE (R486): A received CLOSE is ignored. -/
  | closeCmd (p : Packet)
  /-- FRESET (R492): A FABRIC reset request is verified in standby hardware and resets or is rejected. -/
  | freset (p : Packet)
  /-- SESSION_TIMEOUT (R485): A session idle for 300 s or older than 24 h is closed. -/
  | sessionTimeout (session : Nat)
  /-- COMMAND_PROGRESS_TIMEOUT (R489): A command running for 1 ms is answered IN_PROGRESS. -/
  | commandProgressTimeout (via : Option Nat) (req : Nat)
  /-- GET_INFO (R490): Returns serial, capabilities, signature, status and identity key. -/
  | getInfo
  /-- REG_READ (R490): Reads control-space registers as the management context. -/
  | regRead (pcie : List Word)
  /-- REG_WRITE (R490): Writes one register as the management context. -/
  | regWrite (man : List Byte)
  /-- CLOSE_SESSION (R486): Closes the session after the response. -/
  | closeSession
  /-- SET_NODE (R490): Sets HWS_NODE with VALID. -/
  | setNode
  /-- ASSIGN (R491): Assigns the node to a partition, stopping and scrubbing cores and writing roots and owners. -/
  | assign
  /-- SET_EPOCH (R384): Writes a new epoch with the teardown effects of an HWS_PART change. -/
  | setEpoch
  /-- UNASSIGN (R491): Runs ASSIGN's sequence with every VALID cleared. -/
  | unassign
  /-- JOIN (R41): Writes HLY_DOMAIN and starts joining the tick domain. -/
  | join
  /-- LEAVE (R42): Leaves the domain, discarding TALQ entries. -/
  | leave
  /-- TICK_PARAMS (R44): Stages and commits tick parameters. -/
  | tickParams
  /-- RESUME (R56): Ends a TICK_FAULT hold at the master if not pending. -/
  | resume
  /-- ROUTE (R343): Writes route table entries. -/
  | route
  /-- SET_CAP (R19): Sets the package power cap. -/
  | setCap
  /-- JOURNAL (R365): Answers whether a tagged request was applied. -/
  | journal
  /-- TELEMETRY (R498): Replaces telemetry settings until the next start. -/
  | telemetry
  /-- LOG_READ (R495): Returns event-log entries from an ESEQ. -/
  | logRead
  /-- FATAL_READ (R496): Returns 128 bytes of a fatal record. -/
  | fatalRead
  /-- LOSS_READ (R496): Returns 192 bytes of the loss record. -/
  | lossRead
  /-- LOSS_CLEAR (R496): Removes loss entries for the next start. -/
  | lossClear (nvmOk : Bool)
  /-- CFG_BEGIN (R438): Starts receiving a configuration image into SRAM. -/
  | cfgBegin
  /-- CFG_DATA (R438): Delivers configuration image bytes. -/
  | cfgData
  /-- CFG_COMMIT (R438): Checks the received image and starts writing a copy or refuses. -/
  | cfgCommit
  /-- FW_BEGIN (R483): Erases the staging area and writes BUILDING. -/
  | fwBegin (nvmOk : Bool)
  /-- FW_DATA (R483): Programs firmware image bytes into staging. -/
  | fwData (nvmOk : Bool)
  /-- FW_COMMIT (R483): Checks the staged image and marks it PENDING or FAILED. -/
  | fwCommit (nvmOk : Bool)
  /-- FW_CANCEL (R483): Erases the staging header. -/
  | fwCancel (nvmOk : Bool)
  /-- RESET (R452): Resets the device under LANYARD after the response. -/
  | resetCmd
  /-- BELAY_EXIT (R468): Leaves Belay mode as its cause allows. -/
  | belayExit (nvmOk : Bool)
  /-- ATTEST (R490): Signs a challenge with the identity key. -/
  | attest
  /-- MAILBOX_GO (R493): A write of BWL_MBX_CTRL.GO executes the command in the mailbox. -/
  | mailboxGo (agent : Agent) (value : Word)
  /-- SMB_STATUS (R504): SMBus block read of the status and release of ALERT_N. -/
  | smbStatus
  /-- SMB_IDENTITY (R504): SMBus block read of identity and signature. -/
  | smbIdentity
  /-- SMB_LOG (R504): SMBus read of an event-log entry. -/
  | smbLog (pecOk : Bool) (data : List Byte)
  /-- SMB_FATAL (R504): SMBus read of fatal record bytes. -/
  | smbFatal (pecOk : Bool) (data : List Byte)
  /-- SMB_CFG_BEGIN (R504): SMBus start of a configuration image in Belay mode. -/
  | smbCfgBegin (pecOk : Bool) (data : List Byte)
  /-- SMB_CFG_DATA (R504): SMBus configuration image bytes. -/
  | smbCfgData (pecOk : Bool) (data : List Byte)
  /-- SMB_CFG_COMMIT (R504): SMBus commit of a configuration image. -/
  | smbCfgCommit (pecOk : Bool)
  /-- SMB_CFG_RESULT (R504): SMBus read of CFG_WRITE. -/
  | smbCfgResult
  /-- SMB_FW_BEGIN (R504): SMBus start of firmware staging in Belay mode. -/
  | smbFwBegin (pecOk : Bool) (data : List Byte) (nvmOk : Bool)
  /-- SMB_FW_DATA (R504): SMBus firmware image bytes. -/
  | smbFwData (pecOk : Bool) (data : List Byte) (nvmOk : Bool)
  /-- SMB_FW_COMMIT (R504): SMBus commit of staged firmware. -/
  | smbFwCommit (pecOk : Bool) (nvmOk : Bool)
  /-- SMB_FW_RESULT (R504): SMBus read of staging state. -/
  | smbFwResult
  /-- SMB_BELAY_EXIT (R505): SMBus Belay exit followed by a LANYARD reset. -/
  | smbBelayExit (pecOk : Bool) (nvmOk : Bool)
  /-- SMB_RESET (R504): SMBus reset under LANYARD. -/
  | smbReset (pecOk : Bool) (data : Byte)
  /-- SMB_ALERT_RESPONSE (R503): A read of the Alert Response Address releases ALERT_N. -/
  | smbAlertResponse
  /-- TELEMETRY_RECORD (R498): The sensor sequencer forms a telemetry record at RATE_HZ and sends or queues it. -/
  | telemetryRecord
  /-- SENSOR_SAMPLE (R500): Every 10 µs junction, stack and input sensors are read. -/
  | sensorSample (junction : List (List Int)) (stackT : List Int) (volt : Nat) (amp : Nat) (nvmOk : Bool)
  /-- GOVERNOR_COMPARE (R501): Every 100 µs the governor moves the clock level and thermal levels. -/
  | governorCompare
  /-- PROCHOT_IN (R503): The board holds PROCHOT_N low for 20 µs and every die runs at level 16 or higher. -/
  | prochotIn
  /-- CUT_DRAINED (R514): Outstanding requests finish, write-combining is flushed and shard writing begins. -/
  | cutDrained
  /-- SHARD_WRITTEN (R516): A shard's stores complete and its digest is recorded. -/
  | shardWritten (slot : Nat) (pcieOk : Bool)
  /-- NODE_MANIFEST_COMMIT (R518): The node manifest header is written and the gather record and TFENCE are sent. -/
  | nodeManifestCommit
  /-- PARTITION_MANIFEST_COMMIT (R521): With all fences counted and records OK the designated node commits the partition manifest. -/
  | partitionManifestCommit (slot0 : List Byte) (slot1 : List Byte)
  /-- CUT_TIMEOUT (R517): TIMEOUT_MS passes since the hold began and the node's part ends. -/
  | cutTimeout
  /-- GATHER_TIMEOUT (R522): Fences are missing TIMEOUT_MS + 100 ms after the hold and nothing is committed. -/
  | gatherTimeout
  /-- CUT_HOLD_END (R510): The master, past E + MIN_GUARD and not pending, sends TICK_FINAL ending the hold. -/
  | cutHoldEnd
  /-- CHILD_SILENCE (R511): During a cut hold a child silent for 500 µs is treated as not pending. -/
  | childSilence (child : Nat)
  /-- CKP_RESTORE (R524): A write starts a restore, checking state and the node manifest. -/
  | ckpRestore (agent : Agent) (value : Word) (man : List Byte)
  /-- RESTORE_COMPLETE (R526): Shards and held operations are restored or the restore ends on a digest failure. -/
  | restoreComplete (data : List (List Byte))
  /-- CKP_RELEASE (R527): A write of CKP_CTRL.RELEASE ends a restore hold with TICK_FINAL. -/
  | ckpRelease (agent : Agent)
  /-- FATAL_ERROR (R557): A fatal cause stops all dies, latches RAS_FATAL, writes the record and resets under FATAL. -/
  | fatalError (causes : List (Nat×Nat)) (recorded : Bool)
  /-- FATAL_RECORD_TIMEOUT (R557): The fatal record is not written in 50 ms and the reset proceeds without it. -/
  | fatalRecordTimeout
  /-- COOLING_CHECK (R563): The cooling margin holds below or above threshold for 60 s and COOLING is set or cleared. -/
  | coolingCheck (margin : Int)
  /-- DOMAIN_POWER_DOWN (R22): Bowline powers down the domain of an unused unit. -/
  | domainPowerDown (domain : Nat)
  /-- DOMAIN_POWER_UP (R22): A powered-down domain comes back up in its reset state. -/
  | domainPowerUp (domain : Nat)
  /-- PCIE_CONFIG_ACCESS (R593): A hart access to the configuration window performs an ECAM access. -/
  | pcieConfigAccess (hart : Nat) (va : Word) (off : Nat) (access : HartAccess) (cpl : PcieCpl) (data : Word)
  /-- PCIE_MEMORY_ACCESS (R593): A hart access to the memory window becomes one PCIe memory request. -/
  | pcieMemoryAccess (hart : Nat) (va : Word) (off : Nat) (access : HartAccess) (cpl : PcieCpl) (data : Word)
  /-- PCIE_DMA_READ (R554): A device reads memory, with poisoned lines answered EP. -/
  | pcieDmaRead (addr : Nat) (n : Nat)
  /-- PCIE_DMA_WRITE (R554): A device writes memory, poisoning lines when EP is set. -/
  | pcieDmaWrite (addr : Nat) (data : List Byte) (ep : Bool)
  /-- EXTEST (R585): TAP EXTEST instruction, accepted only while RESET_N is low. -/
  | extest
  /-- SAMPLE_PRELOAD (R583): TAP SAMPLE/PRELOAD instruction. -/
  | samplePreload
  /-- IDCODE (R584): TAP IDCODE instruction returning the IDCODE. -/
  | idcode
  /-- HIGHZ (R585): TAP HIGHZ instruction, accepted only while RESET_N is low. -/
  | highz
  /-- CLAMP (R585): TAP CLAMP instruction, accepted only while RESET_N is low. -/
  | clamp
  /-- BYPASS (R583): TAP BYPASS instruction. -/
  | bypass
  /-- REGISTER_WRITE (R7): A write to a register without a row of its own takes effect by its access codes and write rights. -/
  | registerWrite (agent : Agent) (addr : Nat) (value : Word) (man : List Byte) (nvmOk : Bool)
  /-- LASER_INPUT_CHANGE (R391): The measured power of a laser input at a wavelength crosses 13.0 dBm or 15.0 dBm, setting LASER_LOW or making the wavelength usable or unusable. -/
  | laserInputChange (port : Nat) (lasers : List Nat)
  /-- REPLICA_APPLY_COMPLETE (R376): A replica finishes writing a staged refresh set into its copy after the tick end, clears PENDING_APPLY and lets waiting window accesses proceed. -/
  | replicaApplyComplete (win : Nat)
  /-- WC_FLUSH_COMPLETE (R331): The last write-back of a flush requested through MEMC_WC_CTRL.FLUSH completes and FLUSHING reads 0. -/
  | wcFlushComplete
  /-- PROCHOT_N_RELEASE (R503): The board releases PROCHOT_N and the dies leave the forced level 16 floor. -/
  | prochotNRelease
  /-- VIN48_RECOVERED (R580): VIN48 has stayed from 40 V to 60 V for 100 ms after an input fault, so the package stops treating PWR_OK as low and applies the release rule. -/
  | vin48Recovered
  /-- PE_PERST_DEASSERT (R582): PE_PERST_N goes high 100 ms after the release of domain 135. -/
  | pePerstDeassert
  deriving DecidableEq, Repr

end Sys2Proof
end

