-- ==== Sys2Proof/Decode.lean ====
section
/-! DEFINITION. Decoding by the bits of the table of operations. The table gives no row any bits, so that no word spells a
command. The instruction words of the tensor cores are read where they are issued (Machine/Seq.lean). -/

namespace Sys2Proof

/-- The command that a word spells by the table's bits: no row has bits. -/
def decodeTableWord (_nbits _w : Nat) : Option Instr := none

end Sys2Proof
end

