-- ==== Sys2Proof/Machine/Bits.lean ====
section
/-! DEFINITION. Bit fields, sign extension and byte order (R5, R6). -/

namespace Sys2Proof.Machine

/-- Bits [hi:lo] of a register (R5). -/
structure Field where
  hi : Nat
  lo : Nat
  deriving DecidableEq, Repr

/-- Bits [hi:lo] of a natural number, as an unsigned integer (the manual's `bits(x, msb, lsb)`). -/
def bits (x hi lo : Nat) : Nat := x / 2 ^ lo % 2 ^ (hi + 1 - lo)

/-- Bit `n` of a natural number. -/
def bit (x n : Nat) : Bool := x / 2 ^ n % 2 == 1

/-- `a` less `base`: an offset into a window. -/
def past (base a : Nat) : Nat := if base ≤ a then a - base else 0

/-- The value of a field. -/
def getF (v : Word) (f : Field) : Nat := bits v.toNat f.hi f.lo

/-- A register value with one field replaced; a value too wide for the field loses its high bits. -/
def setF (v : Word) (f : Field) (x : Nat) : Word :=
  let n := 2 ^ (f.hi + 1 - f.lo)
  BitVec.ofNat 64 (v.toNat - 2 ^ f.lo * (v.toNat / 2 ^ f.lo % n) + 2 ^ f.lo * (x % n))

/-- A register value with the fields of a list set, from 0. -/
def packF (l : List (Field × Nat)) : Word := l.foldl (fun v e => setF v e.1 e.2) 0

/-- The signed value of the low `n` bits of `x`. -/
def sext (n x : Nat) : Int :=
  let y := x % 2 ^ n
  if 2 * y < 2 ^ n then (y : Int) else (y : Int) - (2 ^ n : Nat)

/-- The `n`-bit two's complement of an integer. -/
def unsig (n : Nat) (x : Int) : Nat := (x % (2 ^ n : Nat)).toNat

/-- The word of a 64-bit two's-complement value. -/
def wordOfInt (x : Int) : Word := BitVec.ofInt 64 x

/-- The number held by bytes in little-endian order (R6). -/
def leNat : List Byte → Nat
  | [] => 0
  | b :: bs => b.toNat + 256 * leNat bs

/-- The `n` bytes of a number, lowest first (R6). -/
def natLE : Nat → Nat → List Byte
  | 0, _ => []
  | n + 1, x => BitVec.ofNat 8 x :: natLE n (x / 256)

/-- The 64-bit words of a run of bytes, lowest address first; a short last word is filled with zeros. -/
def bytesToWords (fuel : Nat) (l : List Byte) : List Word :=
  match fuel with
  | 0 => []
  | k + 1 => if l.isEmpty then [] else BitVec.ofNat 64 (leNat (l.take 8)) :: bytesToWords k (l.drop 8)

/-- The bytes of words, lowest address first. -/
def wordsToBytes (l : List Word) : List Byte := l.flatMap fun w => natLE 8 w.toNat

/-- Word `i` of a list of words; 0 beyond its end. -/
def wordAt (l : List Word) (i : Nat) : Word := l.getD i 0

/-- Step `a` is later than step `b`, by serial comparison on 48 bits (R46). -/
def laterStep (a b : Nat) : Bool :=
  let d := (a + 2 ^ 48 - b % 2 ^ 48) % 2 ^ 48
  decide (1 ≤ d) && decide (d ≤ 2 ^ 47 - 1)

/-- The next step number (R46). -/
def nextStep (a : Nat) : Nat := (a + 1) % 2 ^ 48

/-- Serial comparison on 32 bits: `a` is newer than `b` (R434). -/
def newer32 (a b : Nat) : Bool :=
  let d := (a + 2 ^ 32 - b % 2 ^ 32) % 2 ^ 32
  decide (1 ≤ d) && decide (d ≤ 2 ^ 31 - 1)

end Sys2Proof.Machine
end

