-- ==== Sys2Proof/Machine/RegMap.lean ====
section
/-! DEFINITION. The control-space map: the address of every register (R588, R592, R594 and the register-block tables
HLY-8, TCR-14, TCR-15, MME-12, VEC-12, FID-11, HST-10, RSE-8, MEM-4, MEM-5, HWS-10, OPT-9, CFG-7, RST-10, BWL-12,
CKP-9, RAS-8, CSM-3), the bit range of every named field, and for each register the bits of each access code of
Table SCO-4 with its reset value (0 where the entry is strap, fuse or config: those are loaded later, R12). -/

namespace Sys2Proof.Machine

/-! Fields: `Fld.<REGISTER>_<FIELD>` is bits [hi:lo] of the register (R5). -/
namespace Fld
def HLY_CTRL_LOCAL : Field := ⟨1, 1⟩
def HLY_CTRL_ENABLE : Field := ⟨0, 0⟩
def HLY_STATUS_ACTIVE_GEN : Field := ⟨31, 24⟩
def HLY_STATUS_PROTO_MAJOR : Field := ⟨23, 20⟩
def HLY_STATUS_PROTO_MINOR : Field := ⟨19, 16⟩
def HLY_STATUS_PARAM_ERR : Field := ⟨15, 13⟩
def HLY_STATUS_PARAM_PENDING : Field := ⟨12, 12⟩
def HLY_STATUS_GUARD_SHORT : Field := ⟨11, 11⟩
def HLY_STATUS_CLK_SRC : Field := ⟨10, 9⟩
def HLY_STATUS_AGG_PENDING : Field := ⟨8, 8⟩
def HLY_STATUS_PENDING : Field := ⟨7, 7⟩
def HLY_STATUS_LOCKED : Field := ⟨6, 6⟩
def HLY_STATUS_ROLE : Field := ⟨5, 4⟩
def HLY_STATUS_STATE : Field := ⟨2, 0⟩
def HLY_TIMEBASE_VALUE : Field := ⟨63, 0⟩
def HLY_TICK_START_VALUE : Field := ⟨63, 0⟩
def HLY_TICK_END_VALUE : Field := ⟨63, 0⟩
def HLY_STEP_STEP : Field := ⟨47, 0⟩
def HLY_DOMAIN_PARENT : Field := ⟨63, 48⟩
def HLY_DOMAIN_ALT_PARENT : Field := ⟨47, 32⟩
def HLY_DOMAIN_DOMAIN : Field := ⟨27, 16⟩
def HLY_DOMAIN_ROLE : Field := ⟨9, 8⟩
def HLY_DOMAIN_VALID : Field := ⟨7, 7⟩
def HLY_TREE_LEVEL : Field := ⟨63, 62⟩
def HLY_TREE_CHILDREN : Field := ⟨61, 55⟩
def HLY_TREE_MIN_GUARD : Field := ⟨51, 32⟩
def HLY_TREE_ANNOUNCE_LEAD : Field := ⟨19, 0⟩
def HLY_PERIOD_PERIOD : Field := ⟨31, 0⟩
def HLY_MARK12_MARK2 : Field := ⟨63, 32⟩
def HLY_MARK12_MARK1 : Field := ⟨31, 0⟩
def HLY_MARK3_EN : Field := ⟨34, 32⟩
def HLY_MARK3_MARK3 : Field := ⟨31, 0⟩
def HLY_GUARD_QUIET_QUIET : Field := ⟨63, 32⟩
def HLY_GUARD_QUIET_GUARD : Field := ⟨31, 0⟩
def HLY_SLIP_CFG_QUANTUM : Field := ⟨27, 8⟩
def HLY_SLIP_CFG_MAX_SLIPS : Field := ⟨7, 0⟩
def HLY_PARAM_GENERATION : Field := ⟨55, 48⟩
def HLY_PARAM_EFFECTIVE_STEP : Field := ⟨47, 0⟩
def HLY_SLIPS_FORCED : Field := ⟨16, 16⟩
def HLY_SLIPS_LAST : Field := ⟨15, 8⟩
def HLY_SLIPS_CURRENT : Field := ⟨7, 0⟩
def HLY_OFFSET_THETA : Field := ⟨63, 0⟩
def HLY_DONE_MASK_C_MASK : Field := ⟨63, 0⟩
def HLY_DONE_C_DONE : Field := ⟨63, 0⟩
def HLY_LATE_C_LATE : Field := ⟨63, 0⟩
def HLY_DONE_MASK_U_FDIE1 : Field := ⟨4, 4⟩
def HLY_DONE_MASK_U_FDIE0 : Field := ⟨3, 3⟩
def HLY_DONE_MASK_U_CKP : Field := ⟨2, 2⟩
def HLY_DONE_MASK_U_RSE : Field := ⟨1, 1⟩
def HLY_DONE_MASK_U_HOST : Field := ⟨0, 0⟩
def HLY_DONE_U_FDIE1 : Field := ⟨4, 4⟩
def HLY_DONE_U_FDIE0 : Field := ⟨3, 3⟩
def HLY_DONE_U_CKP : Field := ⟨2, 2⟩
def HLY_DONE_U_RSE : Field := ⟨1, 1⟩
def HLY_DONE_U_HOST : Field := ⟨0, 0⟩
def HLY_LATE_U_FDIE1 : Field := ⟨4, 4⟩
def HLY_LATE_U_FDIE0 : Field := ⟨3, 3⟩
def HLY_LATE_U_CKP : Field := ⟨2, 2⟩
def HLY_LATE_U_RSE : Field := ⟨1, 1⟩
def HLY_LATE_U_HOST : Field := ⟨0, 0⟩
def HLY_HOST_DONE_DONE : Field := ⟨0, 0⟩
def HLY_EVENT_SYM_UNKNOWN : Field := ⟨9, 9⟩
def HLY_EVENT_FORCED_SLIP : Field := ⟨8, 8⟩
def HLY_EVENT_TB_UNLOCKED : Field := ⟨7, 7⟩
def HLY_EVENT_LATE_FINAL : Field := ⟨6, 6⟩
def HLY_EVENT_MASTER_TAKEOVER : Field := ⟨5, 5⟩
def HLY_EVENT_PARENT_SWITCH : Field := ⟨4, 4⟩
def HLY_EVENT_PARAM_MISMATCH : Field := ⟨3, 3⟩
def HLY_EVENT_TALQ_FULL : Field := ⟨2, 2⟩
def HLY_EVENT_TALQ_PAST : Field := ⟨1, 1⟩
def HLY_EVENT_TICK_FAULT : Field := ⟨0, 0⟩
def HLY_TALQ_ARM0_WORD0 : Field := ⟨63, 0⟩
def HLY_TALQ_ARM1_WORD1 : Field := ⟨63, 0⟩
def HLY_TALQ_STATUS_CANCEL_COUNT : Field := ⟨56, 48⟩
def HLY_TALQ_STATUS_OCCUPANCY : Field := ⟨40, 32⟩
def HLY_TALQ_STATUS_LAST_TAG : Field := ⟨31, 16⟩
def HLY_TALQ_STATUS_LAST_RESULT : Field := ⟨2, 0⟩
def HLY_TALQ_CANCEL_TAG : Field := ⟨15, 0⟩
def HLY_TALQ_LAUNCHED_COUNT : Field := ⟨63, 0⟩
def TC_CTRL_CLEAR_FAULT : Field := ⟨1, 1⟩
def TC_CTRL_STOP : Field := ⟨0, 0⟩
def TC_STATUS_WAIT_KIND : Field := ⟨19, 16⟩
def TC_STATUS_LOOP_DEPTH : Field := ⟨11, 9⟩
def TC_STATUS_DONE_THIS_STEP : Field := ⟨8, 8⟩
def TC_STATUS_STATE : Field := ⟨2, 0⟩
def TC_CFG_FAULT_DONE : Field := ⟨15, 15⟩
def TC_CFG_EVQ : Field := ⟨2, 0⟩
def TC_CTX_VALID : Field := ⟨63, 63⟩
def TC_CTX_PARTITION : Field := ⟨11, 0⟩
def TC_PTBASE_ROOT : Field := ⟨47, 12⟩
def TC_DOORBELL_DESC : Field := ⟨47, 0⟩
def TC_LAUNCH_STATUS_PENDING : Field := ⟨3, 3⟩
def TC_LAUNCH_STATUS_RESULT : Field := ⟨2, 0⟩
def TC_PC_PC : Field := ⟨17, 0⟩
def TC_FAULT_CODE : Field := ⟨63, 56⟩
def TC_FAULT_IMPRECISE : Field := ⟨55, 55⟩
def TC_FAULT_SOURCE : Field := ⟨54, 52⟩
def TC_FAULT_DETAIL : Field := ⟨39, 32⟩
def TC_FAULT_PC : Field := ⟨17, 0⟩
def TC_FAULT_INSN_WORD : Field := ⟨63, 0⟩
def TC_FAULT_ADDR_ADDR : Field := ⟨63, 0⟩
def TC_EVENT_EVPOST_DROP : Field := ⟨3, 3⟩
def TC_EVENT_TWAIT_LATE : Field := ⟨2, 2⟩
def TC_EVENT_LAUNCH_REFUSED : Field := ⟨1, 1⟩
def TC_EVENT_FAULT : Field := ⟨0, 0⟩
def TC_MAP_LCORE : Field := ⟨9, 0⟩
def TC_SREG_VALUE : Field := ⟨63, 0⟩
def TC_STRAND_MAP0_L0_to_L11 : Field := ⟨59, 0⟩
def TC_STRAND_MAP1_L12_to_L19 : Field := ⟨39, 0⟩
def TC_SPARE_SPARE_USED : Field := ⟨15, 15⟩
def TC_SPARE_SPARE_PHYS : Field := ⟨12, 8⟩
def TC_SPARE_SPARE_FOR : Field := ⟨4, 0⟩
def TC_DIE_EVENT_EVQ_DROP : Field := ⟨1, 1⟩
def TC_DIE_EVENT_SEM_OVF : Field := ⟨0, 0⟩
def TC_CNT_SEM_OVF_COUNT : Field := ⟨31, 0⟩
def TC_CNT_EVQ_DROP_COUNT : Field := ⟨31, 0⟩
def TC_EVQ_PTBASE_ROOT : Field := ⟨47, 12⟩
def TC_EVQ_BASE_BASE : Field := ⟨47, 5⟩
def TC_EVQ_CTRL_VECTOR : Field := ⟨31, 16⟩
def TC_EVQ_CTRL_SIZE_LOG2 : Field := ⟨5, 1⟩
def TC_EVQ_CTRL_ENABLE : Field := ⟨0, 0⟩
def TC_EVQ_HEAD_HEAD : Field := ⟨15, 0⟩
def TC_EVQ_TAIL_TAIL : Field := ⟨15, 0⟩
def TC_EVQ_DROPPED_COUNT : Field := ⟨31, 0⟩
def TC_EVQ_OWNER_VALID : Field := ⟨12, 12⟩
def TC_EVQ_OWNER_PARTITION : Field := ⟨11, 0⟩
def TC_SEM_VALUE_VALUE : Field := ⟨31, 0⟩
def TC_SEM_OWNER_VALID : Field := ⟨12, 12⟩
def TC_SEM_OWNER_PARTITION : Field := ⟨11, 0⟩
def ME_STATUS_QUEUE : Field := ⟨7, 4⟩
def ME_STATUS_BUSY : Field := ⟨0, 0⟩
def ME_FLAGS_NV : Field := ⟨3, 3⟩
def ME_FLAGS_OF : Field := ⟨2, 2⟩
def ME_FLAGS_UF : Field := ⟨1, 1⟩
def ME_FLAGS_NX : Field := ⟨0, 0⟩
def ME_EXC_KBLOCK : Field := ⟨63, 32⟩
def ME_EXC_M : Field := ⟨31, 16⟩
def ME_EXC_N : Field := ⟨15, 0⟩
def ME_EXC_INFO_VALID : Field := ⟨63, 63⟩
def ME_EXC_INFO_KIND : Field := ⟨2, 0⟩
def ME_CTRL_CLEAR_HIST : Field := ⟨2, 2⟩
def ME_CTRL_CLEAR_EXC : Field := ⟨1, 1⟩
def ME_CTRL_CLEAR_FLAGS : Field := ⟨0, 0⟩
def ME_CNT_INSN_COUNT : Field := ⟨63, 0⟩
def ME_CNT_BUSY_COUNT : Field := ⟨63, 0⟩
def ME_CNT_NV_COUNT : Field := ⟨31, 0⟩
def ME_HIST_WORD_HI : Field := ⟨63, 32⟩
def ME_HIST_WORD_LO : Field := ⟨31, 0⟩
def VE_STATUS_QUEUE : Field := ⟨8, 4⟩
def VE_STATUS_BUSY : Field := ⟨0, 0⟩
def VE_FLAGS_NV : Field := ⟨3, 3⟩
def VE_FLAGS_OF : Field := ⟨2, 2⟩
def VE_FLAGS_UF : Field := ⟨1, 1⟩
def VE_FLAGS_NX : Field := ⟨0, 0⟩
def VE_EXC_SEQ : Field := ⟨63, 32⟩
def VE_EXC_PC : Field := ⟨31, 14⟩
def VE_EXC_ROW : Field := ⟨13, 9⟩
def VE_EXC_COL : Field := ⟨8, 0⟩
def VE_EXC_INFO_VALID : Field := ⟨63, 63⟩
def VE_EXC_INFO_KIND : Field := ⟨2, 0⟩
def VE_CTRL_CLEAR_HIST : Field := ⟨2, 2⟩
def VE_CTRL_CLEAR_EXC : Field := ⟨1, 1⟩
def VE_CTRL_CLEAR_FLAGS : Field := ⟨0, 0⟩
def VE_SEQ_COUNT : Field := ⟨31, 0⟩
def VE_CNT_INSN_COUNT : Field := ⟨63, 0⟩
def VE_CNT_BUSY_COUNT : Field := ⟨63, 0⟩
def VE_CNT_NV_COUNT : Field := ⟨31, 0⟩
def VE_HIST_WORD_HI : Field := ⟨63, 32⟩
def VE_HIST_WORD_LO : Field := ⟨31, 0⟩
def FID_STATUS_ARMED : Field := ⟨13, 9⟩
def FID_STATUS_QUEUE : Field := ⟨8, 4⟩
def FID_STATUS_REMOTE_WAIT : Field := ⟨1, 1⟩
def FID_STATUS_BUSY : Field := ⟨0, 0⟩
def FID_FLAGS_NV : Field := ⟨3, 3⟩
def FID_FLAGS_OF : Field := ⟨2, 2⟩
def FID_FLAGS_UF : Field := ⟨1, 1⟩
def FID_FLAGS_NX : Field := ⟨0, 0⟩
def FID_EXC_ELEM : Field := ⟨63, 0⟩
def FID_EXC_INFO_VALID : Field := ⟨63, 63⟩
def FID_EXC_INFO_SEQ : Field := ⟨62, 32⟩
def FID_EXC_INFO_PC : Field := ⟨31, 14⟩
def FID_EXC_INFO_KIND : Field := ⟨2, 0⟩
def FID_SEQ_COUNT : Field := ⟨31, 0⟩
def FID_CTRL_CLEAR_HIST : Field := ⟨2, 2⟩
def FID_CTRL_CLEAR_EXC : Field := ⟨1, 1⟩
def FID_CTRL_CLEAR_FLAGS : Field := ⟨0, 0⟩
def FID_EVENT_ARMED_REFUSED : Field := ⟨0, 0⟩
def FID_FAULT_DA_ADDR : Field := ⟨63, 0⟩
def FID_FAULT_INFO_REASON : Field := ⟨63, 56⟩
def FID_FAULT_INFO_LEVEL : Field := ⟨55, 53⟩
def FID_FAULT_INFO_SIDE : Field := ⟨52, 50⟩
def FID_FAULT_INFO_WRITE : Field := ⟨49, 49⟩
def FID_FAULT_INFO_ARMED : Field := ⟨48, 48⟩
def FID_FAULT_ELEM_L : Field := ⟨63, 0⟩
def FID_FAULT_DESC_DESC : Field := ⟨47, 0⟩
def FID_HIST_WORD_HI : Field := ⟨63, 32⟩
def FID_HIST_WORD_LO : Field := ⟨31, 0⟩
def mxfault_REASON : Field := ⟨63, 56⟩
def mxfault_TAG : Field := ⟨47, 28⟩
def mxfault_PORT : Field := ⟨27, 25⟩
def sxfault_REASON : Field := ⟨63, 56⟩
def sxfault_TAG : Field := ⟨47, 28⟩
def sxfault_PORT : Field := ⟨27, 25⟩
def vsxfault_REASON : Field := ⟨63, 56⟩
def vsxfault_TAG : Field := ⟨47, 28⟩
def vsxfault_PORT : Field := ⟨27, 25⟩
def HOST_ID_VLEN_BULK : Field := ⟨31, 16⟩
def HOST_ID_SERVICE : Field := ⟨15, 8⟩
def HOST_ID_BULK : Field := ⟨7, 0⟩
def HOST_XCTRL_RSE_U : Field := ⟨2, 2⟩
def HOST_XCTRL_FACC_U : Field := ⟨1, 1⟩
def HOST_XCTRL_TICK_U : Field := ⟨0, 0⟩
def HOST_PARTITION_VALID : Field := ⟨63, 63⟩
def HOST_PARTITION_PARTITION : Field := ⟨11, 0⟩
def HOST_MGMT_EN : Field := ⟨3, 0⟩
def HOST_HART_RELEASE0_HART : Field := ⟨63, 0⟩
def HOST_HART_RELEASE1_HART : Field := ⟨3, 0⟩
def HOST_EVENT_EVDESC_INVALID : Field := ⟨3, 3⟩
def HOST_EVENT_MSG_DROP : Field := ⟨2, 2⟩
def HOST_EVENT_EVQ_DROP : Field := ⟨1, 1⟩
def HOST_EVENT_POSTED_FAIL : Field := ⟨0, 0⟩
def HOST_POSTED_FAIL_VALID : Field := ⟨63, 63⟩
def HOST_POSTED_FAIL_HART : Field := ⟨62, 56⟩
def HOST_POSTED_FAIL_PA : Field := ⟨55, 0⟩
def HOST_POSTED_STATUS_STATUS : Field := ⟨7, 0⟩
def HOST_FT_CACHE_REGION : Field := ⟨63, 0⟩
def HOST_AP_VALID : Field := ⟨63, 63⟩
def HOST_AP_RTC : Field := ⟨62, 61⟩
def HOST_AP_NODE : Field := ⟨15, 0⟩
def HOST_EVQ_BASE_BASE : Field := ⟨47, 5⟩
def HOST_EVQ_CTRL_VECTOR : Field := ⟨31, 16⟩
def HOST_EVQ_CTRL_SIZE_LOG2 : Field := ⟨5, 1⟩
def HOST_EVQ_CTRL_ENABLE : Field := ⟨0, 0⟩
def HOST_EVQ_HEAD_HEAD : Field := ⟨15, 0⟩
def HOST_EVQ_TAIL_TAIL : Field := ⟨15, 0⟩
def HOST_EVQ_DROPPED_COUNT : Field := ⟨31, 0⟩
def RSE_ID_QUEUE : Field := ⟨47, 40⟩
def RSE_ID_SLOTS : Field := ⟨39, 32⟩
def RSE_ID_SCACHE_MIB : Field := ⟨31, 16⟩
def RSE_ID_DIVSQRT : Field := ⟨15, 8⟩
def RSE_ID_LANES : Field := ⟨7, 0⟩
def RSE_CTRL_EVQ_EN : Field := ⟨4, 4⟩
def RSE_CTRL_EVQ : Field := ⟨3, 0⟩
def RSE_STATUS_RUN_SEQ : Field := ⟨63, 32⟩
def RSE_STATUS_OCCUPANCY : Field := ⟨22, 16⟩
def RSE_STATUS_ZEROING : Field := ⟨1, 1⟩
def RSE_STATUS_BUSY : Field := ⟨0, 0⟩
def RSE_SEQ_NEXT : Field := ⟨63, 32⟩
def RSE_SEQ_LAST_DONE : Field := ⟨31, 0⟩
def RSE_PTBASE_ROOT : Field := ⟨47, 12⟩
def RSE_REGION_BASE : Field := ⟨47, 30⟩
def RSE_REGION_SIZE : Field := ⟨11, 0⟩
def RSE_EVENT_MISMATCH : Field := ⟨5, 5⟩
def RSE_EVENT_WARM_REJECT : Field := ⟨4, 4⟩
def RSE_EVENT_GROWTH : Field := ⟨3, 3⟩
def RSE_EVENT_RANGE_EXCEEDED : Field := ⟨2, 2⟩
def RSE_EVENT_CPL_FAULT : Field := ⟨1, 1⟩
def RSE_EVENT_ARMED_REFUSED : Field := ⟨0, 0⟩
def RSE_SLOT_STATE_STATE : Field := ⟨63, 62⟩
def RSE_SLOT_STATE_RANGE_PENDING : Field := ⟨61, 61⟩
def RSE_SLOT_STATE_KIND : Field := ⟨60, 60⟩
def RSE_SLOT_STATE_ORDER : Field := ⟨59, 59⟩
def RSE_SLOT_STATE_N : Field := ⟨28, 0⟩
def RSE_SLOT_SIZE_GRANULES : Field := ⟨63, 33⟩
def RSE_SLOT_SIZE_NNZF : Field := ⟨32, 0⟩
def RSE_SLOT_INFO_NNZ : Field := ⟨63, 31⟩
def RSE_SLOT_INFO_SUPERNODES : Field := ⟨28, 0⟩
def RSE_SLOT_DIGEST_DIGEST : Field := ⟨63, 0⟩
def MEMF_MAP_SIZE_GIB : Field := ⟨47, 32⟩
def MEMF_MAP_W : Field := ⟨19, 16⟩
def MEMF_MAP_WORKING : Field := ⟨11, 0⟩
def MEMC_MAP_SPEED : Field := ⟨63, 50⟩
def MEMC_MAP_SIZE_GIB : Field := ⟨47, 32⟩
def MEMC_MAP_DPC : Field := ⟨29, 28⟩
def MEMC_MAP_TYPE : Field := ⟨25, 24⟩
def MEMC_MAP_W : Field := ⟨23, 20⟩
def MEMC_MAP_WORKING : Field := ⟨11, 0⟩
def MEMF_SCRUB_ENABLE : Field := ⟨31, 31⟩
def MEMF_SCRUB_PERIOD_H : Field := ⟨7, 0⟩
def MEMC_SCRUB_ENABLE : Field := ⟨31, 31⟩
def MEMC_SCRUB_PERIOD_H : Field := ⟨7, 0⟩
def MEMC_WC_CTRL_AGE_US : Field := ⟨17, 8⟩
def MEMC_WC_CTRL_FLUSHING : Field := ⟨1, 1⟩
def MEMC_WC_CTRL_FLUSH : Field := ⟨0, 0⟩
def MEMF_ST_STATUS_STATE : Field := ⟨15, 12⟩
def MEMF_ST_STATUS_REFRESH : Field := ⟨0, 0⟩
def MEMF_ST_LANES_SPARED : Field := ⟨31, 0⟩
def MEMF_ST_TEMP_TEMP : Field := ⟨15, 0⟩
def MEMC_CH_STATUS_STATE : Field := ⟨15, 12⟩
def MEMC_CH_STATUS_WC_OCC : Field := ⟨8, 0⟩
def MEMC_CH_DIMM_SIZE_GIB : Field := ⟨47, 32⟩
def MEMC_CH_DIMM_RANKS : Field := ⟨27, 24⟩
def MEMC_CH_DIMM_WIDTH : Field := ⟨23, 20⟩
def MEMC_CH_DIMM_TYPE : Field := ⟨17, 16⟩
def MEMC_CH_DIMM_MAX_MTS : Field := ⟨13, 0⟩
def MEMF_ST_EVENT_WC_POISON : Field := ⟨5, 5⟩
def MEMF_ST_EVENT_FAIL : Field := ⟨4, 4⟩
def MEMF_ST_EVENT_SCRUB_LATE : Field := ⟨3, 3⟩
def MEMF_ST_EVENT_SCRUB_UE : Field := ⟨2, 2⟩
def MEMF_ST_EVENT_UE : Field := ⟨1, 1⟩
def MEMF_ST_EVENT_CE : Field := ⟨0, 0⟩
def MEMC_CH_EVENT_WC_POISON : Field := ⟨5, 5⟩
def MEMC_CH_EVENT_FAIL : Field := ⟨4, 4⟩
def MEMC_CH_EVENT_SCRUB_LATE : Field := ⟨3, 3⟩
def MEMC_CH_EVENT_SCRUB_UE : Field := ⟨2, 2⟩
def MEMC_CH_EVENT_UE : Field := ⟨1, 1⟩
def MEMC_CH_EVENT_CE : Field := ⟨0, 0⟩
def MEM_UE_ADDR_VALID : Field := ⟨63, 63⟩
def MEM_UE_ADDR_SYMBOL : Field := ⟨62, 56⟩
def MEM_UE_ADDR_OFFSET : Field := ⟨47, 0⟩
def MEM_CE_ADDR_VALID : Field := ⟨63, 63⟩
def MEM_CE_ADDR_SYMBOL : Field := ⟨62, 56⟩
def MEM_CE_ADDR_OFFSET : Field := ⟨47, 0⟩
def HWS_ID_PROTO_MAJOR : Field := ⟨31, 24⟩
def HWS_ID_PROTO_MINOR : Field := ⟨23, 16⟩
def HWS_ID_FEATURES : Field := ⟨2, 0⟩
def HWS_NODE_VALID : Field := ⟨63, 63⟩
def HWS_NODE_NODE : Field := ⟨15, 0⟩
def HWS_PART_VALID : Field := ⟨63, 63⟩
def HWS_PART_EPOCH : Field := ⟨27, 20⟩
def HWS_PART_PARTITION : Field := ⟨11, 0⟩
def HWS_CTRL_HOT_THRESH : Field := ⟨23, 16⟩
def HWS_CTRL_ENABLE : Field := ⟨0, 0⟩
def HWS_TIMEOUT_HOME_LEASE_US : Field := ⟨60, 48⟩
def HWS_TIMEOUT_LEASE_US : Field := ⟨44, 32⟩
def HWS_TIMEOUT_REQ_US : Field := ⟨11, 0⟩
def HWS_INGRESS_PT_ROOT : Field := ⟨47, 12⟩
def HWS_PUT_PT_ROOT : Field := ⟨47, 12⟩
def HWS_TOB_BASE : Field := ⟨47, 21⟩
def HWS_TOB_UNITS : Field := ⟨7, 0⟩
def HWS_STATUS_REPLAY_OCC : Field := ⟨63, 48⟩
def HWS_STATUS_TOB_OCC : Field := ⟨47, 23⟩
def HWS_STATUS_REFRESH_OCC : Field := ⟨22, 6⟩
def HWS_EVENT_HOT : Field := ⟨12, 12⟩
def HWS_EVENT_PUT_FAIL : Field := ⟨11, 11⟩
def HWS_EVENT_JOURNAL_OVF : Field := ⟨10, 10⟩
def HWS_EVENT_WIN_INVALID : Field := ⟨9, 9⟩
def HWS_EVENT_REFRESH_INVALID : Field := ⟨8, 8⟩
def HWS_EVENT_REFRESH_OVF : Field := ⟨7, 7⟩
def HWS_EVENT_TO_LATE : Field := ⟨6, 6⟩
def HWS_EVENT_TO_FULL : Field := ⟨5, 5⟩
def HWS_EVENT_LATE_CPL : Field := ⟨4, 4⟩
def HWS_EVENT_AMBIGUOUS : Field := ⟨3, 3⟩
def HWS_EVENT_AGED : Field := ⟨2, 2⟩
def HWS_EVENT_PART_DROP : Field := ⟨1, 1⟩
def HWS_EVENT_STALE_EPOCH : Field := ⟨0, 0⟩
def HWS_AMBIG_VALID : Field := ⟨63, 63⟩
def HWS_AMBIG_SPORT : Field := ⟨58, 56⟩
def HWS_AMBIG_TAG : Field := ⟨55, 36⟩
def HWS_AMBIG_AGENT : Field := ⟨31, 16⟩
def HWS_AMBIG_NODE : Field := ⟨15, 0⟩
def HWS_AMBIG_ADDR_OFFSET : Field := ⟨47, 0⟩
def HWS_PUT_FAIL_VALID : Field := ⟨63, 63⟩
def HWS_PUT_FAIL_FDIE : Field := ⟨56, 56⟩
def HWS_PUT_FAIL_STATUS : Field := ⟨55, 48⟩
def HWS_PUT_FAIL_TAG : Field := ⟨47, 32⟩
def HWS_PUT_FAIL_DONE_BYTES : Field := ⟨31, 0⟩
def HWS_WIN_CFG_VALID : Field := ⟨63, 63⟩
def HWS_WIN_CFG_KIND : Field := ⟨62, 60⟩
def HWS_WIN_CFG_NREP : Field := ⟨59, 56⟩
def HWS_WIN_CFG_BASE : Field := ⟨47, 12⟩
def HWS_WIN_SIZE_HOME : Field := ⟨63, 48⟩
def HWS_WIN_SIZE_PAGES : Field := ⟨26, 0⟩
def HWS_WIN_REPA_REP0_to_REP3 : Field := ⟨63, 0⟩
def HWS_WIN_REPB_REP4_to_REP7 : Field := ⟨63, 0⟩
def HWS_WIN_AUX_BASE : Field := ⟨47, 6⟩
def HWS_WIN_AUXSZ_STAGE_LINES : Field := ⟨31, 0⟩
def HWS_WIN_STATUS_FULL_DUE : Field := ⟨63, 56⟩
def HWS_WIN_STATUS_SERVE : Field := ⟨31, 16⟩
def HWS_WIN_STATUS_PENDING_APPLY : Field := ⟨1, 1⟩
def HWS_WIN_STATUS_REFRESHING : Field := ⟨0, 0⟩
def HWS_ROUTE_VALID : Field := ⟨63, 63⟩
def HWS_ROUTE_B_VALID : Field := ⟨11, 11⟩
def HWS_ROUTE_PORT_B : Field := ⟨10, 8⟩
def HWS_ROUTE_PORT_A : Field := ⟨6, 4⟩
def HWS_ROUTE_HOPS : Field := ⟨1, 0⟩
def OPT_CTRL_MIN_WIDTH : Field := ⟨12, 8⟩
def OPT_CTRL_MGMT_ONLY : Field := ⟨2, 2⟩
def OPT_CTRL_RETRAIN : Field := ⟨1, 1⟩
def OPT_CTRL_ENABLE : Field := ⟨0, 0⟩
def OPT_STATUS_CALIBRATING : Field := ⟨16, 16⟩
def OPT_STATUS_RX_WIDTH : Field := ⟨15, 11⟩
def OPT_STATUS_TX_WIDTH : Field := ⟨10, 6⟩
def OPT_STATUS_STATE : Field := ⟨3, 0⟩
def OPT_NEG_HWS_MAJOR : Field := ⟨63, 56⟩
def OPT_NEG_HWS_MINOR : Field := ⟨55, 48⟩
def OPT_NEG_HLY_MAJOR : Field := ⟨47, 40⟩
def OPT_NEG_HLY_MINOR : Field := ⟨39, 32⟩
def OPT_NEG_FEATURES : Field := ⟨15, 0⟩
def OPT_PARTNER_KIND : Field := ⟨63, 62⟩
def OPT_PARTNER_ID : Field := ⟨47, 16⟩
def OPT_PARTNER_PORT : Field := ⟨15, 8⟩
def OPT_DELAY_ADJ : Field := ⟨63, 56⟩
def OPT_DELAY_RTT : Field := ⟨47, 32⟩
def OPT_DELAY_ASYM : Field := ⟨15, 0⟩
def OPT_CAL_NEXT_LONG : Field := ⟨23, 20⟩
def OPT_CAL_DEFER : Field := ⟨16, 10⟩
def OPT_CAL_PERIOD_MS : Field := ⟨9, 0⟩
def OPT_LASER0_W0_to_W5 : Field := ⟨47, 0⟩
def OPT_LASER1_W0_to_W5 : Field := ⟨47, 0⟩
def OPT_EVENT_LASER_LOW : Field := ⟨6, 6⟩
def OPT_EVENT_INCOMPATIBLE : Field := ⟨5, 5⟩
def OPT_EVENT_TRAIN_FAIL : Field := ⟨4, 4⟩
def OPT_EVENT_WIDTH_DOWN : Field := ⟨3, 3⟩
def OPT_EVENT_LANE_SPARE : Field := ⟨2, 2⟩
def OPT_EVENT_RETRY : Field := ⟨1, 1⟩
def OPT_EVENT_LINK_DOWN : Field := ⟨0, 0⟩
def OPT_L_STAT_TX_ROLE : Field := ⟨20, 16⟩
def OPT_L_STAT_RX_ROLE : Field := ⟨12, 8⟩
def OPT_L_STAT_RX_STATE : Field := ⟨2, 0⟩
def OPT_L_CW_COUNT : Field := ⟨47, 0⟩
def OPT_L_CORR_COUNT : Field := ⟨47, 0⟩
def OPT_L_UNCORR_COUNT : Field := ⟨47, 0⟩
def CFG_STATUS_SEQ : Field := ⟨63, 32⟩
def CFG_STATUS_SKIPPED : Field := ⟨31, 24⟩
def CFG_STATUS_REJ_KNOWN : Field := ⟨22, 22⟩
def CFG_STATUS_CONF_KNOWN : Field := ⟨21, 21⟩
def CFG_STATUS_FMT_MINOR : Field := ⟨15, 8⟩
def CFG_STATUS_FALLBACK : Field := ⟨7, 7⟩
def CFG_STATUS_SIGNED : Field := ⟨6, 6⟩
def CFG_STATUS_SOURCE : Field := ⟨5, 4⟩
def CFG_STATUS_RESULT : Field := ⟨3, 0⟩
def CFG_BOOTSTATE_CONF_SEQ : Field := ⟨63, 32⟩
def CFG_BOOTSTATE_REJ_SEQ : Field := ⟨31, 0⟩
def CFG_COPYA_SEQ : Field := ⟨63, 32⟩
def CFG_COPYA_REC_OFFSET : Field := ⟨25, 8⟩
def CFG_COPYA_REASON : Field := ⟨7, 4⟩
def CFG_COPYA_VALID : Field := ⟨0, 0⟩
def CFG_COPYB_SEQ : Field := ⟨63, 32⟩
def CFG_COPYB_REC_OFFSET : Field := ⟨25, 8⟩
def CFG_COPYB_REASON : Field := ⟨7, 4⟩
def CFG_COPYB_VALID : Field := ⟨0, 0⟩
def CFG_WRITE_SEQ : Field := ⟨63, 32⟩
def CFG_WRITE_REASON : Field := ⟨23, 20⟩
def CFG_WRITE_TARGET : Field := ⟨17, 16⟩
def CFG_WRITE_RESULT : Field := ⟨3, 0⟩
def CFG_NVM_SIZE_MIB : Field := ⟨47, 32⟩
def CFG_NVM_ADDR4 : Field := ⟨3, 3⟩
def CFG_NVM_QUAD : Field := ⟨2, 2⟩
def CFG_NVM_ERASE_64K : Field := ⟨1, 1⟩
def CFG_NVM_ERASE_4K : Field := ⟨0, 0⟩
def CFG_KEYS_SIGN_REQUIRED : Field := ⟨8, 8⟩
def CFG_KEYS_REVOKED : Field := ⟨7, 4⟩
def CFG_KEYS_PROGRAMMED : Field := ⟨3, 0⟩
def CFG_EVENT_FABRIC_TIMEOUT : Field := ⟨4, 4⟩
def CFG_EVENT_RECORD_SKIPPED : Field := ⟨3, 3⟩
def CFG_EVENT_WRITE_FAIL : Field := ⟨2, 2⟩
def CFG_EVENT_FALLBACK : Field := ⟨1, 1⟩
def CFG_EVENT_COPY_INVALID : Field := ⟨0, 0⟩
def RST_CAUSE_FATAL : Field := ⟨8, 8⟩
def RST_CAUSE_HOST : Field := ⟨7, 7⟩
def RST_CAUSE_FABRIC : Field := ⟨6, 6⟩
def RST_CAUSE_THERM : Field := ⟨5, 5⟩
def RST_CAUSE_LANYARD : Field := ⟨4, 4⟩
def RST_CAUSE_WDOG : Field := ⟨3, 3⟩
def RST_CAUSE_PIN : Field := ⟨2, 2⟩
def RST_CAUSE_PWROK : Field := ⟨1, 1⟩
def RST_CAUSE_SBPOR : Field := ⟨0, 0⟩
def RST_LAST_SOURCE : Field := ⟨3, 0⟩
def RST_STRAP_SMB_ADDR : Field := ⟨14, 8⟩
def RST_STRAP_SB_ADDR : Field := ⟨6, 4⟩
def RST_STRAP_CLK_MODE : Field := ⟨3, 2⟩
def RST_STRAP_BOOT_SRC : Field := ⟨1, 0⟩
def RST_STATUS_FAIL_STEP : Field := ⟨23, 20⟩
def RST_STATUS_BELAY_CAUSE : Field := ⟨19, 16⟩
def RST_STATUS_BELAY : Field := ⟨8, 8⟩
def RST_STATUS_START : Field := ⟨7, 6⟩
def RST_STATUS_FABRIC_ORDER : Field := ⟨5, 5⟩
def RST_STATUS_STEP : Field := ⟨3, 0⟩
def RST_FAILSTART_MIRROR_OK : Field := ⟨8, 8⟩
def RST_FAILSTART_COUNT : Field := ⟨3, 0⟩
def RST_CTRL_KEY : Field := ⟨63, 56⟩
def RST_CTRL_BELAY_EXIT : Field := ⟨1, 1⟩
def RST_CTRL_RESET : Field := ⟨0, 0⟩
def RST_EVENT_STEP_TIMEOUT : Field := ⟨1, 1⟩
def RST_EVENT_BOOTSTATE_FAIL : Field := ⟨0, 0⟩
def RST_PWR0_ON : Field := ⟨63, 0⟩
def RST_PWR1_ON : Field := ⟨63, 0⟩
def RST_PWR2_ON : Field := ⟨35, 0⟩
def BWL_STATUS_LY_MAJOR : Field := ⟨63, 56⟩
def BWL_STATUS_LY_MINOR : Field := ⟨55, 48⟩
def BWL_STATUS_SESSIONS : Field := ⟨34, 32⟩
def BWL_STATUS_CONFIRMED : Field := ⟨7, 7⟩
def BWL_STATUS_TRIAL : Field := ⟨6, 6⟩
def BWL_STATUS_RUNNING_SLOT : Field := ⟨5, 5⟩
def BWL_STATUS_ACTIVE_SLOT : Field := ⟨4, 4⟩
def BWL_STATUS_MODE : Field := ⟨1, 0⟩
def BWL_HEALTH_CONFIRM_KEY : Field := ⟨63, 56⟩
def BWL_HEALTH_CONFIRM_CONFIRM : Field := ⟨0, 0⟩
def BWL_WDOG_KICK : Field := ⟨63, 63⟩
def BWL_WDOG_PERIOD_MS : Field := ⟨47, 32⟩
def BWL_WDOG_WINDOW_S : Field := ⟨25, 16⟩
def BWL_FW_SECVER : Field := ⟨63, 32⟩
def BWL_FW_NUMERICS_LEVEL : Field := ⟨31, 24⟩
def BWL_FUSE_ROLLBACK : Field := ⟨14, 8⟩
def BWL_FUSE_FW_REVOKED : Field := ⟨7, 4⟩
def BWL_FUSE_FW_PROGRAMMED : Field := ⟨3, 0⟩
def BWL_GOV_CAP_W : Field := ⟨63, 52⟩
def BWL_GOV_POWER_W : Field := ⟨51, 40⟩
def BWL_GOV_LEVEL : Field := ⟨36, 32⟩
def BWL_GOV_PROCHOT_IN : Field := ⟨9, 9⟩
def BWL_GOV_STACK_HOT : Field := ⟨8, 8⟩
def BWL_GOV_DIE_HOT : Field := ⟨6, 0⟩
def BWL_FRESET_CTR_COUNTER : Field := ⟨63, 0⟩
def BWL_EVENT_NVM_FAIL : Field := ⟨11, 11⟩
def BWL_EVENT_FRESET_REJECT : Field := ⟨10, 10⟩
def BWL_EVENT_SMB_PEC : Field := ⟨9, 9⟩
def BWL_EVENT_PROCHOT_IN : Field := ⟨8, 8⟩
def BWL_EVENT_THERM_THROTTLE : Field := ⟨7, 7⟩
def BWL_EVENT_CAP_UNMET : Field := ⟨6, 6⟩
def BWL_EVENT_TLM_DROP : Field := ⟨5, 5⟩
def BWL_EVENT_SESSION_FAIL : Field := ⟨4, 4⟩
def BWL_EVENT_SLOT_BAD : Field := ⟨3, 3⟩
def BWL_EVENT_STAGE_REJECT : Field := ⟨2, 2⟩
def BWL_EVENT_FW_FALLBACK : Field := ⟨1, 1⟩
def BWL_EVENT_LOG_OVF : Field := ⟨0, 0⟩
def BWL_MBX_CTRL_GO : Field := ⟨16, 16⟩
def BWL_MBX_CTRL_VECTOR : Field := ⟨15, 0⟩
def BWL_MBX_STATUS_BUSY : Field := ⟨1, 1⟩
def BWL_MBX_STATUS_DONE : Field := ⟨0, 0⟩
def BWL_MBX_DATA_WORD : Field := ⟨63, 0⟩
def BWL_LOG_STATUS_LAST_ESEQ : Field := ⟨63, 32⟩
def BWL_LOG_STATUS_HEAD : Field := ⟨11, 0⟩
def BWL_TLM_STATUS_TSEQ : Field := ⟨63, 32⟩
def BWL_TLM_STATUS_DEST : Field := ⟨31, 16⟩
def BWL_TLM_STATUS_RATE_HZ : Field := ⟨9, 0⟩
def BWL_LOG_RING_WORD : Field := ⟨63, 0⟩
def BWL_CNT_x_COUNT : Field := ⟨31, 0⟩
def CKP_CTRL_RELEASE : Field := ⟨16, 16⟩
def CKP_CTRL_EVQ_EN : Field := ⟨4, 4⟩
def CKP_CTRL_EVQ : Field := ⟨3, 0⟩
def CKP_STATUS_CUT_ID : Field := ⟨63, 32⟩
def CKP_STATUS_RESULT : Field := ⟨31, 24⟩
def CKP_STATUS_PHASE : Field := ⟨18, 16⟩
def CKP_STATUS_SHARDS_DONE : Field := ⟨10, 0⟩
def CKP_STEP_STEP : Field := ⟨47, 0⟩
def CKP_PTBASE_ROOT : Field := ⟨47, 12⟩
def CKP_RESTORE_DESC : Field := ⟨47, 0⟩
def CKP_EVENT_BUSY : Field := ⟨7, 7⟩
def CKP_EVENT_FENCE_DENIED : Field := ⟨6, 6⟩
def CKP_EVENT_SIG_MISMATCH : Field := ⟨5, 5⟩
def CKP_EVENT_DIGEST_FAIL : Field := ⟨4, 4⟩
def CKP_EVENT_CLOSED_REFUSED : Field := ⟨3, 3⟩
def CKP_EVENT_FAIL : Field := ⟨2, 2⟩
def CKP_EVENT_RESTORE_DONE : Field := ⟨1, 1⟩
def CKP_EVENT_CUT_DONE : Field := ⟨0, 0⟩
def CKP_FAIL_SHARD_ID : Field := ⟨63, 32⟩
def CKP_FAIL_STATUS : Field := ⟨31, 24⟩
def CKP_FENCES_NODES : Field := ⟨47, 32⟩
def CKP_FENCES_COUNT : Field := ⟨15, 0⟩
def RAS_SERVICE_REQUEST_ANY : Field := ⟨63, 63⟩
def RAS_SERVICE_REQUEST_FABRIC : Field := ⟨7, 7⟩
def RAS_SERVICE_REQUEST_COOLING : Field := ⟨6, 6⟩
def RAS_SERVICE_REQUEST_FW_SLOT : Field := ⟨5, 5⟩
def RAS_SERVICE_REQUEST_PORT_ENGINE : Field := ⟨4, 4⟩
def RAS_SERVICE_REQUEST_PORT_WIDTH : Field := ⟨3, 3⟩
def RAS_SERVICE_REQUEST_CHANNEL : Field := ⟨2, 2⟩
def RAS_SERVICE_REQUEST_STACK : Field := ⟨1, 1⟩
def RAS_SERVICE_REQUEST_STRAND : Field := ⟨0, 0⟩
def RAS_COOL_THRESH : Field := ⟨63, 56⟩
def RAS_COOL_MARGIN : Field := ⟨47, 32⟩
def RAS_COOL_BELOW : Field := ⟨0, 0⟩
def RAS_EVENT_JOURNAL_LOST : Field := ⟨10, 10⟩
def RAS_EVENT_REFRESH_POISON : Field := ⟨9, 9⟩
def RAS_EVENT_TO_POISON : Field := ⟨8, 8⟩
def RAS_EVENT_SEM_POISON : Field := ⟨7, 7⟩
def RAS_EVENT_TALQ_LOST : Field := ⟨6, 6⟩
def RAS_EVENT_CHAN_FAIL : Field := ⟨5, 5⟩
def RAS_EVENT_STACK_FAIL : Field := ⟨4, 4⟩
def RAS_EVENT_STRAND_LOST : Field := ⟨3, 3⟩
def RAS_EVENT_POISON : Field := ⟨2, 2⟩
def RAS_EVENT_COOLING : Field := ⟨1, 1⟩
def RAS_EVENT_SERVICE : Field := ⟨0, 0⟩
def RAS_FATAL_VALID : Field := ⟨63, 63⟩
def RAS_FATAL_MULTI : Field := ⟨62, 62⟩
def RAS_FATAL_NO_RECORD : Field := ⟨61, 61⟩
def RAS_FATAL_DIE : Field := ⟨58, 56⟩
def RAS_FATAL_CODE : Field := ⟨55, 48⟩
def RAS_FATAL_STEP : Field := ⟨47, 0⟩
def RAS_POISON_ADDR_VALID : Field := ⟨63, 63⟩
def RAS_POISON_ADDR_DIE : Field := ⟨58, 56⟩
def RAS_POISON_ADDR_OFFSET : Field := ⟨47, 0⟩
def ID_DEVICE_VENDOR : Field := ⟨42, 32⟩
def ID_DEVICE_PART : Field := ⟨31, 16⟩
def ID_DEVICE_FAMILY : Field := ⟨15, 8⟩
def ID_STEPPING_VERSION : Field := ⟨19, 16⟩
def ID_STEPPING_LETTER : Field := ⟨15, 8⟩
def ID_STEPPING_DIGIT : Field := ⟨7, 0⟩
def ID_SERIAL_SERIAL : Field := ⟨63, 0⟩
def ID_NUMERICS_SIG_STEPPING : Field := ⟨63, 48⟩
def ID_NUMERICS_SIG_LEVEL : Field := ⟨47, 40⟩
def ID_NUMERICS_SIG_DEFAULT_RND : Field := ⟨39, 38⟩
def ID_NUMERICS_SIG_GENERATION : Field := ⟨31, 24⟩
def ID_CAPS_SERVICE : Field := ⟨53, 50⟩
def ID_CAPS_CLUSTER : Field := ⟨49, 42⟩
def ID_CAPS_BOWLINE : Field := ⟨41, 41⟩
def ID_CAPS_CKP : Field := ⟨40, 40⟩
def ID_CAPS_PCIE : Field := ⟨39, 39⟩
def ID_CAPS_RSE : Field := ⟨38, 38⟩
def ID_CAPS_PORT : Field := ⟨37, 30⟩
def ID_CAPS_FDIE : Field := ⟨29, 28⟩
def ID_CAPS_CHAN : Field := ⟨27, 16⟩
def ID_CAPS_STACK : Field := ⟨15, 4⟩
def ID_CAPS_TDIE : Field := ⟨3, 0⟩
def ID_CAPS_EFFECTIVE_SERVICE : Field := ⟨53, 50⟩
def ID_CAPS_EFFECTIVE_CLUSTER : Field := ⟨49, 42⟩
def ID_CAPS_EFFECTIVE_BOWLINE : Field := ⟨41, 41⟩
def ID_CAPS_EFFECTIVE_CKP : Field := ⟨40, 40⟩
def ID_CAPS_EFFECTIVE_PCIE : Field := ⟨39, 39⟩
def ID_CAPS_EFFECTIVE_RSE : Field := ⟨38, 38⟩
def ID_CAPS_EFFECTIVE_PORT : Field := ⟨37, 30⟩
def ID_CAPS_EFFECTIVE_FDIE : Field := ⟨29, 28⟩
def ID_CAPS_EFFECTIVE_CHAN : Field := ⟨27, 16⟩
def ID_CAPS_EFFECTIVE_STACK : Field := ⟨15, 4⟩
def ID_CAPS_EFFECTIVE_TDIE : Field := ⟨3, 0⟩
def ID_STRANDS_EFF01_DIE1 : Field := ⟨51, 32⟩
def ID_STRANDS_EFF01_DIE0 : Field := ⟨19, 0⟩
def ID_STRANDS_EFF23_DIE3 : Field := ⟨51, 32⟩
def ID_STRANDS_EFF23_DIE2 : Field := ⟨19, 0⟩
def ID_NODE_NODE_VALID : Field := ⟨63, 63⟩
def ID_NODE_PART_VALID : Field := ⟨62, 62⟩
def ID_NODE_NODE : Field := ⟨47, 32⟩
def ID_NODE_EPOCH : Field := ⟨27, 20⟩
def ID_NODE_PARTITION : Field := ⟨11, 0⟩
end Fld

/-! Register addresses. A register of a window takes the base of its window. -/
namespace Reg
/-- Window of physical core `p` of T-die `d` (R118). -/
def coreWin (d p : Nat) : Nat := 0xF00010000000 + 0x1000000 * d + 0x10000 * p
/-- Die block of T-die `d` (R118). -/
def dieBlk (d : Nat) : Nat := 0xF00010F00000 + 0x1000000 * d
/-- Window of fast-tier stack `s` (Table CSM-2). -/
def stackWin (s : Nat) : Nat := 0xF00010F80000 + 0x1000000 * (s / 3) + 0x1000 * (s % 3)
/-- Window of capacity channel `c` (Table MEM-4). -/
def chanWin (c : Nat) : Nat := 0xF00022010000 + 0x1000 * c
/-- Window of optical port `p` (R594). -/
def portWin (p : Nat) : Nat := 0xF00030900000 + 0x1000000 * (p / 4) + 0x1000 * (p % 4)
/-- Lane `l` of optical port `p` (Table OPT-9). -/
def laneWin (p l : Nat) : Nat := portWin p + 0x400 + l * 0x20
/-- TALQ window `q` (Table HLY-8): 0 to 3 T-dies, 4 P-die, 5 and 6 F-dies. -/
def talqWin (q : Nat) : Nat := 0xF00001001000 + 0x100 * q
/-- Fabric window `w` (Table HWS-10). -/
def winWin (w : Nat) : Nat := 0xF00030001000 + w * 0x40
/-- RSE slot `s` (Table RSE-8). -/
def slotWin (s : Nat) : Nat := 0xF00021000100 + s * 0x80
/-- Host event queue `q` (Table HST-10). -/
def hostEvq (q : Nat) : Nat := 0xF00020000400 + q * 0x40
/-- Event queue `q` of T-die `d` (Table TCR-15). -/
def dieEvq (d q : Nat) : Nat := dieBlk d + 0x1000 + q * 0x40

def ID_DEVICE : Nat := 0xF00000000000
def ID_STEPPING : Nat := 0xF00000000008
def ID_NUMERICS_SIG : Nat := 0xF00000000010
def ID_SERIAL : Nat := 0xF00000000018
def ID_CAPS : Nat := 0xF00000000020
def ID_CAPS_EFFECTIVE : Nat := 0xF00000000028
def ID_STRANDS_EFF01 : Nat := 0xF00000000030
def ID_STRANDS_EFF23 : Nat := 0xF00000000038
def ID_NODE : Nat := 0xF00000000040
def HLY_CTRL : Nat := 0xF00001000000
def HLY_STATUS : Nat := 0xF00001000008
def HLY_TIMEBASE : Nat := 0xF00001000010
def HLY_STEP : Nat := 0xF00001000018
def HLY_DOMAIN : Nat := 0xF00001000020
def HLY_TREE : Nat := 0xF00001000028
def HLY_PERIOD : Nat := 0xF00001000030
def HLY_MARK12 : Nat := 0xF00001000038
def HLY_MARK3 : Nat := 0xF00001000040
def HLY_GUARD_QUIET : Nat := 0xF00001000048
def HLY_SLIP_CFG : Nat := 0xF00001000050
def HLY_PARAM : Nat := 0xF00001000058
def HLY_TICK_START : Nat := 0xF00001000060
def HLY_TICK_END : Nat := 0xF00001000068
def HLY_SLIPS : Nat := 0xF00001000070
def HLY_OFFSET : Nat := 0xF00001000078
def HLY_DONE_MASK_U : Nat := 0xF000010000D0
def HLY_DONE_U : Nat := 0xF00001000130
def HLY_HOST_DONE : Nat := 0xF00001000138
def HLY_LATE_U : Nat := 0xF00001000190
def HLY_EVENT : Nat := 0xF00001000198
def HLY_DONE_MASK_C (i : Nat) : Nat := 0xF00001000080 + 8 * i
def HLY_DONE_C (i : Nat) : Nat := 0xF000010000E0 + 8 * i
def HLY_LATE_C (i : Nat) : Nat := 0xF00001000140 + 8 * i
/-- Slips granted, cumulative. -/
def HLY_CNT_SLIPS : Nat := 0xF00001000200
/-- Forced calibration slips. -/
def HLY_CNT_FORCED : Nat := 0xF00001000208
/-- TICK_FAULT events. -/
def HLY_CNT_FAULT : Nat := 0xF00001000210
/-- Calibration deferrals, all ports. -/
def HLY_CNT_CAL_DEFER : Nat := 0xF00001000218
/-- Holds for a missing TICK_FINAL. -/
def HLY_CNT_LATE_FINAL : Nat := 0xF00001000220
/-- Generation mismatches. -/
def HLY_CNT_PARAM_MISMATCH : Nat := 0xF00001000228
/-- Moves to the alternate parent. -/
def HLY_CNT_PARENT_SWITCH : Nat := 0xF00001000230
/-- Takeovers as master. -/
def HLY_CNT_MASTER_TAKEOVER : Nat := 0xF00001000238
/-- Ignored tick symbols. -/
def HLY_CNT_SYM_UNKNOWN : Nat := 0xF00001000240
/-- Moves to unlocked. -/
def HLY_CNT_TB_UNLOCK : Nat := 0xF00001000248
/-- Armings dropped as PAST, all queues. -/
def HLY_CNT_PAST : Nat := 0xF00001000250
/-- Armings refused as FULL, all queues. -/
def HLY_CNT_FULL : Nat := 0xF00001000258
def HLY_TALQ_ARM0 (w : Nat) : Nat := w + 0x0
def HLY_TALQ_ARM1 (w : Nat) : Nat := w + 0x8
def HLY_TALQ_STATUS (w : Nat) : Nat := w + 0x10
def HLY_TALQ_CANCEL (w : Nat) : Nat := w + 0x18
def HLY_TALQ_LAUNCHED (w : Nat) : Nat := w + 0x20
def RST_CAUSE : Nat := 0xF00002000000
def RST_LAST : Nat := 0xF00002000008
def RST_STRAP : Nat := 0xF00002000010
def RST_STATUS : Nat := 0xF00002000018
def RST_FAILSTART : Nat := 0xF00002000020
def RST_CTRL : Nat := 0xF00002000028
def RST_EVENT : Nat := 0xF00002000030
def RST_PWR0 : Nat := 0xF00002000040
def RST_PWR1 : Nat := 0xF00002000048
def RST_PWR2 : Nat := 0xF00002000050
/-- Resets from this source. -/
def RST_CNT_SBPOR : Nat := 0xF00002000100
/-- The same. -/
def RST_CNT_PWROK : Nat := 0xF00002000108
/-- The same. -/
def RST_CNT_PIN : Nat := 0xF00002000110
/-- The same. -/
def RST_CNT_WDOG : Nat := 0xF00002000118
/-- The same. -/
def RST_CNT_LANYARD : Nat := 0xF00002000120
/-- The same. -/
def RST_CNT_THERM : Nat := 0xF00002000128
/-- The same. -/
def RST_CNT_FABRIC : Nat := 0xF00002000130
/-- The same. -/
def RST_CNT_HOST : Nat := 0xF00002000138
/-- The same. -/
def RST_CNT_FATAL : Nat := 0xF00002000140
/-- Steps that overran their limit. -/
def RST_CNT_STEP_TIMEOUT : Nat := 0xF00002000148
/-- Boot-state writes that failed. -/
def RST_CNT_BOOTSTATE_FAIL : Nat := 0xF00002000150
def BWL_STATUS : Nat := 0xF00003000000
def BWL_HEALTH_CONFIRM : Nat := 0xF00003000008
def BWL_WDOG : Nat := 0xF00003000010
def BWL_FW : Nat := 0xF00003000018
def BWL_FUSE : Nat := 0xF00003000020
def BWL_GOV : Nat := 0xF00003000028
def BWL_EVENT : Nat := 0xF00003000030
def BWL_FRESET_CTR : Nat := 0xF00003000038
def BWL_MBX_CTRL : Nat := 0xF00003000100
def BWL_MBX_STATUS : Nat := 0xF00003000108
def BWL_CNT (i : Nat) : Nat := 0xF00003000040 + 8 * i
def BWL_CNT_RATE : Nat := 0xF000030000A0
def BWL_MBX_DATA (i : Nat) : Nat := 0xF00003000200 + 8 * i
def CFG_STATUS : Nat := 0xF00003001000
def CFG_COPYA : Nat := 0xF00003001008
def CFG_COPYB : Nat := 0xF00003001010
def CFG_BOOTSTATE : Nat := 0xF00003001018
def CFG_WRITE : Nat := 0xF00003001020
def CFG_NVM : Nat := 0xF00003001028
def CFG_KEYS : Nat := 0xF00003001030
def CFG_EVENT : Nat := 0xF00003001038
/-- Copies found invalid at start. -/
def CFG_CNT_COPY_INVALID : Nat := 0xF00003001040
/-- Starts that fell back under R435. -/
def CFG_CNT_FALLBACK : Nat := 0xF00003001048
/-- Writes ended with NVM_ERROR or VERIFY_FAIL. -/
def CFG_CNT_WRITE_FAIL : Nat := 0xF00003001050
/-- Records skipped. -/
def CFG_CNT_SKIPPED : Nat := 0xF00003001058
/-- Fabric reads that timed out. -/
def CFG_CNT_FABRIC_TIMEOUT : Nat := 0xF00003001060
def BWL_LOG_STATUS : Nat := 0xF00004000000
def BWL_TLM_STATUS : Nat := 0xF00004000008
def BWL_LOG_RING (i : Nat) : Nat := 0xF00004010000 + 8 * i
def RAS_SERVICE_REQUEST : Nat := 0xF00004040000
def RAS_COOL : Nat := 0xF00004040008
def RAS_EVENT : Nat := 0xF00004040010
def RAS_FATAL : Nat := 0xF00004040018
def RAS_POISON_ADDR : Nat := 0xF00004040020
def RAS_D_CNT_CE (d : Nat) : Nat := 0xF00004040100 + 0x20 * d
def RAS_D_CNT_UE (d : Nat) : Nat := 0xF00004040108 + 0x20 * d
def RAS_D_CNT_POISON (d : Nat) : Nat := 0xF00004040110 + 0x20 * d
def RAS_D_CNT_LINK_RETRY (d : Nat) : Nat := 0xF00004040118 + 0x20 * d
/-- Service causes set. -/
def RAS_CNT_SERVICE : Nat := 0xF00004040200
/-- Entries into COOLING. -/
def RAS_CNT_COOLING : Nat := 0xF00004040208
/-- Poison consumed, all dies. -/
def RAS_CNT_POISON : Nat := 0xF00004040210
/-- Strands taken out in operation. -/
def RAS_CNT_STRAND_LOST : Nat := 0xF00004040218
/-- Stacks declared FAILED. -/
def RAS_CNT_STACK_FAIL : Nat := 0xF00004040220
/-- Capacity channels declared FAILED. -/
def RAS_CNT_CHAN_FAIL : Nat := 0xF00004040228
/-- TALQ entries removed unlaunched. -/
def RAS_CNT_TALQ_LOST : Nat := 0xF00004040230
/-- Semaphores poisoned. -/
def RAS_CNT_SEM_POISON : Nat := 0xF00004040238
/-- Held operations discarded (R552). -/
def RAS_CNT_TO_POISON : Nat := 0xF00004040240
/-- Refreshes stopped by poison (R553). -/
def RAS_CNT_REFRESH_POISON : Nat := 0xF00004040248
/-- Journal records discarded. -/
def RAS_CNT_JOURNAL_LOST : Nat := 0xF00004040250
def TC_CTRL (w : Nat) : Nat := w + 0x0
def TC_STATUS (w : Nat) : Nat := w + 0x8
def TC_CFG (w : Nat) : Nat := w + 0x10
def TC_CTX (w : Nat) : Nat := w + 0x18
def TC_PTBASE (w : Nat) : Nat := w + 0x20
def TC_DOORBELL (w : Nat) : Nat := w + 0x28
def TC_LAUNCH_STATUS (w : Nat) : Nat := w + 0x30
def TC_PC (w : Nat) : Nat := w + 0x38
def TC_FAULT (w : Nat) : Nat := w + 0x40
def TC_FAULT_INSN (w : Nat) : Nat := w + 0x48
def TC_FAULT_ADDR (w : Nat) : Nat := w + 0x50
def TC_EVENT (w : Nat) : Nat := w + 0x58
def TC_MAP (w : Nat) : Nat := w + 0x60
def TC_SREG (w i : Nat) : Nat := w + 0x100 + 8 * i
def ME_STATUS (w : Nat) : Nat := w + 0x400
def ME_FLAGS (w : Nat) : Nat := w + 0x408
def ME_EXC (w : Nat) : Nat := w + 0x410
def ME_EXC_INFO (w : Nat) : Nat := w + 0x418
def ME_CTRL (w : Nat) : Nat := w + 0x420
def ME_CNT_INSN (w : Nat) : Nat := w + 0x440
def ME_CNT_BUSY (w : Nat) : Nat := w + 0x448
def ME_CNT_NV (w : Nat) : Nat := w + 0x450
def VE_STATUS (w : Nat) : Nat := w + 0x600
def VE_FLAGS (w : Nat) : Nat := w + 0x608
def VE_EXC (w : Nat) : Nat := w + 0x610
def VE_EXC_INFO (w : Nat) : Nat := w + 0x618
def VE_CTRL (w : Nat) : Nat := w + 0x620
def VE_SEQ (w : Nat) : Nat := w + 0x628
def VE_CNT_INSN (w : Nat) : Nat := w + 0x640
def VE_CNT_BUSY (w : Nat) : Nat := w + 0x648
def VE_CNT_NV (w : Nat) : Nat := w + 0x650
def FID_STATUS (w : Nat) : Nat := w + 0x800
def FID_FLAGS (w : Nat) : Nat := w + 0x808
def FID_EXC (w : Nat) : Nat := w + 0x810
def FID_EXC_INFO (w : Nat) : Nat := w + 0x818
def FID_CTRL (w : Nat) : Nat := w + 0x820
def FID_SEQ (w : Nat) : Nat := w + 0x828
def FID_FAULT_DA (w : Nat) : Nat := w + 0x830
def FID_FAULT_INFO (w : Nat) : Nat := w + 0x838
def FID_FAULT_ELEM (w : Nat) : Nat := w + 0x840
def FID_FAULT_DESC (w : Nat) : Nat := w + 0x848
def FID_EVENT (w : Nat) : Nat := w + 0x850
def ME_HIST (w i : Nat) : Nat := w + 0x1000 + 8 * i
def VE_HIST (w i : Nat) : Nat := w + 0x1200 + 8 * i
def FID_HIST (w i : Nat) : Nat := w + 0x900 + 8 * i
/-- TCLK cycles in RUNNING or WAITING. -/
def TC_CNT_RUN_CYCLES (w : Nat) : Nat := w + 0x200
/-- Instructions issued. -/
def TC_CNT_INSN (w : Nat) : Nat := w + 0x208
/-- Requester cycles lost to bank conflicts (R69). -/
def TC_CNT_STALL_BANK (w : Nat) : Nat := w + 0x210
/-- Engine cycles held by R91 and R92. -/
def TC_CNT_STALL_HAZARD (w : Nat) : Nat := w + 0x218
/-- Sequencer cycles stalled on a full engine queue. -/
def TC_CNT_STALL_QUEUE (w : Nat) : Nat := w + 0x220
/-- Sequencer cycles in tick and semaphore waits. -/
def TC_CNT_STALL_WAIT (w : Nat) : Nat := w + 0x228
/-- Launches accepted. -/
def TC_CNT_LAUNCH (w : Nat) : Nat := w + 0x230
/-- Launches refused. -/
def TC_CNT_REFUSED (w : Nat) : Nat := w + 0x238
/-- Faults. -/
def TC_CNT_FAULT (w : Nat) : Nat := w + 0x240
/-- Late waits. -/
def TC_CNT_TWAIT_LATE (w : Nat) : Nat := w + 0x248
/-- EVPOST events dropped. -/
def TC_CNT_EVPOST_DROP (w : Nat) : Nat := w + 0x250
/-- Transfers completed, program and armed. -/
def FID_CNT_XFER (w : Nat) : Nat := w + 0x880
/-- Destination bytes written, scale bytes included. -/
def FID_CNT_BYTES (w : Nat) : Nat := w + 0x888
/-- TCLK cycles with a transfer running. -/
def FID_CNT_BUSY (w : Nat) : Nat := w + 0x890
/-- TCLK cycles at one element per cycle (R230). -/
def FID_CNT_STRIDED (w : Nat) : Nat := w + 0x898
/-- Translation cache misses. -/
def FID_CNT_TLB_MISS (w : Nat) : Nat := w + 0x8A0
/-- Armed transfers launched. -/
def FID_CNT_ARMED (w : Nat) : Nat := w + 0x8A8
/-- Transfers that raised NV. -/
def FID_CNT_NV (w : Nat) : Nat := w + 0x8B0
/-- Armed transfers refused. -/
def FID_CNT_ARMED_REFUSED (w : Nat) : Nat := w + 0x8B8
def TC_STRAND_MAP0 (w : Nat) : Nat := w + 0x0
def TC_STRAND_MAP1 (w : Nat) : Nat := w + 0x8
def TC_SPARE (w : Nat) : Nat := w + 0x10
def TC_DIE_EVENT (w : Nat) : Nat := w + 0x18
def TC_CNT_SEM_OVF (w : Nat) : Nat := w + 0x20
def TC_CNT_EVQ_DROP (w : Nat) : Nat := w + 0x28
def TC_EVQ_PTBASE (w : Nat) : Nat := w + 0x30
/-- Of the queue whose registers begin at `w`: T-die queue (`dieEvq`) or host queue (`hostEvq`), laid out alike (R273). -/
def EVQ_BASE (w : Nat) : Nat := w + 0
/-- Of the queue whose registers begin at `w`: T-die queue (`dieEvq`) or host queue (`hostEvq`), laid out alike (R273). -/
def EVQ_CTRL (w : Nat) : Nat := w + 8
/-- Of the queue whose registers begin at `w`: T-die queue (`dieEvq`) or host queue (`hostEvq`), laid out alike (R273). -/
def EVQ_HEAD (w : Nat) : Nat := w + 16
/-- Of the queue whose registers begin at `w`: T-die queue (`dieEvq`) or host queue (`hostEvq`), laid out alike (R273). -/
def EVQ_TAIL (w : Nat) : Nat := w + 24
/-- Of the queue whose registers begin at `w`: T-die queue (`dieEvq`) or host queue (`hostEvq`), laid out alike (R273). -/
def EVQ_DROPPED (w : Nat) : Nat := w + 32
/-- Of the queue whose registers begin at `w`: T-die queue (`dieEvq`) or host queue (`hostEvq`), laid out alike (R273). -/
def EVQ_OWNER (w : Nat) : Nat := w + 40
def TC_SEM_VALUE (w i : Nat) : Nat := w + 0x10000 + 8 * i
def TC_SEM_OWNER (w i : Nat) : Nat := w + 0x10800 + 8 * i
def HOST_ID : Nat := 0xF00020000000
def HOST_XCTRL : Nat := 0xF00020000008
def HOST_PARTITION : Nat := 0xF00020000010
def HOST_MGMT : Nat := 0xF00020000018
def HOST_HART_RELEASE0 : Nat := 0xF00020000020
def HOST_HART_RELEASE1 : Nat := 0xF00020000028
def HOST_EVENT : Nat := 0xF00020000030
def HOST_POSTED_FAIL : Nat := 0xF00020000038
def HOST_POSTED_STATUS : Nat := 0xF00020000040
def HOST_FT_CACHE (i : Nat) : Nat := 0xF00020000100 + 8 * i
def HOST_AP (i : Nat) : Nat := 0xF00020000200 + 8 * i
/-- Lines removed from L2s by directory capacity (R254). -/
def HOST_CNT_BACKINVAL : Nat := 0xF00020000800
/-- Agent accesses routed through the directory. -/
def HOST_CNT_AGENT_DIR : Nat := 0xF00020000808
/-- Agent accesses that found a host copy. -/
def HOST_CNT_SNOOP : Nat := 0xF00020000810
/-- Posted operations completed with an error. -/
def HOST_CNT_POSTED_FAIL : Nat := 0xF00020000818
/-- Aperture loads and AMOs faulted as AMBIGUOUS. -/
def HOST_CNT_AMBIGUOUS : Nat := 0xF00020000820
/-- TICK.WAIT returning 1. -/
def HOST_CNT_TICK_LATE : Nat := 0xF00020000828
/-- Interrupt messages dropped. -/
def HOST_CNT_MSG_DROP : Nat := 0xF00020000830
/-- Host event-queue entries dropped, all queues. -/
def HOST_CNT_EVQ_DROP : Nat := 0xF00020000838
/-- HOST_EVENT descriptors that failed their checks. -/
def HOST_CNT_EVDESC_INVALID : Nat := 0xF00020000840
/-- RSE.SUBMIT returning FULL. -/
def HOST_CNT_RSE_FULL : Nat := 0xF00020000848
/-- Access faults with reason APERTURE. -/
def HOST_CNT_APERTURE : Nat := 0xF00020000850
def RSE_ID : Nat := 0xF00021000000
def RSE_CTRL : Nat := 0xF00021000008
def RSE_STATUS : Nat := 0xF00021000010
def RSE_SEQ : Nat := 0xF00021000018
def RSE_PTBASE : Nat := 0xF00021000020
def RSE_REGION : Nat := 0xF00021000028
def RSE_EVENT : Nat := 0xF00021000030
def RSE_SLOT_STATE (w : Nat) : Nat := w + 0x0
def RSE_SLOT_SIZE (w : Nat) : Nat := w + 0x8
def RSE_SLOT_INFO (w : Nat) : Nat := w + 0x10
def RSE_SLOT_DIGEST (w i : Nat) : Nat := w + 0x20 + 8 * i
/-- Commands completed. -/
def RSE_CNT_CMD : Nat := 0xF00021000600
/-- RSE cycles with a command running. -/
def RSE_CNT_BUSY : Nat := 0xF00021000608
/-- Lane terms formed. -/
def RSE_CNT_MAC : Nat := 0xF00021000610
/-- Structure cache hits. -/
def RSE_CNT_SCACHE_HIT : Nat := 0xF00021000618
/-- Structure cache misses. -/
def RSE_CNT_SCACHE_MISS : Nat := 0xF00021000620
/-- Armed submissions refused. -/
def RSE_CNT_ARMED_REFUSED : Nat := 0xF00021000628
/-- Records or increments not made. -/
def RSE_CNT_CPL_FAULT : Nat := 0xF00021000630
/-- UPDATEs with a value out of range. -/
def RSE_CNT_RANGE_EXCEEDED : Nat := 0xF00021000638
/-- Analyses run by FACTOR. -/
def RSE_CNT_REANALYSE : Nat := 0xF00021000640
/-- Growth restarts. -/
def RSE_CNT_GROWTH : Nat := 0xF00021000648
/-- FACTORs with at least one perturbed pivot. -/
def RSE_CNT_PERTURBED : Nat := 0xF00021000650
/-- Guesses rejected. -/
def RSE_CNT_WARM_REJECT : Nat := 0xF00021000658
/-- Imports refused on digest or signature. -/
def RSE_CNT_MISMATCH : Nat := 0xF00021000660
/-- Commands ended with ABORTED. -/
def RSE_CNT_ABORTED : Nat := 0xF00021000668
def MEMF_MAP : Nat := 0xF00022000000
def MEMF_SCRUB : Nat := 0xF00022000008
def MEMC_MAP : Nat := 0xF00022000010
def MEMC_SCRUB : Nat := 0xF00022000018
def MEMC_WC_CTRL : Nat := 0xF00022000020
def MEMC_CH_STATUS (w : Nat) : Nat := w + 0x0
/-- DIMM `k` of the channel window `w`. -/
def MEMC_CH_DIMM (w k : Nat) : Nat := w + 8 + 8 * k
def MEMC_CH_EVENT (w : Nat) : Nat := w + 0x18
def MEMC_CH_UE_ADDR (w : Nat) : Nat := w + 0x20
def MEMC_CH_CE_ADDR (w : Nat) : Nat := w + 0x28
def MEMF_ST_STATUS (w : Nat) : Nat := w
def MEMF_ST_LANES (w : Nat) : Nat := w + 8
def MEMF_ST_EVENT (w : Nat) : Nat := w + 0x10
def MEMF_ST_UE_ADDR (w : Nat) : Nat := w + 0x18
def MEMF_ST_CE_ADDR (w : Nat) : Nat := w + 0x20
def MEMF_ST_TEMP (w : Nat) : Nat := w + 0x28
/-- Counters of a stack or channel window begin here (Table MEM-10). -/
def MEM_CNT (w : Nat) : Nat := w + 0x100
/-- Counters of in-package link `l` (Table MEM-11). -/
def MEMF_LINK (l : Nat) : Nat := 0xF00022000100 + 0x20 * l
def HWS_ID : Nat := 0xF00030000000
def HWS_NODE : Nat := 0xF00030000008
def HWS_PART : Nat := 0xF00030000010
def HWS_CTRL : Nat := 0xF00030000018
def HWS_TIMEOUT : Nat := 0xF00030000020
def HWS_INGRESS_PT : Nat := 0xF00030000028
def HWS_PUT_PT : Nat := 0xF00030000030
def HWS_TOB : Nat := 0xF00030000038
def HWS_STATUS : Nat := 0xF00030000040
def HWS_EVENT : Nat := 0xF00030000048
def HWS_AMBIG : Nat := 0xF00030000050
def HWS_AMBIG_ADDR : Nat := 0xF00030000058
def HWS_PUT_FAIL : Nat := 0xF00030000060
/-- Requests sent, retries included. -/
def HWS_CNT_TX_REQ : Nat := 0xF00030000100
/-- Requests received. -/
def HWS_CNT_RX_REQ : Nat := 0xF00030000108
/-- Packet bytes sent. -/
def HWS_CNT_TX_BYTES : Nat := 0xF00030000110
/-- Packet bytes received. -/
def HWS_CNT_RX_BYTES : Nat := 0xF00030000118
/-- ns with the replay cache full (R360). -/
def HWS_CNT_CACHE_FULL_NS : Nat := 0xF00030000120
/-- ns with a port held by its tag window (R357). -/
def HWS_CNT_TAG_STALL_NS : Nat := 0xF00030000128
/-- Check 1. -/
def HWS_CNT_CRC_DROP : Nat := 0xF00030000130
/-- Check 2 and R348. -/
def HWS_CNT_MALFORMED : Nat := 0xF00030000138
/-- Check 3. -/
def HWS_CNT_PART_DROP : Nat := 0xF00030000140
/-- Check 4. -/
def HWS_CNT_STALE_EPOCH : Nat := 0xF00030000148
/-- Check 5. -/
def HWS_CNT_AGED : Nat := 0xF00030000150
/-- Requests answered or completed with NOT_READY. -/
def HWS_CNT_NOT_READY : Nat := 0xF00030000158
/-- Copies answered from the replay cache. -/
def HWS_CNT_REPLAY_HIT : Nat := 0xF00030000160
/-- Sends after the first. -/
def HWS_CNT_RETRY : Nat := 0xF00030000168
/-- Reads declared failed. -/
def HWS_CNT_TIMEOUT : Nat := 0xF00030000170
/-- Requests declared AMBIGUOUS. -/
def HWS_CNT_AMBIGUOUS : Nat := 0xF00030000178
/-- Responses after declaration. -/
def HWS_CNT_LATE_CPL : Nat := 0xF00030000180
/-- Requests ended by R384. -/
def HWS_CNT_ABORTED : Nat := 0xF00030000188
/-- Journal records overwritten. -/
def HWS_CNT_JOURNAL_OVF : Nat := 0xF00030000190
/-- Operations spilled. -/
def HWS_CNT_TO_SPILL : Nat := 0xF00030000198
/-- Operations refused with TO_FULL. -/
def HWS_CNT_TO_FULL : Nat := 0xF000300001A0
/-- Operations accepted after their step ended. -/
def HWS_CNT_TO_LATE : Nat := 0xF000300001A8
/-- Responses carrying back-off. -/
def HWS_CNT_HOT : Nat := 0xF000300001B0
/-- Staged sets discarded. -/
def HWS_CNT_REFRESH_OVF : Nat := 0xF000300001B8
/-- Refresh launches that did nothing. -/
def HWS_CNT_REFRESH_INVALID : Nat := 0xF000300001C0
/-- Window validations ignored. -/
def HWS_CNT_WIN_INVALID : Nat := 0xF000300001C8
/-- FABRIC_PUT actions that failed. -/
def HWS_CNT_PUT_FAIL : Nat := 0xF000300001D0
/-- Requests completed with NO_ROUTE. -/
def HWS_CNT_NO_ROUTE : Nat := 0xF000300001D8
def HWS_WIN_CFG (w : Nat) : Nat := w + 0x0
def HWS_WIN_SIZE (w : Nat) : Nat := w + 0x8
def HWS_WIN_REPA (w : Nat) : Nat := w + 0x10
def HWS_WIN_REPB (w : Nat) : Nat := w + 0x18
def HWS_WIN_AUX (w : Nat) : Nat := w + 0x20
def HWS_WIN_AUXSZ (w : Nat) : Nat := w + 0x28
def HWS_WIN_STATUS (w : Nat) : Nat := w + 0x30
def HWS_ROUTE (i : Nat) : Nat := 0xF00030800000 + 8 * i
def OPT_CTRL (w : Nat) : Nat := w + 0x0
def OPT_STATUS (w : Nat) : Nat := w + 0x8
def OPT_NEG (w : Nat) : Nat := w + 0x10
def OPT_PARTNER (w : Nat) : Nat := w + 0x18
def OPT_DELAY (w : Nat) : Nat := w + 0x20
def OPT_CAL (w : Nat) : Nat := w + 0x28
def OPT_LASER0 (w : Nat) : Nat := w + 0x30
def OPT_LASER1 (w : Nat) : Nat := w + 0x38
def OPT_EVENT (w : Nat) : Nat := w + 0x40
/-- DATA flits sent, replays included. -/
def OPT_CNT_FLIT_TX (w : Nat) : Nat := w + 0x100
/-- DATA flits accepted. -/
def OPT_CNT_FLIT_RX (w : Nat) : Nat := w + 0x108
/-- ns in which the transmitter sent a flit other than IDLE. -/
def OPT_CNT_BUSY_NS (w : Nat) : Nat := w + 0x110
/-- ns in which a packet waited for credit (R401). -/
def OPT_CNT_CREDIT_STALL_NS (w : Nat) : Nat := w + 0x118
/-- ns with the replay buffer full (R402). -/
def OPT_CNT_REPLAY_FULL_NS (w : Nat) : Nat := w + 0x120
/-- Replays started. -/
def OPT_CNT_RETRY (w : Nat) : Nat := w + 0x128
/-- Flits failing CRC or with a reserved FTYPE (R396). -/
def OPT_CNT_CRC_FAIL (w : Nat) : Nat := w + 0x130
/-- Link-down events. -/
def OPT_CNT_LINK_DOWN (w : Nat) : Nat := w + 0x138
/-- Training failures. -/
def OPT_CNT_TRAIN_FAIL (w : Nat) : Nat := w + 0x140
/-- Lanes replaced by a spare. -/
def OPT_CNT_LANE_SPARE (w : Nat) : Nat := w + 0x148
/-- Width reductions. -/
def OPT_CNT_WIDTH_DOWN (w : Nat) : Nat := w + 0x150
/-- Bits [15:0]: LASER_LOW events; bits [31:16]: INCOMPATIBLE events; each field saturating at 0xFFFF. -/
def OPT_CNT_LASER_LOW (w : Nat) : Nat := w + 0x158
def OPT_L_STAT (w : Nat) : Nat := w + 0x0
def OPT_L_CW (w : Nat) : Nat := w + 0x8
def OPT_L_CORR (w : Nat) : Nat := w + 0x10
def OPT_L_UNCORR (w : Nat) : Nat := w + 0x18
def CKP_CTRL : Nat := 0xF00040000000
def CKP_STATUS : Nat := 0xF00040000008
def CKP_STEP : Nat := 0xF00040000010
def CKP_PTBASE : Nat := 0xF00040000018
def CKP_RESTORE : Nat := 0xF00040000020
def CKP_EVENT : Nat := 0xF00040000028
def CKP_FAIL : Nat := 0xF00040000030
def CKP_FENCES : Nat := 0xF00040000038
/-- Bytes stored by cuts, manifests included. -/
def CKP_CNT_BYTES_OUT : Nat := 0xF00040000100
/-- Bytes read by restores. -/
def CKP_CNT_BYTES_IN : Nat := 0xF00040000108
/-- ns spent in cut and restore holds. -/
def CKP_CNT_HOLD_NS : Nat := 0xF00040000110
/-- Cut parts ended OK. -/
def CKP_CNT_CUT : Nat := 0xF00040000118
/-- Restores ended OK. -/
def CKP_CNT_RESTORE : Nat := 0xF00040000120
/-- Cuts and restores ended otherwise. -/
def CKP_CNT_FAIL : Nat := 0xF00040000128
/-- Requests refused by a closed ingress. -/
def CKP_CNT_CLOSED_REFUSED : Nat := 0xF00040000130
/-- Restores with a different signature. -/
def CKP_CNT_SIG_MISMATCH : Nat := 0xF00040000138
/-- Restores ended by a digest mismatch. -/
def CKP_CNT_DIGEST_FAIL : Nat := 0xF00040000140
/-- Bits [15:0]: TFENCEs denied; bits [31:16]: ignored cut launches; each field saturating at 0xFFFF. -/
def CKP_CNT_FENCE_DENIED : Nat := 0xF00040000148
end Reg

/-- Bits of each access code of Table SCO-4 in one register, and its reset value. A bit in none of the masks is RO or
reserved (R11). -/
structure RegSpec where
  name : String
  rw   : Nat
  w1c  : Nat
  w1s  : Nat
  rst  : Nat
  deriving DecidableEq, Repr

/-- A register that software cannot write and that resets to 0 (counters, R7). -/
def RegSpec.ro (n : String) : RegSpec := ⟨n, 0, 0, 0, 0⟩

namespace Spec
/-- Registers of the id map, by offset. -/
def idRegs : List (Nat × RegSpec) := [
  (0x0, ⟨"ID_DEVICE", 0x0, 0x0, 0x0, 0x5E300000100⟩),
  (0x8, ⟨"ID_STEPPING", 0x0, 0x0, 0x0, 0x14101⟩),
  (0x10, ⟨"ID_NUMERICS_SIG", 0x0, 0x0, 0x0, 0x4101000001000000⟩),
  (0x18, ⟨"ID_SERIAL", 0x0, 0x0, 0x0, 0x0⟩),
  (0x20, ⟨"ID_CAPS", 0x0, 0x0, 0x0, 0x0⟩),
  (0x28, ⟨"ID_CAPS_EFFECTIVE", 0x0, 0x0, 0x0, 0x0⟩),
  (0x30, ⟨"ID_STRANDS_EFF01", 0x0, 0x0, 0x0, 0x0⟩),
  (0x38, ⟨"ID_STRANDS_EFF23", 0x0, 0x0, 0x0, 0x0⟩),
  (0x40, ⟨"ID_NODE", 0x0, 0x0, 0x0, 0x0⟩)]
/-- Register arrays of the id map: offset, stride, number. -/
def idArrays : List (Nat × Nat × Nat × RegSpec) := [
]
/-- Registers of the hly map, by offset. -/
def hlyRegs : List (Nat × RegSpec) := [
  (0x0, ⟨"HLY_CTRL", 0x3, 0x0, 0x0, 0x0⟩),
  (0x8, ⟨"HLY_STATUS", 0x0, 0x0, 0x0, 0x100000⟩),
  (0x10, ⟨"HLY_TIMEBASE", 0x0, 0x0, 0x0, 0x0⟩),
  (0x18, ⟨"HLY_STEP", 0x0, 0x0, 0x0, 0x0⟩),
  (0x20, ⟨"HLY_DOMAIN", 0x0, 0x0, 0x0, 0x0⟩),
  (0x28, ⟨"HLY_TREE", 0x0, 0x0, 0x0, 0x0⟩),
  (0x30, ⟨"HLY_PERIOD", 0xFFFFFFFF, 0x0, 0x0, 0x0⟩),
  (0x38, ⟨"HLY_MARK12", 0xFFFFFFFFFFFFFFFF, 0x0, 0x0, 0x0⟩),
  (0x40, ⟨"HLY_MARK3", 0x7FFFFFFFF, 0x0, 0x0, 0x0⟩),
  (0x48, ⟨"HLY_GUARD_QUIET", 0xFFFFFFFFFFFFFFFF, 0x0, 0x0, 0x0⟩),
  (0x50, ⟨"HLY_SLIP_CFG", 0xFFFFFFF, 0x0, 0x0, 0x0⟩),
  (0x58, ⟨"HLY_PARAM", 0xFFFFFFFFFFFFFF, 0x0, 0x0, 0x0⟩),
  (0x60, ⟨"HLY_TICK_START", 0x0, 0x0, 0x0, 0x0⟩),
  (0x68, ⟨"HLY_TICK_END", 0x0, 0x0, 0x0, 0x0⟩),
  (0x70, ⟨"HLY_SLIPS", 0x0, 0x0, 0x0, 0x0⟩),
  (0x78, ⟨"HLY_OFFSET", 0x0, 0x0, 0x0, 0x0⟩),
  (0xD0, ⟨"HLY_DONE_MASK_U", 0x1F, 0x0, 0x0, 0x0⟩),
  (0x130, ⟨"HLY_DONE_U", 0x0, 0x0, 0x0, 0x0⟩),
  (0x138, ⟨"HLY_HOST_DONE", 0x0, 0x0, 0x0, 0x0⟩),
  (0x190, ⟨"HLY_LATE_U", 0x0, 0x0, 0x0, 0x0⟩),
  (0x198, ⟨"HLY_EVENT", 0x0, 0x3FF, 0x0, 0x0⟩)]
/-- Register arrays of the hly map: offset, stride, number. -/
def hlyArrays : List (Nat × Nat × Nat × RegSpec) := [
  (0x80, 8, 10, ⟨"HLY_DONE_MASK_C", 0xFFFFFFFFFFFFFFFF, 0x0, 0x0, 0x0⟩),
  (0xE0, 8, 10, ⟨"HLY_DONE_C", 0x0, 0x0, 0x0, 0x0⟩),
  (0x140, 8, 10, ⟨"HLY_LATE_C", 0x0, 0x0, 0x0, 0x0⟩)]
/-- Registers of the talq map, by offset. -/
def talqRegs : List (Nat × RegSpec) := [
  (0x0, ⟨"HLY_TALQ_ARM0", 0xFFFFFFFFFFFFFFFF, 0x0, 0x0, 0x0⟩),
  (0x8, ⟨"HLY_TALQ_ARM1", 0x0, 0x0, 0x0, 0x0⟩),
  (0x10, ⟨"HLY_TALQ_STATUS", 0x0, 0x0, 0x0, 0x0⟩),
  (0x18, ⟨"HLY_TALQ_CANCEL", 0x0, 0x0, 0x0, 0x0⟩),
  (0x20, ⟨"HLY_TALQ_LAUNCHED", 0x0, 0x0, 0x0, 0x0⟩)]
/-- Register arrays of the talq map: offset, stride, number. -/
def talqArrays : List (Nat × Nat × Nat × RegSpec) := [
]
/-- Registers of the rst map, by offset. -/
def rstRegs : List (Nat × RegSpec) := [
  (0x0, ⟨"RST_CAUSE", 0x0, 0x1FF, 0x0, 0x1⟩),
  (0x8, ⟨"RST_LAST", 0x0, 0x0, 0x0, 0x0⟩),
  (0x10, ⟨"RST_STRAP", 0x0, 0x0, 0x0, 0x0⟩),
  (0x18, ⟨"RST_STATUS", 0x0, 0x0, 0x0, 0x0⟩),
  (0x20, ⟨"RST_FAILSTART", 0x0, 0x0, 0x0, 0x0⟩),
  (0x28, ⟨"RST_CTRL", 0x0, 0x0, 0x0, 0x0⟩),
  (0x30, ⟨"RST_EVENT", 0x0, 0x3, 0x0, 0x0⟩),
  (0x40, ⟨"RST_PWR0", 0x0, 0x0, 0x0, 0x0⟩),
  (0x48, ⟨"RST_PWR1", 0x0, 0x0, 0x0, 0x0⟩),
  (0x50, ⟨"RST_PWR2", 0x0, 0x0, 0x0, 0x0⟩)]
/-- Register arrays of the rst map: offset, stride, number. -/
def rstArrays : List (Nat × Nat × Nat × RegSpec) := [
]
/-- Registers of the bwl map, by offset. -/
def bwlRegs : List (Nat × RegSpec) := [
  (0x0, ⟨"BWL_STATUS", 0x0, 0x0, 0x0, 0x100000000000000⟩),
  (0x8, ⟨"BWL_HEALTH_CONFIRM", 0x0, 0x0, 0x0, 0x0⟩),
  (0x10, ⟨"BWL_WDOG", 0xFFFF00000000, 0x0, 0x0, 0x271000000000⟩),
  (0x18, ⟨"BWL_FW", 0x0, 0x0, 0x0, 0x0⟩),
  (0x20, ⟨"BWL_FUSE", 0x0, 0x0, 0x0, 0x0⟩),
  (0x28, ⟨"BWL_GOV", 0x0, 0x0, 0x0, 0x0⟩),
  (0x30, ⟨"BWL_EVENT", 0x0, 0xFFF, 0x0, 0x0⟩),
  (0x38, ⟨"BWL_FRESET_CTR", 0x0, 0x0, 0x0, 0x0⟩),
  (0x100, ⟨"BWL_MBX_CTRL", 0xFFFF, 0x0, 0x0, 0x0⟩),
  (0x108, ⟨"BWL_MBX_STATUS", 0x0, 0x0, 0x0, 0x0⟩)]
/-- Register arrays of the bwl map: offset, stride, number. -/
def bwlArrays : List (Nat × Nat × Nat × RegSpec) := [
  (0x40, 8, 12, ⟨"BWL_CNT_x", 0x0, 0x0, 0x0, 0x0⟩),
  (0x200, 8, 32, ⟨"BWL_MBX_DATA", 0xFFFFFFFFFFFFFFFF, 0x0, 0x0, 0x0⟩)]
/-- Registers of the cfg map, by offset. -/
def cfgRegs : List (Nat × RegSpec) := [
  (0x0, ⟨"CFG_STATUS", 0x0, 0x0, 0x0, 0x0⟩),
  (0x8, ⟨"CFG_COPYA", 0x0, 0x0, 0x0, 0x0⟩),
  (0x10, ⟨"CFG_COPYB", 0x0, 0x0, 0x0, 0x0⟩),
  (0x18, ⟨"CFG_BOOTSTATE", 0x0, 0x0, 0x0, 0x0⟩),
  (0x20, ⟨"CFG_WRITE", 0x0, 0x0, 0x0, 0x0⟩),
  (0x28, ⟨"CFG_NVM", 0x0, 0x0, 0x0, 0x0⟩),
  (0x30, ⟨"CFG_KEYS", 0x0, 0x0, 0x0, 0x0⟩),
  (0x38, ⟨"CFG_EVENT", 0x0, 0x1F, 0x0, 0x0⟩)]
/-- Register arrays of the cfg map: offset, stride, number. -/
def cfgArrays : List (Nat × Nat × Nat × RegSpec) := [
]
/-- Registers of the log map, by offset. -/
def logRegs : List (Nat × RegSpec) := [
  (0x0, ⟨"BWL_LOG_STATUS", 0x0, 0x0, 0x0, 0x0⟩),
  (0x8, ⟨"BWL_TLM_STATUS", 0x0, 0x0, 0x0, 0x0⟩)]
/-- Register arrays of the log map: offset, stride, number. -/
def logArrays : List (Nat × Nat × Nat × RegSpec) := [
  (0x10000, 8, 16384, ⟨"BWL_LOG_RING", 0x0, 0x0, 0x0, 0x0⟩)]
/-- Registers of the ras map, by offset. -/
def rasRegs : List (Nat × RegSpec) := [
  (0x0, ⟨"RAS_SERVICE_REQUEST", 0x0, 0x0, 0x0, 0x0⟩),
  (0x8, ⟨"RAS_COOL", 0x0, 0x0, 0x0, 0x0⟩),
  (0x10, ⟨"RAS_EVENT", 0x0, 0x7FF, 0x0, 0x0⟩),
  (0x18, ⟨"RAS_FATAL", 0x0, 0x8000000000000000, 0x0, 0x0⟩),
  (0x20, ⟨"RAS_POISON_ADDR", 0x0, 0x8000000000000000, 0x0, 0x0⟩)]
/-- Register arrays of the ras map: offset, stride, number. -/
def rasArrays : List (Nat × Nat × Nat × RegSpec) := [
]
/-- Registers of the core map, by offset. -/
def coreRegs : List (Nat × RegSpec) := [
  (0x0, ⟨"TC_CTRL", 0x0, 0x0, 0x0, 0x0⟩),
  (0x8, ⟨"TC_STATUS", 0x0, 0x0, 0x0, 0x5⟩),
  (0x10, ⟨"TC_CFG", 0x8007, 0x0, 0x0, 0x0⟩),
  (0x18, ⟨"TC_CTX", 0x8000000000000FFF, 0x0, 0x0, 0x0⟩),
  (0x20, ⟨"TC_PTBASE", 0xFFFFFFFFF000, 0x0, 0x0, 0x0⟩),
  (0x28, ⟨"TC_DOORBELL", 0x0, 0x0, 0x0, 0x0⟩),
  (0x30, ⟨"TC_LAUNCH_STATUS", 0x0, 0x0, 0x0, 0x0⟩),
  (0x38, ⟨"TC_PC", 0x0, 0x0, 0x0, 0x0⟩),
  (0x40, ⟨"TC_FAULT", 0x0, 0x0, 0x0, 0x0⟩),
  (0x48, ⟨"TC_FAULT_INSN", 0x0, 0x0, 0x0, 0x0⟩),
  (0x50, ⟨"TC_FAULT_ADDR", 0x0, 0x0, 0x0, 0x0⟩),
  (0x58, ⟨"TC_EVENT", 0x0, 0xF, 0x0, 0x0⟩),
  (0x60, ⟨"TC_MAP", 0x0, 0x0, 0x0, 0x3FF⟩),
  (0x400, ⟨"ME_STATUS", 0x0, 0x0, 0x0, 0x0⟩),
  (0x408, ⟨"ME_FLAGS", 0x0, 0x0, 0x0, 0x0⟩),
  (0x410, ⟨"ME_EXC", 0x0, 0x0, 0x0, 0x0⟩),
  (0x418, ⟨"ME_EXC_INFO", 0x0, 0x0, 0x0, 0x0⟩),
  (0x420, ⟨"ME_CTRL", 0x0, 0x0, 0x0, 0x0⟩),
  (0x440, ⟨"ME_CNT_INSN", 0x0, 0x0, 0x0, 0x0⟩),
  (0x448, ⟨"ME_CNT_BUSY", 0x0, 0x0, 0x0, 0x0⟩),
  (0x450, ⟨"ME_CNT_NV", 0x0, 0x0, 0x0, 0x0⟩),
  (0x600, ⟨"VE_STATUS", 0x0, 0x0, 0x0, 0x0⟩),
  (0x608, ⟨"VE_FLAGS", 0x0, 0x0, 0x0, 0x0⟩),
  (0x610, ⟨"VE_EXC", 0x0, 0x0, 0x0, 0x0⟩),
  (0x618, ⟨"VE_EXC_INFO", 0x0, 0x0, 0x0, 0x0⟩),
  (0x620, ⟨"VE_CTRL", 0x0, 0x0, 0x0, 0x0⟩),
  (0x628, ⟨"VE_SEQ", 0x0, 0x0, 0x0, 0x0⟩),
  (0x640, ⟨"VE_CNT_INSN", 0x0, 0x0, 0x0, 0x0⟩),
  (0x648, ⟨"VE_CNT_BUSY", 0x0, 0x0, 0x0, 0x0⟩),
  (0x650, ⟨"VE_CNT_NV", 0x0, 0x0, 0x0, 0x0⟩),
  (0x800, ⟨"FID_STATUS", 0x0, 0x0, 0x0, 0x0⟩),
  (0x808, ⟨"FID_FLAGS", 0x0, 0x0, 0x0, 0x0⟩),
  (0x810, ⟨"FID_EXC", 0x0, 0x0, 0x0, 0x0⟩),
  (0x818, ⟨"FID_EXC_INFO", 0x0, 0x0, 0x0, 0x0⟩),
  (0x820, ⟨"FID_CTRL", 0x0, 0x0, 0x0, 0x0⟩),
  (0x828, ⟨"FID_SEQ", 0x0, 0x0, 0x0, 0x0⟩),
  (0x830, ⟨"FID_FAULT_DA", 0x0, 0x0, 0x0, 0x0⟩),
  (0x838, ⟨"FID_FAULT_INFO", 0x0, 0x0, 0x0, 0x0⟩),
  (0x840, ⟨"FID_FAULT_ELEM", 0x0, 0x0, 0x0, 0x0⟩),
  (0x848, ⟨"FID_FAULT_DESC", 0x0, 0x0, 0x0, 0x0⟩),
  (0x850, ⟨"FID_EVENT", 0x0, 0x1, 0x0, 0x0⟩)]
/-- Register arrays of the core map: offset, stride, number. -/
def coreArrays : List (Nat × Nat × Nat × RegSpec) := [
  (0x100, 8, 32, ⟨"TC_SREG", 0xFFFFFFFFFFFFFFFF, 0x0, 0x0, 0x0⟩),
  (0x1000, 8, 36, ⟨"ME_HIST", 0x0, 0x0, 0x0, 0x0⟩),
  (0x1200, 8, 36, ⟨"VE_HIST", 0x0, 0x0, 0x0, 0x0⟩),
  (0x900, 8, 36, ⟨"FID_HIST", 0x0, 0x0, 0x0, 0x0⟩)]
/-- Registers of the die map, by offset. -/
def dieRegs : List (Nat × RegSpec) := [
  (0x0, ⟨"TC_STRAND_MAP0", 0x0, 0x0, 0x0, 0x0⟩),
  (0x8, ⟨"TC_STRAND_MAP1", 0x0, 0x0, 0x0, 0x0⟩),
  (0x10, ⟨"TC_SPARE", 0x0, 0x0, 0x0, 0x1F⟩),
  (0x18, ⟨"TC_DIE_EVENT", 0x0, 0x3, 0x0, 0x0⟩),
  (0x20, ⟨"TC_CNT_SEM_OVF", 0x0, 0x0, 0x0, 0x0⟩),
  (0x28, ⟨"TC_CNT_EVQ_DROP", 0x0, 0x0, 0x0, 0x0⟩),
  (0x30, ⟨"TC_EVQ_PTBASE", 0xFFFFFFFFF000, 0x0, 0x0, 0x0⟩)]
/-- Register arrays of the die map: offset, stride, number. -/
def dieArrays : List (Nat × Nat × Nat × RegSpec) := [
  (0x10000, 8, 256, ⟨"TC_SEM_VALUE", 0xFFFFFFFF, 0x0, 0x0, 0x0⟩),
  (0x10800, 8, 256, ⟨"TC_SEM_OWNER", 0x1FFF, 0x0, 0x0, 0x0⟩)]
/-- Registers of the dieevq map, by offset. -/
def dieevqRegs : List (Nat × RegSpec) := [
  (0x0, ⟨"TC_EVQ_BASE", 0xFFFFFFFFFFE0, 0x0, 0x0, 0x0⟩),
  (0x8, ⟨"TC_EVQ_CTRL", 0xFFFF003F, 0x0, 0x0, 0xC⟩),
  (0x10, ⟨"TC_EVQ_HEAD", 0xFFFF, 0x0, 0x0, 0x0⟩),
  (0x18, ⟨"TC_EVQ_TAIL", 0x0, 0x0, 0x0, 0x0⟩),
  (0x20, ⟨"TC_EVQ_DROPPED", 0x0, 0x0, 0x0, 0x0⟩),
  (0x28, ⟨"TC_EVQ_OWNER", 0x1FFF, 0x0, 0x0, 0x0⟩)]
/-- Register arrays of the dieevq map: offset, stride, number. -/
def dieevqArrays : List (Nat × Nat × Nat × RegSpec) := [
]
/-- Registers of the hostevq map, by offset. -/
def hostevqRegs : List (Nat × RegSpec) := [
  (0x0, ⟨"HOST_EVQ_BASE", 0xFFFFFFFFFFE0, 0x0, 0x0, 0x0⟩),
  (0x8, ⟨"HOST_EVQ_CTRL", 0xFFFF003F, 0x0, 0x0, 0xC⟩),
  (0x10, ⟨"HOST_EVQ_HEAD", 0xFFFF, 0x0, 0x0, 0x0⟩),
  (0x18, ⟨"HOST_EVQ_TAIL", 0x0, 0x0, 0x0, 0x0⟩),
  (0x20, ⟨"HOST_EVQ_DROPPED", 0x0, 0x0, 0x0, 0x0⟩)]
/-- Register arrays of the hostevq map: offset, stride, number. -/
def hostevqArrays : List (Nat × Nat × Nat × RegSpec) := [
]
/-- Registers of the stack map, by offset. -/
def stackRegs : List (Nat × RegSpec) := [
  (0x0, ⟨"MEMF_ST_STATUS", 0x0, 0x0, 0x0, 0x0⟩),
  (0x8, ⟨"MEMF_ST_LANES", 0x0, 0x0, 0x0, 0x0⟩),
  (0x10, ⟨"MEMF_ST_EVENT", 0x0, 0x3F, 0x0, 0x0⟩),
  (0x18, ⟨"MEM_UE_ADDR", 0x0, 0x8000000000000000, 0x0, 0x0⟩),
  (0x20, ⟨"MEM_CE_ADDR", 0x0, 0x8000000000000000, 0x0, 0x0⟩),
  (0x28, ⟨"MEMF_ST_TEMP", 0x0, 0x0, 0x0, 0x0⟩)]
/-- Register arrays of the stack map: offset, stride, number. -/
def stackArrays : List (Nat × Nat × Nat × RegSpec) := [
]
/-- Registers of the host map, by offset. -/
def hostRegs : List (Nat × RegSpec) := [
  (0x0, ⟨"HOST_ID", 0x0, 0x0, 0x0, 0x10000440⟩),
  (0x8, ⟨"HOST_XCTRL", 0x7, 0x0, 0x0, 0x0⟩),
  (0x10, ⟨"HOST_PARTITION", 0x0, 0x0, 0x0, 0x0⟩),
  (0x18, ⟨"HOST_MGMT", 0x0, 0x0, 0x0, 0x0⟩),
  (0x20, ⟨"HOST_HART_RELEASE0", 0x0, 0x0, 0xFFFFFFFFFFFFFFFF, 0x0⟩),
  (0x28, ⟨"HOST_HART_RELEASE1", 0x0, 0x0, 0xF, 0x1⟩),
  (0x30, ⟨"HOST_EVENT", 0x0, 0xF, 0x0, 0x0⟩),
  (0x38, ⟨"HOST_POSTED_FAIL", 0x0, 0x8000000000000000, 0x0, 0x0⟩),
  (0x40, ⟨"HOST_POSTED_STATUS", 0x0, 0x0, 0x0, 0x0⟩)]
/-- Register arrays of the host map: offset, stride, number. -/
def hostArrays : List (Nat × Nat × Nat × RegSpec) := [
  (0x100, 8, 24, ⟨"HOST_FT_CACHE", 0xFFFFFFFFFFFFFFFF, 0x0, 0x0, 0x0⟩),
  (0x200, 8, 64, ⟨"HOST_AP", 0xE00000000000FFFF, 0x0, 0x0, 0x0⟩)]
/-- Registers of the rse map, by offset. -/
def rseRegs : List (Nat × RegSpec) := [
  (0x0, ⟨"RSE_ID", 0x0, 0x0, 0x0, 0x400800600420⟩),
  (0x8, ⟨"RSE_CTRL", 0x1F, 0x0, 0x0, 0x0⟩),
  (0x10, ⟨"RSE_STATUS", 0x0, 0x0, 0x0, 0x0⟩),
  (0x18, ⟨"RSE_SEQ", 0x0, 0x0, 0x0, 0x100000000⟩),
  (0x20, ⟨"RSE_PTBASE", 0xFFFFFFFFF000, 0x0, 0x0, 0x0⟩),
  (0x28, ⟨"RSE_REGION", 0x0, 0x0, 0x0, 0x0⟩),
  (0x30, ⟨"RSE_EVENT", 0x0, 0x3F, 0x0, 0x0⟩)]
/-- Register arrays of the rse map: offset, stride, number. -/
def rseArrays : List (Nat × Nat × Nat × RegSpec) := [
]
/-- Registers of the slot map, by offset. -/
def slotRegs : List (Nat × RegSpec) := [
  (0x0, ⟨"RSE_SLOT_STATE", 0x0, 0x0, 0x0, 0x0⟩),
  (0x8, ⟨"RSE_SLOT_SIZE", 0x0, 0x0, 0x0, 0x0⟩),
  (0x10, ⟨"RSE_SLOT_INFO", 0x0, 0x0, 0x0, 0x0⟩)]
/-- Register arrays of the slot map: offset, stride, number. -/
def slotArrays : List (Nat × Nat × Nat × RegSpec) := [
  (0x20, 8, 6, ⟨"RSE_SLOT_DIGEST", 0x0, 0x0, 0x0, 0x0⟩)]
/-- Registers of the mem map, by offset. -/
def memRegs : List (Nat × RegSpec) := [
  (0x0, ⟨"MEMF_MAP", 0x0, 0x0, 0x0, 0x0⟩),
  (0x8, ⟨"MEMF_SCRUB", 0x800000FF, 0x0, 0x0, 0x0⟩),
  (0x10, ⟨"MEMC_MAP", 0x0, 0x0, 0x0, 0x0⟩),
  (0x18, ⟨"MEMC_SCRUB", 0x800000FF, 0x0, 0x0, 0x0⟩),
  (0x20, ⟨"MEMC_WC_CTRL", 0x3FF00, 0x0, 0x0, 0x0⟩)]
/-- Register arrays of the mem map: offset, stride, number. -/
def memArrays : List (Nat × Nat × Nat × RegSpec) := [
]
/-- Registers of the chan map, by offset. -/
def chanRegs : List (Nat × RegSpec) := [
  (0x0, ⟨"MEMC_CH_STATUS", 0x0, 0x0, 0x0, 0x0⟩),
  (0x8, ⟨"MEMC_CH_DIMM", 0x0, 0x0, 0x0, 0x0⟩),
  (0x10, ⟨"MEMC_CH_DIMM", 0x0, 0x0, 0x0, 0x0⟩),
  (0x18, ⟨"MEMC_CH_EVENT", 0x0, 0x3F, 0x0, 0x0⟩),
  (0x20, ⟨"MEM_UE_ADDR", 0x0, 0x8000000000000000, 0x0, 0x0⟩),
  (0x28, ⟨"MEM_CE_ADDR", 0x0, 0x8000000000000000, 0x0, 0x0⟩)]
/-- Register arrays of the chan map: offset, stride, number. -/
def chanArrays : List (Nat × Nat × Nat × RegSpec) := [
]
/-- Registers of the hws map, by offset. -/
def hwsRegs : List (Nat × RegSpec) := [
  (0x0, ⟨"HWS_ID", 0x0, 0x0, 0x0, 0x1000007⟩),
  (0x8, ⟨"HWS_NODE", 0x0, 0x0, 0x0, 0x0⟩),
  (0x10, ⟨"HWS_PART", 0x0, 0x0, 0x0, 0x0⟩),
  (0x18, ⟨"HWS_CTRL", 0xFF0001, 0x0, 0x0, 0x0⟩),
  (0x20, ⟨"HWS_TIMEOUT", 0x1FFF1FFF00000FFF, 0x0, 0x0, 0x0⟩),
  (0x28, ⟨"HWS_INGRESS_PT", 0xFFFFFFFFF000, 0x0, 0x0, 0x0⟩),
  (0x30, ⟨"HWS_PUT_PT", 0xFFFFFFFFF000, 0x0, 0x0, 0x0⟩),
  (0x38, ⟨"HWS_TOB", 0xFFFFFFE000FF, 0x0, 0x0, 0x0⟩),
  (0x40, ⟨"HWS_STATUS", 0x0, 0x0, 0x0, 0x0⟩),
  (0x48, ⟨"HWS_EVENT", 0x0, 0x1FFF, 0x0, 0x0⟩),
  (0x50, ⟨"HWS_AMBIG", 0x0, 0x8000000000000000, 0x0, 0x0⟩),
  (0x58, ⟨"HWS_AMBIG_ADDR", 0x0, 0x0, 0x0, 0x0⟩),
  (0x60, ⟨"HWS_PUT_FAIL", 0x0, 0x8000000000000000, 0x0, 0x0⟩)]
/-- Register arrays of the hws map: offset, stride, number. -/
def hwsArrays : List (Nat × Nat × Nat × RegSpec) := [
  (0x800000, 8, 65536, ⟨"HWS_ROUTE", 0x8000000000000F73, 0x0, 0x0, 0x0⟩)]
/-- Registers of the hwin map, by offset. -/
def hwinRegs : List (Nat × RegSpec) := [
  (0x0, ⟨"HWS_WIN_CFG", 0xFF00FFFFFFFFF000, 0x0, 0x0, 0x0⟩),
  (0x8, ⟨"HWS_WIN_SIZE", 0xFFFF000007FFFFFF, 0x0, 0x0, 0x0⟩),
  (0x10, ⟨"HWS_WIN_REPA", 0xFFFFFFFFFFFFFFFF, 0x0, 0x0, 0x0⟩),
  (0x18, ⟨"HWS_WIN_REPB", 0xFFFFFFFFFFFFFFFF, 0x0, 0x0, 0x0⟩),
  (0x20, ⟨"HWS_WIN_AUX", 0xFFFFFFFFFFC0, 0x0, 0x0, 0x0⟩),
  (0x28, ⟨"HWS_WIN_AUXSZ", 0xFFFFFFFF, 0x0, 0x0, 0x0⟩),
  (0x30, ⟨"HWS_WIN_STATUS", 0x0, 0x0, 0x0, 0x0⟩)]
/-- Register arrays of the hwin map: offset, stride, number. -/
def hwinArrays : List (Nat × Nat × Nat × RegSpec) := [
]
/-- Registers of the opt map, by offset. -/
def optRegs : List (Nat × RegSpec) := [
  (0x0, ⟨"OPT_CTRL", 0x1F05, 0x0, 0x0, 0x0⟩),
  (0x8, ⟨"OPT_STATUS", 0x0, 0x0, 0x0, 0x0⟩),
  (0x10, ⟨"OPT_NEG", 0x0, 0x0, 0x0, 0x0⟩),
  (0x18, ⟨"OPT_PARTNER", 0x0, 0x0, 0x0, 0x0⟩),
  (0x20, ⟨"OPT_DELAY", 0xFF00000000000000, 0x0, 0x0, 0x0⟩),
  (0x28, ⟨"OPT_CAL", 0x3FF, 0x0, 0x0, 0x0⟩),
  (0x30, ⟨"OPT_LASER0", 0x0, 0x0, 0x0, 0x0⟩),
  (0x38, ⟨"OPT_LASER1", 0x0, 0x0, 0x0, 0x0⟩),
  (0x40, ⟨"OPT_EVENT", 0x0, 0x7F, 0x0, 0x0⟩)]
/-- Register arrays of the opt map: offset, stride, number. -/
def optArrays : List (Nat × Nat × Nat × RegSpec) := [
]
/-- Registers of the lane map, by offset. -/
def laneRegs : List (Nat × RegSpec) := [
  (0x0, ⟨"OPT_L_STAT", 0x0, 0x0, 0x0, 0x1F1F00⟩),
  (0x8, ⟨"OPT_L_CW", 0x0, 0x0, 0x0, 0x0⟩),
  (0x10, ⟨"OPT_L_CORR", 0x0, 0x0, 0x0, 0x0⟩),
  (0x18, ⟨"OPT_L_UNCORR", 0x0, 0x0, 0x0, 0x0⟩)]
/-- Register arrays of the lane map: offset, stride, number. -/
def laneArrays : List (Nat × Nat × Nat × RegSpec) := [
]
/-- Registers of the ckp map, by offset. -/
def ckpRegs : List (Nat × RegSpec) := [
  (0x0, ⟨"CKP_CTRL", 0x1F, 0x0, 0x0, 0x0⟩),
  (0x8, ⟨"CKP_STATUS", 0x0, 0x0, 0x0, 0x0⟩),
  (0x10, ⟨"CKP_STEP", 0x0, 0x0, 0x0, 0x0⟩),
  (0x18, ⟨"CKP_PTBASE", 0xFFFFFFFFF000, 0x0, 0x0, 0x0⟩),
  (0x20, ⟨"CKP_RESTORE", 0x0, 0x0, 0x0, 0x0⟩),
  (0x28, ⟨"CKP_EVENT", 0x0, 0xFF, 0x0, 0x0⟩),
  (0x30, ⟨"CKP_FAIL", 0x0, 0x0, 0x0, 0x0⟩),
  (0x38, ⟨"CKP_FENCES", 0x0, 0x0, 0x0, 0x0⟩)]
/-- Register arrays of the ckp map: offset, stride, number. -/
def ckpArrays : List (Nat × Nat × Nat × RegSpec) := [
]
end Spec

/-- The register at offset `off` of a map given by its single registers and its arrays. -/
def findReg (singles : List (Nat × RegSpec)) (arrays : List (Nat × Nat × Nat × RegSpec)) (off : Nat) : Option RegSpec :=
  match singles.lookup off with
  | some r => some r
  | none =>
    (arrays.find? fun e => decide (e.1 ≤ off) && (off - e.1) % e.2.1 == 0 && decide ((off - e.1) / e.2.1 < e.2.2.1)).map
      fun e => e.2.2.2

/-- Registers of a T-die region, at an offset of Table CSM-2. -/
def tdieSpec (off : Nat) : Option RegSpec :=
  if off < 0xA80000 then findReg Spec.coreRegs Spec.coreArrays (off % 0x10000)
  else if off < 0xF00000 then none
  else if off < 0xF80000 then
    if 0xF01000 ≤ off ∧ off < 0xF01200 then findReg Spec.dieevqRegs [] (off % 0x40)
    else findReg Spec.dieRegs Spec.dieArrays (past 0xF00000 off)
  else if off < 0xF83000 then findReg Spec.stackRegs [] (off % 0x1000)
  else none

/-- Registers of an F-die region `f` (R594). -/
def fdieSpec (f off : Nat) : Option RegSpec :=
  if 0x900000 ≤ off ∧ off < 0x904000 then
    let o := off % 0x1000
    if 0x400 ≤ o ∧ o < 0x400 + 0x20 * 18 then findReg Spec.laneRegs [] (o % 0x20)
    else findReg Spec.optRegs Spec.optArrays o
  else if f = 0 then
    if 0x1000 ≤ off ∧ off < 0x2000 then findReg Spec.hwinRegs [] (off % 0x40)
    else findReg Spec.hwsRegs Spec.hwsArrays off
  else none

/-- The register at address `a` of control space, or none where no table lists one (R588, R589). -/
def regSpec (a : Nat) : Option RegSpec :=
  if a % 8 ≠ 0 then none
  else if a < 0xF00000000000 then none
  else if a < 0xF00001000000 then findReg Spec.idRegs [] (past 0xF00000000000 a)
  else if a < 0xF00002000000 then
    let off := past 0xF00001000000 a
    if 0x1000 ≤ off ∧ off < 0x1700 then findReg Spec.talqRegs [] (off % 0x100)
    else findReg Spec.hlyRegs Spec.hlyArrays off
  else if a < 0xF00003000000 then findReg Spec.rstRegs [] (past 0xF00002000000 a)
  else if a < 0xF00004000000 then
    let off := past 0xF00003000000 a
    if off < 0x1000 then findReg Spec.bwlRegs Spec.bwlArrays off else findReg Spec.cfgRegs [] (past 0x1000 off)
  else if a < 0xF00010000000 then
    let off := past 0xF00004000000 a
    if off < 0x40000 then findReg Spec.logRegs Spec.logArrays off else findReg Spec.rasRegs [] (past 0x40000 off)
  else if a < 0xF00014000000 then tdieSpec ((past 0xF00010000000 a) % 0x1000000)
  else if a < 0xF00020000000 then none
  else if a < 0xF00021000000 then
    let off := past 0xF00020000000 a
    if 0x400 ≤ off ∧ off < 0x800 then findReg Spec.hostevqRegs [] (off % 0x40)
    else findReg Spec.hostRegs Spec.hostArrays off
  else if a < 0xF00022000000 then
    let off := past 0xF00021000000 a
    if 0x100 ≤ off ∧ off < 0x500 then findReg Spec.slotRegs Spec.slotArrays ((past 0x100 off) % 0x80)
    else findReg Spec.rseRegs [] off
  else if a < 0xF00023000000 then
    let off := past 0xF00022000000 a
    if 0x10000 ≤ off ∧ off < 0x1C000 then findReg Spec.chanRegs [] (off % 0x1000)
    else findReg Spec.memRegs [] off
  else if a < 0xF00030000000 then none
  else if a < 0xF00032000000 then fdieSpec ((past 0xF00030000000 a) / 0x1000000) ((past 0xF00030000000 a) % 0x1000000)
  else if a < 0xF00040000000 then none
  else if a < 0xF00041000000 then findReg Spec.ckpRegs [] (past 0xF00040000000 a)
  else none

/-- What a register reads as until something is written to it: its reset value, and 0 where no register is listed
(R11, R589). -/
def regReset (a : Nat) : Word :=
  match regSpec a with
  | some r => BitVec.ofNat 64 r.rst
  | none => 0

end Sys2Proof.Machine
end

