-- ==== Sys2Proof/Machine/State.lean ====
section
/-! DEFINITION. The state of the block. Every register of control space lives in `regs`, under its address (RegMap.lean
names them); what the spec gives the machine beyond its registers (memories, queues, buffers, pending operations) has a
field of its own, by unit. Nothing here is a function: states can be compared and written out. -/

namespace Sys2Proof.Machine

/-- Why the block stops in a fault. -/
inductive Fault where
  /-- Reserved for an access to memory that does not exist and for which the spec gives no other outcome. No command
  raises it today: every such access completes with UNIT_ABSENT (R25). Safe. -/
  | absentAddress
  deriving DecidableEq, Repr

/-- Why the block gives a command no meaning. -/
inductive Refusal where
  /-- The command's meaning is not written: raised by the arms of Dispatch.lean alone. Safe. -/
  | notModelled (mnemonic : String)
  deriving DecidableEq, Repr

/-! ### Event log (R494, R495) -/

/-- One 32-byte entry of the event ring (Table BWL-7). -/
structure LogEntry where
  eseq     : Nat
  severity : BitVec 2
  bitNo    : Nat
  code     : Nat
  time     : Nat
  reg      : Nat
  detail   : Nat
  step     : Nat
  deriving DecidableEq, Repr

/-! ### Memory (R313 to R338, R550) -/

/-- A write-combining entry (R329): its line, the bytes it holds by their offset in the line, and the TIMEBASE at which it
was allocated. -/
structure WcEntry where
  line  : Nat
  bytes : List (Nat × Byte)
  born  : Nat
  deriving DecidableEq, Repr

/-- The memory tiers and tile stores, by local offset (Table MEM-1). -/
structure MemSt where
  /-- Stored bytes; an unlisted byte is 0. -/
  data    : List Host.Cell
  /-- Poisoned lines, by the offset of the line (R550). -/
  poison  : List (Nat × Bool)
  /-- Errors of stored lines, by the offset of the line. -/
  errs    : List (Nat × LineErr)
  /-- Write-combining entries of every channel, oldest first. -/
  wc      : List WcEntry
  /-- Channels over which the stored bytes of the capacity window are laid out (R314, R454). -/
  capMap  : List Nat
  /-- Next line of each scrubber: stack s under s, channel c under 16 + c (R334). -/
  scrub   : List (Nat × Nat)
  /-- TIMEBASE at which each scrubber's pass began, and passes that have overrun their period (R335). -/
  scrubAt   : List (Nat × Nat)
  scrubLate : List (Nat × Bool)
  /-- TIMEBASE of the uncorrectable reads of a unit within the last second (R337). -/
  ueAt      : List (Nat × List Nat)
  deriving DecidableEq, Repr

/-! ### Tensor cores -/

/-- An active hardware loop (R86): first and last PC of its body and the repeats left, the current one included. -/
structure LoopFrame where
  first : Nat
  last  : Nat
  left  : Nat
  deriving DecidableEq, Repr

/-- What a fault records (R114): the fields of TC_FAULT, TC_FAULT_ADDR and TC_FAULT_INSN. -/
structure FaultRec where
  code      : Nat
  source    : Nat
  imprecise : Bool
  detail    : Nat
  addr      : Word
  word      : Word
  pc        : Nat
  deriving DecidableEq, Repr

/-- What a core's sequencer waits for. -/
inductive CoreWait where
  | none
  /-- A tick wait for `phase` of `step`, its result to `sd` (R101). `judge`: issued in JOINING, to be judged when the node
  becomes RUNNING (R103). -/
  | tick (step phase sd : Nat) (judge : Bool)
  /-- A TWAITN issued in JOINING, to be judged when the node becomes RUNNING, against the step after that moment's (R103). -/
  | joinNext (phase sd : Nat)
  /-- SEMWAIT on semaphore `n` for `amount` (R108). -/
  | sem (n amount : Nat)
  /-- A SEMINC of `amount` on semaphore `n`, held back until earlier writes are visible (R107). -/
  | semHold (n amount : Nat)
  /-- The drain of DONE or HALT (R104). -/
  | drain (signal halt : Bool)
  /-- FENCE on the classes of work in `sel` (Table TCR-6). -/
  | fence (sel : Nat)
  /-- A full engine queue or a hazard (R90, R91): the instruction at PC issues again once Fid has moved on. -/
  | stall
  /-- A fault that is recorded once the Fid engine has completed what it holds (R114). -/
  | fault (f : FaultRec)
  deriving DecidableEq, Repr

/-- A core, beyond its registers. -/
structure CoreSt where
  /-- Loop stack, innermost first (R86). -/
  loops   : List LoopFrame
  wait    : CoreWait
  /-- Local offset of the descriptor of the last accepted launch, as DESC named it (READSYS 8, R94, R96). -/
  desc    : Nat
  /-- Program image copy still to do: source device address, destination, length, entry and the S registers to load (R99). -/
  loading : Option (List Word)
  /-- STOP taken, engines still to finish (R115). -/
  stopping : Bool
  /-- TC_CTX write that waits for armed transfers of an idle core (chapter 7, corner case). -/
  ctxHeld : Option Word
  deriving DecidableEq, Repr

def CoreSt.reset : CoreSt := ⟨[], .none, 0, none, false, none⟩

/-- The cores of the four T-dies, by logical core number. -/
structure CoresSt where
  /-- Program memories: byte `o` of core `c` under c × 2^18 + o. -/
  pmem     : List Host.Cell
  /-- Poisoned program words: word `i` of core `c` under c × 2^15 + i (Table RAS-2). -/
  pmPoison : List (Nat × Bool)
  /-- Tile registers: byte `b` of row `r` of Tt of core `c` under c × 2^17 + t × 4096 + r × 128 + b. -/
  tiles    : List Host.Cell
  /-- Poisoned rows of 128 bytes (Table RAS-2): row `r` of Tt of core `c` under c × 2^11 + t × 32 + r, row `r` of Mm under
  c × 2^11 + 1024 + m × 4 + r. -/
  tilePoison : List (Nat × Bool)
  /-- Mask registers: byte `b` of Mm of core `c` under c × 2^12 + m × 512 + b. -/
  masks    : List Host.Cell
  cores    : List (Nat × CoreSt)
  /-- SEQ of the next event of each queue, by the address of the queue's registers (R111, R112). -/
  evqSeq   : List (Nat × Nat)
  /-- Poisoned semaphores, by semaphore number (R551). -/
  semPoison : List (Nat × Bool)
  /-- Waiting SEMWAITs in the order they reached their semaphore: semaphore, core, amount (R108). -/
  semWaits : List (Nat × Nat × Nat)
  /-- TIMEBASE of the contained errors of a strand, under 20 × die + strand, within the last second (R556). -/
  strandErr : List (Nat × List Nat)
  deriving DecidableEq, Repr

/-! ### Halyard -/

/-- A set of tick parameters (Table HLY-2). -/
structure TickParams where
  period   : Nat
  mark1    : Nat
  mark2    : Nat
  mark3    : Nat
  markEn   : Nat
  guard    : Nat
  quiet    : Nat
  quantum  : Nat
  maxSlips : Nat
  gen      : Nat
  deriving DecidableEq, Repr

/-- An attached child (R30): its node, its last SLIP_STATE and the TIMEBASE at which it was last heard (R511). -/
structure Child where
  node    : Nat
  pending : Bool
  latency : Nat
  heard   : Nat
  deriving DecidableEq, Repr

/-- A TALQ entry (Table HLY-5) and who armed it. -/
structure TalqEntry where
  queue : Nat
  w0    : Word
  w1    : Word
  deriving DecidableEq, Repr

/-- A tick symbol sent towards a node (R399 says how the port sends it). -/
structure SentSymbol where
  dst  : Nat
  type : Nat
  sym  : TickSymbol
  deriving DecidableEq, Repr

structure HlySt where
  /-- 16-bit fraction of TIMEBASE (R34), the millionths of its last place that a slewed nanosecond leaves over, and the slew rate
  in ppm (R36). -/
  frac     : Nat
  slewRem  : Nat
  rate     : Int
  /-- The wait of `step` on an empty queue ticks TIMEBASE only while the Halyard domain is out of reset. -/
  running  : Bool
  children : List Child
  /-- Exchange with the parent (R36): sequence number of the last TIME_REQ, its send time, whether its answer is due, the
  consecutive misses and the consecutive exchanges within 5 ns. -/
  seq      : Nat
  t1       : Nat
  awaiting : Bool
  missed   : Nat
  lockRun  : Nat
  hopLat   : Int
  /-- Attached to the alternate parent (R39). -/
  useAlt   : Bool
  /-- Tick symbols applied in the current tick (R399). -/
  seen     : List (Nat × TickSymbol)
  active   : TickParams
  stagedPeriod : Nat
  /-- The committed set and its effective step (R44). -/
  committed : Option (TickParams × Nat)
  /-- The TICK_FINAL held for a tick: STEP, TIME_A, TIME_B. -/
  final    : Option (Nat × Nat × Nat)
  /-- The latest TICK_EXTEND or TICK_FINAL held for the current tick (R39): type and symbol. -/
  latest   : Option (Nat × TickSymbol)
  /-- CHILDREN of the last TICK_FINAL received (R40). -/
  lastChildren : Nat
  /-- Master by takeover, some subtrees not yet heard (R40). -/
  takeover : Bool
  /-- The guard point and the start of the quiet band of this tick have passed. -/
  guardDone : Bool
  quiet    : Bool
  /-- Ports whose forced calibration slip is due since the guard point (R64). -/
  forced   : List Nat
  /-- Held at the boundary by a checkpoint cut (R510). -/
  cutHold  : Bool
  /-- Held at E without a TICK_FINAL (R53). -/
  lateHold : Bool
  /-- Writes to the done mask that take effect at the next tick start (R47), by register address. -/
  maskNext : List (Nat × Word)
  /-- Entries of every TALQ in arming order (R57, R59). -/
  talq     : List TalqEntry
  /-- Per source agent: ARM0 value, last result, LAST_TAG and CANCEL_COUNT, under queue × 128 + agent (R60, R62). -/
  arm0     : List (Nat × Word)
  armInfo  : List (Nat × (Nat × Nat × Nat))
  /-- Tick symbols sent, oldest first, until a port transmits them (R399). -/
  sent     : List SentSymbol
  deriving DecidableEq, Repr

/-! ### Host processor complex -/

/-- Privilege of a hart; `s` is HS-mode. -/
inductive HartMode where
  | m
  | s
  | vs
  | u
  | vu
  deriving DecidableEq, Repr

/-- What a trap into one privilege level saves and uses: exception PC, cause, value, the fault CSR of R271, vector, the
privilege and interrupt enable before the trap, and the enable now. -/
structure TrapRegs where
  epc    : Word
  cause  : Word
  tval   : Word
  xfault : Word
  tvec   : Word
  prev   : HartMode
  pie    : Bool
  ie     : Bool
  deriving DecidableEq, Repr

def TrapRegs.reset : TrapRegs := ⟨0, 0, 0, 0, 0, .u, false, false⟩

/-- What a hart waits for: the moment of a TICK.WAIT (R261; `judge` while it waits in JOINING), the drain of TICK.DONE or FWAIT
(R263), or the answer of a load or AMO through an aperture (R267). -/
inductive HartWait where
  | none
  | tick (step phase rd : Nat) (judge : Bool)
  | drain (rd : Nat) (signal : Bool)
  | remote (va : Word) (rd size : Nat) (signed amo : Bool)
  deriving DecidableEq, Repr

/-- A hart, beyond its x and v registers. -/
structure HartSt where
  pc      : Word
  mode    : HartMode
  mtrap   : TrapRegs
  strap   : TrapRegs
  vstrap  : TrapRegs
  medeleg : Word
  hedeleg : Word
  vl      : Nat
  vtype   : Word
  vstart  : Nat
  frm     : Nat
  fflags  : Nat
  wait    : HartWait
  /-- Line of 64 bytes that an LR reserved. -/
  resv    : Option Nat
  /-- Comparisons of Sstc (R247). -/
  stimecmp  : Word
  vstimecmp : Word
  /-- Posted operations completed with an error since the last TICK.DONE or FWAIT (R263, R266). -/
  errs    : Nat
  deriving DecidableEq, Repr

def HartSt.reset : HartSt where
  pc := 0
  mode := .m
  mtrap := TrapRegs.reset
  strap := TrapRegs.reset
  vstrap := TrapRegs.reset
  medeleg := 0
  hedeleg := 0
  vl := 0
  vtype := 0x8000000000000000
  vstart := 0
  frm := 0
  fflags := 0
  wait := .none
  resv := none
  stimecmp := 0
  vstimecmp := 0
  errs := 0

structure HostSt where
  /-- Pending and enabled identities of the interrupt files, under file × 2^16 + hart × 512 + identity (R272): file 0 is the S-level
  file, 1 to 4 the guest files, 5 the M-level file. -/
  imsic   : List (Nat × Bool)
  imsicOn : List (Nat × Bool)
  /-- Delivery enables and thresholds of the files, under file × 128 + hart (R272). -/
  imsicDelivery  : List (Nat × Bool)
  imsicThreshold : List (Nat × Nat)
  harts  : List (Nat × HartSt)
  /-- x registers under hart × 32 + number; byte `b` of register `v` under hart × 2^14 + v × 512 + b. -/
  xregs  : List (Nat × Word)
  vregs  : List Host.Cell
  deriving DecidableEq, Repr

/-! ### Fid -/

/-- An FXFER or FREC in a Fid queue (R213): what its issue read. -/
structure FidInsn where
  core : Nat
  frec : Bool
  /-- Descriptor address of an FXFER, tile-store address of an FREC. -/
  addr : Word
  so   : Word
  dO   : Word
  /-- S[RKEY] to S[RKEY + 3], where RKEY is not 0. -/
  key  : List Word
  /-- FID_SEQ before the increment. -/
  seq  : Nat
  pc   : Nat
  word : Word
  deriving DecidableEq, Repr

/-- A remote access of a transfer: offset, length, bytes of a write, element and SIDE. -/
structure FidPut where
  off   : Nat
  bytes : List Byte
  elem  : Nat
  side  : Nat
  deriving DecidableEq, Repr

/-- Flags, histogram words with their events, and the first NV element with its kind (R224 to R226). -/
structure FidAcc where
  flags : Nat
  hist  : List (Nat × Nat)
  nv    : Option (Nat × Nat)
  bytes : Nat
  deriving DecidableEq, Repr

/-- A transfer under way (R213, R228). -/
structure Xfer where
  /-- Number of the transfer, by which answers find it. -/
  id      : Nat
  core    : Nat
  armed   : Bool
  /-- Descriptor address and words, offsets S[RSO] and S[RDO], and the rounding key (R223). -/
  desc    : Nat
  words   : List Word
  so      : Word
  dO      : Word
  key     : List Word
  seq     : Nat
  pc      : Nat
  word    : Word
  /-- The next destination element or block to move, in L order. -/
  unit    : Nat
  /-- Bytes of that unit's remote source accesses answered so far. -/
  got     : List (List Byte)
  /-- That unit's remote writes still to be completed; the first has been sent. -/
  puts    : List FidPut
  /-- What the units written so far add, and what that unit adds once its remote writes are acknowledged. -/
  acc     : FidAcc
  unitAcc : FidAcc
  /-- Every local access is done; remote completions may be due (R228). -/
  localDone : Bool
  /-- Lowest byte, and the byte after the highest, of the core's own tile store that it reads or writes; equal where it
  touches none (R213). -/
  ownLo   : Nat
  ownHi   : Nat
  /-- Descriptor bytes in the core's own tile store, as offsets and lengths (R213). -/
  ownDesc : List (Nat × Nat)
  deriving DecidableEq, Repr

structure FidSt where
  /-- Transfers that have begun and are not complete, by core, in the order they began. -/
  xfers   : List Xfer
  /-- Instructions issued whose turn has not come, of every core, in the order of issue (R213). -/
  queue   : List FidInsn
  /-- Armed transfers launched that have not begun (R214). -/
  armed   : List Xfer
  /-- Number of the next transfer. -/
  nextId  : Nat
  deriving DecidableEq, Repr

/-! ### Non-volatile memory -/

/-- A copy of the loss record (R496): its RSEQ, the serial number it holds, and its entries, kind and index. -/
structure LossRec where
  rseq   : Nat
  serial : Nat
  losses : List (Nat × Nat)
  deriving DecidableEq, Repr

/-- A boot-state record (R470, Table RST-8). -/
structure BootRec where
  rseq      : Nat
  confSeq   : Nat
  rejSeq    : Nat
  fails     : Nat
  confKnown : Bool
  rejKnown  : Bool
  active    : Nat
  trial     : Bool
  deriving DecidableEq, Repr

/-- A fatal record (R496): the causing event entry, then the entries that preceded it, the latest first. -/
structure FatalRec where
  fseq    : Nat
  serial  : Nat
  time    : Nat
  step    : Nat
  cause   : Nat
  entries : List LogEntry
  deriving DecidableEq, Repr

structure NvmSt where
  /-- The two copies of the loss record; none where a copy is not valid (R496). -/
  lossA : Option LossRec
  lossB : Option LossRec
  /-- What the SFDP table declares (R419). -/
  present : Bool
  sizeMib : Nat
  addr4   : Bool
  quad    : Bool
  erase64 : Bool
  erase4  : Bool
  /-- Bytes of the NVM header, the configuration copies, the firmware slots and the staging area, by flash offset; an
  unlisted byte is erased, 0xFF (R432). -/
  flash   : List Host.Cell
  /-- Valid records in the two halves of the boot state, in the order of their slots (R470, R471). -/
  bootA   : List BootRec
  bootB   : List BootRec
  /-- Fatal records by their place in the ring, and the place written next (R496). -/
  fatals  : List (Nat × FatalRec)
  fatalAt : Nat
  deriving DecidableEq, Repr

/-- A write of the flash that waits for a configuration write (R441): a fatal record, with the reset source that follows it; a boot
record; a loss. -/
inductive NvmJob where
  | fatal (ok : Bool) (r : FatalRec) (source : Option Nat)
  | boot (ok : Bool) (r : BootRec)
  | loss (kind index : Nat)
  deriving DecidableEq, Repr

/-! ### Hawser -/

/-- What issued a request: the Fid transfer numbered `id`, a hart (0 load, 1 store, 2 AMO, 3 FACC), the FABRIC_PUT numbered
`id`, the REPLICA_REFRESH numbered `id` towards replica `rep`, or the checkpoint engine for its store `slot`. -/
inductive Origin where
  | fid (id : Nat)
  | hart (h op addr : Nat)
  | put (id : Nat)
  | refresh (id rep : Nat)
  | ckp (slot : Nat)
  deriving DecidableEq, Repr

/-- A request that this node has issued and that is not completed (R353, R357, R361). -/
structure Req where
  origin  : Origin
  type    : Nat
  tc      : Nat
  dst     : Nat
  agent   : Nat
  scount  : Nat
  step16  : Nat
  off     : Nat
  len     : Nat
  fmt     : Nat
  op      : Nat
  payload : List Byte
  /-- Port that allocated the tag, the tag, the ports of its sends, the last first, the time of the first send, T and Λ in µs, and
  the number of sends. -/
  sport   : Nat
  tag     : Nat
  paths   : List Nat
  t0      : Nat
  reqUs   : Nat
  leaseUs : Nat
  sends   : Nat
  deriving DecidableEq, Repr

/-- An entry of the replay cache (R358): its key, the request's type, the stored response, when it was applied and when
its lease ends. -/
structure ReplayEntry where
  src     : Nat
  sport   : Nat
  tag     : Nat
  type    : Nat
  status  : Nat
  old     : List Byte
  step16  : Nat
  applied : Nat
  until_  : Nat
  /-- The tag on the running count of its source and port. -/
  ext     : Nat
  deriving DecidableEq, Repr

/-- An operation held for a tick-ordered window (R367), at its physical offset; an ACC carries FMT. -/
structure HeldOp where
  step   : Nat
  src    : Nat
  agent  : Nat
  scount : Nat
  addr   : Nat
  acc    : Bool
  fmt    : Nat
  data   : List Byte
  deriving DecidableEq, Repr

/-- A refresh set staged at a replica (R376): window, source and its data packets so far with their physical offsets, the
number that its end marker names, and whether it was discarded. -/
structure StageSet where
  win   : Nat
  count : Nat
  lines : List (Nat × List Byte)
  /-- How many of its lines the stage region of its window holds; the others are in the refresh buffer. -/
  spilt : Nat
  need  : Option Nat
  lost  : Bool
  deriving DecidableEq, Repr

/-- A FABRIC_PUT that has launched (R380): its F-die and TAG, the semaphore to increment, the requests not answered, the
bytes completed and the first status that failed. -/
structure PutJob where
  id     : Nat
  f      : Nat
  tag    : Nat
  semEn  : Bool
  sem    : Nat
  semInc : Nat
  len    : Nat
  open_  : Nat
  done   : Nat
  bad    : Option Nat
  deriving DecidableEq, Repr

/-- A REPLICA_REFRESH that has launched (R375): its F-die, window, the replicas that are sent every line, and the packets not
answered. -/
structure RefreshJob where
  id     : Nat
  f      : Nat
  win    : Nat
  full   : List Nat
  open_  : Nat
  deriving DecidableEq, Repr

/-- The Hawser endpoint of F-die 0 (R346). -/
structure HwsSt where
  /-- Requests sent and not completed, and requests that the egress holds (R344, R357, R382), in order of issue. -/
  reqs     : List Req
  held     : List Req
  /-- Requests declared failed whose response may still come: port and tag (R364). -/
  declared : List (Nat × Nat)
  /-- Next tag of each port, and each agent's SCOUNT of the current step. -/
  nextTag  : List (Nat × Nat)
  scount   : List (Nat × Nat)
  /-- RELEASE words that wait: responder, port and tag (R359). -/
  release  : List (Nat × Nat × Nat)
  /-- Replay cache and journal, oldest first, and the latest application time of a record overwritten (R365). -/
  cache    : List ReplayEntry
  journal  : List ReplayEntry
  journalLost : Option Nat
  /-- Running count of the newest tag of each source and port, under source × 8 + port. -/
  tops     : List (Nat × Nat)
  /-- Held operations (R366), in the order of acceptance. -/
  tob      : List HeldOp
  /-- The application of a tick end has not finished (R369). -/
  toBusy   : Bool
  /-- Windows whose staged set is being written into the copy (R376). -/
  repBusy  : List Nat
  stage    : List StageSet
  /-- Writes of VALID = 0 to a tick-ordered window that wait for the application of the next tick end (R371). -/
  winOff   : List (Nat × Word)
  /-- Packets that wait, in the order of arrival, each with the port whose credit it holds: for window accesses to resume, for a free
  replay entry, behind an earlier TC3 request of its agent (R354), or for the data packets of a refresh (R376). -/
  parked   : List (Option Nat × Packet)
  /-- Back-off in force: agent, node, line and its end (R382). -/
  backoff  : List (Nat × Nat × Nat × Nat)
  puts     : List PutJob
  refresh  : List RefreshJob
  /-- Number of the next put or refresh. -/
  nextJob  : Nat
  /-- Packets handed to the ports and not yet transmitted, with their port, in order. -/
  out      : List (Nat × Packet)
  deriving DecidableEq, Repr

/-! ### Checkpoint engine -/

/-- A shard written (R516, R517): its slot (0 the held shard, 1 + i entry i of the plan), stored bytes, saturated and NaN
elements, and digest. -/
structure CkpRec where
  slot   : Nat
  stored : Nat
  sat    : Nat
  nans   : Nat
  digest : List Byte
  deriving DecidableEq, Repr

structure CkpSt where
  /-- Cut descriptor, plan entries in ascending SHARD_ID, and seeds (R508). -/
  desc   : List Word
  plan   : List (List Word)
  seeds  : List Byte
  /-- First failure of the node's part: a result of Table CKP-11. -/
  bad    : Option Nat
  /-- TIMEBASE at which the hold began, and whether the ingress is closed (R513). -/
  holdAt : Nat
  closed : Bool
  /-- Progress: 0 none, 1 draining, 2 shards, 3 to 5 the stages of the node manifest, 6 gather record and fence, 7 the
  designated node's wait for fences, 8 to 10 the stages of the partition manifest, 11 a restore. -/
  stage  : Nat
  /-- Plan entries begun, requests unanswered by store, shards written, and the body and address of the manifest being
  written, with its MSEQ. -/
  begun  : Nat
  open_  : List (Nat × Nat)
  recs   : List CkpRec
  man    : List Byte
  manAt  : Nat
  mseq   : Nat
  /-- Header digest of the committed node manifest. -/
  mdigest : List Byte
  /-- Held shards stored so far, with their operations (R515). -/
  helds  : List (List Byte × List HeldOp)
  /-- Restore: descriptor and manifest (R525, R526). -/
  rdesc  : List Word
  rman   : List Byte
  deriving DecidableEq, Repr

/-! ### PCI Express -/

/-- What the root port sends: a memory read or write to a bus address, a configuration read or write by the offset in the
configuration window, or the completion of a device's read with its data and its EP bit, none of them where the address does
not exist. -/
inductive PcieKind where
  | read
  | write
  | cfgRead
  | cfgWrite
  | done (ep : Bool)
  | absent
  deriving DecidableEq, Repr

structure PcieOut where
  kind  : PcieKind
  addr  : Nat
  bytes : List Byte
  deriving DecidableEq, Repr

/-! ### Optical ports -/

/-- A flit handed to the fibre on a physical lane (Table OPT-4). -/
structure FlitOut where
  port  : Nat
  lane  : Nat
  flit  : Flit
  /-- The 544 symbols of its codeword, scrambled and encoded, in the order of transmission (R393). -/
  code  : List Nat
  /-- The times that a TRAIN flit carries (R412): its send time; in an answer, the receive time of the flit it answers before that. -/
  times : List Nat
  deriving DecidableEq, Repr

/-- A scheduled change of the receive (`rx`) or transmit lane map (R409): the logical lane, the spare that takes it over or
none where the width falls, and the codeword period. -/
structure Remap where
  rx     : Bool
  lane   : Nat
  spare  : Option Nat
  period : Nat
  deriving DecidableEq, Repr

/-- A DATA flit that waits for its acknowledgement (R402): its number, its payload and the TIMEBASE of its last send. -/
structure ReplayFlit where
  seq     : Nat
  payload : List Byte
  sentAt  : Nat
  deriving DecidableEq, Repr

/-- A port, beyond its registers. -/
structure PortSt where
  /-- Transmit: next sequence number, unacknowledged DATA flits, oldest first, how many of them a running replay has still
  to send, the rest of a packet partly placed in the stream (R398), the second copy of a tick symbol (R399), a NAK that is
  due with the time of the last, REMAP flits that are due, the codeword period, the class of 3 and 4 that sent last, and
  the packets of 3 and 4 sent since a waiting class 5 packet (R349). -/
  txSeq    : Nat
  replay   : List ReplayFlit
  resend   : Nat
  txPart   : List Byte
  again    : Option SentSymbol
  nakDue   : Bool
  nakAt    : Nat
  remapDue : List Remap
  period   : Nat
  /-- The PRBS31 register of each physical lane, synchronised at training (R393). -/
  scram    : List (Nat × Nat)
  last34   : Nat
  since5   : Nat
  /-- The SEQ of the last NAK received and how often in a row it came (R405). -/
  nakSeq   : Nat
  nakRun   : Nat
  /-- Receive: expected sequence number, whether a flit was accepted since training, whether flits are being discarded
  (R403), and the bytes of a packet not yet complete. -/
  rxSeq    : Nat
  rxAny    : Bool
  rxLost   : Bool
  rxPart   : List Byte
  /-- The codeword period that is being received, and the logical lane of its last codeword (R397). -/
  rxPeriod : Nat
  rxLast   : Nat
  /-- Credits by class 1 to 5 (R401): the partner's initial units, units sent and units returned by it, modulo 4,096, the
  totals this end returns, and the class reported next. -/
  crInit   : List Nat
  crSent   : List Nat
  crBack   : List Nat
  crOwn    : List Nat
  crNext   : Nat
  /-- Training: the 10 ms wait after a failure with its start, lanes that qualified, the partner's receive map with its
  spares, its CAPS record, how many timestamped flits this end has sent, the send times of those not answered, the receive times of the
partner's not answered, and the round trips less turnaround so far (R406, R407, R411, R412). -/
  waiting  : Bool
  waitAt   : Nat
  qualified : List Nat
  peerMap  : List Nat
  peerSpares : List Nat
  peerCaps : List Word
  asked    : Nat
  asks     : List Nat
  toAnswer : List Nat
  stamps   : List Nat
  /-- A calibration burst is due and has not run, and the TIMEBASE at which the last one ended (R414). -/
  calDue   : Bool
  calAt    : Nat
  /-- Corrected symbols and uncorrectable codewords of each lane at the start of its window (R409). -/
  window   : List (Nat × (Nat × Nat))
  remaps   : List Remap
  deriving DecidableEq, Repr

def PortSt.reset : PortSt where
  txSeq := 0
  replay := []
  resend := 0
  txPart := []
  again := none
  nakDue := false
  nakAt := 0
  remapDue := []
  period := 0
  scram := []
  last34 := 4
  since5 := 0
  nakSeq := 0
  nakRun := 0
  rxSeq := 0
  rxAny := false
  rxLost := false
  rxPart := []
  rxPeriod := 0
  rxLast := 0
  crInit := [0, 0, 0, 0, 0]
  crSent := [0, 0, 0, 0, 0]
  crBack := [0, 0, 0, 0, 0]
  crOwn := [0, 0, 0, 0, 0]
  crNext := 1
  waiting := false
  waitAt := 0
  qualified := []
  peerMap := []
  peerSpares := []
  peerCaps := []
  asked := 0
  asks := []
  toAnswer := []
  stamps := []
  calDue := false
  calAt := 0
  window := []
  remaps := []

structure PortsSt where
  ports : List (Nat × PortSt)
  /-- Flits transmitted, oldest first. -/
  sent  : List FlitOut
  /-- Packets received whole, with the port whose credit they hold, none once its link has gone down (R405), and tick symbols received, with their type and the TIMEBASE of their arrival
  (R400), that have not been handled. -/
  rx    : List (Option Nat × Packet)
  rxSym : List (Nat × TickSymbol × Nat)
  deriving DecidableEq, Repr

def PortsSt.reset : PortsSt := ⟨[], [], [], []⟩

/-! ### Resident Solve Engine -/

/-- A command in the queue (R281): its sequence number and tag, the eight descriptor words copied at acceptance, and whether
the descriptor came poisoned. -/
structure RseCmd where
  seq    : Nat
  tag    : Nat
  words  : List Word
  poison : Bool
  deriving DecidableEq, Repr

/-- What a slot image holds (R307): values, ranges e_in and binary-point exponents e_b by block, and the stored values of the
factor by row and column, each with its FX128 integer and what its perturbation added (0 for none). -/
structure RseImage where
  vals  : List Nat
  ein   : List Int
  eb    : List Int
  cells : List ((Nat × Nat) × (Int × Int))
  deriving DecidableEq, Repr

/-- A slot beyond its registers: PIV_EXP, the structure as given, the ordering, the columns of each row of the filled pattern as a
bit mask, the first column of each supernode, and the numbers. -/
structure RseSlot where
  piv    : Nat
  rowptr : List Nat
  colidx : List Nat
  perm   : List Nat
  fill   : List Nat
  sn     : List Nat
  num    : RseImage
  deriving DecidableEq, Repr

def RseSlot.reset : RseSlot := ⟨0, [], [], [], [], [], ⟨[], [], [], []⟩⟩

structure RseSt where
  /-- Commands queued, the running one first (R283). -/
  queue  : List RseCmd
  slots  : List (Nat × RseSlot)
  /-- Bodies of the images exported so far, with what they hold: a history that no command's outcome depends on (R300). -/
  images : List (List Byte × RseImage)
  deriving DecidableEq, Repr

def RseSt.reset : RseSt := ⟨[], [], []⟩

/-! ### Fuses, reset controller, Bowline and its sensors -/

/-- The fuses (Table BWL-2, R72, R597). A key slot that is not programmed is empty. -/
structure FuseSt where
  part        : Nat
  serial      : Nat
  spares      : List Nat
  identityKey : Nat
  fwKeys      : List (List Byte)
  fwRevoke    : Nat
  cfgKeys     : List (List Byte)
  cfgRevoke   : Nat
  signReq     : Bool
  rollback    : Nat
  deriving DecidableEq, Repr

/-- Fuses of a part as the model takes it (log entry 20). -/
def FuseSt.reset : FuseSt where
  part := 0x4800
  serial := 1
  spares := [20, 20, 20, 20]
  identityKey := 1
  fwKeys := [[], [], [], []]
  fwRevoke := 0
  cfgKeys := [[], [], [], []]
  cfgRevoke := 0
  signReq := false
  rollback := 0

/-- ID_CAPS of each order (R13, R23, R597, Tables ARC-9 and CSM-7); the fuses of a part give those of its own. -/
def FuseSt.caps (f : FuseSt) : Word :=
  if f.part = 0x4600 then 0x003FFFBFF0FFFFFF
  else if f.part = 0x4400 then 0x003FFF83D0FF03F3
  else 0x003FFFFFFFFFFFFF

/-- The reset controller, beyond its registers. -/
structure RstSt where
  /-- 3.3 V is in range; PWR_OK is high; RESET_N is high (R450). -/
  vsb        : Bool
  pwrOk      : Bool
  resetN     : Bool
  /-- VIN48 has left its range and PWR_OK is treated as low (R580). -/
  vinFault   : Bool
  /-- THERMTRIP_N is low: the sequence waits for the dies to cool (R456). -/
  thermHold  : Bool
  /-- The release sequence has begun. -/
  running    : Bool
  /-- Steps released and steps ready, each in the order of release, and the step that firmware has requested (R461). -/
  released   : List Nat
  ready      : List Nat
  asked      : Option Nat
  /-- The failed-start count C that ROM read (R463). -/
  failed     : Nat
  /-- The capacity-tier test writes and reads (R455). -/
  testWrites : Bool
  /-- A fatal cause has stopped the dies, and its reset has not been taken (R557). -/
  fatal      : Bool
  /-- PE_PERST_N is high (R582). -/
  perst      : Bool
  /-- Key digests that authorise a FABRIC reset, as held at the last start (R492). -/
  freset     : List (List Byte)
  /-- Current TAP instruction and what a shift of the data register returns (R583). -/
  tapIr      : Nat
  tapOut     : Option (BitVec 32)
  deriving DecidableEq, Repr

def RstSt.reset : RstSt where
  vsb := true
  pwrOk := false
  resetN := false
  vinFault := false
  thermHold := false
  running := false
  released := []
  ready := []
  asked := none
  failed := 0
  testWrites := true
  fatal := false
  perst := false
  freset := []
  tapIr := 2
  tapOut := none

/-- A Lanyard session (R485 to R489). -/
structure Session where
  id     : Nat
  /-- Peer's node and the port by which it is reached while the node has no number (R443). -/
  peer   : Nat
  port   : Nat
  /-- HELLO3 has been verified. -/
  up     : Bool
  /-- TIMEBASE of set-up and of the last DATA packet. -/
  since  : Nat
  last   : Nat
  /-- Set-up: the node's ephemeral scalar, the peer's ephemeral key and H. -/
  eph    : Nat
  peerEph : List Byte
  hash   : List Byte
  /-- Keys and nonce salts of the two directions (R487). -/
  rxKey  : List Byte
  txKey  : List Byte
  rxSalt : List Byte
  txSalt : List Byte
  /-- Counters accepted that lie within 64 of the highest, and the next counter to send. -/
  seen   : List Nat
  tx     : Nat
  /-- Responses to the last 16 REQ_IDs. -/
  resp   : List (Nat × List Byte)
  deriving DecidableEq, Repr

/-- A Lanyard command (R489): the session it came by, none for the mailbox, its REQ_ID, CMD, ARG_LEN and the argument bytes
that came, and whether it has been answered IN_PROGRESS. -/
structure LyCmd where
  via  : Option Nat
  req  : Nat
  cmd  : Nat
  len  : Nat
  args : List Byte
  /-- Progress of a command that takes several steps: 0 not begun. -/
  stage : Nat
  told : Bool
  deriving DecidableEq, Repr

/-- The header fields of the firmware image that runs (Table BWL-3) and its key slot. -/
structure FwUse where
  secver    : Nat
  advance   : Bool
  revokeFw  : Nat
  revokeCfg : Nat
  level     : Nat
  window    : Nat
  key       : Nat
  deriving DecidableEq, Repr

/-- Bowline, beyond its registers. -/
structure BwlSt where
  /-- ROM has made the configuration choice; it waits for an image over the fabric (R443). -/
  chosen   : Bool
  fabric   : Bool
  /-- Records of the image in use, by type, PORT records under 0x200 + port; none where no image is in use. -/
  image    : Option (List (Nat × List Word))
  fw       : Option FwUse
  sessions : List Session
  /-- Commands waiting, and commands begun and not completed, in the order of arrival. -/
  cmds     : List LyCmd
  running  : List LyCmd
  /-- The millisecond of TIMEBASE and the DATA packets accepted in it (R490). -/
  rateMs   : Nat
  rateCnt  : Nat
  /-- REQ_ID and response of the last mailbox command (R493). -/
  mbxLast  : Option (Nat × List Byte)
  /-- A configuration image being received: the pieces with their offsets, the latest first; and the accepted image being
  written (R438, R440). -/
  cfgBuf   : Option (List (Nat × List Byte))
  cfgNew   : Option (List Byte)
  /-- Writes of the flash that wait for that one (R441), in order; and the ports on which a session with the partner has been opened
  to fetch the configuration (R443). -/
  nvmWait  : List NvmJob
  fabPorts : List Nat
  /-- TIMEBASE of the last kick of the watchdog (R478). -/
  kickAt   : Nat
  /-- SMBus: the data of the last block read (none where the target did not acknowledge), the status as last read and as at the
  last alert response, the state and reason of FW_RESULT, and a staging command that waits for the flash, by code. -/
  smbOut   : List Byte
  smbSeen  : List Byte
  smbAck   : List Byte
  smbFw    : Nat × Nat
  smbHeld  : Option (Nat × List Byte × Bool)
  /-- Telemetry: STREAMS, and records that wait for the quiet band, by TSEQ (R499). -/
  streams  : Nat
  tlmWait  : List (List Word)
  /-- A command has been answered since the start, over a session or through the mailbox (R479). -/
  answered : Bool
  deriving DecidableEq, Repr

def BwlSt.reset : BwlSt where
  chosen := false
  fabric := false
  image := none
  fw := none
  sessions := []
  cmds := []
  running := []
  rateMs := 0
  rateCnt := 0
  mbxLast := none
  cfgBuf := none
  cfgNew := none
  nvmWait := []
  fabPorts := []
  kickAt := 0
  smbOut := []
  smbSeen := []
  smbAck := []
  smbFw := (0, 0)
  smbHeld := none
  streams := 0
  tlmWait := []
  answered := false

/-- Sensors and the power governor (R500 to R503). -/
structure PwrSt where
  /-- Junction readings by die, T-dies, P-die, F-dies, in 1/16 °C. -/
  junction : List (List Int)
  /-- 48 V input in mV and mA, and the power of the last 100 samples in µW, newest first. -/
  volt     : Nat
  amp      : Nat
  power    : List Nat
  /-- Consecutive comparisons below 97 % of the cap, and above the cap at level 23. -/
  below    : Nat
  unmet    : Nat
  /-- Thermal level of each die. -/
  thermal  : List Nat
  /-- Bit s: stack s runs at half rate. -/
  stackHot : Nat
  /-- The board holds PROCHOT_N low (R503), whether or not the package, which may drive it too, can see that. -/
  boardHot : Bool
  deriving DecidableEq, Repr

def PwrSt.reset : PwrSt := ⟨[[], [], [], [], [], [], []], 0, 0, [], 0, 0, [0, 0, 0, 0, 0, 0, 0], 0, false⟩


/-- The block. -/
structure State where
  /-- Control space: every register written since reset, by address; an unlisted one reads its reset value. -/
  regs     : List (Nat × Word)
  /-- The event ring, oldest entry first (R495), and the ESEQ of the next entry. -/
  logRing  : List LogEntry
  logNext  : Nat
  mem      : MemSt
  tc       : CoresSt
  hly      : HlySt
  host     : HostSt
  fid      : FidSt
  nvm      : NvmSt
  hws      : HwsSt
  ckp      : CkpSt
  /-- PCIe transactions sent downstream, oldest first. -/
  pcieOut  : List PcieOut
  /-- Subordinate bus number of the root port (R593). -/
  pcieSub  : Nat
  ports    : PortsSt
  rse      : RseSt
  fuse     : FuseSt
  rst      : RstSt
  bwl      : BwlSt
  pwr      : PwrSt
  /-- The model's own counter for free values (Config.freeWord); no part of the hardware. -/
  freeCtr  : Nat
  /-- Commands that wait, first in, first out. -/
  pending  : List Instr
  deriving DecidableEq, Repr

def TickParams.reset : TickParams := ⟨0, 0, 0, 0, 0, 0, 0, 0, 0, 0⟩

def MemSt.reset : MemSt := ⟨[], [], [], [], [], [], [], [], []⟩

def CoresSt.reset : CoresSt := ⟨[], [], [], [], [], [], [], [], [], []⟩

def HlySt.reset : HlySt where
  frac := 0
  slewRem := 0
  rate := 0
  running := false
  children := []
  seq := 0
  t1 := 0
  awaiting := false
  missed := 0
  lockRun := 0
  hopLat := 0
  useAlt := false
  seen := []
  active := TickParams.reset
  stagedPeriod := 0
  committed := none
  final := none
  latest := none
  lastChildren := 0
  takeover := false
  guardDone := false
  quiet := false
  forced := []
  cutHold := false
  lateHold := false
  maskNext := []
  talq := []
  arm0 := []
  armInfo := []
  sent := []

def FidAcc.empty : FidAcc := ⟨0, [], none, 0⟩

def FidSt.reset : FidSt := ⟨[], [], [], 0⟩

def CkpSt.reset : CkpSt := ⟨[], [], [], none, 0, false, 0, 0, [], [], [], 0, 0, [], [], [], []⟩

def HwsSt.reset : HwsSt where
  reqs := []
  held := []
  declared := []
  nextTag := []
  scount := []
  release := []
  cache := []
  journal := []
  journalLost := none
  tops := []
  tob := []
  toBusy := false
  repBusy := []
  stage := []
  winOff := []
  parked := []
  backoff := []
  puts := []
  refresh := []
  nextJob := 0
  out := []

/-- The NVM header of a provisioned flash of 64 MiB (R422), as its bytes that are not 0xFF: PLYN, 1, 0, 2, 0, the size and the
CRC-32C. -/
def nvmHeader : List Host.Cell :=
  [(0, 0x50), (1, 0x4C), (2, 0x59), (3, 0x4E), (4, 1), (5, 0), (6, 2), (7, 0), (8, 64), (9, 0), (10, 0), (11, 0),
   (12, 0x13), (13, 0x7B), (14, 0xAE), (15, 0x81)]

/-- The flash: provisioned, its regions erased (log entry 19). -/
def NvmSt.reset : NvmSt where
  lossA := none
  lossB := none
  present := true
  sizeMib := 64
  addr4 := true
  quad := true
  erase64 := true
  erase4 := true
  flash := nvmHeader
  bootA := []
  bootB := []
  fatals := []
  fatalAt := 0

def HostSt.reset : HostSt where
  imsic := []
  imsicOn := []
  imsicDelivery := []
  imsicThreshold := []
  harts := []
  xregs := []
  vregs := []

/-- The block right after standby power-on (R447): every register at its reset value, the
standby domain powered and the power-on counted (Tables RST-13 and RST-14), nothing stored, nothing waiting. -/
def State.reset : State where
  regs := [(0xF00002000048, 0x100000000000000), (0xF00002000100, 1)]
  logRing := []
  logNext := 0
  mem := MemSt.reset
  tc := CoresSt.reset
  hly := HlySt.reset
  host := HostSt.reset
  fid := FidSt.reset
  nvm := NvmSt.reset
  hws := HwsSt.reset
  ckp := CkpSt.reset
  pcieOut := []
  pcieSub := 0
  ports := PortsSt.reset
  rse := RseSt.reset
  fuse := FuseSt.reset
  rst := RstSt.reset
  bwl := BwlSt.reset
  pwr := PwrSt.reset
  freeCtr := 0
  pending := []

end Sys2Proof.Machine
end

