-- ==== Sys2Proof/Config.lean ====
section
/-! DEFINITION. The free values: what the spec leaves open. Each is a constant without a body, applied to a counter of
State (`freeCtr`) or to the operands it depends on, so that no proof can see what it is. -/

namespace Sys2Proof.Config

/-- A fresh 64-bit value for each use: an argument of the use and the counter of State. -/
opaque freeWord : (kind : Nat) → (ctr : Nat) → Word

/-- SEVERITY of an event-log entry (Table BWL-7): the spec gives the four codes and assigns none to any event. -/
opaque eventSeverity : (reg bit code eseq : Nat) → BitVec 2

/-- The body of a slot image (R307), whose layout the spec gives to the RSE: what byte `i` is combined with, and the bytes that follow a
content of `n` bytes. -/
opaque imageKey : (i : Nat) → Byte
opaque imagePad : (n : Nat) → Nat

/-- The held-operation shard (R515), whose format belongs to the engine: what byte `i` is combined with. -/
opaque heldKey : (i : Nat) → Byte

/-- Byte `i` of the payload of a flit whose payload the spec leaves open: IDLE, NAK, CAL and TRAIN flits other than the CAPS
record (R395, R406, R415). -/
opaque flitByte : (ftype ctr i : Nat) → Byte

/-- Byte `i` of the payload of a REMAP flit, which names the logical lane, the spare and the period (R409). -/
opaque remapByte : Machine.Remap → (i : Nat) → Byte

/-- Bits [15:0] of a node's ID in its CAPS record (Table OPT-6). -/
opaque capsIdLow : BitVec 16

/-- The reason, less 1, that FW_COMMIT names for an image whose SECVER is below ROLLBACK: Table CFG-5 lists none (R483). -/
opaque rollbackReason : BitVec 4

/-- Words of a telemetry block that the spec names and gives no layout: sensor readings and estimates of stream `st` in record
`tseq` (R498). -/
opaque telemetryWords : (st tseq : Nat) → Machine.PwrSt → (regs : List Word) → List Word

/-- What a counter of cycles, of nanoseconds of waiting, of link traffic or of cache behaviour shows: the model keeps no such
time (R20, R339). By the counter's address, TIMEBASE and the counter of State. -/
opaque openCount : (a time ctr : Nat) → Word

end Sys2Proof.Config
end

