-- ==== Sys2Proof/Machine/Sparse.lean ====
section
/-! DEFINITION. Sparse data by a number: a list of (key, value) pairs in one canonical form, keys strictly rising and no
value equal to what an unlisted key reads as, so that equal contents are equal lists. Registers, memories, semaphores'
states, cores and every other numbered store of the block are kept so. -/

namespace Sys2Proof.Machine

variable {α : Type}

/-- The value at key `k`; `d k` where the list has no entry. -/
def sGet (d : Nat → α) : List (Nat × α) → Nat → α
  | [], k => d k
  | (k', v) :: r, k => if k' = k then v else sGet d r k

/-- The list with the entry of `k` taken out. -/
def sDel (l : List (Nat × α)) (k : Nat) : List (Nat × α) := l.filter fun e => e.1 != k

/-- The list with `v` listed at `k`. -/
def sPut : List (Nat × α) → Nat → α → List (Nat × α)
  | [], k, v => [(k, v)]
  | (k', v') :: r, k, v =>
    if k' = k then (k, v) :: r
    else if k < k' then (k, v) :: (k', v') :: r
    else (k', v') :: sPut r k v

/-- Writing `v` at `k`: what an unlisted key reads as is never listed. -/
def sSet [DecidableEq α] (d : Nat → α) (l : List (Nat × α)) (k : Nat) (v : α) : List (Nat × α) :=
  if v = d k then sDel l k else sPut l k v

/-- The entries of the keys from `lo` up to `hi` taken out: those keys read as unlisted again. -/
def sDrop (lo hi : Nat) (l : List (Nat × α)) : List (Nat × α) := l.filter fun e => decide (e.1 < lo) || decide (hi ≤ e.1)

/-- Keys strictly rising. -/
def sSorted : List (Nat × α) → Bool
  | [] => true
  | [_] => true
  | a :: b :: r => decide (a.1 < b.1) && sSorted (b :: r)

/-- The canonical form. -/
def sWf [DecidableEq α] (d : Nat → α) (l : List (Nat × α)) : Bool :=
  sSorted l && l.all fun e => decide (e.2 ≠ d e.1)

end Sys2Proof.Machine
end

