-- ==== Sys2Proof/Machine/Ops.lean ====
section
/-! DEFINITION. The named operations over registers, counters, events and the event log. -/

namespace Sys2Proof.Machine

/-! ### Registers -/

/-- The value of the register at address `a`. -/
def State.rd (s : State) (a : Nat) : Word := sGet regReset s.regs a

/-- Hardware update of the register at address `a`. -/
def State.wr (s : State) (a : Nat) (v : Word) : State := { s with regs := sSet regReset s.regs a v }

/-- The registers from `lo` up to `hi` return to their reset values. -/
def State.dropRegs (s : State) (lo hi : Nat) : State := { s with regs := sDrop lo hi s.regs }

/-- A field of a register. -/
def State.fld (s : State) (a : Nat) (f : Field) : Nat := getF (s.rd a) f

/-- Hardware update of one field. -/
def State.setFld (s : State) (a : Nat) (f : Field) (x : Nat) : State := s.wr a (setF (s.rd a) f x)

/-- Hardware update of several fields of one register. -/
def State.setFlds (s : State) (a : Nat) (l : List (Field × Nat)) : State :=
  s.wr a (l.foldl (fun v e => setF v e.1 e.2) (s.rd a))

/-- Whether a one-bit field is 1. -/
def State.flag (s : State) (a : Nat) (f : Field) : Bool := s.fld a f == 1

/-- A 32-bit counter that saturates at 0xFFFF_FFFF. -/
def State.bump32 (s : State) (a n : Nat) : State := s.wr a (BitVec.ofNat 64 (min 0xFFFFFFFF ((s.rd a).toNat + n)))

/-- A 64-bit counter that wraps. -/
def State.bump64 (s : State) (a n : Nat) : State := s.wr a (s.rd a + BitVec.ofNat 64 n)

/-- A 48-bit counter that wraps (Table OPT-13). -/
def State.bump48 (s : State) (a n : Nat) : State := s.wr a (BitVec.ofNat 64 (((s.rd a).toNat + n) % 2 ^ 48))

/-- A 16-bit saturating counter held in a field. -/
def State.bumpFld (s : State) (a : Nat) (f : Field) (n : Nat) : State :=
  s.setFld a f (min (2 ^ (f.hi + 1 - f.lo) - 1) (s.fld a f + n))

/-- A fresh free value, and the state whose counter has moved on. -/
def State.free (s : State) (kind : Nat) : Word × State :=
  (Config.freeWord kind s.freeCtr, { s with freeCtr := s.freeCtr + 1 })

/-- TIMEBASE (R34). -/
def State.time (s : State) : Nat := (s.rd Reg.HLY_TIMEBASE).toNat

/-- The step counter (R46). -/
def State.step (s : State) : Nat := s.fld Reg.HLY_STEP Fld.HLY_STEP_STEP

/-! ### The event log -/

/-- The event-log unit writes one entry (R494); a full ring loses its oldest (R495). -/
def State.log (s : State) (reg bitNo code detail : Nat) : State :=
  let e : LogEntry :=
    { eseq := s.logNext, severity := Config.eventSeverity reg bitNo code s.logNext, bitNo := bitNo, code := code,
      time := s.time, reg := reg, detail := detail % 65536, step := s.step }
  let full := s.logRing.length ≥ 4096
  let s := { s with
    logRing := (if full then s.logRing.drop 1 else s.logRing) ++ [e]
    logNext := (s.logNext + 1) % 2 ^ 32 }
  let s := s.setFlds Reg.BWL_LOG_STATUS
    [(Fld.BWL_LOG_STATUS_HEAD, (s.fld Reg.BWL_LOG_STATUS Fld.BWL_LOG_STATUS_HEAD + 1) % 4096),
     (Fld.BWL_LOG_STATUS_LAST_ESEQ, e.eseq)]
  if full then
    (s.setFld Reg.BWL_EVENT Fld.BWL_EVENT_LOG_OVF 1).bump32 (Reg.BWL_CNT 0) 1
  else s

/-- An event without an event bit is logged with REG 0 and a CODE of Table BWL-8. -/
def State.logCode (s : State) (code detail : Nat) : State := s.log 0 0xFF code detail

/-- An event sets its W1C bit, is counted (R559) and is logged (R494). `detail` is 0 where no rule names one. -/
def State.event (s : State) (reg : Nat) (f : Field) (cnt : Nat) (detail : Nat := 0) : State :=
  ((s.setFld reg f 1).bump32 cnt 1).log reg f.lo 0 detail

/-- The same, counted in a 16-bit saturating field of `cnt` that begins at bit `lo` (Tables OPT-14 and CKP-13). -/
def State.event16 (s : State) (reg : Nat) (f : Field) (cnt lo : Nat) : State :=
  ((s.setFld reg f 1).bumpFld cnt ⟨lo + 15, lo⟩ 1).log reg f.lo 0 0

/-- The words of an event entry (Table BWL-7). -/
def LogEntry.word (e : LogEntry) (i : Nat) : Word :=
  match i with
  | 0 => BitVec.ofNat 64 (2 ^ 32 * e.eseq + 2 ^ 28 * e.severity.toNat + 2 ^ 16 * e.bitNo + e.code)
  | 1 => BitVec.ofNat 64 e.time
  | 2 => BitVec.ofNat 64 e.reg
  | _ => BitVec.ofNat 64 (2 ^ 48 * e.detail + e.step)

/-! ### Units -/

/-- ID_CAPS names the unit whose bit is `b`. -/
def State.present (s : State) (b : Nat) : Bool := bit (s.rd Reg.ID_CAPS).toNat b

/-- ID_CAPS_EFFECTIVE shows the unit whose bit is `b` working (R24, Table CSM-6). -/
def State.working (s : State) (b : Nat) : Bool := bit (s.rd Reg.ID_CAPS_EFFECTIVE).toNat b

/-- Bits of Table CSM-6. -/
def capTdie (d : Nat) : Nat := d
def capStack (k : Nat) : Nat := 4 + k
def capChan (c : Nat) : Nat := 16 + c
def capFdie (f : Nat) : Nat := 28 + f
def capPort (p : Nat) : Nat := 30 + p
def capRse : Nat := 38
def capPcie : Nat := 39
def capCkp : Nat := 40
def capBowline : Nat := 41
def capCluster (k : Nat) : Nat := 42 + k
def capService (i : Nat) : Nat := 50 + i

/-- A unit leaves service: its bit of ID_CAPS_EFFECTIVE is cleared (R24). -/
def State.capClear (s : State) (b : Nat) : State :=
  s.wr Reg.ID_CAPS_EFFECTIVE (BitVec.ofNat 64 ((s.rd Reg.ID_CAPS_EFFECTIVE).toNat - (if s.working b then 2 ^ b else 0)))

/-- A unit becomes ready: its bit of ID_CAPS_EFFECTIVE is set (R598), if ID_CAPS holds it (R24). -/
def State.capSet (s : State) (b : Nat) : State :=
  if s.present b && !s.working b then
    s.wr Reg.ID_CAPS_EFFECTIVE (BitVec.ofNat 64 ((s.rd Reg.ID_CAPS_EFFECTIVE).toNat + 2 ^ b))
  else s

/-- Logical strand `st` of T-die `d` is in service (R599). -/
def State.strandUp (s : State) (d st : Nat) : Bool :=
  s.working (capTdie d) &&
    bit (s.rd (if d < 2 then Reg.ID_STRANDS_EFF01 else Reg.ID_STRANDS_EFF23)).toNat (32 * (d % 2) + st)

/-- Physical strand of logical strand `st` of T-die `d` (Table TCR-28); 0x1F out of service. -/
def State.physStrand (s : State) (d st : Nat) : Nat :=
  if st < 12 then bits (s.rd (Reg.TC_STRAND_MAP0 (Reg.dieBlk d))).toNat (5 * st + 4) (5 * st)
  else bits (s.rd (Reg.TC_STRAND_MAP1 (Reg.dieBlk d))).toNat (5 * (st - 12) + 4) (5 * (st - 12))

/-- Logical core `c` exists and is in service: its strand is in service, on one of the die's 21 physical strands. -/
def State.coreUp (s : State) (c : Nat) : Bool :=
  decide (c < 640) && s.strandUp (c / 160) (c % 160 / 8) && decide (s.physStrand (c / 160) (c % 160 / 8) < 21)

/-- Window of logical core `c` (R71, R118). -/
def State.win (s : State) (c : Nat) : Nat :=
  Reg.coreWin (c / 160) (8 * s.physStrand (c / 160) (c % 160 / 8) + c % 8)

/-- Logical core number of a physical core (TC_MAP.LCORE); 0x3FF none. -/
def State.lcore (s : State) (d p : Nat) : Nat := s.fld (Reg.TC_MAP (Reg.coreWin d p)) Fld.TC_MAP_LCORE

/-! ### Contexts (R274) -/

/-- The context in which a register is reached. -/
inductive Ctx where
  | bowline
  | mgmt
  | part (valid : Bool) (p : Nat)
  deriving DecidableEq, Repr

/-- A service core in M-mode with its bit of HOST_MGMT.EN acts in the management context, every other hart in the
partition context of HOST_PARTITION. -/
def State.ctx (s : State) : Agent → Ctx
  | .bowline => .bowline
  | .lanyard => .mgmt
  | .hart h m =>
    if m && decide (64 ≤ h) && decide (h < 68) && bit (s.fld Reg.HOST_MGMT Fld.HOST_MGMT_EN) (h - 64) then .mgmt
    else .part (s.flag Reg.HOST_PARTITION Fld.HOST_PARTITION_VALID) (s.fld Reg.HOST_PARTITION Fld.HOST_PARTITION_PARTITION)

/-- Bowline or the management context. -/
def Ctx.priv : Ctx → Bool
  | .bowline => true
  | .mgmt => true
  | .part .. => false

/-- Bowline, the management context, or a valid partition context. -/
def Ctx.serves : Ctx → Bool
  | .part v _ => v
  | _ => true

/-- An agent of partition `p`: Bowline, the management context, or the partition context of that partition. -/
def Ctx.mayUse (x : Ctx) (valid : Bool) (p : Nat) : Bool :=
  match x with
  | .part v q => v && valid && q == p
  | _ => true

/-- A number for each source agent (R60). -/
def agentNo : Agent → Nat
  | .bowline => 0
  | .lanyard => 1
  | .hart h _ => 2 + h

/-! ### Service request (R560, R561) -/


/-- A service cause is set: on a move from 0 to 1, ANY is set (SERVICE_N low), and the event is counted and logged with the
cause's bit number in DETAIL. -/
def State.service (s : State) (f : Field) : State :=
  if s.flag Reg.RAS_SERVICE_REQUEST f then s
  else
    let s := s.setFlds Reg.RAS_SERVICE_REQUEST [(f, 1), (Fld.RAS_SERVICE_REQUEST_ANY, 1)]
    s.event Reg.RAS_EVENT Fld.RAS_EVENT_SERVICE Reg.RAS_CNT_SERVICE f.lo

/-- A consumption of poison by a unit of die `die` at local offset `a` (R555). -/
def State.poisonUsed (s : State) (die a : Nat) : State :=
  let s := s.event Reg.RAS_EVENT Fld.RAS_EVENT_POISON Reg.RAS_CNT_POISON
  let s := s.bump32 (Reg.RAS_D_CNT_POISON die) 1
  if s.flag Reg.RAS_POISON_ADDR Fld.RAS_POISON_ADDR_VALID then s
  else s.setFlds Reg.RAS_POISON_ADDR [(Fld.RAS_POISON_ADDR_VALID, 1), (Fld.RAS_POISON_ADDR_DIE, die),
    (Fld.RAS_POISON_ADDR_OFFSET, a / 64 * 64)]

end Sys2Proof.Machine
end

