-- ==== Sys2Proof/Machine/Nvm.lean ====
section
/-! DEFINITION. The persistent fatal-event region: the loss record (R496, R497). -/

namespace Sys2Proof.Machine

/-- Kinds of a loss entry (R496). -/
def lossStrand : Nat := 1
def lossStack : Nat := 2
def lossChannel : Nat := 3
def lossPort : Nat := 4

/-- Copy B of the loss record is the current one. -/
def State.lossOnB (s : State) : Bool :=
  match s.nvm.lossA, s.nvm.lossB with
  | none, some _ => true
  | some a, some b => newer32 b.rseq a.rseq
  | _, none => false

/-- The current loss record: the valid copy with the newer RSEQ. -/
def State.lossRec (s : State) : Option LossRec := if s.lossOnB then s.nvm.lossB else s.nvm.lossA

def State.serial (s : State) : Nat := (s.rd Reg.ID_SERIAL).toNat

/-- The losses that hold for this part: those of a record with its own serial number. -/
def State.losses (s : State) : List (Nat × Nat) :=
  match s.lossRec with
  | some r => if r.serial = s.serial then r.losses else []
  | none => []

/-- A changed record is written to the copy that is not current. -/
def State.lossWrite (s : State) (l : List (Nat × Nat)) : State :=
  let n := match s.lossRec with
    | some r => (r.rseq + 1) % 2 ^ 32
    | none => 1
  let r : LossRec := ⟨n, s.serial, l⟩
  if s.lossOnB ∨ s.nvm.lossA = none then { s with nvm := { s.nvm with lossA := some r } }
  else { s with nvm := { s.nvm with lossB := some r } }

/-- A loss is written (R497): at most 1,000 entries; a record of another package is replaced, and CODE 7 logged. -/
def State.putLoss (s : State) (kind index : Nat) : State :=
  let other := match s.lossRec with
    | some r => r.serial != s.serial
    | none => false
  let s := if other then s.logCode 7 0 else s
  if s.losses.contains (kind, index) ∨ 1000 ≤ s.losses.length then s else s.lossWrite (s.losses ++ [(kind, index)])

/-- A loss is recorded, once the flash is free (R441, R497). -/
def State.addLoss (s : State) (kind index : Nat) : State :=
  if s.bwl.cfgNew.isSome then { s with bwl := { s.bwl with nvmWait := s.bwl.nvmWait ++ [.loss kind index] } } else s.putLoss kind index

end Sys2Proof.Machine
end

