-- ==== Sys2Proof/Machine/Mem.lean ====
section
/-! DEFINITION. The memory tiers, the tile stores and their errors and poison (R313 to R338, R550), and the
write-combining buffers (R329 to R333), as named operations on bytes by local offset. -/

namespace Sys2Proof.Machine

/-- What a byte of memory reads as when nothing has been written to it (DESIGN CHOICE, log entry 2). -/
def memDflt (_ : Nat) : Byte := 0

/-- The canonical form of a byte memory: offsets strictly rising, no byte equal to what an unlisted byte reads as. -/
def Memory.wf (m : List Host.Cell) : Bool := sWf memDflt m

/-- A byte of a byte memory. -/
def byteAt (m : List Host.Cell) (a : Nat) : Byte := sGet memDflt m a

/-- `n` bytes from `a`. -/
def bytesAt (m : List Host.Cell) (a : Nat) : Nat → List Byte
  | 0 => []
  | n + 1 => byteAt m a :: bytesAt m (a + 1) n

/-- A run of bytes written from `a`. -/
def putBytes (m : List Host.Cell) (a : Nat) : List Byte → List Host.Cell
  | [] => m
  | b :: bs => putBytes (sSet memDflt m a b) (a + 1) bs

/-- No line is poisoned until it is marked. -/
def noMark (_ : Nat) : Bool := false

/-- No line has an error until one arises. -/
def noErr (_ : Nat) : LineErr := .none

/-- Positions of the ones of a mask below bit `n`, ascending. -/
def ones (m n : Nat) : List Nat := (List.range n).filter fun i => bit m i

/-! ### The local offset map (Table MEM-1) -/

def capBase : Nat := 0x100000000000
def tileBase : Nat := 0xE00000000000
def ctrlBase : Nat := 0xF00000000000
def tileSize : Nat := 0x200000

/-- Where a local offset lies. -/
inductive Place where
  | fast (stack : Nat)
  | cap (chan : Nat)
  | tile (core : Nat)
  | ctrl
  | absent
  deriving DecidableEq, Repr

/-- Working stacks of the interleave, ascending (R315). -/
def State.stackList (s : State) : List Nat := ones (s.fld Reg.MEMF_MAP Fld.MEMF_MAP_WORKING) 12

/-- Working channels of the interleave, ascending (R316). -/
def State.chanList (s : State) : List Nat := ones (s.fld Reg.MEMC_MAP Fld.MEMC_MAP_WORKING) 12

/-- ft_locate (R315): stack, stack-local address and channel within the stack. -/
def State.ftLocate (s : State) (a : Nat) : Nat × Nat × Nat :=
  let l := s.stackList
  let w := max 1 l.length
  let u := a / 4096
  let sa := 4096 * (u / w) + a % 4096
  (l.getD (u % w) 0, sa, (bits sa 9 6 ^^^ bits sa 13 10) ^^^ bits sa 17 14)

/-- cap_locate (R316), of the offset within the capacity window: channel, channel-local address and subchannel. -/
def State.capLocate (s : State) (a : Nat) : Nat × Nat × Nat :=
  let l := s.chanList
  let w := max 1 l.length
  let u := a / 4096
  let ca := 4096 * (u / w) + a % 4096
  (l.getD (u % w) 0, ca, bits ca 6 6 ^^^ bits ca 13 13)

/-- Populated sizes (R27, R313, R327). -/
def State.fastSize (s : State) : Nat := 2 ^ 30 * s.fld Reg.MEMF_MAP Fld.MEMF_MAP_SIZE_GIB
def State.capSize (s : State) : Nat := 2 ^ 30 * s.fld Reg.MEMC_MAP Fld.MEMC_MAP_SIZE_GIB

/-- The place of a local offset (Table MEM-1); what is not populated, or belongs to a core out of service, is absent. -/
def State.place (s : State) (a : Nat) : Place :=
  if a < s.fastSize then .fast (s.ftLocate a).1
  else if a < capBase then .absent
  else if a < capBase + s.capSize then .cap (s.capLocate (past capBase a)).1
  else if a < tileBase then .absent
  else if a < tileBase + 640 * tileSize then
    let c := (past tileBase a) / tileSize
    if s.coreUp c then .tile c else .absent
  else if a < ctrlBase then .absent
  else if a < 2 ^ 48 then .ctrl
  else .absent

/-- Local offset `a` lies in a working memory tier. -/
def State.inTier (s : State) (a : Nat) : Bool :=
  match s.place a with
  | .fast _ => true
  | .cap _ => true
  | _ => false

/-- Local offset of byte `o` of the tile store of core `c` (R15). -/
def tsAddr (c o : Nat) : Nat := tileBase + c * tileSize + o

/-- The die that holds a place, numbered as RAS_FATAL.DIE. -/
def Place.die : Place → Nat
  | .fast k => k / 3
  | .tile c => c / 160
  | _ => 4

/-! ### Units: stack s is unit s, channel c is unit 16 + c -/

def Place.unit : Place → Option Nat
  | .fast k => some k
  | .cap c => some (16 + c)
  | _ => none

def unitWin (u : Nat) : Nat := if u < 16 then Reg.stackWin u else Reg.chanWin (u - 16)
def unitStatus (u : Nat) : Nat := unitWin u
def unitEvent (u : Nat) : Nat := unitWin u + (if u < 16 then 0x10 else 0x18)
def unitUeAddr (u : Nat) : Nat := unitEvent u + 8
def unitCeAddr (u : Nat) : Nat := unitEvent u + 16
def unitCnt (u stackOff chanOff : Nat) : Nat := unitWin u + (if u < 16 then stackOff else chanOff)
def cntRd (u : Nat) : Nat := unitCnt u 0x100 0x100
def cntWr (u : Nat) : Nat := unitCnt u 0x108 0x108
def cntScrubLines (u : Nat) : Nat := unitCnt u 0x128 0x128
def cntCe (u : Nat) : Nat := unitCnt u 0x130 0x148
def cntUe (u : Nat) : Nat := unitCnt u 0x138 0x150
def cntScrubUe (u : Nat) : Nat := unitCnt u 0x140 0x158
def cntScrubPass (u : Nat) : Nat := unitCnt u 0x148 0x160
def cntScrubLate (u : Nat) : Nat := unitCnt u 0x150 0x168
def cntWcMerge (c : Nat) : Nat := Reg.chanWin c + 0x130
def cntWcFull (c : Nat) : Nat := Reg.chanWin c + 0x138
def cntWcRmw (c : Nat) : Nat := Reg.chanWin c + 0x140
def cntWcPoison (c : Nat) : Nat := Reg.chanWin c + 0x170

/-- STATE of a stack or channel (Table MEM-8): 0 absent, 1 empty, 2 working, 3 mapped out, 4 failed, 5 mismatch. -/
def State.unitState (s : State) (u : Nat) : Nat := s.fld (unitStatus u) Fld.MEMC_CH_STATUS_STATE

def State.unitFailed (s : State) (u : Nat) : Bool := s.unitState u == 4

/-- The die whose memory a unit is, numbered as RAS_FATAL.DIE: the stacks of T-die d beside it, the channels on the P-die. -/
def unitDie (u : Nat) : Nat := if u < 16 then u / 3 else 4

/-- Number of entries of channel `c`. -/
def State.wcCount (s : State) (c : Nat) : Nat :=
  (s.mem.wc.filter fun e => decide ((s.place e.line) = .cap c)).length

/-- WC_OCC follows the entries held. -/
def State.wcOcc (s : State) (c : Nat) : State :=
  s.setFld (Reg.MEMC_CH_STATUS (Reg.chanWin c)) Fld.MEMC_CH_STATUS_WC_OCC (s.wcCount c)

/-! ### Failure in operation (R337) -/

/-- Capability bit of a unit. -/
def unitCap (u : Nat) : Nat := if u < 16 then capStack u else capChan (u - 16)

/-- The write-combining entries of a failed channel are gone. -/
def State.unitWcLost (s : State) (unit : Nat) : State :=
  if unit < 16 then s
  else
    { s with mem := { s.mem with wc := s.mem.wc.filter fun e => decide (s.place e.line ≠ Place.cap (unit - 16)) } }.wcOcc (unit - 16)

/-- What the failure of a memory unit records: its state and events, the loss record and the service request. -/
def State.unitFail (s : State) (unit : Nat) : State :=
  let s := (s.setFld (unitStatus unit) Fld.MEMC_CH_STATUS_STATE 4).capClear (unitCap unit)
  let s := (s.setFld (unitEvent unit) Fld.MEMC_CH_EVENT_FAIL 1).log (unitEvent unit) Fld.MEMC_CH_EVENT_FAIL.lo 0 0
  if unit < 16 then
    ((s.event Reg.RAS_EVENT Fld.RAS_EVENT_STACK_FAIL Reg.RAS_CNT_STACK_FAIL).addLoss lossStack unit).service Fld.RAS_SERVICE_REQUEST_STACK
  else
    ((s.event Reg.RAS_EVENT Fld.RAS_EVENT_CHAN_FAIL Reg.RAS_CNT_CHAN_FAIL).addLoss lossChannel (unit - 16)).service Fld.RAS_SERVICE_REQUEST_CHANNEL

/-- No uncorrectable read has been counted. -/
def noTimes (_ : Nat) : List Nat := []

/-- An uncorrectable read of a working unit: the unit fails when 64 of them have come within one second of TIMEBASE (R337); the reads
counted are those of R320 (DEDUCED, log entry 64). -/
def State.ueWatch (s : State) (u : Nat) : State :=
  let l := ((sGet noTimes s.mem.ueAt u).filter fun t => s.time ≤ 1000000000 + t) ++ [s.time]
  let s := { s with mem := { s.mem with ueAt := sSet noTimes s.mem.ueAt u l } }
  if 64 ≤ l.length ∧ s.unitState u = 2 then (s.unitWcLost u).unitFail u else s

/-! ### Errors of a line -/

/-- Capture of an error address, when free (Table MEM-9). -/
def State.capture (s : State) (a line symbol : Nat) : State :=
  if s.flag a Fld.MEM_UE_ADDR_VALID then s
  else s.setFlds a [(Fld.MEM_UE_ADDR_VALID, 1), (Fld.MEM_UE_ADDR_SYMBOL, symbol), (Fld.MEM_UE_ADDR_OFFSET, line)]

/-- A stored line has the error `e`. -/
def State.setErr (s : State) (line : Nat) (e : LineErr) : State :=
  { s with mem := { s.mem with errs := sSet noErr s.mem.errs line e } }

/-- A corrected read of a line of unit `u` (R320): counted by the unit and its die (R547), captured, and written back corrected. -/
def State.corrected (s : State) (u line symbol : Nat) : State :=
  let s := s.event (unitEvent u) Fld.MEMC_CH_EVENT_CE (cntCe u)
  let s := s.bump32 (Reg.RAS_D_CNT_CE (unitDie u)) 1
  (s.capture (unitCeAddr u) line symbol).setErr line .none

/-- An uncorrectable read of a line of unit `u` (R320): counted and captured; the line stays as stored. -/
def State.uncorrectable (s : State) (u line symbol : Nat) : State :=
  let s := s.event (unitEvent u) Fld.MEMC_CH_EVENT_UE (cntUe u)
  let s := s.bump32 (Reg.RAS_D_CNT_UE (unitDie u)) 1
  s.capture (unitUeAddr u) line symbol

/-- The same, counted against the threshold of R337. -/
def State.ueRead (s : State) (u line symbol : Nat) : State := (s.uncorrectable u line symbol).ueWatch u

/-- Whether a line is stored as poisoned (R550). -/
def State.poisoned (s : State) (line : Nat) : Bool := sGet noMark s.mem.poison line

def State.setPoison (s : State) (line : Nat) (b : Bool) : State :=
  { s with mem := { s.mem with poison := sSet noMark s.mem.poison line b } }

def State.lineErr (s : State) (line : Nat) : LineErr := sGet noErr s.mem.errs line

/-- A read of one line by the controller: whether it is delivered as poisoned, with the error effects of R320. -/
def State.readLine (s : State) (line : Nat) : State × Bool :=
  match (s.place line).unit with
  | none => (s, s.poisoned line)
  | some u =>
    if s.unitFailed u then (s, true)
    else if s.poisoned line then (s, true)
    else match s.lineErr line with
      | .none => (s, false)
      | .ce y => (s.corrected u line y, false)
      | .ue y => (s.ueRead u line y, true)

/-- The write-combining entry of a line. -/
def State.wcOf (s : State) (line : Nat) : Option WcEntry := s.mem.wc.find? fun e => e.line == line

/-- A byte as a read returns it: a write-combining entry over the stored byte (R330). -/
def State.byte (s : State) (a : Nat) : Byte :=
  match s.wcOf (a / 64 * 64) with
  | some e => sGet (fun i => byteAt s.mem.data (a / 64 * 64 + i)) e.bytes (a % 64)
  | none => byteAt s.mem.data a

/-- `n` bytes as a read returns them. -/
def State.bytes (s : State) (a : Nat) : Nat → List Byte
  | 0 => []
  | n + 1 => s.byte a :: s.bytes (a + 1) n

/-- The lines that `n` bytes from `a` touch. -/
def linesOf (a n : Nat) : List Nat :=
  if n = 0 then [] else (List.range ((a % 64 + n - 1) / 64 + 1)).map fun i => a / 64 * 64 + 64 * i

/-! ### Write-combining (R329 to R332) -/

def State.wcDrop (s : State) (line : Nat) : State :=
  { s with mem := { s.mem with wc := s.mem.wc.filter fun e => e.line != line } }

def putEntry (m : List Host.Cell) (line : Nat) : List (Nat × Byte) → List Host.Cell
  | [] => m
  | (i, b) :: r => putEntry (sSet memDflt m (line + i) b) line r

/-- The bytes of an entry reach DRAM. -/
def State.wcStore (s : State) (e : WcEntry) : State :=
  { s with mem := { s.mem with data := putEntry s.mem.data e.line e.bytes } }

/-- Write-back of one entry (R331, R332): a full entry replaces its line; another is merged over the line read, or is
discarded when that line is poisoned. -/
def State.wcFlush (s : State) (e : WcEntry) : State :=
  match s.place e.line with
  | .cap c =>
    let s := s.wcDrop e.line
    let s :=
      if s.unitFailed (16 + c) then s
      else if e.bytes.length == 64 then
        let s := (s.wcStore e).bump64 (cntWcFull c) 1
        (s.setPoison e.line false).setErr e.line .none
      else
        let s := s.bump64 (cntWcRmw c) 1
        match s.poisoned e.line, s.lineErr e.line with
        | true, _ => s.event (unitEvent (16 + c)) Fld.MEMC_CH_EVENT_WC_POISON (cntWcPoison c)
        | false, .ue y =>
          (s.ueRead (16 + c) e.line y).event (unitEvent (16 + c)) Fld.MEMC_CH_EVENT_WC_POISON (cntWcPoison c)
        | false, .ce y => (s.corrected (16 + c) e.line y).wcStore e
        | false, .none => s.wcStore e
    s.wcOcc c
  | _ => s.wcDrop e.line

/-- Flush of a list of entries, in order. -/
def State.wcFlushList (s : State) : List WcEntry → State
  | [] => s
  | e :: r => (s.wcFlush e).wcFlushList r

/-- Flush of every entry of every channel. -/
def State.wcFlushAll (s : State) : State := s.wcFlushList s.mem.wc

/-- Bytes merged into an entry's bytes. -/
def mergeBytes (l : List (Nat × Byte)) (o : Nat) : List Byte → List (Nat × Byte)
  | [] => l
  | b :: bs => mergeBytes (sPut l o b) (o + 1) bs

/-- A partial write of `bs` at offset `o` of a line of channel `c` (R329, R331). -/
def State.wcMerge (s : State) (c line o : Nat) (bs : List Byte) : State :=
  let s :=
    match s.wcOf line with
    | some e =>
      let e' := { e with bytes := mergeBytes e.bytes o bs }
      { s with mem := { s.mem with wc := s.mem.wc.map fun (x : WcEntry) => if x.line == line then e' else x } }
    | none =>
      let s :=
        if s.wcCount c ≥ 256 then
          match s.mem.wc.find? fun (e : WcEntry) => decide (s.place e.line = Place.cap c) with
          | some old => s.wcFlush old
          | none => s
        else s
      { s with mem := { s.mem with wc := s.mem.wc ++ [WcEntry.mk line (mergeBytes [] o bs) s.time] } }
  let s := (s.bump64 (cntWcMerge c) 1).wcOcc c
  match s.wcOf line with
  | some e => if e.bytes.length == 64 then s.wcFlush e else s
  | none => s

/-! ### Accesses by agents -/

/-- How an access completes. -/
inductive MemStat where
  | ok
  | poison
  | absent
  deriving DecidableEq, Repr

/-- The offset lies in the region reserved for the RSE, which no other agent reaches (R277). -/
def State.reserved (s : State) (a : Nat) : Bool :=
  let b := 2 ^ 30 * s.fld Reg.RSE_REGION Fld.RSE_REGION_BASE
  decide (b ≤ a) && decide (a < b + 2 ^ 30 * s.fld Reg.RSE_REGION Fld.RSE_REGION_SIZE)

/-- Whether every byte of the access exists: in a populated tier or the tile store of a core in service (R25, R313). -/
def State.exists (s : State) (a n : Nat) : Bool :=
  (linesOf a n).all fun l =>
    !s.reserved l &&
    match s.place l with
    | .ctrl => false
    | .absent => false
    | _ => true

/-- A whole line replaced in the array: poison and error go with it (R321, R550). -/
def State.storeLine (s : State) (line : Nat) (bs : List Byte) : State :=
  { s with mem := { s.mem with
      data := putBytes s.mem.data line bs
      poison := sSet noMark s.mem.poison line false
      errs := sSet noErr s.mem.errs line .none } }

def State.storeBytes (s : State) (a : Nat) (bs : List Byte) : State :=
  { s with mem := { s.mem with data := putBytes s.mem.data a bs } }

/-- A write of `bs` at offset `o` of one line (R321, R329, R337, R550). -/
def State.writeLine (s : State) (line o : Nat) (bs : List Byte) : State × MemStat :=
  let whole := decide (bs.length = 64)
  match s.place line with
  | .fast k =>
    let s := s.bump64 (cntWr k) 1
    if s.unitFailed k then (s, .poison)
    else if whole then (s.storeLine line bs, .ok)
    else
      let r := s.readLine line
      if r.2 then (r.1, .ok) else (r.1.storeBytes (line + o) bs, .ok)
  | .cap c =>
    let s := s.bump64 (cntWr (16 + c)) 1
    if s.unitFailed (16 + c) then (s, .poison)
    else if whole then (((s.wcDrop line).wcOcc c).storeLine line bs, .ok)
    else (s.wcMerge c line o bs, .ok)
  | .tile _ =>
    if whole then (s.storeLine line bs, .ok)
    else if s.poisoned line then (s, .ok)
    else (s.storeBytes (line + o) bs, .ok)
  | .ctrl => (s, .absent)
  | .absent => (s, .absent)

/-- The writes of one access, line by line. -/
def State.writeLines (s : State) (a : Nat) (bs : List Byte) : List Nat → State × MemStat
  | [] => (s, .ok)
  | l :: r =>
    let o := if a ≤ l then 0 else a - l
    let n := 64 - o
    let w := s.writeLine l o (bs.take n)
    let x := w.1.writeLines (l + 64) (bs.drop n) r
    (x.1, if w.2 = .ok then x.2 else w.2)

/-- A write of bytes: nothing is written where a byte of it does not exist (R25). -/
def State.writeRaw (s : State) (a : Nat) (bs : List Byte) : State × MemStat :=
  if s.exists a bs.length then s.writeLines a bs (linesOf a bs.length) else (s, .absent)

/-- The reads of one access, line by line: the state and whether any line came poisoned. -/
def State.readLines (s : State) : List Nat → State × Option Nat
  | [] => (s, none)
  | l :: r =>
    let s := match (s.place l).unit with
      | some u => s.bump64 (cntRd u) 1
      | none => s
    let x := s.readLine l
    let y := x.1.readLines r
    (y.1, if x.2 then some l else y.2)

/-- A read of `n` bytes by an agent, with the first poisoned line where there is one (R320, R551). -/
structure ReadRes where
  st    : State
  stat  : MemStat
  data  : List Byte
  line  : Nat

/-- A read of `n` bytes by an agent: no data where a byte of it does not exist (R25) or a line is poisoned (R551). -/
def State.read (s : State) (a n : Nat) : ReadRes :=
  if s.exists a n then
    let r := s.readLines (linesOf a n)
    match r.2 with
    | some l => ⟨r.1, .poison, [], l⟩
    | none => ⟨r.1, .ok, r.1.bytes a n, 0⟩
  else ⟨s, .absent, [], 0⟩

/-- A unit of die `die` reads a 64-byte descriptor at a local offset; poison found is consumed (R555). -/
def State.readDesc (s : State) (die a : Nat) : ReadRes :=
  let r := s.read a 64
  if r.stat = .poison then { r with st := r.st.poisonUsed die r.line } else r

/-! ### Translation (R231, R232) -/

/-- Kind of a translated access; `any` needs no right of its own. -/
inductive Access where
  | read
  | write
  | image
  | any
  deriving DecidableEq, Repr

/-- Outcome of a translation: a local offset, or a reason of Table FID-10 and the table level. -/
inductive Xlat where
  | ok (pa : Nat)
  | bad (reason level : Nat)
  deriving DecidableEq, Repr

/-- Whether an offset lies in the range that Table MEM-1 gives a tier, populated or not. -/
def tierRange (a : Nat) : Bool :=
  decide (a < 0x018000000000) || (decide (capBase ≤ a) && decide (a < 0x180000000000))

/-- The checks of R232 on entry `e` of level `lvl`: a fault reason, the next table, or the leaf's offset. -/
inductive WalkStep where
  | bad (reason : Nat)
  | leaf (pa : Nat)
  | table (t : Nat)
  deriving DecidableEq, Repr

def walkStep (e da part lvl : Nat) (acc : Access) : WalkStep :=
  if !bit e 0 then .bad 1
  else if bits e 63 60 ≠ 0 ∨ bits e 11 6 ≠ 0 then .bad 2
  else if bits e 59 48 ≠ part then .bad 5
  else if bit e 1 then
    if lvl = 4 then .bad 2
    else
      let size := 2 ^ (9 * lvl + 3)
      if 4096 * bits e 47 12 % size ≠ 0 then .bad 2
      else if acc = .read ∧ bit e 2 = false then .bad 6
      else if acc = .write ∧ bit e 3 = false then .bad 6
      else if acc = .image ∧ bit e 4 = false then .bad 6
      else .leaf (4096 * bits e 47 12 + da % size)
  else if lvl = 1 ∨ bits e 5 2 ≠ 0 then .bad 2
  else .table (4096 * bits e 47 12)

/-- The walk of R232 from table `t` at level `lvl`, by a unit of die `die`; the last value is the leaf entry read. -/
def State.walk (s : State) (die da part : Nat) (acc : Access) : Nat → Nat → State × Xlat × Nat
  | 0, _ => (s, .bad 2 1, 0)
  | lvl + 1, t =>
    let a := t + 8 * bits da (9 * (lvl + 1) + 11) (9 * (lvl + 1) + 3)
    if tierRange a then
      let r := s.read a 8
      match r.stat with
      | .absent => (r.st, .bad 4 (lvl + 1), 0)
      | .poison => (r.st.poisonUsed die a, .bad 7 (lvl + 1), 0)
      | .ok =>
        match walkStep (leNat r.data) da part (lvl + 1) acc with
        | .bad k => (r.st, .bad k (lvl + 1), 0)
        | .leaf pa => (r.st, .ok pa, leNat r.data)
        | .table t' => r.st.walk die da part acc lvl t'
    else (s, .bad 2 (lvl + 1), 0)

/-- translate (R232): a physical offset that does not exist, or lies in control space (R590), gives UNIT_ABSENT. `root` is
the ROOT field, a multiple of 4,096 once shifted. The last value is the leaf entry. -/
def State.translateE (s : State) (die root part da : Nat) (acc : Access) : State × Xlat × Nat :=
  let w := s.walk die da part acc 4 (4096 * root)
  match w.2.1 with
  | .ok pa => if w.1.exists pa 1 then w else (w.1, .bad 4 0, w.2.2)
  | .bad .. => w

def State.translate (s : State) (die root part da : Nat) (acc : Access) : State × Xlat :=
  let w := s.translateE die root part da acc
  (w.1, w.2.1)

/-! ### Writes by agents, with the dirty bits of read-mostly windows (R374) -/

/-- Windows with a valid RM_HOME entry. -/
def State.homeWins (s : State) : List Nat :=
  s.regs.filterMap fun e =>
    if Reg.winWin 0 ≤ e.1 ∧ e.1 < Reg.winWin 64 ∧ (e.1 - Reg.winWin 0) % 0x40 = 0 ∧
        getF e.2 Fld.HWS_WIN_CFG_VALID = 1 ∧ getF e.2 Fld.HWS_WIN_CFG_KIND = 1 then
      some ((e.1 - Reg.winWin 0) / 0x40)
    else none

/-- Physical offset of page `p` of window `w`, through the ingress tables. -/
def State.winPage (s : State) (w p : Nat) : Option Nat :=
  match (s.translate 5 (s.fld Reg.HWS_INGRESS_PT Fld.HWS_INGRESS_PT_ROOT) (s.fld Reg.HWS_PART Fld.HWS_PART_PARTITION)
      (4096 * (s.fld (Reg.HWS_WIN_CFG (Reg.winWin w)) Fld.HWS_WIN_CFG_BASE + p)) .read).2 with
  | .ok pa => some pa
  | .bad .. => none

/-- Byte and bit of the dirty bitmap that stand for line `i` of window `w`. -/
def State.dirtyByte (s : State) (w i : Nat) : Nat := s.fld (Reg.HWS_WIN_AUX (Reg.winWin w)) Fld.HWS_WIN_AUX_BASE * 64 + i / 8

/-- Line `i` of window `w` is marked or unmarked in the bitmap. -/
def State.dirtySet (s : State) (w i : Nat) (b : Bool) : State :=
  let a := s.dirtyByte w i
  let v := (s.byte a).toNat
  let v' := if bit v (i % 8) == b then v else if b then v + 2 ^ (i % 8) else v - 2 ^ (i % 8)
  (s.writeRaw a [BitVec.ofNat 8 v']).1

/-- Page `p` of window `w` lies on the physical page of `line`, whatever rights its mapping gives. -/
def State.winOn (s : State) (w line p : Nat) : Bool :=
  match (s.translate 5 (s.fld Reg.HWS_INGRESS_PT Fld.HWS_INGRESS_PT_ROOT) (s.fld Reg.HWS_PART Fld.HWS_PART_PARTITION)
      (4096 * (s.fld (Reg.HWS_WIN_CFG (Reg.winWin w)) Fld.HWS_WIN_CFG_BASE + p)) .any).2 with
  | .ok pa => pa == 4096 * (line / 4096)
  | .bad .. => false

/-- A line has been written: it is marked on every page of each home window that holds it (R374). An agent of this model gains write
ownership of a line by the write itself (DEDUCED, log entry 63). -/
def State.dirtyLine (s : State) (line : Nat) : List Nat → State
  | [] => s
  | w :: r =>
    let n := s.fld (Reg.HWS_WIN_SIZE (Reg.winWin w)) Fld.HWS_WIN_SIZE_PAGES
    (((List.range n).filter (s.winOn w line)).foldl (fun s p => s.dirtySet w (p * 64 + line % 4096 / 64) true) s).dirtyLine line r

/-- A write of bytes by an agent (R25), marked in the dirty bitmaps. -/
def State.write (s : State) (a : Nat) (bs : List Byte) : State × MemStat :=
  let r := s.writeRaw a bs
  let wins := r.1.homeWins
  if r.2 = .ok ∧ wins ≠ [] then ((linesOf a bs.length).foldl (fun s l => s.dirtyLine l wins) r.1, r.2) else r

/-! ### Runs of bytes at device addresses -/

/-- `n` bytes from a device address by a unit of die `die`, page by page, or why there are none: `poison` where a table entry or
the data come poisoned, `absent` for any other failure of the translation. -/
def State.devRead (s : State) (die root part da n : Nat) : Nat → State × (MemStat ⊕ List Byte)
  | 0 => (s, .inr [])
  | k + 1 =>
    if n = 0 then (s, .inr [])
    else
      let m := min n (4096 - da % 4096)
      let t := s.translate die root part da .read
      match t.2 with
      | .bad 7 _ => (t.1, .inl .poison)
      | .bad .. => (t.1, .inl .absent)
      | .ok pa =>
        let r := t.1.read pa m
        match r.stat with
        | .poison => (r.st.poisonUsed die r.line, .inl .poison)
        | .absent => (r.st, .inl .absent)
        | .ok =>
          let x := r.st.devRead die root part (da + m) (n - m) k
          (x.1, match x.2 with
            | .inl e => .inl e
            | .inr b => .inr (r.data ++ b))

/-- Bytes to a device address by a unit of die `die`, page by page, up to the first page that cannot be written. -/
def State.devWrite (s : State) (die root part da : Nat) (bs : List Byte) : Nat → State × MemStat
  | 0 => (s, .ok)
  | k + 1 =>
    if bs = [] then (s, .ok)
    else
      let m := min bs.length (4096 - da % 4096)
      let t := s.translate die root part da .write
      match t.2 with
      | .bad 7 _ => (t.1, .poison)
      | .bad .. => (t.1, .absent)
      | .ok pa =>
        let r := t.1.write pa (bs.take m)
        match r.2 with
        | .ok => r.1.devWrite die root part (da + m) (bs.drop m) k
        | e => (r.1, e)

end Sys2Proof.Machine
end

