-- ==== Sys2Proof/Machine/Events.lean ====
section
/-! DEFINITION. Interrupt messages (R272) and event queues, those of the T-dies (R110 to R113, R602) and those of the
P-die, which behave alike over physical offsets (R273). -/

namespace Sys2Proof.Machine

/-- Domain `n` of Table RST-4 is powered. -/
def State.powered (s : State) (n : Nat) : Bool :=
  bit (s.rd (if n < 64 then Reg.RST_PWR0 else if n < 128 then Reg.RST_PWR1 else Reg.RST_PWR2)).toNat (n % 64)

/-- Power domain of a hart (Table RST-4). -/
def hartDomain (h : Nat) : Nat := if h < 64 then 121 + h / 8 else 129

/-- Delivery of an interrupt message (R272): identity VECTOR[8:0] becomes pending in the S-level file of hart
VECTOR[15:9]; identity 0 sends nothing; a hart above 67 or unpowered loses the message. -/
def State.interrupt (s : State) (vector : Nat) : State :=
  let h := bits vector 15 9
  let i := bits vector 8 0
  if i = 0 then s
  else if h > 67 ∨ s.powered (hartDomain h) = false then
    s.event Reg.HOST_EVENT Fld.HOST_EVENT_MSG_DROP Reg.HOST_CNT_MSG_DROP
  else { s with host := { s.host with imsic := sSet noMark s.host.imsic (512 * h + i) true } }

/-- No queue has given out a sequence number. -/
def noSeq (_ : Nat) : Nat := 0

/-- Size in entries of the queue whose registers begin at `w`; 0 for a SIZE_LOG2 that disables it (Table TCR-29). -/
def State.evqSize (s : State) (w : Nat) : Nat :=
  let k := s.fld (Reg.EVQ_CTRL w) Fld.TC_EVQ_CTRL_SIZE_LOG2
  if 6 ≤ k ∧ k ≤ 16 then 2 ^ k else 0

/-- The queue accepts entries. -/
def State.evqOn (s : State) (w : Nat) : Bool :=
  s.flag (Reg.EVQ_CTRL w) Fld.TC_EVQ_CTRL_ENABLE && decide (0 < s.evqSize w)

/-- The queue is full (R110). -/
def State.evqFull (s : State) (w : Nat) : Bool :=
  (s.fld (Reg.EVQ_TAIL w) Fld.TC_EVQ_TAIL_TAIL + 1) % s.evqSize w == s.fld (Reg.EVQ_HEAD w) Fld.TC_EVQ_HEAD_HEAD

/-- The 32 bytes of an event entry (Table TCR-10). -/
def entryBytes (type code core seq step : Nat) (a b : Word) : List Byte :=
  wordsToBytes [BitVec.ofNat 64 (2 ^ 56 * (type % 256) + 2 ^ 48 * (code % 256) + 2 ^ 32 * (core % 65536) + seq % 2 ^ 32),
    BitVec.ofNat 64 step, a, b]

/-- An event takes the next sequence number of its queue, written or dropped (R111, R112); the first since reset takes 0 (DESIGN CHOICE,
log entry 27). -/
def State.evqTakeSeq (s : State) (w : Nat) : Nat × State :=
  let n := sGet noSeq s.tc.evqSeq w
  (n, { s with tc := { s.tc with evqSeq := sSet noSeq s.tc.evqSeq w ((n + 1) % 2 ^ 32) } })

/-- After a written entry TAIL advances; on a queue that was empty the interrupt message is sent (R113). -/
def State.evqAdvance (s : State) (w : Nat) : State :=
  let t := s.fld (Reg.EVQ_TAIL w) Fld.TC_EVQ_TAIL_TAIL
  let empty := t == s.fld (Reg.EVQ_HEAD w) Fld.TC_EVQ_HEAD_HEAD
  let s := s.setFld (Reg.EVQ_TAIL w) Fld.TC_EVQ_TAIL_TAIL ((t + 1) % s.evqSize w)
  if empty then s.interrupt (s.fld (Reg.EVQ_CTRL w) Fld.TC_EVQ_CTRL_VECTOR) else s

/-- A dropped event of a T-die queue (R112): DROPPED counts it and the die's EVQ_DROP event is set. -/
def State.dieEvqDrop (s : State) (d w : Nat) : State :=
  let s := s.bump32 (Reg.EVQ_DROPPED w) 1
  s.event (Reg.TC_DIE_EVENT (Reg.dieBlk d)) Fld.TC_DIE_EVENT_EVQ_DROP (Reg.TC_CNT_EVQ_DROP (Reg.dieBlk d))

/-- A write of part of a line would lose its bytes: the line is poisoned, or its fast-tier line holds an uncorrectable error, which the
read of the read-modify-write finds (R112, R321). -/
def State.lineBad (s : State) (line : Nat) : Bool :=
  s.poisoned line ||
    match s.place line, s.lineErr line with
    | .fast _, .ue _ => true
    | _, _ => false

/-- An event of a core of T-die `d` in partition context (`pvalid`, `part`) goes to queue `q` of the die. The number is
what EVPOST reports: 0 posted, 1 full, 2 disabled, which a queue of another owner (R119) and an entry that cannot be
written (R112) count as. -/
def State.postDie (s : State) (d q : Nat) (pvalid : Bool) (part type code core : Nat) (a b : Word) : State × Nat :=
  let w := Reg.dieEvq d q
  let owner := s.rd (Reg.EVQ_OWNER w)
  let x := s.evqTakeSeq w
  let s := x.2
  if s.evqOn w = false ∨ getF owner Fld.TC_EVQ_OWNER_VALID ≠ 1 ∨ pvalid = false ∨
      getF owner Fld.TC_EVQ_OWNER_PARTITION ≠ part then (s.dieEvqDrop d w, 2)
  else if s.evqFull w then (s.dieEvqDrop d w, 1)
  else
    let da := s.fld (Reg.EVQ_BASE w) Fld.TC_EVQ_BASE_BASE * 32 + 32 * s.fld (Reg.EVQ_TAIL w) Fld.TC_EVQ_TAIL_TAIL
    let t := s.translate d (s.fld (Reg.TC_EVQ_PTBASE (Reg.dieBlk d)) Fld.TC_EVQ_PTBASE_ROOT)
      (getF owner Fld.TC_EVQ_OWNER_PARTITION) da .write
    match t.2 with
    | .bad .. => (t.1.dieEvqDrop d w, 2)
    | .ok pa =>
      let s := t.1
      let p := s.lineBad (pa / 64 * 64)
      let r := s.write pa (entryBytes type code core x.1 s.step a b)
      if r.2 = .ok ∧ p = false then (r.1.evqAdvance w, 0) else (r.1.dieEvqDrop d w, 2)

/-- A dropped entry of a host queue. -/
def State.hostEvqDrop (s : State) (w : Nat) : State :=
  (s.bump32 (Reg.EVQ_DROPPED w) 1).event Reg.HOST_EVENT Fld.HOST_EVENT_EVQ_DROP Reg.HOST_CNT_EVQ_DROP

/-- An entry goes to host queue `q`, whose ring base is a physical local offset in a working tier (R273). -/
def State.postHost (s : State) (q type code core step : Nat) (a b : Word) : State × Nat :=
  let w := Reg.hostEvq q
  let x := s.evqTakeSeq w
  let s := x.2
  if s.evqOn w = false then (s.hostEvqDrop w, 2)
  else if s.evqFull w then (s.hostEvqDrop w, 1)
  else
    let pa := s.fld (Reg.EVQ_BASE w) Fld.TC_EVQ_BASE_BASE * 32 + 32 * s.fld (Reg.EVQ_TAIL w) Fld.TC_EVQ_TAIL_TAIL
    let p := s.lineBad (pa / 64 * 64)
    if s.inTier pa then
      let r := s.write pa (entryBytes type code core x.1 step a b)
      if r.2 = .ok ∧ p = false then (r.1.evqAdvance w, 0) else (r.1.hostEvqDrop w, 2)
    else (s.hostEvqDrop w, 2)

end Sys2Proof.Machine
end

