-- ==== Sys2Proof/Machine/HlyOps.lean ====
section
/-! DEFINITION. Halyard's shared operations: time, moments of a tick, done accounting (R47 to R50), slip state (R49, R51)
and the sending of tick symbols (R33). -/

namespace Sys2Proof.Machine

/-! ### State codes (Table HLY-10) -/

def hlyIdle : Nat := 0
def hlyJoining : Nat := 1
def hlyRunning : Nat := 2
def hlyHoldFault : Nat := 3
def hlyHoldFinal : Nat := 4
def hlyLocal : Nat := 5

def State.hlyState (s : State) : Nat := s.fld Reg.HLY_STATUS Fld.HLY_STATUS_STATE
def State.setHlyState (s : State) (x : Nat) : State := s.setFld Reg.HLY_STATUS Fld.HLY_STATUS_STATE x

/-- The node takes the decisions of a tick: master of its domain, or running its own tick (R32). -/
def State.isMaster (s : State) : Bool :=
  s.hlyState == hlyLocal || s.fld Reg.HLY_STATUS Fld.HLY_STATUS_ROLE == 1

/-- A tick is running or held. -/
def State.ticking (s : State) : Bool :=
  s.hlyState == hlyRunning || s.hlyState == hlyHoldFault || s.hlyState == hlyHoldFinal || s.hlyState == hlyLocal

/-- The node is a member of its domain. -/
def State.member (s : State) : Bool :=
  s.hlyState == hlyRunning || s.hlyState == hlyHoldFault || s.hlyState == hlyHoldFinal

/-! ### Time -/

/-- TIMEBASE reaches `t`, if it has not passed it. -/
def State.timeTo (s : State) (t : Nat) : State :=
  if s.time < t then s.wr Reg.HLY_TIMEBASE (BitVec.ofNat 64 t) else s

/-- One nanosecond of the clock source (R34), at the slewed rate (R36): TIMEBASE advances by 1 + rate / 10^6 ns exactly. -/
def State.tickNs (s : State) : State :=
  let x := (65536 * (1000000 + s.hly.rate)).toNat + s.hly.slewRem
  let f := s.hly.frac + x / 1000000
  { s.wr Reg.HLY_TIMEBASE (BitVec.ofNat 64 (s.time + f / 65536)) with
    hly := { s.hly with frac := f % 65536, slewRem := x % 1000000 } }

def State.tickStart (s : State) : Nat := (s.rd Reg.HLY_TICK_START).toNat
def State.tickEnd (s : State) : Nat := (s.rd Reg.HLY_TICK_END).toNat

/-- Offset of mark `p` of a parameter set. -/
def TickParams.mark (t : TickParams) (p : Nat) : Nat :=
  if p = 1 then t.mark1 else if p = 2 then t.mark2 else if p = 3 then t.mark3 else 0

/-- Mark `p` is enabled; phase 0 always is. -/
def TickParams.enabled (t : TickParams) (p : Nat) : Bool := p == 0 || bit t.markEn (p - 1)

/-- Start of phase `p` of the current tick; the tick start where the mark is not enabled (R59, R101). -/
def State.phaseStart (s : State) (p : Nat) : Nat :=
  if s.hly.active.enabled p then s.tickStart + s.hly.active.mark p else s.tickStart

def State.guardPoint (s : State) : Nat := s.tickStart + s.hly.active.period - s.hly.active.guard
def State.quietStart (s : State) : Nat := s.tickStart + s.hly.active.period - s.hly.active.quiet

/-- Current phase (READSYS 4). -/
def State.phase (s : State) : Nat :=
  if s.hly.active.enabled 3 && decide (s.tickStart + s.hly.active.mark3 ≤ s.time) then 3
  else if s.hly.active.enabled 2 && decide (s.tickStart + s.hly.active.mark2 ≤ s.time) then 2
  else if s.hly.active.enabled 1 && decide (s.tickStart + s.hly.active.mark1 ≤ s.time) then 1
  else 0

/-- Moment `m` of step `st` has passed (R61): an earlier step, or the current step with `m` before now. -/
def State.passed (s : State) (st m : Nat) : Bool :=
  laterStep s.step st || (st == s.step && decide (m < s.time))

/-! ### Done accounting -/

/-- Addresses of the eleven done-mask words, with the done and late words that go with them. -/
def doneWords : List (Nat × Nat × Nat) :=
  ((List.range 10).map fun w => (Reg.HLY_DONE_MASK_C w, Reg.HLY_DONE_C w, Reg.HLY_LATE_C w)) ++
    [(Reg.HLY_DONE_MASK_U, Reg.HLY_DONE_U, Reg.HLY_LATE_U)]

/-- mask AND NOT done of one word. -/
def State.lateWord (s : State) (m d : Nat) : Word := s.rd m &&& ~~~ (s.rd d)

/-- Some unit of the mask has not signalled (R49). -/
def State.anyLate (s : State) : Bool := doneWords.any fun e => s.lateWord e.1 e.2.1 != 0

/-- The deferral count of port `p` stands at 64 (R64). -/
def State.calForced (s : State) (p : Nat) : Bool :=
  s.working (capPort p) && s.fld (Reg.OPT_CAL (Reg.portWin p)) Fld.OPT_CAL_DEFER == 64

/-- Ports whose deferral count stands at 64: each is owed a forced slip at the guard point (R64). -/
def State.calDue (s : State) : List Nat := (List.range 8).filter s.calForced

/-- Local slip state (R49, R64, R510): a port whose count reaches 64 within a tick counts from the next guard point. -/
def State.localPending (s : State) : Bool :=
  (s.hly.guardDone && (s.anyLate || s.hly.forced.any s.calForced)) || s.hly.cutHold

/-- Aggregate slip state (R51, R40). -/
def State.aggPending (s : State) : Bool :=
  s.localPending || (s.hly.children.any fun c => c.pending) || s.hly.takeover

/-- Greatest subtree latency reported by an attached child (R36). -/
def State.childLatency (s : State) : Nat := s.hly.children.foldl (fun m c => max m c.latency) 0

/-- Subtree latency of this node (R36). -/
def State.subtreeLatency (s : State) : Nat := (s.hly.hopLat + s.childLatency).toNat

/-- The node this one is attached to (R39). -/
def State.parent (s : State) : Nat :=
  if s.hly.useAlt then s.fld Reg.HLY_DOMAIN Fld.HLY_DOMAIN_ALT_PARENT else s.fld Reg.HLY_DOMAIN Fld.HLY_DOMAIN_PARENT

/-- TYPE codes of Table HLY-1. -/
def symTimeReq : Nat := 1
def symTimeResp : Nat := 2
def symSlipState : Nat := 3
def symTickExtend : Nat := 4
def symTickFinal : Nat := 5
def symTickFault : Nat := 6

/-- A symbol of this node with the fields that every symbol carries (Table HLY-1). -/
def State.mkSym (s : State) : TickSymbol :=
  { verMajor := 1, verMinor := 0, domain := s.fld Reg.HLY_DOMAIN Fld.HLY_DOMAIN_DOMAIN, gen := s.hly.active.gen,
    slips := s.fld Reg.HLY_SLIPS Fld.HLY_SLIPS_CURRENT, children := 0, pending := false, seq := 0, level := 0,
    step := s.step, timeA := 0, timeB := 0 }

/-- A symbol goes out towards a node. -/
def State.send (s : State) (dst type : Nat) (y : TickSymbol) : State :=
  { s with hly := { s.hly with sent := s.hly.sent ++ [⟨dst, type, y⟩] } }

/-- A symbol goes out to every attached child. -/
def State.sendChildren (s : State) (type : Nat) (y : TickSymbol) : State :=
  { s with hly := { s.hly with sent := s.hly.sent ++ s.hly.children.map fun c => ⟨c.node, type, y⟩ } }

/-- SLIP_STATE to the parent (R51). -/
def State.sendSlip (s : State) : State :=
  if s.isMaster ∨ s.fld Reg.HLY_DOMAIN Fld.HLY_DOMAIN_VALID ≠ 1 then s
  else s.send s.parent symSlipState
    { s.mkSym with pending := s.aggPending, timeB := min 0xFFFFF s.subtreeLatency }

/-- The master's announce lead and least guard (R51), and GUARD_SHORT. A sum that the field of 20 bits cannot hold reads
0xF_FFFF (DESIGN CHOICE, log entry 61). -/
def State.leadUpdate (s : State) : State :=
  if s.isMaster then
    let s := s.setFlds Reg.HLY_TREE
      [(Fld.HLY_TREE_ANNOUNCE_LEAD,
          if s.flag Reg.HLY_DOMAIN Fld.HLY_DOMAIN_VALID then min 0xFFFFF (s.childLatency + 500) else 0),
       (Fld.HLY_TREE_MIN_GUARD, min 0xFFFFF (2 * s.childLatency + 500))]
    s.setFld Reg.HLY_STATUS Fld.HLY_STATUS_GUARD_SHORT
      (if s.hly.active.guard < s.fld Reg.HLY_TREE Fld.HLY_TREE_MIN_GUARD then 1 else 0)
  else s

/-- The slip state is formed again; a change of the aggregate is sent to the parent (R51). -/
def State.slipUpdate (s : State) : State :=
  let old := s.flag Reg.HLY_STATUS Fld.HLY_STATUS_AGG_PENDING
  let s := s.setFlds Reg.HLY_STATUS
    [(Fld.HLY_STATUS_PENDING, if s.localPending then 1 else 0), (Fld.HLY_STATUS_AGG_PENDING, if s.aggPending then 1 else 0)]
  if old == s.aggPending then s else s.sendSlip

/-- A done bit is set (R48): word `a` of the done registers, bit `j`. A second signal changes nothing. -/
def State.setDone (s : State) (a j : Nat) : State :=
  if bit (s.rd a).toNat j then s
  else (s.wr a (BitVec.ofNat 64 ((s.rd a).toNat + 2 ^ j))).slipUpdate

/-- Step-done of core `c` reaches Halyard (R48); nothing happens while no tick runs (R105). -/
def State.coreDone (s : State) (c : Nat) : State :=
  if s.hlyState = hlyIdle then s
  else (s.setFld (Reg.TC_STATUS (s.win c)) Fld.TC_STATUS_DONE_THIS_STEP 1).setDone (Reg.HLY_DONE_C (c / 64)) (c % 64)

/-- Step-done of another unit: bit of HLY_DONE_U (Table HLY-3). -/
def State.unitDone (s : State) (f : Field) : State :=
  if s.hlyState = hlyIdle then s else s.setDone Reg.HLY_DONE_U f.lo

/-- The done-mask bit of a core is forced to 0 (R47), in the mask and in a write of it that waits. -/
def State.maskForce (s : State) (a j : Nat) : State :=
  let clr (v : Word) : Word := if bit v.toNat j then BitVec.ofNat 64 (v.toNat - 2 ^ j) else v
  let s := s.wr a (clr (s.rd a))
  let s := { s with hly := { s.hly with maskNext := s.hly.maskNext.map fun (e : Nat × Word) => if e.1 = a then (a, clr e.2) else e } }
  s.slipUpdate

/-- Mask word of the done-mask registers with the bits of absent or lost units forced to 0 (R47). -/
def State.maskAllowed (s : State) (a : Nat) (v : Word) : Word :=
  if a = Reg.HLY_DONE_MASK_U then
    let ok (j : Nat) : Bool :=
      if j = 0 then true else if j = 1 then s.working capRse else if j = 2 then s.working capCkp
      else if j = 3 then s.working (capFdie 0) else if j = 4 then s.working (capFdie 1) else false
    BitVec.ofNat 64 ((ones v.toNat 5).foldl (fun m j => if ok j then m + 2 ^ j else m) 0)
  else
    let w := (a - Reg.HLY_DONE_MASK_C 0) / 8
    BitVec.ofNat 64 ((ones v.toNat 64).foldl (fun m j => if s.coreUp (64 * w + j) then m + 2 ^ j else m) 0)

/-- A symbol of a TICK flit arrives: one of a reserved TYPE is ignored and counted (R33), another waits with the time of its arrival
(R400). -/
def State.symArrive (s : State) (e : Nat × TickSymbol) : State :=
  if e.1 = 0 ∨ 6 < e.1 then s.event Reg.HLY_EVENT Fld.HLY_EVENT_SYM_UNKNOWN Reg.HLY_CNT_SYM_UNKNOWN
  else { s with ports := { s.ports with rxSym := s.ports.rxSym ++ [(e.1, e.2, s.time)] } }

end Sys2Proof.Machine
end

