-- ==== Sys2Proof/Machine/Num.lean ====
section
/-! DEFINITION. Number formats and rounding (R121 to R145, R161), the Reef generator (R540) and histogram words (R174).
Values are exact: a conversion rounds once, from the exact value of its source. -/

namespace Sys2Proof.Machine

/-! ### Flags: one bit each, the low four laid out as ME_FLAGS; then the two histogram events of R141 -/

def flNX : Nat := 1
def flUF : Nat := 2
def flOF : Nat := 4
def flNV : Nat := 8
def evSat : Nat := 16
def evFlush : Nat := 32

/-- The exact value of an element: a NaN, an infinity, a zero with its sign, or m × 2^e with m not 0. -/
inductive Num where
  | nan (signalling : Bool)
  | inf (neg : Bool)
  | zero (neg : Bool)
  | fin (m : Int) (e : Int)
  deriving DecidableEq, Repr

/-- m × 2^e; +0 where m is 0. -/
def Num.ofInt (m e : Int) : Num := if m = 0 then .zero false else .fin m e

def Num.isNan : Num → Bool
  | .nan _ => true
  | _ => false

def Num.isSnan : Num → Bool
  | .nan true => true
  | _ => false

def Num.isInf : Num → Bool
  | .inf _ => true
  | _ => false

def Num.isZero : Num → Bool
  | .zero _ => true
  | _ => false

/-- The sign; a NaN has none. -/
def Num.neg : Num → Bool
  | .nan _ => false
  | .inf n => n
  | .zero n => n
  | .fin m _ => decide (m < 0)

/-- The value times 2^k. -/
def Num.scale (x : Num) (k : Int) : Num :=
  match x with
  | .fin m e => .fin m (e + k)
  | x => x

/-- The value with its sign inverted. -/
def Num.negate : Num → Num
  | .nan q => .nan q
  | .inf n => .inf (!n)
  | .zero n => .zero (!n)
  | .fin m e => .fin (-m) e

/-- ilog2 of a magnitude m × 2^e, m not 0. -/
def ilog2 (m : Nat) (e : Int) : Int := (Nat.log2 m : Int) + e

/-- |a| < |b| for a = m × 2^e, b = n × 2^f. -/
def magLt (m : Nat) (e : Int) (n : Nat) (f : Int) : Bool :=
  let g := min e f
  decide (m * 2 ^ (e - g).toNat < n * 2 ^ (f - g).toNat)

/-! ### Formats -/

/-- Format codes (Table FMT-1). -/
def fmtFP64 : Nat := 0x0
def fmtFP32 : Nat := 0x1
def fmtBF16 : Nat := 0x2
def fmtFP16 : Nat := 0x3
def fmtE4M3 : Nat := 0x4
def fmtE5M2 : Nat := 0x5
def fmtE3M2 : Nat := 0x6
def fmtE2M3 : Nat := 0x7
def fmtE2M1 : Nat := 0x8
def fmtINT8 : Nat := 0x9
def fmtINT4 : Nat := 0xA
def fmtE8M0 : Nat := 0xB
def fmtINT32 : Nat := 0xC
def fmtINT64 : Nat := 0xD

/-- Element width in bits (Table FMT-1). -/
def fmtBits (f : Nat) : Nat :=
  match f with
  | 0x0 => 64
  | 0x1 => 32
  | 0x2 => 16
  | 0x3 => 16
  | 0x4 => 8
  | 0x5 => 8
  | 0x6 => 6
  | 0x7 => 6
  | 0x8 => 4
  | 0x9 => 8
  | 0xA => 4
  | 0xB => 8
  | 0xC => 32
  | 0xD => 64
  | _ => 128

/-- Exponent bits, mantissa bits and bias of a floating-point format (Table FMT-2). -/
structure FloatFmt where
  eb   : Nat
  mb   : Nat
  bias : Nat
  deriving DecidableEq, Repr

def floatFmt (f : Nat) : Option FloatFmt :=
  match f with
  | 0x0 => some ⟨11, 52, 1023⟩
  | 0x1 => some ⟨8, 23, 127⟩
  | 0x2 => some ⟨8, 7, 127⟩
  | 0x3 => some ⟨5, 10, 15⟩
  | 0x4 => some ⟨4, 3, 7⟩
  | 0x5 => some ⟨5, 2, 15⟩
  | 0x6 => some ⟨3, 2, 3⟩
  | 0x7 => some ⟨2, 3, 1⟩
  | 0x8 => some ⟨2, 1, 1⟩
  | _ => none

/-- The format has infinities (Table FMT-2). -/
def fmtHasInf (f : Nat) : Bool := f == 0 || f == 1 || f == 2 || f == 3 || f == 5

/-- The format is a two's-complement integer (R126). -/
def fmtIsInt (f : Nat) : Bool := f == 0x9 || f == 0xA || f == 0xC || f == 0xD

/-- Bytes per block of 32 elements (R134). -/
def fmtBlock (f : Nat) : Nat := 4 * fmtBits f

/-- Code of the largest finite magnitude (Table FMT-2). -/
def maxCode (f : Nat) (t : FloatFmt) : Nat :=
  if fmtHasInf f then 2 ^ t.mb * (2 ^ t.eb - 1) - 1 else if f = fmtE4M3 then 0x7E else 2 ^ (t.eb + t.mb) - 1

/-- Canonical NaN (Table FMT-4). -/
def canonNan (f : Nat) : Nat :=
  match f with
  | 0x0 => 0x7FF8000000000000
  | 0x1 => 0x7FC00000
  | 0x2 => 0x7FC0
  | 0x3 => 0x7E00
  | 0x4 => 0x7F
  | 0x5 => 0x7E
  | 0xB => 0xFF
  | _ => 0

/-- The exact value of an element code (R124 to R127). -/
def decodeNum (f c : Nat) : Num :=
  match floatFmt f with
  | some t =>
    let neg := bit c (t.eb + t.mb)
    let e := c / 2 ^ t.mb % 2 ^ t.eb
    let m := c % 2 ^ t.mb
    if fmtHasInf f && e == 2 ^ t.eb - 1 then
      if m = 0 then .inf neg else .nan (m < 2 ^ (t.mb - 1))
    else if f = fmtE4M3 ∧ e = 15 ∧ m = 7 then .nan false
    else if e = 0 then
      if m = 0 then .zero neg
      else .fin (if neg then -(m : Int) else m) (1 - (t.bias : Int) - t.mb)
    else
      let v : Int := (2 ^ t.mb + m : Nat)
      .fin (if neg then -v else v) ((e : Int) - t.bias - t.mb)
  | none =>
    if f = fmtE8M0 then (if c % 256 = 255 then .nan false else .fin 1 ((c % 256 : Nat) - 127))
    else Num.ofInt (sext (fmtBits f) c) 0

/-! ### Rounding (R137 to R140) -/

/-- Rounding modes of Table FMT-5, DEFAULT resolved. -/
def rmRNE : Nat := 0
def rmRTZ : Nat := 1
def rmSR : Nat := 2

/-- The magnitude m × 2^e on the grid of multiples of 2^g: trunc and whether the step away from zero is taken, and
whether the value is inexact (R138). -/
structure Rounded where
  trunc   : Nat
  up      : Bool
  inexact : Bool

def roundGrid (m : Nat) (e g : Int) (mode r : Nat) : Rounded :=
  if g ≤ e then ⟨m * 2 ^ (e - g).toNat, false, false⟩
  else
    let d := 2 ^ (g - e).toNat
    let t := m / d
    let rem := m % d
    if rem = 0 then ⟨t, false, false⟩
    else if mode = rmRTZ then ⟨t, false, true⟩
    else if mode = rmSR then ⟨t, decide (r < 2 ^ 32 * rem / d), true⟩
    else ⟨t, decide (2 * rem > d) || (decide (2 * rem = d) && t % 2 == 1), true⟩

/-- Sign bit of a float code. -/
def signBit (t : FloatFmt) (neg : Bool) : Nat := if neg then 2 ^ (t.eb + t.mb) else 0

/-- Overflow of a floating-point destination (Table FMT-7): code of the magnitude and flags; 0x7F of E4M3 has no sign. -/
def floatLimit (f : Nat) (t : FloatFmt) (mode : Nat) (nonsat neg : Bool) : Nat × Nat :=
  let big := maxCode f t + signBit t neg
  let infc := 2 ^ t.mb * (2 ^ t.eb - 1) + signBit t neg
  if mode = rmRTZ then (big, flOF + flNX + evSat)
  else if f ≤ 3 then (infc, flOF + flNX)
  else if f = fmtE5M2 ∧ nonsat then (infc, flOF + flNX)
  else if f = fmtE4M3 ∧ nonsat then (0x7F, flOF + flNX)
  else (big, flOF + flNX + evSat)

/-- A finite nonzero value to a floating-point format. -/
def roundFloat (f : Nat) (t : FloatFmt) (mode : Nat) (nonsat : Bool) (r : Nat) (neg : Bool) (m : Nat) (e : Int) : Nat × Nat :=
  let k := ilog2 m e
  let emin : Int := 1 - (t.bias : Int)
  let g := max k emin - t.mb
  let code (u : Nat) : Int := 2 ^ t.mb * (g + t.mb + t.bias) + u - 2 ^ t.mb
  let z := roundGrid m e g rmRTZ 0
  let beyond := decide (code z.trunc > maxCode f t) || (decide (code z.trunc = maxCode f t) && z.inexact)
  let md := if mode = rmSR ∧ beyond then rmRNE else mode
  let w := roundGrid m e g md r
  let c := (code (if w.up then w.trunc + 1 else w.trunc)).toNat
  if c > maxCode f t then floatLimit f t md nonsat neg
  else
    (c + signBit t neg,
     if w.inexact then flNX + (if k < emin then flUF else 0) + (if c = 0 then evFlush else 0) else 0)

/-- Range of an integer format (R126). -/
def intMax (f : Nat) : Int := (2 ^ (fmtBits f - 1) : Nat) - 1
def intMin (f : Nat) : Int := -(2 ^ (fmtBits f - 1) : Nat)

/-- A finite nonzero value to an integer format. A result whose magnitude exceeds the upper end of the range is limited (R138, R139), so that
the lower end itself is a range limit. -/
def roundInt (f mode r : Nat) (neg : Bool) (m : Nat) (e : Int) : Nat × Nat :=
  let z := roundGrid m e 0 rmRTZ 0
  let beyond := decide ((z.trunc : Int) > intMax f) || (decide ((z.trunc : Int) = intMax f) && z.inexact)
  let md := if mode = rmSR ∧ beyond then rmRNE else mode
  let w := roundGrid m e 0 md r
  let y : Int := if w.up then w.trunc + 1 else w.trunc
  let y := if neg then -y else y
  if y > intMax f then (unsig (fmtBits f) (intMax f), flNV + evSat)
  else if y < -intMax f then (unsig (fmtBits f) (intMin f), flNV + evSat)
  else (unsig (fmtBits f) y, if w.inexact then flNX + (if y = 0 then evFlush else 0) else 0)

/-- A positive finite value to E8M0: the grid is the powers of two, and the larger one is even (R138). -/
def roundE8M0 (mode r : Nat) (m : Nat) (e : Int) : Nat × Nat :=
  let k := ilog2 m e
  let d := 2 ^ Nat.log2 m
  let rem := m - d
  let md := if mode = rmSR ∧ (k > 127 ∨ (k = 127 ∧ rem ≠ 0)) then rmRNE else mode
  let up :=
    if rem = 0 ∨ md = rmRTZ then false
    else if md = rmSR then decide (r < 2 ^ 32 * rem / d)
    else decide (2 * rem ≥ d)
  let j := if up then k + 1 else k
  if j > 127 then (0xFE, flOF + flNX + evSat)
  else if j < -127 then (0x00, flUF + flNX)
  else ((j + 127).toNat, if rem = 0 then 0 else flNX + (if k < -127 then flUF else 0))

/-- Special sources (Table FMT-6), and the rounding of a finite one. `mode` is resolved, `nonsat` is CC[2], `r` the word of
R142. The result is the element code and the flags and events it raises. -/
def convertNum (f mode : Nat) (nonsat : Bool) (r : Nat) (x : Num) : Nat × Nat :=
  match floatFmt f with
  | some t =>
    match x with
    | .nan q =>
      if f ≤ 5 then (canonNan f, if q then flNV else 0) else (0, flNV)
    | .inf neg =>
      if fmtHasInf f then (2 ^ t.mb * (2 ^ t.eb - 1) + signBit t neg, 0)
      else if f = fmtE4M3 ∧ nonsat then (0x7F, flOF + flNX)
      else (maxCode f t + signBit t neg, flOF + flNX + evSat)
    | .zero neg => (signBit t neg, 0)
    | .fin m e => roundFloat f t mode nonsat r (decide (m < 0)) m.natAbs e
  | none =>
    if f = fmtE8M0 then
      match x with
      | .nan q => (0xFF, if q then flNV else 0)
      | .inf neg => if neg then (0xFF, flNV) else (0xFE, flOF + flNX + evSat)
      | .zero _ => (0x00, flNX)
      | .fin m e => if m < 0 then (0xFF, flNV + flNX) else roundE8M0 mode r m.natAbs e
    else
      match x with
      | .nan _ => (0, flNV)
      | .inf neg => (unsig (fmtBits f) (if neg then intMin f else intMax f), flNV + evSat)
      | .zero _ => (0, 0)
      | .fin m e => roundInt f mode r (decide (m < 0)) m.natAbs e

/-! ### Exact arithmetic -/

/-- Exact sum of two finite values as m × 2^e. -/
def finAdd (m e n f : Int) : Num :=
  let g := min e f
  Num.ofInt (m * 2 ^ (e - g).toNat + n * 2 ^ (f - g).toNat) g

/-- Exact sum with the zero and infinity rules of R161; the flag is NV for opposite infinities. -/
def numAdd (x y : Num) : Num × Nat :=
  match x, y with
  | .nan _, _ => (.nan false, 0)
  | _, .nan _ => (.nan false, 0)
  | .inf a, .inf b => if a = b then (.inf a, 0) else (.nan false, flNV)
  | .inf a, _ => (.inf a, 0)
  | _, .inf b => (.inf b, 0)
  | .zero a, .zero b => (.zero (a && b), 0)
  | .zero _, y => (y, 0)
  | x, .zero _ => (x, 0)
  | .fin m e, .fin n f => (finAdd m e n f, 0)

/-- Exact product; the flag is NV for zero times infinity. -/
def numMul (x y : Num) : Num × Nat :=
  match x, y with
  | .nan _, _ => (.nan false, 0)
  | _, .nan _ => (.nan false, 0)
  | .inf _, .zero _ => (.nan false, flNV)
  | .zero _, .inf _ => (.nan false, flNV)
  | .inf a, y => (.inf (a != y.neg), 0)
  | x, .inf b => (.inf (x.neg != b), 0)
  | .zero a, y => (.zero (a != y.neg), 0)
  | x, .zero b => (.zero (x.neg != b), 0)
  | .fin m e, .fin n f => (.fin (m * n) (e + f), 0)

/-- A value rounded once to FP32 under RNE: code and flags. -/
def rne32 (x : Num) : Nat × Nat := convertNum fmtFP32 rmRNE false 0 x

/-- add32 of R161, on FP32 codes. -/
def add32 (x y : Nat) : Nat × Nat :=
  let s := numAdd (decodeNum fmtFP32 x) (decodeNum fmtFP32 y)
  let c := rne32 s.1
  (c.1, c.2 ||| s.2)

/-! ### Reef (R540) -/

def reefRound (k0 k1 : Nat) (st : Nat × Nat) (r : Nat) : Nat × Nat :=
  let kr := ((k0 + r * 0x8E1B63A52CF7D4C1) % 2 ^ 64) ^^^ ((k1 + r * 0x5D3F92B8E6A10C47) % 2 ^ 64)
  let p := 0x9C3E5A71D2F48B6D * st.1
  ((p / 2 ^ 64 ^^^ st.2) ^^^ kr, p % 2 ^ 64)

/-- reef(seed, step, stream, ctr), a 128-bit value. -/
def reef (seed step stream ctr : Nat) : Nat :=
  let k0 := seed % 2 ^ 64
  let k1 := seed / 2 ^ 64 % 2 ^ 64
  let x := (List.range 12).foldl (reefRound k0 k1) (ctr % 2 ^ 64, step % 2 ^ 48 * 2 ^ 16 + stream % 2 ^ 16)
  x.1 + 2 ^ 64 * x.2

/-- A key block: what SR draws its words from (R142). -/
structure SrKey where
  seed   : Nat
  step   : Nat
  stream : Nat
  deriving DecidableEq, Repr

/-- The word r of element index `e` (R142). -/
def srWord (k : SrKey) (e : Nat) : Nat :=
  bits (reef k.seed k.step k.stream (e / 4)) (32 * (e % 4) + 31) (32 * (e % 4))

/-! ### Blocks (R132 to R134, R144) -/

/-- Element `j` of a block of `w`-bit elements (R134). -/
def blockElem (w : Nat) (b : List Byte) (j : Nat) : Nat := leNat b / 2 ^ (w * j) % 2 ^ w

/-- The bytes of a block from its element codes. -/
def blockBytes (w : Nat) (l : List Nat) : List Byte :=
  natLE (4 * w) (l.foldr (fun c acc => c % 2 ^ w + 2 ^ w * acc) 0)

/-- The value of an element under a scale code (R132, R133). -/
def scaledNum (f c scale : Nat) : Num :=
  if scale = 0xFF then .nan false else (decodeNum f c).scale ((scale : Int) - 127)

/-- emax of R144. -/
def emaxOf (f : Nat) : Int :=
  match f with
  | 0x4 => 8
  | 0x5 => 15
  | 0x6 => 4
  | 0x7 => 2
  | 0x8 => 2
  | 0x9 => 6
  | _ => 2

/-- The greatest finite magnitude of a list, as ilog2; none where there is no finite nonzero value. -/
def amaxLog : List Num → Option Int
  | [] => none
  | .fin m e :: r =>
    match amaxLog r with
    | none => some (ilog2 m.natAbs e)
    | some k => some (max k (ilog2 m.natAbs e))
  | _ :: r => amaxLog r

/-- The exponent x of R144 for the values of a block; `none` says that the block is encoded as scale 0xFF, and the flags
that this raises. `bump` moves the choice (R221). -/
def blockScale (f : Nat) (v : List Num) (bump : Int) : Option Int × Nat :=
  if v.any Num.isNan then (none, if v.any Num.isSnan then flNV else 0)
  else if (v.any Num.isInf) && f != fmtE5M2 then (none, flOF)
  else match amaxLog v with
    | none => (some (-127), 0)
    | some k => (some (max (-127) (min 127 (k - emaxOf f + bump))), 0)

/-- One element of a block under scale exponent `x` (R144, R145). -/
def encodeElem (f mode r : Nat) (x : Int) (v : Num) : Nat × Nat :=
  match v with
  | .inf neg => if f = fmtE5M2 then (0x7C + (if neg then 0x80 else 0), 0) else convertNum f mode false r (.inf neg)
  | v => convertNum f mode false r (v.scale (-x))

/-! ### Histogram words (Table MME-10) -/

/-- Word of a finite value by its ilog2. -/
def binWord (k : Int) : Nat := (min 63 (max 0 ((k + 128) / 4))).toNat

/-- The histogram word of an exact value stored in format `f`: subnormals by the format's smallest normal. -/
def histWord (f : Nat) (x : Num) : Nat :=
  match x with
  | .nan _ => 67
  | .inf _ => 66
  | .zero _ => 64
  | .fin m e =>
    let k := ilog2 m.natAbs e
    match floatFmt f with
    | some t => if k < 1 - (t.bias : Int) then 65 else binWord k
    | none => binWord k

end Sys2Proof.Machine
end

