-- ==== Sys2Proof/Machine/HwsOps.lean ====
section
/-! DEFINITION. Hawser's shared operations: packets (R347), routes and ports (R343, R344), the issue of requests (R353, R357),
the choice of a serving replica (R377), and what a tick end applies (R367, R376, R552). -/

namespace Sys2Proof.Machine

/-! ### Codes -/

/-- Packet types (Table HWS-3). -/
def ptRD : Nat := 0x01
def ptWR : Nat := 0x02
def ptATOMIC : Nat := 0x03
def ptACC : Nat := 0x04
def ptREFRESH : Nat := 0x05
def ptTFENCE : Nat := 0x06
def ptCPL : Nat := 0x20
def ptRD_DATA : Nat := 0x21
def ptATOMIC_DATA : Nat := 0x22
def ptRELEASE : Nat := 0x23
def ptLANYARD : Nat := 0x31

/-- Completion status (Table HWS-5). -/
def csOK : Nat := 0x00
def csUnitAbsent : Nat := 0x01
def csDenied : Nat := 0x02
def csPoison : Nat := 0x03
def csNotReady : Nat := 0x04
def csMalformed : Nat := 0x05
def csToRefused : Nat := 0x06
def csToFull : Nat := 0x07
def csRefreshOvf : Nat := 0x08
def csTimeout : Nat := 0x80
def csAmbiguous : Nat := 0x81
def csAborted : Nat := 0x82
def csNoRoute : Nat := 0x83

/-! ### Packets (Table HWS-2) -/

def pType (p : Packet) : Nat := bits p.w0.toNat 63 58
def pTc (p : Packet) : Nat := bits p.w0.toNat 57 55
def pPart (p : Packet) : Nat := bits p.w0.toNat 54 43
def pEpoch (p : Packet) : Nat := bits p.w0.toNat 42 35
def pSport (p : Packet) : Nat := bits p.w0.toNat 34 32
def pDst (p : Packet) : Nat := bits p.w0.toNat 31 16
def pSrc (p : Packet) : Nat := bits p.w0.toNat 15 0
def pTag (p : Packet) : Nat := bits p.w1.toNat 63 44
def pAgent (p : Packet) : Nat := bits p.w1.toNat 43 28
def pLen (p : Packet) : Nat := bits p.w1.toNat 27 19
def pFmt (p : Packet) : Nat := bits p.w1.toNat 18 15
def pOp (p : Packet) : Nat := bits p.w1.toNat 14 11
def pStatus (p : Packet) : Nat := bits p.w1.toNat 7 0
def pStep16 (p : Packet) : Nat := bits p.w2.toNat 63 48
def pOff (p : Packet) : Nat := bits p.w2.toNat 47 0
def pSendT (p : Packet) : Nat := bits p.w3.toNat 63 32
def pScount (p : Packet) : Nat := bits p.w3.toNat 31 0

/-- Header and payload, the bytes that the trailer checks. -/
def packetBody (p : Packet) : List Byte := wordsToBytes [p.w0, p.w1, p.w2, p.w3] ++ p.payload

/-- The trailer holds the CRC-32C of header and payload (R347). -/
def packetCrcOk (p : Packet) : Bool := bits p.trailer.toNat 31 0 == crc32c (packetBody p)

/-- A packet with its trailer. -/
def mkPacket (w0 w1 w2 w3 : Word) (payload : List Byte) : Packet :=
  let p : Packet := ⟨w0, w1, w2, w3, payload, 0⟩
  { p with trailer := BitVec.ofNat 64 (crc32c (packetBody p)) }

/-- Word 0 of a packet of this node. -/
def State.hdr0 (s : State) (type tc sport dst : Nat) : Word :=
  BitVec.ofNat 64 (2 ^ 58 * type + 2 ^ 55 * tc + 2 ^ 43 * s.fld Reg.HWS_PART Fld.HWS_PART_PARTITION +
    2 ^ 35 * s.fld Reg.HWS_PART Fld.HWS_PART_EPOCH + 2 ^ 32 * (sport % 8) + 2 ^ 16 * (dst % 65536) +
    s.fld Reg.HWS_NODE Fld.HWS_NODE_NODE)

/-- Word 1 of a packet. -/
def hdr1 (tag agent len fmt op : Nat) (retry : Bool) (status : Nat) : Word :=
  BitVec.ofNat 64 (2 ^ 44 * (tag % 2 ^ 20) + 2 ^ 28 * (agent % 65536) + 2 ^ 19 * (len % 512) + 2 ^ 15 * (fmt % 16) +
    2 ^ 11 * (op % 16) + (if retry then 1024 else 0) + status % 256)

/-- Bits [31:0] of TIMEBASE, above a count. -/
def State.hdr3 (s : State) (scount : Nat) : Word := BitVec.ofNat 64 (2 ^ 32 * (s.time % 2 ^ 32) + scount % 2 ^ 32)

/-- The packet of a request (R353, R357). -/
def State.reqPacket (s : State) (r : Req) (retry : Bool) : Packet :=
  mkPacket (s.hdr0 r.type r.tc r.sport r.dst) (hdr1 r.tag r.agent r.len r.fmt r.op retry 0)
    (BitVec.ofNat 64 (2 ^ 48 * r.step16 + r.off)) (s.hdr3 r.scount) r.payload

/-- A packet is handed to port `p`; packet bytes are counted. -/
def State.emit (s : State) (p : Nat) (k : Packet) : State :=
  let s := s.bump64 Reg.HWS_CNT_TX_BYTES (40 + k.payload.length)
  { s with hws := { s.hws with out := s.hws.out ++ [(p, k)] } }

/-! ### Routes and ports -/

/-- STATE code of a port whose link is up (Table OPT-10). -/
def optUp : Nat := 10

def State.portState (s : State) (p : Nat) : Nat := s.fld (Reg.OPT_STATUS (Reg.portWin p)) Fld.OPT_STATUS_STATE

/-- Port `p` carries classes 2 to 5: its link is up, it is not in management-only operation (R417), and F-die 0, which
holds the endpoint, is in service (R346). -/
def State.portUp (s : State) (p : Nat) : Bool :=
  s.working (capPort p) && s.working (capFdie 0) && s.portState p == optUp &&
    !s.flag (Reg.OPT_CTRL (Reg.portWin p)) Fld.OPT_CTRL_MGMT_ONLY

/-- A route entry that names a node as reachable (R343, Table HWS-15). 0xFFFE and 0xFFFF name no node (R341). -/
def State.routeValid (s : State) (dst : Nat) : Bool :=
  decide (dst < 0xFFFE) && s.flag (Reg.HWS_ROUTE dst) Fld.HWS_ROUTE_VALID && s.fld (Reg.HWS_ROUTE dst) Fld.HWS_ROUTE_HOPS != 0

/-- Port A of a route, when its link is up. -/
def State.routeA (s : State) (dst : Nat) : Option Nat :=
  let p := s.fld (Reg.HWS_ROUTE dst) Fld.HWS_ROUTE_PORT_A
  if s.routeValid dst && s.portUp p then some p else none

/-- Port B of a route, when it is used and its link is up. -/
def State.routeB (s : State) (dst : Nat) : Option Nat :=
  let p := s.fld (Reg.HWS_ROUTE dst) Fld.HWS_ROUTE_PORT_B
  if s.routeValid dst && s.flag (Reg.HWS_ROUTE dst) Fld.HWS_ROUTE_B_VALID && s.portUp p then some p else none

/-- The node sends and accepts classes 2 to 5 (R342, HWS_CTRL.ENABLE). -/
def State.hwsOn (s : State) : Bool :=
  s.flag Reg.HWS_NODE Fld.HWS_NODE_VALID && s.flag Reg.HWS_CTRL Fld.HWS_CTRL_ENABLE

/-- The port of a request (R344); none while the node sends none (R342). -/
def State.reqPort (s : State) (tc dst off : Nat) : Option Nat :=
  if s.hwsOn = false then none
  else match s.routeA dst, s.routeB dst with
    | none, b => b
    | some a, none => some a
    | some a, some b => if tc ≠ 3 ∧ bit off 8 then some b else some a

/-- A port of the route is up. -/
def State.reaches (s : State) (dst : Nat) : Bool := (s.routeA dst).isSome || (s.routeB dst).isSome

/-- The port of a response or RELEASE: A first (R344); none while the node sends none (R342). -/
def State.respPort (s : State) (dst : Nat) : Option Nat :=
  if s.hwsOn = false then none
  else match s.routeA dst with
    | some a => some a
    | none => s.routeB dst

/-- Port `p` carries class 0: its link is up, and TICK_CARRIAGE is agreed (Table OPT-7). -/
def State.tickUp (s : State) (p : Nat) : Bool :=
  s.working (capPort p) && s.portState p == optUp && bit (s.fld (Reg.OPT_NEG (Reg.portWin p)) Fld.OPT_NEG_FEATURES) 2

/-- The port that leads to a neighbour of the tick tree (R399, R413). -/
def State.tickPort (s : State) (dst : Nat) : Option Nat :=
  let a := s.fld (Reg.HWS_ROUTE dst) Fld.HWS_ROUTE_PORT_A
  let b := s.fld (Reg.HWS_ROUTE dst) Fld.HWS_ROUTE_PORT_B
  if s.routeValid dst = false then none
  else if s.tickUp a then some a
  else if s.flag (Reg.HWS_ROUTE dst) Fld.HWS_ROUTE_B_VALID && s.tickUp b then some b
  else none

def State.ownNode (s : State) : Nat := s.fld Reg.HWS_NODE Fld.HWS_NODE_NODE

/-- 0xFFFF names the node itself (R341). -/
def State.nodeOf (s : State) (n : Nat) : Nat := if n = 0xFFFF then s.ownNode else n

/-! ### Windows -/

def State.winValid (s : State) (w : Nat) : Bool :=
  s.flag (Reg.HWS_WIN_CFG (Reg.winWin w)) Fld.HWS_WIN_CFG_VALID && decide (s.fld (Reg.HWS_WIN_CFG (Reg.winWin w)) Fld.HWS_WIN_CFG_KIND < 4)

def State.winKind (s : State) (w : Nat) : Nat := s.fld (Reg.HWS_WIN_CFG (Reg.winWin w)) Fld.HWS_WIN_CFG_KIND
def State.winBase (s : State) (w : Nat) : Nat := 4096 * s.fld (Reg.HWS_WIN_CFG (Reg.winWin w)) Fld.HWS_WIN_CFG_BASE
def State.winPages (s : State) (w : Nat) : Nat := s.fld (Reg.HWS_WIN_SIZE (Reg.winWin w)) Fld.HWS_WIN_SIZE_PAGES
def State.winHome (s : State) (w : Nat) : Nat := s.fld (Reg.HWS_WIN_SIZE (Reg.winWin w)) Fld.HWS_WIN_SIZE_HOME

/-- Windows with a register written since reset; the others are not valid. -/
def State.winList (s : State) : List Nat :=
  s.regs.filterMap fun e =>
    if Reg.winWin 0 ≤ e.1 ∧ e.1 < Reg.winWin 64 ∧ (e.1 - Reg.winWin 0) % 0x40 = 0 then some ((e.1 - Reg.winWin 0) / 0x40)
    else none

/-- The valid window of kind `kind` that holds an ingress offset. -/
def State.winAt (s : State) (kind off : Nat) : Option Nat :=
  s.winList.find? fun w => s.winValid w && s.winKind w == kind && decide (s.winBase w ≤ off) &&
    decide (off < s.winBase w + 4096 * s.winPages w)

/-- Node of replica `r` of window `w`. -/
def State.winRep (s : State) (w r : Nat) : Nat :=
  let v := s.rd (if r < 4 then Reg.HWS_WIN_REPA (Reg.winWin w) else Reg.HWS_WIN_REPB (Reg.winWin w))
  bits v.toNat (16 * (r % 4) + 15) (16 * (r % 4))

/-- Replicas that window `w` lists. -/
def State.winReps (s : State) (w : Nat) : List Nat :=
  (List.range (min 8 (s.fld (Reg.HWS_WIN_CFG (Reg.winWin w)) Fld.HWS_WIN_CFG_NREP))).map fun r => s.winRep w r

/-- The nearer of two replicas, the lower node number when they are equally near (R377). -/
def State.nearer (s : State) (best : Option Nat) (n : Nat) : Option Nat :=
  let hops (k : Nat) : Nat := s.fld (Reg.HWS_ROUTE k) Fld.HWS_ROUTE_HOPS
  match best with
  | none => some n
  | some b => if hops n < hops b ∨ (hops n = hops b ∧ n < b) then some n else some b

/-- The node that serves reads of window `w` (R377). -/
def State.serveOf (s : State) (w : Nat) : Nat :=
  if s.winKind w = 2 then s.ownNode
  else match ((s.winReps w).filter s.reaches).foldl s.nearer none with
    | some n => n
    | none => s.winHome w

/-- SERVE is chosen again on every reader and replica entry (R377). -/
def State.chooseServe (s : State) : State :=
  (s.winList.filter fun w => s.winValid w && decide (2 ≤ s.winKind w)).foldl
    (fun s w => s.setFld (Reg.HWS_WIN_STATUS (Reg.winWin w)) Fld.HWS_WIN_STATUS_SERVE (s.serveOf w)) s

/-- Where a read of (node, offset) goes: SERVE of a reader or replica entry of the node's window (R377). -/
def State.readNode (s : State) (dst off : Nat) : Nat :=
  match s.winList.find? fun w => s.winValid w && decide (2 ≤ s.winKind w) && s.winHome w == dst &&
      decide (s.winBase w ≤ off) && decide (off < s.winBase w + 4096 * s.winPages w) with
  | some w => s.fld (Reg.HWS_WIN_STATUS (Reg.winWin w)) Fld.HWS_WIN_STATUS_SERVE
  | none => dst

/-! ### Issue -/

def noCount (_ : Nat) : Nat := 0

/-- The agent's count of requests in the step goes up (R353). -/
def State.takeScount (s : State) (agent : Nat) : Nat × State :=
  let n := sGet noCount s.hws.scount agent
  (n, { s with hws := { s.hws with scount := sSet noCount s.hws.scount agent ((n + 1) % 2 ^ 32) } })

/-- The tag window of port `p` is used up (R357). -/
def State.tagStall (s : State) (p : Nat) : Bool :=
  let n := sGet noCount s.hws.nextTag p
  s.hws.reqs.any fun r => r.sport == p && decide ((n + 2 ^ 20 - r.tag) % 2 ^ 20 ≥ 2 ^ 19 - 1)

/-- The egress holds a request that would leave on port `p`: for its tag, behind an earlier held one, for TC3 requests
still open on another port (R344), or for a back-off (R382). -/
def State.mustHold (s : State) (held : List Req) (r : Req) (p : Nat) : Bool :=
  s.tagStall p ||
    (held.any fun h => h.dst == r.dst && h.tc == r.tc && h.agent == r.agent) ||
    (r.tc == 3 && ((s.hws.reqs.any fun h => h.tc == 3 && h.dst == r.dst && h.paths.any fun q => q != p) ||
      (held.any fun h => h.tc == 3 && h.dst == r.dst))) ||
    (s.hws.backoff.any fun (b : Nat × Nat × Nat × Nat) =>
      b.1 == r.agent && b.2.1 == r.dst && b.2.2.1 == r.off / 64 && decide (s.time < b.2.2.2))

/-- First send of a request on port `p`: it takes the port's next tag (R357), T and Λ as they stand (R362). -/
def State.sendReq (s : State) (r : Req) (p : Nat) : State :=
  let t := sGet noCount s.hws.nextTag p
  let r := { r with
    sport := p, tag := t, paths := [p], t0 := s.time
    reqUs := s.fld Reg.HWS_TIMEOUT Fld.HWS_TIMEOUT_REQ_US, leaseUs := s.fld Reg.HWS_TIMEOUT Fld.HWS_TIMEOUT_LEASE_US
    sends := 1 }
  let s := { s with hws := { s.hws with
    nextTag := sSet noCount s.hws.nextTag p ((t + 1) % 2 ^ 20)
    reqs := s.hws.reqs ++ [r]
    declared := s.hws.declared.filter fun (d : Nat × Nat) => d != (p, t) } }
  (s.bump64 Reg.HWS_CNT_TX_REQ 1).emit p (s.reqPacket r false)

/-- A request without its number, tag and times. -/
def newReq (origin : Origin) (type tc agent dst off len : Nat) (payload : List Byte) : Req :=
  { origin := origin, type := type, tc := tc, dst := dst, agent := agent, scount := 0, step16 := 0, off := off, len := len,
    fmt := 0, op := 0, payload := payload, sport := 0, tag := 0, paths := [], t0 := 0, reqUs := 0, leaseUs := 0, sends := 0 }

/-- A request of classes 3 to 5 is issued: sent, held by the egress, or completed locally with the status given. SCOUNT of a
refresh's end marker is the number of its data packets (Table HWS-2). -/
def State.issueReq (s : State) (r : Req) : State × Option Nat :=
  let dst := s.nodeOf r.dst
  let dst := if r.type = ptRD then s.nodeOf (s.readNode dst r.off) else dst
  let n := s.takeScount r.agent
  let s := n.2
  let r := { r with dst := dst, scount := if r.type = ptREFRESH ∧ r.op = 1 then r.scount else n.1, step16 := s.step % 65536 }
  if s.hwsOn = false then (s.bump32 Reg.HWS_CNT_NOT_READY 1, some csNotReady)
  else match s.reqPort r.tc dst r.off with
    | none => (s.bump32 Reg.HWS_CNT_NO_ROUTE 1, some csNoRoute)
    | some p =>
      if s.mustHold s.hws.held r p then ({ s with hws := { s.hws with held := s.hws.held ++ [r] } }, none)
      else (s.sendReq r p, none)

/-! ### Tick-ordered application (R367, R369, R552) -/

/-- add_f of R194 in format `f` under RNE, on codes. -/
def accAdd (f x v : Nat) : Nat := (convertNum f rmRNE false 0 (numAdd (decodeNum f x) (decodeNum f v)).1).1

/-- Bytes of an ACC operand. -/
def accBytes (f : Nat) : Nat := if f = fmtFP64 then 8 else 4

/-- Order of held operations (R367). -/
def heldBefore (a b : HeldOp) : Bool :=
  if a.step ≠ b.step then laterStep b.step a.step
  else if a.src ≠ b.src then decide (a.src < b.src)
  else if a.agent ≠ b.agent then decide (a.agent < b.agent)
  else decide (a.scount < b.scount)

/-- Insertion in the order of R367, after the operations that do not come later. -/
def heldInsert (a : HeldOp) : List HeldOp → List HeldOp
  | [] => [a]
  | b :: r => if heldBefore a b then a :: b :: r else b :: heldInsert a r

def heldSort (l : List HeldOp) : List HeldOp := l.foldl (fun acc a => heldInsert a acc) []

/-- A discard on a poisoned line (R552), which F-die 0 consumes (R555). -/
def State.toPoison (s : State) (a : Nat) : State :=
  (s.poisonUsed 5 (a / 64 * 64)).event Reg.RAS_EVENT Fld.RAS_EVENT_TO_POISON Reg.RAS_CNT_TO_POISON

/-- One line of a held WR. -/
def State.heldWrLine (s : State) (a : Nat) (bs : List Byte) : State :=
  if bs.length ≠ 64 ∧ s.poisoned (a / 64 * 64) then s.toPoison a else (s.write a bs).1

/-- The lines of a held WR. -/
def State.heldWr (s : State) (a : Nat) (bs : List Byte) : Nat → State
  | 0 => s
  | k + 1 =>
    if bs.isEmpty then s
    else
      let n := 64 - a % 64
      (s.heldWrLine a (bs.take n)).heldWr (a + n) (bs.drop n) k

/-- An ACC on memory at a physical offset: applied, or false where the line is poisoned. -/
def State.accApply (s : State) (a f v : Nat) : State × Bool :=
  let r := s.read a (accBytes f)
  match r.stat with
  | .ok => ((r.st.write a (natLE (accBytes f) (accAdd f (leNat r.data) v))).1, true)
  | _ => (r.st, false)

/-- A held operation is applied. -/
def State.heldApply (s : State) (o : HeldOp) : State :=
  if o.acc then
    let r := s.accApply o.addr o.fmt (leNat o.data)
    if r.2 then r.1 else r.1.toPoison o.addr
  else s.heldWr o.addr o.data 5

/-- TOB_OCC follows the operations held. -/
def State.tobOcc (s : State) : State := s.setFld Reg.HWS_STATUS Fld.HWS_STATUS_TOB_OCC s.hws.tob.length

/-- At the end of tick `st`, the held operations of step `st` and of earlier steps are applied in order, and window
accesses wait until TO_APPLY_COMPLETE (R369, log entry 10). -/
def State.tobApply (s : State) (st : Nat) : State :=
  let due (o : HeldOp) : Bool := !laterStep o.step st
  let l := heldSort (s.hws.tob.filter due)
  let s := { s with hws := { s.hws with tob := s.hws.tob.filter fun o => !due o, toBusy := s.hws.toBusy || !l.isEmpty } }
  (l.foldl State.heldApply s).tobOcc

/-! ### Staged refresh sets (R376, R553) -/

/-- Lines of the refresh buffer in use, all sets together. -/
def State.stagedLines (s : State) : Nat := (s.hws.stage.map fun x => x.lines.length - x.spilt).foldl (· + ·) 0

def State.refreshOcc (s : State) : State :=
  s.setFld Reg.HWS_STATUS Fld.HWS_STATUS_REFRESH_OCC (min 65536 s.stagedLines)

/-- The staged set is complete. -/
def stageComplete (x : StageSet) : Bool := x.need == some x.count && !x.lost

/-- The lines of a set are written into the replica's copy. -/
def State.stageWrite (s : State) (x : StageSet) : State := x.lines.foldl (fun s e => (s.write e.1 e.2).1) s

/-- At a tick end, complete sets are written, and sets without their end marker discarded; accesses to the window wait until
REPLICA_APPLY_COMPLETE. -/
def State.stageApply (s : State) : State :=
  let l := s.hws.stage.filter stageComplete
  let s := { s with hws := { s.hws with
      stage := s.hws.stage.filter fun x => x.need.isSome && !stageComplete x && !x.lost
      repBusy := s.hws.repBusy ++ l.map fun x => x.win } }
  (l.foldl State.stageWrite s).refreshOcc

end Sys2Proof.Machine
end

