-- ==== Sys2Proof/Machine/Talq.lean ====
section
/-! DEFINITION. The tick-armed launch queues: arming (R57 to R61), cancel (R62) and the choice of the entry that launches
(R59). Queues 0 to 3 are the T-dies', 4 the P-die's, 5 and 6 the F-dies'. -/

namespace Sys2Proof.Machine

/-! ### Entries (Table HLY-5) -/

def TalqEntry.target (e : TalqEntry) : Nat := bits e.w0.toNat 63 56
def TalqEntry.action (e : TalqEntry) : Nat := bits e.w0.toNat 55 52
def TalqEntry.phase (e : TalqEntry) : Nat := bits e.w0.toNat 51 50
def TalqEntry.step (e : TalqEntry) : Nat := bits e.w0.toNat 47 0
def TalqEntry.tag (e : TalqEntry) : Nat := bits e.w1.toNat 63 48
def TalqEntry.desc (e : TalqEntry) : Nat := bits e.w1.toNat 47 0

/-- Action codes of Table HLY-6. -/
def actProgram : Nat := 1
def actFid : Nat := 2
def actPut : Nat := 3
def actRefresh : Nat := 4
def actCut : Nat := 5
def actRse : Nat := 6
def actEvent : Nat := 7

/-- Entries a queue holds (R57). -/
def talqSize (q : Nat) : Nat := if q < 5 then 256 else 128

/-- The die of queue `q` is present and in service. -/
def State.talqUp (s : State) (q : Nat) : Bool :=
  if q < 4 then s.working (capTdie q) else if q = 4 then true else if q < 7 then s.working (capFdie (q - 5)) else false

/-- The queue takes the action, and TARGET is in its range (Table HLY-6). -/
def talqTakes (q action target : Nat) : Bool :=
  if q < 4 then (action == actProgram || action == actFid) && decide (target < 160)
  else if q = 4 then ((action == actCut || action == actRse) && target == 0) || (action == actEvent && decide (target < 16))
  else (action == actPut && target == 0) || (action == actRefresh && decide (target < 64))

/-- The entry's launch moment lies in a tick of the active parameter set (R59, R61): the start of its phase, or of the
quiet band for a REPLICA_REFRESH. -/
def State.launchMoment (s : State) (e : TalqEntry) : Nat :=
  if e.action = actRefresh then s.quietStart else s.phaseStart e.phase

/-- An entry of queue `q` that R58 refuses. -/
def State.talqInvalid (s : State) (q : Nat) (e : TalqEntry) : Bool :=
  !talqTakes q e.action e.target || e.desc % 64 != 0 || !s.hly.active.enabled e.phase ||
    (e.action == actCut && e.phase != 0)

/-- The target unit of an entry is in service (R60). -/
def State.talqTargetUp (s : State) (q : Nat) (e : TalqEntry) : Bool :=
  if q < 4 then s.coreUp (160 * q + e.target)
  else if e.action = actRse then s.working capRse
  else if e.action = actCut then s.working capCkp
  else true

/-- The result of arming an entry (R60): 0 ACCEPTED, 1 FULL, 2 PAST, 3 INVALID, 4 UNIT_ABSENT; the first that applies in
the order INVALID, UNIT_ABSENT, PAST, FULL. -/
def State.armResult (s : State) (q : Nat) (e : TalqEntry) : Nat :=
  if s.talqInvalid q e then 3
  else if s.talqTargetUp q e = false then 4
  else if s.passed e.step (s.launchMoment e) then 2
  else if (s.hly.talq.filter fun x => x.queue == q).length ≥ talqSize q then 1
  else 0

/-- OCCUPANCY follows the entries held. -/
def State.talqOcc (s : State) (q : Nat) : State :=
  s.setFld (Reg.HLY_TALQ_STATUS (Reg.talqWin q)) Fld.HLY_TALQ_STATUS_OCCUPANCY
    (s.hly.talq.filter fun x => x.queue == q).length

/-- An entry is committed to queue `q` (R60). -/
def State.arm (s : State) (q : Nat) (w0 w1 : Word) : State × Nat :=
  let e : TalqEntry := ⟨q, w0, w1⟩
  let r := s.armResult q e
  if r = 0 then ({ s with hly := { s.hly with talq := s.hly.talq ++ [e] } }.talqOcc q, 0)
  else if r = 1 then (s.event Reg.HLY_EVENT Fld.HLY_EVENT_TALQ_FULL Reg.HLY_CNT_FULL, 1)
  else if r = 2 then (s.event Reg.HLY_EVENT Fld.HLY_EVENT_TALQ_PAST Reg.HLY_CNT_PAST, 2)
  else (s, r)

/-- Halyard launches (R59): a tick runs and is not held (R53, R55). -/
def State.launching (s : State) : Bool :=
  (s.hlyState == hlyRunning || s.hlyState == hlyLocal) && s.flag Reg.HLY_CTRL Fld.HLY_CTRL_ENABLE

/-- The moment of an entry has come in the current step, so that it launches (R59). -/
def State.talqDue (s : State) (e : TalqEntry) : Bool :=
  s.launching && e.step == s.step && decide (s.launchMoment e ≤ s.time)

/-- Entries of queue `q` with a tag leave it, but for one that is due: it launches and is not counted (R62). The number removed. -/
def State.talqCancel (s : State) (q tag : Nat) : State × Nat :=
  let hit (e : TalqEntry) : Bool := e.queue == q && e.tag == tag && !s.talqDue e
  let n := (s.hly.talq.filter hit).length
  ({ s with hly := { s.hly with talq := s.hly.talq.filter fun e => !hit e } }.talqOcc q, n)

/-- The earlier of two entries by launch moment, the first armed when they fall due together (R59). -/
def State.sooner (s : State) (best : Option TalqEntry) (e : TalqEntry) : Option TalqEntry :=
  match best with
  | none => some e
  | some b => if s.launchMoment e < s.launchMoment b then some e else some b

/-- The entry of queue `q` that launches next in the current step. -/
def State.talqNext (s : State) (q : Nat) : Option TalqEntry :=
  (s.hly.talq.filter fun e => e.queue == q && e.step == s.step).foldl s.sooner none

/-- The first entry equal to `e` leaves the list. -/
def talqRemove (e : TalqEntry) : List TalqEntry → List TalqEntry
  | [] => []
  | x :: r => if x = e then r else x :: talqRemove e r

/-- The next entry of queue `q` launches, if its action is `action`: TIMEBASE reaches its moment, it leaves the queue and is
counted. When its unit has left service it completes with UNIT_ABSENT, which is logged with its TAG (chapter 1). -/
def State.talqLaunch (s : State) (q action : Nat) (k : State → TalqEntry → State) : State :=
  if s.launching = false ∨ s.talqUp q = false then s
  else match s.talqNext q with
    | none => s
    | some e =>
      if e.action ≠ action then s
      else
        let s := s.timeTo (s.launchMoment e)
        let s := { s with hly := { s.hly with talq := talqRemove e s.hly.talq } }.talqOcc q
        let s := s.bump64 (Reg.HLY_TALQ_LAUNCHED (Reg.talqWin q)) 1
        if s.talqTargetUp q e then k s e else s.logCode 8 e.tag

/-- Key of an agent's ARM0 value and results at a queue (R60). -/
def armKey (q : Nat) (agent : Agent) : Nat := q * 128 + agentNo agent

def noArm (_ : Nat) : Word := 0
def noArmInfo (_ : Nat) : Nat × Nat × Nat := (0, 0, 0)

end Sys2Proof.Machine
end

