-- ==== Sys2Proof/Machine/CkpOps.lean ====
section
/-! DEFINITION. The checkpoint engine as Halyard meets it: the beginning of a hold (R510, R513), an abandoned cut (R512), the
end of the node's part (R521 to R523) and the tick end. -/

namespace Sys2Proof.Machine

/-! ### Phases and results (Tables CKP-10 and CKP-11) -/

def ckpIdle : Nat := 0
def ckpArmed : Nat := 1
def ckpHold : Nat := 2
def ckpGather : Nat := 3
def ckpRestoring : Nat := 4
def ckpRestoreHold : Nat := 5

def crOk : Nat := 0x00
def crInvalid : Nat := 0x01
def crTranslation : Nat := 0x02
def crPoison : Nat := 0x03
def crStoreFail : Nat := 0x04
def crTimeout : Nat := 0x05
def crNotHeld : Nat := 0x06
def crTickFault : Nat := 0x07
def crGatherTimeout : Nat := 0x08
def crNodeFailed : Nat := 0x09
def crState : Nat := 0x0A
def crNodeMismatch : Nat := 0x0B
def crManifestCorrupt : Nat := 0x0C
def crDigestFail : Nat := 0x0D
def crSigMismatch : Nat := 0x0E

def State.ckpPhase (s : State) : Nat := s.fld Reg.CKP_STATUS Fld.CKP_STATUS_PHASE
def State.setCkpPhase (s : State) (x : Nat) : State := s.setFld Reg.CKP_STATUS Fld.CKP_STATUS_PHASE x
def State.ckpStep (s : State) : Nat := s.fld Reg.CKP_STEP Fld.CKP_STEP_STEP

/-- A cut of the current step has launched and does not hold yet. -/
def State.cutArmed (s : State) : Bool := s.ckpPhase == ckpArmed && s.ckpStep == s.step

/-- A cut of the current step has launched, whether it holds or not. -/
def State.cutLaunched (s : State) : Bool :=
  (s.ckpPhase == ckpArmed || s.ckpPhase == ckpHold || s.ckpPhase == ckpGather) && s.ckpStep == s.step

/-- Events of a cut or restore that ends: RESULT, with CUT_DONE, RESTORE_DONE or FAIL. -/
def State.ckpResult (s : State) (result : Nat) (restore : Bool) : State :=
  let s := s.setFld Reg.CKP_STATUS Fld.CKP_STATUS_RESULT result
  if result ≠ crOk then s.event Reg.CKP_EVENT Fld.CKP_EVENT_FAIL Reg.CKP_CNT_FAIL
  else if restore then s.event Reg.CKP_EVENT Fld.CKP_EVENT_RESTORE_DONE Reg.CKP_CNT_RESTORE
  else s.event Reg.CKP_EVENT Fld.CKP_EVENT_CUT_DONE Reg.CKP_CNT_CUT

/-- The node's part of a cut ends (R521 to R523): status, event, the host event entry, and the end of its pendency. -/
def State.ckpPartEnd (s : State) (result : Nat) : State :=
  let s := (s.ckpResult result false).setCkpPhase ckpIdle
  let s :=
    if s.flag Reg.CKP_CTRL Fld.CKP_CTRL_EVQ_EN then
      (s.postHost (s.fld Reg.CKP_CTRL Fld.CKP_CTRL_EVQ) 0x15 result 0xFFFF s.step
        (BitVec.ofNat 64 (2 ^ 32 * s.fld Reg.CKP_STATUS Fld.CKP_STATUS_CUT_ID)) (BitVec.ofNat 64 s.ckpStep)).1
    else s
  { s with ckp := { s.ckp with stage := 0 }, hly := { s.hly with cutHold := false } }.slipUpdate

/-- A cut that does not hold yet is abandoned (R512). -/
def State.cutAbandon (s : State) (result : Nat) : State := if s.cutArmed then s.ckpPartEnd result else s

/-- The hold of a launched cut begins (R510, R513): the ingress closes and the node is pending. -/
def State.cutHoldBegin (s : State) : State :=
  let s := s.setCkpPhase ckpHold
  { s with
    ckp := { s.ckp with holdAt := s.time, closed := true, stage := 1 }
    hly := { s.hly with cutHold := true } }.slipUpdate

/-- At the end of the held tick the ingress opens (R513), and the time of the hold is counted. -/
def State.ckpTickEnd (s : State) : State :=
  if s.ckp.closed then
    let s := s.bump64 Reg.CKP_CNT_HOLD_NS (s.time - s.ckp.holdAt)
    let s := if s.ckpPhase = ckpRestoreHold then s.setCkpPhase ckpIdle else s
    { s with ckp := { s.ckp with closed := false } }
  else s

end Sys2Proof.Machine
end

