-- ==== Sys2Proof/Machine/Sha.lean ====
section
/-! DEFINITION. SHA-384, the digest that the spec names (R292, R522), as FIPS 180-4 defines it (log entry 15): 64-bit words of
natural numbers, most significant byte first. -/

namespace Sys2Proof.Machine

/-- The greatest number below 2^`n` + `t` whose `k`th power is at most `x`, at least `t`. -/
def shaRoot (k x : Nat) : Nat → Nat → Nat
  | 0, t => t
  | n + 1, t => shaRoot k x n (if (2 ^ n + t) ^ k ≤ x then 2 ^ n + t else t)

/-- The primes from 2 to 409, of which there are 80: numbers that none from 2 to 20 below them divides. -/
def shaPrimes : List Nat :=
  (List.range 410).filter fun p => decide (2 ≤ p) && (List.range 21).all fun d => decide (d < 2) || decide (p ≤ d) || p % d != 0

/-- The first 64 bits of the fraction of the `k`th root of `p`, which is below 8. -/
def shaFraction (k p : Nat) : Nat := shaRoot k (2 ^ (64 * k) * p) 67 0 % 2 ^ 64

/-- The 80 round constants: fractions of the cube roots of the primes. -/
def shaK : List Nat := shaPrimes.map (shaFraction 3)

/-- The initial value of SHA-384: fractions of the square roots of the ninth to the sixteenth prime. -/
def shaInit : List Nat := ((shaPrimes.drop 8).take 8).map (shaFraction 2)

def rotr64 (x n : Nat) : Nat := x / 2 ^ n + x * 2 ^ (64 - n) % 2 ^ 64

/-- The number held by bytes in big-endian order. -/
def beNat (l : List Byte) : Nat := l.foldl (fun a b => a * 256 + b.toNat) 0

/-- The `n` bytes of a number, highest first. -/
def natBE (n x : Nat) : List Byte := (natLE n x).reverse

/-- The 16 words of a block of 128 bytes. -/
def shaWords (b : List Byte) : List Nat := (List.range 16).map fun j => beNat ((b.drop (8 * j)).take 8)

/-- The next schedule word from the last 16 words, newest first. -/
def shaNext (w : List Nat) : Nat :=
  let a := w.getD 14 0
  let b := w.getD 1 0
  (w.getD 15 0 + ((rotr64 a 1 ^^^ rotr64 a 8) ^^^ a / 2 ^ 7) + w.getD 6 0 + ((rotr64 b 19 ^^^ rotr64 b 61) ^^^ b / 2 ^ 6)) % 2 ^ 64

/-- The working variables and the window of the last 16 schedule words, newest first. -/
structure ShaSt where
  a : Nat
  b : Nat
  c : Nat
  d : Nat
  e : Nat
  f : Nat
  g : Nat
  h : Nat
  w : List Nat

/-- One round, with constant `k` and schedule word `x`. -/
def shaRound (s : ShaSt) (k x : Nat) : ShaSt :=
  let t1 := s.h + ((rotr64 s.e 14 ^^^ rotr64 s.e 18) ^^^ rotr64 s.e 41) +
    ((s.e &&& s.f) ^^^ ((2 ^ 64 - 1 - s.e) &&& s.g)) + k + x
  let t2 := ((rotr64 s.a 28 ^^^ rotr64 s.a 34) ^^^ rotr64 s.a 39) + (((s.a &&& s.b) ^^^ (s.a &&& s.c)) ^^^ (s.b &&& s.c))
  { s with a := (t1 + t2) % 2 ^ 64, b := s.a, c := s.b, d := s.c, e := (s.d + t1) % 2 ^ 64, f := s.e, g := s.f, h := s.g }

/-- Rounds on schedule words that extend the window. -/
def shaRounds (s : ShaSt) : List Nat → ShaSt
  | [] => s
  | k :: r =>
    let x := shaNext s.w
    shaRounds { shaRound s k x with w := x :: s.w.take 15 } r

/-- One block. -/
def shaBlock (h : List Nat) (b : List Byte) : List Nat :=
  let w := shaWords b
  let s : ShaSt := ⟨h.getD 0 0, h.getD 1 0, h.getD 2 0, h.getD 3 0, h.getD 4 0, h.getD 5 0, h.getD 6 0, h.getD 7 0, w.reverse⟩
  let s := (w.zip (shaK.take 16)).foldl (fun s p => shaRound s p.2 p.1) s
  let s := shaRounds s (shaK.drop 16)
  (h.zip [s.a, s.b, s.c, s.d, s.e, s.f, s.g, s.h]).map fun p => (p.1 + p.2) % 2 ^ 64

/-- The blocks of a padded message. -/
def shaBlocks (h : List Nat) (m : List Byte) : Nat → List Nat
  | 0 => h
  | n + 1 => shaBlocks (shaBlock h (m.take 128)) (m.drop 128) n

/-- SHA-384 of bytes: 48 bytes. -/
def sha384 (m : List Byte) : List Byte :=
  let n := (m.length + 17 + 127) / 128
  let p := m ++ (0x80#8 :: List.replicate (128 * n - m.length - 17) 0#8) ++ natBE 16 (8 * m.length)
  ((shaBlocks shaInit p n).flatMap (natBE 8)).take 48

end Sys2Proof.Machine
end

