-- ==== Sys2Proof/Machine/PortOps.lean ====
section
/-! DEFINITION. Ports: their state beside the registers, and calibration bursts (R64, R414 to R416). -/

namespace Sys2Proof.Machine

def noPort (_ : Nat) : PortSt := PortSt.reset

def State.port (s : State) (p : Nat) : PortSt := sGet noPort s.ports.ports p

def State.setPort (s : State) (p : Nat) (x : PortSt) : State :=
  { s with ports := { s.ports with ports := sSet noPort s.ports.ports p x } }

/-- Register window of a port. -/
def pw (p : Nat) : Nat := Reg.portWin p

/-- Length in ns of the burst that is due (R414). -/
def State.calLength (s : State) (p : Nat) : Nat :=
  if s.fld (Reg.OPT_CAL (pw p)) Fld.OPT_CAL_NEXT_LONG = 0 then 6000 else 1500

def State.calibrating (s : State) (p : Nat) : Bool := s.flag (Reg.OPT_STATUS (pw p)) Fld.OPT_STATUS_CALIBRATING

/-- A burst begins. -/
def State.calStart (s : State) (p : Nat) : State := s.setFld (Reg.OPT_STATUS (pw p)) Fld.OPT_STATUS_CALIBRATING 1

/-- A burst has run: the deferral count is 0, and the count towards the next long burst advances (R64, R414). -/
def State.calEnd (s : State) (p : Nat) : State :=
  let s := s.setFld (Reg.OPT_STATUS (pw p)) Fld.OPT_STATUS_CALIBRATING 0
  let n := s.fld (Reg.OPT_CAL (pw p)) Fld.OPT_CAL_NEXT_LONG
  let s := s.setFlds (Reg.OPT_CAL (pw p)) [(Fld.OPT_CAL_NEXT_LONG, (n + 15) % 16), (Fld.OPT_CAL_DEFER, 0)]
  s.setPort p { s.port p with calDue := false, calAt := s.time }

/-- Ports whose due burst waits. -/
def State.calWaiting (s : State) : List Nat :=
  (List.range 8).filter fun p => s.working (capPort p) && (s.port p).calDue && !s.calibrating p

/-- The quiet band meets the due burst of port `p` (R64): it begins, when the band is long enough or the slip is forced, or
it is deferred. -/
def State.calQuiet1 (s : State) (p : Nat) : State :=
  let n := s.fld (Reg.OPT_CAL (pw p)) Fld.OPT_CAL_DEFER
  if s.calLength p ≤ s.hly.active.quiet ∨ s.hly.forced.contains p then s.calStart p
  else if n < 64 then
    (s.setFld (Reg.OPT_CAL (pw p)) Fld.OPT_CAL_DEFER (n + 1)).bump32 Reg.HLY_CNT_CAL_DEFER 1
  else s

def State.calQuiet (s : State) : State := s.calWaiting.foldl State.calQuiet1 s

/-- A node whose Halyard state is IDLE runs each burst when it falls due (R416). -/
def State.calIdle (s : State) : State := if s.hlyState = hlyIdle then s.calWaiting.foldl State.calStart s else s

/-- The first entry equal to `e` leaves a list. -/
def listTake {α : Type} [DecidableEq α] (e : α) : List α → List α
  | [] => []
  | x :: r => if x = e then r else x :: listTake e r

/-! ### Credits of the receiver (R401) -/

/-- Credit units of a packet. -/
def creditUnits (k : Packet) : Nat := (40 + k.payload.length + 63) / 64

/-- Entry of a class in a list by class 1 to 5. -/
def byClass (l : List Nat) (c : Nat) : Nat := l.getD (c - 1) 0

/-- A count of a class goes up, modulo 4,096. -/
def addClass (l : List Nat) (c n : Nat) : List Nat := if c = 0 then l else l.set (c - 1) ((byClass l c + n) % 4096)

/-- The buffer of a packet of class `c` on port `q` is free again. -/
def State.creditBack (s : State) (q c n : Nat) : State :=
  let x := s.port q
  s.setPort q { x with crOwn := addClass x.crOwn c n }

/-- A count of a class goes down, modulo 4,096. -/
def subClass (l : List Nat) (c n : Nat) : List Nat := if c = 0 then l else l.set (c - 1) ((byClass l c + 4096 - n % 4096) % 4096)

/-- The port whose buffer holds a packet that waits; none where its link has gone down since (R405). -/
def State.rxPort (s : State) (k : Packet) : Option Nat :=
  match s.ports.rx.find? fun e => e.2 == k with
  | none => none
  | some (q, _) => q

/-- The credit of packet `k`, which port `q` received, returns. -/
def State.creditFree (s : State) (q : Option Nat) (k : Packet) : State :=
  match q with
  | some p => s.creditBack p (bits k.w0.toNat 57 55) (creditUnits k)
  | none => s

/-- Packet `k` holds its credit again. -/
def State.creditHold (s : State) (q : Option Nat) (k : Packet) : State :=
  match q with
  | some p =>
    let x := s.port p
    s.setPort p { x with crOwn := subClass x.crOwn (bits k.w0.toNat 57 55) (creditUnits k) }
  | none => s

/-- A packet that was waiting on a port is taken, and its credit returns; a packet that waits on none is as it is. -/
def State.rxTake (s : State) (k : Packet) : State :=
  match s.ports.rx.find? fun e => e.2 == k with
  | none => s
  | some (q, _) => ({ s with ports := { s.ports with rx := listTake (q, k) s.ports.rx } }).creditFree q k

/-- The link of port `p` is gone: packets that it brought hold no credit of the next one (R405). -/
def State.creditGone (s : State) (p : Nat) : State :=
  let out (q : Option Nat) : Option Nat := if q = some p then none else q
  { s with
    ports := { s.ports with rx := s.ports.rx.map fun e => (out e.1, e.2) }
    hws := { s.hws with parked := s.hws.parked.map fun e => (out e.1, e.2) } }

end Sys2Proof.Machine
end

