-- ==== Sys2Proof/Machine/HwsHome.lean ====
section
/-! DEFINITION. Hawser at the home: the ingress checks (R351), the replay cache and journal (R358, R365), what requests do to
memory, windows and the accumulate buffer (R355, R366, R372, R376), and the window registers (R371, R373). -/

namespace Sys2Proof.Machine

/-! ### Responses -/

/-- Requests that wait for the line of an offset (R381, R382): in the buffers of the ports, and those that the home holds. -/
def State.hotWaiting (s : State) (off : Nat) : Nat :=
  ((s.ports.rx ++ s.hws.parked).filter fun e => decide (pType e.2 < ptCPL) && pOff e.2 / 64 == off / 64).length

/-- BACKOFF of a response (R382): 0 unless more requests than HOT_THRESH wait for the line. -/
def State.backoffHint (s : State) (off : Nat) : Nat :=
  let t := s.fld Reg.HWS_CTRL Fld.HWS_CTRL_HOT_THRESH
  let n := s.hotWaiting off
  if t ≠ 0 ∧ n > t then min 0xFFFF ((2 * n + 7) / 8) else 0

/-- The response to request `p` (R348, R382); it is lost where no port of the route is up. The fields that name the request
repeat its own (log entry 11). -/
def State.respond (s : State) (p : Packet) (type status : Nat) (data : List Byte) : State :=
  let b := s.backoffHint (pOff p)
  let s := if b = 0 then s else s.event Reg.HWS_EVENT Fld.HWS_EVENT_HOT Reg.HWS_CNT_HOT
  match s.respPort (pSrc p) with
  | none => s
  | some q =>
    s.emit q (mkPacket (s.hdr0 type 2 (pSport p) (pSrc p)) (hdr1 (pTag p) (pAgent p) (pLen p) 0 0 false status)
      (BitVec.ofNat 64 (2 ^ 48 * b + pOff p)) (s.hdr3 (pScount p)) data)

/-- Packet type that answers a request (Table HWS-3). -/
def answerType (type : Nat) : Nat := if type = ptRD then ptRD_DATA else if type = ptATOMIC then ptATOMIC_DATA else ptCPL

/-- The request creates a replay-cache entry (R358). -/
def keepsEntry (type : Nat) : Bool := type != ptRD

/-! ### Replay cache and journal -/

/-- Lease of an entry created or hit now, with the microsecond of R358. -/
def State.leaseEnd (s : State) : Nat :=
  s.time + 1000 * max (s.fld Reg.HWS_TIMEOUT Fld.HWS_TIMEOUT_LEASE_US) (s.fld Reg.HWS_TIMEOUT Fld.HWS_TIMEOUT_HOME_LEASE_US) + 1000

/-- REPLAY_OCC follows the entries held. -/
def State.replayOcc (s : State) : State := s.setFld Reg.HWS_STATUS Fld.HWS_STATUS_REPLAY_OCC s.hws.cache.length

/-- A record enters the journal (R365). -/
def State.journalAdd (s : State) (e : ReplayEntry) : State :=
  if s.hws.journal.length ≥ 32768 then
    let old := s.hws.journal.head?.map (·.applied)
    let s := { s with hws := { s.hws with
      journal := s.hws.journal.drop 1 ++ [e]
      journalLost := max s.hws.journalLost old } }
    s.event Reg.HWS_EVENT Fld.HWS_EVENT_JOURNAL_OVF Reg.HWS_CNT_JOURNAL_OVF
  else { s with hws := { s.hws with journal := s.hws.journal ++ [e] } }

/-- Entries that `hit` are freed; those of `log` are journaled. -/
def State.cacheFree (s : State) (hit : ReplayEntry → Bool) (log : Bool) : State :=
  let l := s.hws.cache.filter hit
  let s := { s with hws := { s.hws with cache := s.hws.cache.filter fun e => !hit e } }
  (if log then l.foldl State.journalAdd s else s).replayOcc

def State.cacheFind (s : State) (src sport tag : Nat) : Option ReplayEntry :=
  s.hws.cache.find? fun e => e.src == src && e.sport == sport && e.tag == tag

/-- A tag arrives: its place on the running count of its source and port, and the entries 2^19 or more behind it are freed
(R358). A tag up to 2^19 ahead of the newest is newer, any other an older one sent again. -/
def State.tagSeen (s : State) (src sport tag : Nat) : Nat × State :=
  let k := src * 8 + sport
  let top := sGet noCount s.hws.tops k
  let top := if top = 0 then 2 ^ 20 + tag else top
  let d := (tag + 2 ^ 20 - top % 2 ^ 20) % 2 ^ 20
  let ext := if d ≤ 2 ^ 19 then top + d else past (2 ^ 20) (top + d)
  let s := { s with hws := { s.hws with tops := sSet noCount s.hws.tops k (max top ext) } }
  let old (e : ReplayEntry) : Bool := e.src == src && e.sport == sport && decide (e.ext + 2 ^ 19 ≤ ext)
  (ext, if s.hws.cache.any old then s.cacheFree old true else s)

/-! ### Ingress checks 1 to 6 -/

/-- Types of Table HWS-3. -/
def typeKnown (t : Nat) : Bool :=
  t == ptRD || t == ptWR || t == ptATOMIC || t == ptACC || t == ptREFRESH || t == ptTFENCE || t == ptCPL || t == ptRD_DATA ||
    t == ptATOMIC_DATA || t == ptRELEASE || t == ptLANYARD

/-- The class is one that the type allows. -/
def classOk (t tc : Nat) : Bool :=
  if t = ptRD ∨ t = ptWR ∨ t = ptACC ∨ t = ptTFENCE then decide (3 ≤ tc) && decide (tc ≤ 5)
  else if t = ptATOMIC then tc == 3 || tc == 4
  else if t = ptREFRESH then tc == 5
  else if t = ptLANYARD then tc == 1
  else tc == 2

/-- Checks 1 to 4 (R351): the packet is accepted, or dropped with its count. -/
def State.hwsAccept (s : State) (p : Packet) : State × Bool :=
  let s := s.bump64 Reg.HWS_CNT_RX_BYTES (40 + p.payload.length)
  if packetCrcOk p = false then (s.bump32 Reg.HWS_CNT_CRC_DROP 1, false)
  else if !typeKnown (pType p) || !classOk (pType p) (pTc p) || pDst p != s.ownNode then (s.bump32 Reg.HWS_CNT_MALFORMED 1, false)
  else if s.hwsOn = false then (s, false)
  else if s.flag Reg.HWS_PART Fld.HWS_PART_VALID = false ∨ pPart p ≠ s.fld Reg.HWS_PART Fld.HWS_PART_PARTITION then
    (s.event Reg.HWS_EVENT Fld.HWS_EVENT_PART_DROP Reg.HWS_CNT_PART_DROP, false)
  else if pEpoch p ≠ s.fld Reg.HWS_PART Fld.HWS_PART_EPOCH then
    (s.event Reg.HWS_EVENT Fld.HWS_EVENT_STALE_EPOCH Reg.HWS_CNT_STALE_EPOCH, false)
  else (s, true)

/-- Age of a request in ns (R363). -/
def State.age (s : State) (p : Packet) : Int := sext 32 (s.time % 2 ^ 32 + 2 ^ 32 - pSendT p)

def State.ageOk (s : State) (p : Packet) : Bool :=
  decide (-1000 ≤ s.age p) && decide (s.age p ≤ 1000 * s.fld Reg.HWS_TIMEOUT Fld.HWS_TIMEOUT_REQ_US)

/-! ### Checks 8 and 9 -/

/-- Shape of a request (R350); the payload is as long as the type asks. -/
def shapeOk (p : Packet) : Bool :=
  let t := pType p
  let n := pLen p
  let a := pOff p
  let block := decide (1 ≤ n) && decide (a % 256 + n ≤ 256)
  if t = ptRD then block && p.payload.isEmpty
  else if t = ptWR then block && p.payload.length == n
  else if t = ptATOMIC then (n == 4 || n == 8) && a % n == 0 && decide (pOp p ≤ 8) && p.payload.length == n
  else if t = ptACC then ((n == 8 && pFmt p == 0) || (n == 4 && pFmt p == 1)) && a % n == 0 && p.payload.length == n
  else if t = ptREFRESH then
    if pOp p = 1 then n == 0 && p.payload.isEmpty else block && a % 64 == 0 && n % 64 == 0 && p.payload.length == n
  else p.payload.isEmpty

/-- Check 9: the local offset, or the status of the failure. -/
def State.ingressXlat (s : State) (p : Packet) : State × (Nat ⊕ Nat) :=
  let t := pType p
  let acc : Access :=
    if t = ptRD ∨ t = ptREFRESH then .read else if t = ptTFENCE then .any else .write
  let w := s.translateE 5 (s.fld Reg.HWS_INGRESS_PT Fld.HWS_INGRESS_PT_ROOT) (s.fld Reg.HWS_PART Fld.HWS_PART_PARTITION) (pOff p) acc
  match w.2.1 with
  | .ok pa => if bit w.2.2 5 then (w.1, .inr pa) else (w.1, .inl csDenied)
  | .bad reason _ => (w.1, .inl (if reason = 4 then csUnitAbsent else csDenied))

/-! ### Application -/

/-- Outcome of a request that has passed its checks: status and data of the response. -/
abbrev Applied := State × Nat × List Byte

/-- A consumption of poison at the ingress (R555): F-die 0 consumes it. -/
def State.ingressPoison (s : State) (line : Nat) : Applied := (s.poisonUsed 5 line, csPoison, [])

/-- RD. -/
def State.applyRd (s : State) (pa n : Nat) : Applied :=
  let r := s.read pa n
  match r.stat with
  | .ok => (r.st, csOK, r.data)
  | .poison => r.st.ingressPoison r.line
  | .absent => (r.st, csUnitAbsent, [])

/-- Lines that a write covers in part. -/
def partialLines (a n : Nat) : List Nat :=
  (linesOf a n).filter fun l => decide (l < a) || decide (a + n < l + 64)

/-- WR to a range that is not tick-ordered: a poisoned line that it covers in part stops all of it (Table RAS-3). -/
def State.applyWr (s : State) (pa : Nat) (bs : List Byte) : Applied :=
  let r := s.readLines (partialLines pa bs.length)
  match r.2 with
  | some l => r.1.ingressPoison l
  | none =>
    let w := s.write pa bs
    (w.1, if w.2 = .ok then csOK else csUnitAbsent, [])

/-- The new value of an atomic on `n` bytes (R350). -/
def atomicNew (op n old x : Nat) : Nat :=
  let b := 8 * n
  match op with
  | 0 => x
  | 1 => (old + x) % 2 ^ b
  | 2 => old &&& x
  | 3 => old ||| x
  | 4 => old ^^^ x
  | 5 => if sext b old ≤ sext b x then old else x
  | 6 => if sext b old ≤ sext b x then x else old
  | 7 => min old x
  | _ => max old x

/-- ATOMIC: the old value is returned. -/
def State.applyAtomic (s : State) (pa n op : Nat) (x : List Byte) : Applied :=
  let r := s.read pa n
  match r.stat with
  | .ok => ((r.st.write pa (natLE n (atomicNew op n (leNat r.data) (leNat x)))).1, csOK, r.data)
  | .poison => r.st.ingressPoison r.line
  | .absent => (r.st, csUnitAbsent, [])

/-- ACC on arrival (R372). -/
def State.applyAcc (s : State) (pa f : Nat) (x : List Byte) : Applied :=
  let r := s.accApply pa f (leNat x)
  if r.2 then (r.1, csOK, []) else r.1.ingressPoison (pa / 64 * 64)

/-- The step that STEP16 names: the one within 2^15 of the current step (R367). -/
def State.stepOf16 (s : State) (x : Nat) : Nat :=
  let d := (x + 2 ^ 16 - s.step % 2 ^ 16) % 2 ^ 16
  if d < 2 ^ 15 then (s.step + d) % 2 ^ 48 else (s.step + 2 ^ 48 - (2 ^ 16 - d)) % 2 ^ 48

/-- A WR or ACC into a tick-ordered window is held (R366, R368). -/
def State.applyHold (s : State) (p : Packet) (pa : Nat) : Applied :=
  let n := s.hws.tob.length
  if n ≥ 65536 * (1 + s.fld Reg.HWS_TOB Fld.HWS_TOB_UNITS) then
    (s.event Reg.HWS_EVENT Fld.HWS_EVENT_TO_FULL Reg.HWS_CNT_TO_FULL, csToFull, [])
  else
    let st := s.stepOf16 (pStep16 p)
    let s := if n ≥ 65536 then s.bump32 Reg.HWS_CNT_TO_SPILL 1 else s
    let s := if laterStep s.step st then s.event Reg.HWS_EVENT Fld.HWS_EVENT_TO_LATE Reg.HWS_CNT_TO_LATE else s
    let o : HeldOp := ⟨st, pSrc p, pAgent p, pScount p, pa, pType p == ptACC, pFmt p, p.payload⟩
    ({ s with hws := { s.hws with tob := s.hws.tob ++ [o] } }.tobOcc, csOK, [])

/-- The staged set of a window, a new one where none is held. -/
def State.stageOf (s : State) (w : Nat) : StageSet := (s.hws.stage.find? fun x => x.win == w).getD ⟨w, 0, [], 0, none, false⟩

/-- The staged set of a window is replaced; PENDING_APPLY says whether it is complete. -/
def State.stagePut (s : State) (x : StageSet) : State :=
  let s := { s with hws := { s.hws with stage := (s.hws.stage.filter fun (y : StageSet) => y.win != x.win) ++ [x] } }
  (s.setFld (Reg.HWS_WIN_STATUS (Reg.winWin x.win)) Fld.HWS_WIN_STATUS_PENDING_APPLY (if stageComplete x then 1 else 0)).refreshOcc

/-- Whole lines of a payload with their offsets. -/
def payloadLines (pa : Nat) (bs : List Byte) : List (Nat × List Byte) :=
  (List.range (bs.length / 64)).map fun i => (pa + 64 * i, (bs.drop (64 * i)).take 64)

/-- An end marker waits for the data packets that it names (R376). -/
def State.markWaits (s : State) (p : Packet) : Bool :=
  pType p == ptREFRESH && pOp p == 1 &&
    match s.winAt 2 (pOff p) with
    | none => false
    | some w => !(s.stageOf w).lost && (s.stageOf w).count != pScount p

/-- An end marker has arrived. -/
def State.markSeen (s : State) (p : Packet) : State :=
  match s.winAt 2 (pOff p) with
  | none => s
  | some w => s.stagePut { s.stageOf w with need := some (pScount p) }

/-- REFRESH at a replica (R376): lines are staged, in the refresh buffer and beyond it in the stage region of the window, or the end
marker completes the set. A set beyond buffer and stage is discarded, and its end marker answered REFRESH_OVF. -/
def State.applyRefresh (s : State) (p : Packet) (pa : Nat) : Applied :=
  match s.winAt 2 (pOff p) with
  | none => (s, csToRefused, [])
  | some w =>
    let x := s.stageOf w
    if pOp p = 1 then
      if x.lost then
        ({ s with hws := { s.hws with stage := s.hws.stage.filter fun (y : StageSet) => y.win != w } }.refreshOcc, csRefreshOvf, [])
      else (s.stagePut { x with need := some (pScount p) }, csOK, [])
    else
      let l := payloadLines pa p.payload
      let beyond := x.spilt + (l.length - (65536 - s.stagedLines))
      if x.lost ∨ beyond > s.fld (Reg.HWS_WIN_AUXSZ (Reg.winWin w)) Fld.HWS_WIN_AUXSZ_STAGE_LINES then
        (s.stagePut { x with count := x.count + 1, lines := [], spilt := 0, lost := true }, csOK, [])
      else (s.stagePut { x with count := x.count + 1, lines := x.lines ++ l, spilt := beyond }, csOK, [])

/-- TFENCE (R520): counted when this node's engine is designated for the cut of that step and holds; DENIED otherwise. -/
def State.applyFence (s : State) (p : Packet) : Applied :=
  let phase := s.fld Reg.CKP_STATUS Fld.CKP_STATUS_PHASE
  if bit (wordAt s.ckp.desc 0).toNat 55 && (phase == 2 || phase == 3) &&
      s.fld Reg.CKP_STEP Fld.CKP_STEP_STEP % 65536 == pStep16 p then
    (s.bumpFld Reg.CKP_FENCES Fld.CKP_FENCES_COUNT 1, csOK, [])
  else (s.event16 Reg.CKP_EVENT Fld.CKP_EVENT_FENCE_DENIED Reg.CKP_CNT_FENCE_DENIED 0, csDenied, [])

/-- Checks 10 and 11 and the effect (R366, R372). -/
def State.hwsEffect (s : State) (p : Packet) (pa : Nat) : Applied :=
  let t := pType p
  let ordered := (s.winAt 0 (pOff p)).isSome
  if t = ptRD then s.applyRd pa (pLen p)
  else if t = ptTFENCE then s.applyFence p
  else if ordered ∧ (t = ptATOMIC ∨ t = ptREFRESH) then (s, csToRefused, [])
  else if ordered then s.applyHold p pa
  else if t = ptWR then s.applyWr pa p.payload
  else if t = ptATOMIC then s.applyAtomic pa (pLen p) (pOp p) p.payload
  else if t = ptACC then s.applyAcc pa (pFmt p) p.payload
  else s.applyRefresh p pa

/-- Accesses to the window of this offset wait (R369, R376); WR and ACC into a tick-ordered window are accepted meanwhile. -/
def State.windowBusy (s : State) (type off : Nat) : Bool :=
  (s.hws.toBusy && (s.winAt 0 off).isSome && type != ptWR && type != ptACC) ||
    (match s.winAt 2 off with
     | some w => s.hws.repBusy.contains w
     | none => false)

/-- The response of a request is kept, where it creates an entry, and sent. -/
def hwsAnswer (p : Packet) (ext : Nat) (r : Applied) : State :=
  let s := r.1
  let s := if r.2.1 = csNotReady then s.bump32 Reg.HWS_CNT_NOT_READY 1 else s
  let s :=
    if keepsEntry (pType p) then
      let e : ReplayEntry := ⟨pSrc p, pSport p, pTag p, pType p, r.2.1, if pType p = ptATOMIC then r.2.2 else [],
        pStep16 p, s.time, s.leaseEnd, ext⟩
      { s with hws := { s.hws with cache := s.hws.cache ++ [e] } }.replayOcc
    else s
  s.respond p (answerType (pType p)) r.2.1 r.2.2

/-- A packet that port `q` received waits, and its credit with it (R360, R381). -/
def State.park (s : State) (q : Option Nat) (p : Packet) : State :=
  { s with hws := { s.hws with parked := s.hws.parked ++ [(q, p)] } }.creditHold q p

/-- A TC3 request waits behind one of its agent that waits (R354). -/
def State.behind (s : State) (p : Packet) : Bool :=
  pTc p == 3 && s.hws.parked.any fun e => pTc e.2 == 3 && pSrc e.2 == pSrc p && pAgent e.2 == pAgent p

/-- Checks 7 to 11 and the effect of a request that port `q` received (R351, R354, R358, R360, R513). -/
def State.hwsServe (s : State) (q : Option Nat) (p : Packet) : State :=
  let t := s.tagSeen (pSrc p) (pSport p) (pTag p)
  let s := t.2
  match if keepsEntry (pType p) then s.cacheFind (pSrc p) (pSport p) (pTag p) else none with
  | some e =>
    let hit (x : ReplayEntry) : Bool := x.src == e.src && x.sport == e.sport && x.tag == e.tag
    let s := { s with hws := { s.hws with
      cache := s.hws.cache.map fun (x : ReplayEntry) => if hit x then { x with until_ := s.leaseEnd } else x } }
    (s.bump32 Reg.HWS_CNT_REPLAY_HIT 1).respond p (answerType (pType p)) e.status e.old
  | none =>
    if s.behind p || keepsEntry (pType p) && decide (s.hws.cache.length ≥ 32768) then s.park q p
    else if s.ckp.closed && !((pType p == ptWR || pType p == ptTFENCE) && pAgent p == 0x0D00) then
      hwsAnswer p t.1 (s.event Reg.CKP_EVENT Fld.CKP_EVENT_CLOSED_REFUSED Reg.CKP_CNT_CLOSED_REFUSED, csNotReady, [])
    else if shapeOk p = false then hwsAnswer p t.1 (s, csMalformed, [])
    else
      let x := s.ingressXlat p
      match x.2 with
      | .inl st => hwsAnswer p t.1 (x.1, st, [])
      | .inr pa =>
        if x.1.windowBusy (pType p) (pOff p) then x.1.park q p
        else if x.1.markWaits p then (x.1.markSeen p).park q p
        else hwsAnswer p t.1 (x.1.hwsEffect p pa)

/-- Packets that waited are taken up again, in order. -/
def State.unpark (s : State) : State :=
  let l := s.hws.parked
  l.foldl (fun s e => (s.creditFree e.1 e.2).hwsServe e.1 e.2) { s with hws := { s.hws with parked := [] } }

/-- The tag of a request may free entries of its source; requests that waited for one go on before it (R358, R360). -/
def State.tagFirst (s : State) (p : Packet) : State :=
  let t := (s.tagSeen (pSrc p) (pSport p) (pTag p)).2
  if t.hws.cache.length < s.hws.cache.length then t.unpark else t

/-- The data of a refresh may complete the set that an end marker waits for (R376). -/
def State.refreshGoes (s : State) (p : Packet) : State := if pType p = ptREFRESH ∧ pOp p ≠ 1 then s.unpark else s

/-- A request that port `q` received is served. -/
def State.hwsTake (s : State) (q : Option Nat) (p : Packet) : State := ((s.tagFirst p).hwsServe q p).refreshGoes p

/-- A request packet arrives (R351). One of another known type is not this command's. -/
def State.hwsRequest (s : State) (type : Nat) (p : Packet) : State :=
  if s.working (capFdie 0) = false ∨ (typeKnown (pType p) ∧ pType p ≠ type) then s
  else
    let q := s.rxPort p
    let a := (s.rxTake p).hwsAccept p
    let s := a.1
    if a.2 = false then s
    else
      let s := s.bump64 Reg.HWS_CNT_RX_REQ 1
      if s.ageOk p = false then s.event Reg.HWS_EVENT Fld.HWS_EVENT_AGED Reg.HWS_CNT_AGED
      else if s.ticking = false then
        (s.bump32 Reg.HWS_CNT_NOT_READY 1).respond p (answerType type) csNotReady []
      else s.hwsTake q p

/-! ### Commands -/

/-- RD (R351). -/
def execRd (p : Packet) (s : State) : Host.Outcome State Fault Refusal := .next (s.hwsRequest ptRD p)
/-- WR (R355). -/
def execWr (p : Packet) (s : State) : Host.Outcome State Fault Refusal := .next (s.hwsRequest ptWR p)
/-- ATOMIC (R350). -/
def execAtomic (p : Packet) (s : State) : Host.Outcome State Fault Refusal := .next (s.hwsRequest ptATOMIC p)
/-- ACC (R367, R372). -/
def execAcc (p : Packet) (s : State) : Host.Outcome State Fault Refusal := .next (s.hwsRequest ptACC p)
/-- REFRESH (R376). -/
def execRefresh (p : Packet) (s : State) : Host.Outcome State Fault Refusal := .next (s.hwsRequest ptREFRESH p)
/-- TFENCE (R520). -/
def execTfence (p : Packet) (s : State) : Host.Outcome State Fault Refusal := .next (s.hwsRequest ptTFENCE p)

/-- Keys of a RELEASE payload (R359). -/
def releaseKeys (src : Nat) (b : List Byte) : List (Nat × Nat × Nat) :=
  (List.range (b.length / 4)).map fun i =>
    let w := leNat ((b.drop (4 * i)).take 4)
    (src, bits w 22 20, bits w 19 0)

/-- RELEASE (R358): the entries that it names are freed, and requests that waited for a free entry go on. -/
def execRelease (p : Packet) (s : State) : Host.Outcome State Fault Refusal :=
  .next (
    if s.working (capFdie 0) = false ∨ (typeKnown (pType p) ∧ pType p ≠ ptRELEASE) then s
    else
      let a := (s.rxTake p).hwsAccept p
      if a.2 = false then a.1
      else
        let k := releaseKeys (pSrc p) p.payload
        (a.1.cacheFree (fun e => k.contains (e.src, e.sport, e.tag)) false).unpark)

/-- REPLAY_LEASE_EXPIRY (R358, R365): the lease of the entry ends; it is freed and journaled. -/
def execReplayLeaseExpiry (src sport tag : Nat) (s : State) : Host.Outcome State Fault Refusal :=
  .next (
    match s.cacheFind src sport tag with
    | none => s
    | some e => ((s.timeTo e.until_).cacheFree (fun x => x.src == src && x.sport == sport && x.tag == tag) true).unpark)

/-- TO_APPLY_COMPLETE (R369): the last held operation of the ended step is applied; window accesses resume. -/
def execToApplyComplete (s : State) : Host.Outcome State Fault Refusal :=
  .next (if s.hws.toBusy then { s with hws := { s.hws with toBusy := false } }.unpark else s)

/-- REPLICA_APPLY_COMPLETE (R376): the copy of window `win` is written; its accesses resume. -/
def execReplicaApplyComplete (win : Nat) (s : State) : Host.Outcome State Fault Refusal :=
  .next (
    if s.hws.repBusy.contains win then
      let s := { s with hws := { s.hws with repBusy := s.hws.repBusy.filter fun w => w != win } }
      (s.setFld (Reg.HWS_WIN_STATUS (Reg.winWin win)) Fld.HWS_WIN_STATUS_PENDING_APPLY 0).unpark
    else s)

/-! ### Window registers (R371, R373) -/

/-- Two windows share an offset. -/
def State.winsMeet (s : State) (v w : Nat) : Bool :=
  decide (s.winBase v < s.winBase w + 4096 * s.winPages w) && decide (s.winBase w < s.winBase v + 4096 * s.winPages v)

/-- The entry, as `s` holds it, breaks the limits of R373. -/
def State.winBad (s : State) (w : Nat) : Bool :=
  decide (s.fld (Reg.HWS_WIN_CFG (Reg.winWin w)) Fld.HWS_WIN_CFG_NREP > 8) || s.winPages w == 0 || decide (s.winPages w > 2 ^ 26) ||
    s.winList.any fun v => v != w && s.winValid v && s.winsMeet v w

/-- A write of HWS_WINw_CFG with VALID = 1 is checked; one with VALID = 0 to a tick-ordered window waits for the
application of the next tick end. -/
def State.writeWinCfg (s : State) (w : Nat) (value : Word) : State :=
  let a := Reg.HWS_WIN_CFG (Reg.winWin w)
  let v := packF [(Fld.HWS_WIN_CFG_VALID, getF value Fld.HWS_WIN_CFG_VALID), (Fld.HWS_WIN_CFG_KIND, getF value Fld.HWS_WIN_CFG_KIND),
    (Fld.HWS_WIN_CFG_NREP, getF value Fld.HWS_WIN_CFG_NREP), (Fld.HWS_WIN_CFG_BASE, getF value Fld.HWS_WIN_CFG_BASE)]
  let t := s.wr a v
  if getF value Fld.HWS_WIN_CFG_VALID = 1 then
    if t.winValid w ∧ t.winBad w then s.event Reg.HWS_EVENT Fld.HWS_EVENT_WIN_INVALID Reg.HWS_CNT_WIN_INVALID
    else t.chooseServe
  else if s.winValid w ∧ s.winKind w = 0 then { s with hws := { s.hws with winOff := s.hws.winOff ++ [(w, v)] } }
  else t.chooseServe

/-- HWS_WIN_CFG (R373): a write by an agent in any context of R386. -/
def execHwsWinCfg (agent : Agent) (win : Nat) (value : Word) (s : State) : Host.Outcome State Fault Refusal :=
  .next (
    let may := (s.ctx agent).serves
    if decide (win < 64) && s.working (capFdie 0) && may then s.writeWinCfg win value else s)

/-- Writes of VALID = 0 that waited take effect (R371). -/
def State.winOffApply (s : State) : State :=
  let l := s.hws.winOff
  (l.foldl (fun (s : State) e => s.wr (Reg.HWS_WIN_CFG (Reg.winWin e.1)) e.2) { s with hws := { s.hws with winOff := [] } }).chooseServe

end Sys2Proof.Machine
end

