-- ==== Sys2Proof/Machine/HartOps.lean ====
section
/-! DEFINITION. Harts: their registers, traps (R271), the waits of TICK.WAIT (R261), and the arithmetic of reductions (R250).
Privilege levels and traps follow the RISC-V privileged specification, which R246 names (log entry 14). -/

namespace Sys2Proof.Machine

/-! ### Registers -/

def noHart (_ : Nat) : HartSt := HartSt.reset
def xDflt (_ : Nat) : Word := 0

def State.hart (s : State) (h : Nat) : HartSt := sGet noHart s.host.harts h

def State.setHart (s : State) (h : Nat) (x : HartSt) : State :=
  { s with host := { s.host with harts := sSet noHart s.host.harts h x } }

/-- x register `i` of hart `h`; x0 reads 0. -/
def State.xreg (s : State) (h i : Nat) : Word := if i = 0 then 0 else sGet xDflt s.host.xregs (h * 32 + i)

def State.setXreg (s : State) (h i : Nat) (v : Word) : State :=
  if i = 0 then s else { s with host := { s.host with xregs := sSet xDflt s.host.xregs (h * 32 + i) v } }

/-- Bytes of a vector register (Table HST-1). -/
def vlenb (h : Nat) : Nat := if h < 64 then 512 else 16

/-- Key of byte `o` of the register group that begins at `v`. -/
def vKey (h v o : Nat) : Nat := 2 ^ 14 * h + 512 * (v + o / vlenb h) + o % vlenb h

def State.vbyte (s : State) (h v o : Nat) : Byte := sGet memDflt s.host.vregs (vKey h v o)

/-- Element `i` of `n` bytes of the group at `v`. -/
def State.velem (s : State) (h v n i : Nat) : Nat := leNat ((List.range n).map fun b => s.vbyte h v (n * i + b))

def State.setVelem (s : State) (h v n i x : Nat) : State :=
  { s with host := { s.host with
    vregs := (List.range n).foldl (fun l b => sSet memDflt l (vKey h v (n * i + b)) (BitVec.ofNat 8 (x / 2 ^ (8 * b)))) s.host.vregs } }

/-- Mask bit `i` of v0. -/
def State.vmask (s : State) (h i : Nat) : Bool := bit (s.vbyte h 0 (i / 8)).toNat (i % 8)

/-- Hart `h` exists, is released from reset hold and powered. -/
def State.hartUp (s : State) (h : Nat) : Bool :=
  decide (h < 68) && s.powered (hartDomain h) &&
    (if h < 64 then bit (s.rd Reg.HOST_HART_RELEASE0).toNat h else bit (s.rd Reg.HOST_HART_RELEASE1).toNat (h - 64))

/-- Hart `h` can execute its next instruction. -/
def State.hartReady (s : State) (h : Nat) : Bool := s.hartUp h && decide ((s.hart h).wait = .none)

/-- The instruction of hart `h` retires. -/
def State.retire (s : State) (h : Nat) : State :=
  let x := s.hart h
  s.setHart h { x with pc := x.pc + 4, wait := .none }

/-! ### Traps -/

def HartMode.isUser : HartMode → Bool
  | .u => true
  | .vu => true
  | _ => false

/-- Level that takes exception `cause` from a mode: M, HS or VS. -/
def HartSt.trapLevel (x : HartSt) (cause : Nat) : HartMode :=
  if x.mode = .m ∨ bit x.medeleg.toNat cause = false then .m
  else if (x.mode = .vs ∨ x.mode = .vu) ∧ bit x.hedeleg.toNat cause then .vs
  else .s

def TrapRegs.take (t : TrapRegs) (x : HartSt) (cause tval : Word) (xf : Option Word) : TrapRegs :=
  { t with epc := x.pc, cause := cause, tval := tval, xfault := xf.getD t.xfault, prev := x.mode, pie := t.ie, ie := false }

/-- Hart `x` traps into a level. -/
def HartSt.trapTo (x : HartSt) (lvl : HartMode) (cause tval : Word) (xf : Option Word) : HartSt :=
  let y := match lvl with
    | .m => { x with mtrap := x.mtrap.take x cause tval xf, mode := .m, pc := x.mtrap.tvec &&& ~~~3#64 }
    | .vs => { x with vstrap := x.vstrap.take x cause tval xf, mode := .vs, pc := x.vstrap.tvec &&& ~~~3#64 }
    | _ => { x with strap := x.strap.take x cause tval xf, mode := .s, pc := x.strap.tvec &&& ~~~3#64 }
  { y with wait := .none }

/-- An exception of hart `h`: cause, trap value, and what the fault CSR receives. -/
def State.hartTrap (s : State) (h cause : Nat) (tval : Word) (xf : Option Word) : State :=
  let x := s.hart h
  s.setHart h (x.trapTo (x.trapLevel cause) (BitVec.ofNat 64 cause) tval xf)

/-- Exception causes of the RISC-V privileged specification. -/
def exIllegal : Nat := 2
def exLoadAccess : Nat := 5
def exStoreAccess : Nat := 7
def exLoadPage : Nat := 13
def exStorePage : Nat := 15
def exLoadGuest : Nat := 21
def exStoreGuest : Nat := 23

/-- Reasons of Table HST-8. -/
def hxUnitAbsent : Nat := 1
def hxSize : Nat := 2
def hxAperture : Nat := 3
def hxRemoteDenied : Nat := 4
def hxRemoteAbsent : Nat := 5
def hxRemoteTimeout : Nat := 6
def hxAmbiguous : Nat := 7
def hxPoison : Nat := 8

/-- Word of the fault CSR (Table HST-8). -/
def xfaultWord (reason tag port : Nat) : Word := BitVec.ofNat 64 (2 ^ 56 * reason + 2 ^ 28 * (tag % 2 ^ 20) + 2 ^ 25 * (port % 8))

/-- An access fault with a Svareot reason (R251, R271). -/
def State.accessFault (s : State) (h : Nat) (store : Bool) (va : Word) (reason : Nat) (tag port : Nat := 0) : State :=
  s.hartTrap h (if store then exStoreAccess else exLoadAccess) va (some (xfaultWord reason tag port))

/-- An illegal instruction. -/
def State.hartIllegal (s : State) (h : Nat) (w : BitVec 32) : State := s.hartTrap h exIllegal (w.setWidth 64) none

/-! ### Instruction words (Tables HST-5 and HST-6) -/

def iOpcode (w : BitVec 32) : Nat := bits w.toNat 6 0
def iRd (w : BitVec 32) : Nat := bits w.toNat 11 7
def iF3 (w : BitVec 32) : Nat := bits w.toNat 14 12
def iRs1 (w : BitVec 32) : Nat := bits w.toNat 19 15
def iRs2 (w : BitVec 32) : Nat := bits w.toNat 24 20
def iF7 (w : BitVec 32) : Nat := bits w.toNat 31 25
def iVm (w : BitVec 32) : Bool := bit w.toNat 25
def iF6 (w : BitVec 32) : Nat := bits w.toNat 31 26

/-- Hart `h` executes a Svareot scalar word with funct3 `f3`, where `mine` holds of it: `may` says that its mode may, `ok` that
its unused fields are 0; otherwise it is illegal, and so is a word of a reserved funct3, 6 or 7 (R260). Another word is not this
instruction. -/
def State.svareot (s : State) (h : Nat) (w : BitVec 32) (f3 : Nat) (mine may ok : Bool) (k : State → State) : State :=
  if s.hartReady h = false ∨ iOpcode w ≠ 0x0B then s
  else if iF3 w = f3 ∧ mine then (if may && ok then k s else s.hartIllegal h w)
  else if 6 ≤ iF3 w then s.hartIllegal h w
  else s

/-- The mode of hart `h` may execute an instruction that the bit of HOST_XCTRL opens to U-mode and VU-mode (R260). -/
def State.xctrl (s : State) (h : Nat) (f : Field) : Bool := !(s.hart h).mode.isUser || s.flag Reg.HOST_XCTRL f

/-! ### TICK.WAIT (R261) -/

/-- TICK.WAIT of hart `h` ends with a code. -/
def State.hartWaitEnd (s : State) (h rd code : Nat) : State := (s.setXreg h rd (BitVec.ofNat 64 code)).retire h

/-- A late TICK.WAIT. -/
def State.hartLate (s : State) (h rd : Nat) : State := (s.bump32 Reg.HOST_CNT_TICK_LATE 1).hartWaitEnd h rd 1

/-- Waits of harts that issued in JOINING are judged as the node becomes RUNNING. -/
def State.hartsJudge (s : State) : State :=
  s.host.harts.foldl (fun s e => match e.2.wait with
    | .tick st p rd true =>
      if s.passed st (s.phaseStart p) then s.hartLate e.1 rd
      else s.setHart e.1 { s.hart e.1 with wait := .tick st p rd false }
    | _ => s) s

/-! ### Arithmetic -/

/-- A value rounded once under an IEEE mode of frm (0 RNE, 1 RTZ, 2 RDN, 3 RUP, 4 RMM) to an FP16, FP32 or FP64 code: code and
flags. -/
def hostRound (f rm : Nat) (x : Num) : Nat × Nat :=
  match floatFmt f, x with
  | some t, .fin m e =>
    let neg := decide (m < 0)
    let n := m.natAbs
    let g := max (ilog2 n e) (1 - (t.bias : Int)) - t.mb
    let z := roundGrid n e g rmRTZ 0
    let d := 2 ^ (g - e).toNat
    let up := z.inexact &&
      (if rm = 0 then (roundGrid n e g rmRNE 0).up
       else if rm = 2 then neg
       else if rm = 3 then !neg
       else if rm = 4 then decide (d ≤ 2 * (n % d))
       else false)
    let u : Nat := if up then z.trunc + 1 else z.trunc
    let c := (2 ^ t.mb * (g + t.mb + t.bias) + u - 2 ^ t.mb).toNat
    let toMax := rm == 1 || (rm == 2 && !neg) || (rm == 3 && neg)
    if maxCode f t < c then ((if toMax then maxCode f t else 2 ^ t.mb * (2 ^ t.eb - 1)) + signBit t neg, flOF + flNX)
    else (c + signBit t neg, if z.inexact then flNX else 0)
  | _, x => convertNum f rmRNE true 0 x

/-- IEEE 754 addition of two codes (R250): NaNs, and the sign of an exact zero. -/
def hostAdd (f rm x y : Nat) : Nat × Nat :=
  let a := decodeNum f x
  let b := decodeNum f y
  let r := numAdd a b
  let nv := if a.isSnan || b.isSnan then flNV else 0
  if r.1.isNan then (canonNan f, r.2 ||| nv)
  else if r.1.isZero && rm == 2 && a.neg != b.neg then (2 ^ (fmtBits f - 1), 0)
  else
    let c := hostRound f rm r.1
    (c.1, c.2 ||| r.2)

/-- The span tree of R165 with the addition of R250: code and all flags. -/
def hostTree (f rm : Nat) : Nat → List Nat → Nat × Nat
  | 0, l => (l.headD 0, 0)
  | k + 1, l =>
    if l.length ≤ 1 then (l.headD 0, 0)
    else
      let h := 2 ^ Nat.log2 (l.length - 1)
      let a := hostTree f rm k (l.take h)
      let b := hostTree f rm k (l.drop h)
      let t := hostAdd f rm a.1 b.1
      (t.1, (a.2 ||| b.2) ||| t.2)

/-- fflags of a set of flags: NX, UF, OF in bits 0 to 2, NV in bit 4. -/
def fflagsOf (fl : Nat) : Nat := fl % 8 + (if bit fl 3 then 16 else 0)

def State.addFflags (s : State) (h fl : Nat) : State :=
  let x := s.hart h
  s.setHart h { x with fflags := x.fflags ||| fflagsOf fl }

end Sys2Proof.Machine
end

