-- ==== Sys2Proof/Machine/Seq.lean ====
section
/-! DEFINITION. The sequencer: fields of an instruction word (Table TCR-2), S registers (R76), fetch (R78), the loop stack
(R86), taking a fault (R114) and the gate through which every instruction of a core is issued (R79, R90). -/

namespace Sys2Proof.Machine

/-! ### Instruction words -/

/-- The word with CLASS and OP in front of the rest (Table TCR-2). -/
def insnWord (cls op : Nat) (r : Rest) : Word := BitVec.ofNat 64 (2 ^ 58 * (cls % 64) + 2 ^ 52 * (op % 64) + r.toNat)

def fSD (r : Rest) : Nat := bits r.toNat 51 47
def fSA (r : Rest) : Nat := bits r.toNat 46 42
def fSB (r : Rest) : Nat := bits r.toNat 41 37
def fRsv (r : Rest) : Nat := bits r.toNat 36 32
def fImm (r : Rest) : Nat := bits r.toNat 31 0
/-- IMM sign-extended. -/
def fSImm (r : Rest) : Int := sext 32 r.toNat

/-- A field of a sequencer word that an instruction may leave unused. -/
inductive Use where
  | sd
  | sa
  | sb
  | imm
  deriving DecidableEq, Repr

/-- Bits [36:32] are 0 and every field outside `used` is 0 (R79). -/
def fieldsOk (used : List Use) (r : Rest) : Bool :=
  fRsv r == 0 && (used.contains .sd || fSD r == 0) && (used.contains .sa || fSA r == 0) &&
    (used.contains .sb || fSB r == 0) && (used.contains .imm || fImm r == 0)

/-! ### Core state codes (Table TCR-17) -/

def coreIdle : Nat := 0
def coreLoading : Nat := 1
def coreRunning : Nat := 2
def coreWaiting : Nat := 3
def coreFaulted : Nat := 4
def coreScrubbing : Nat := 5
def coreOffline : Nat := 6

/-- State of the core whose window is `w`. -/
def State.coreState (s : State) (w : Nat) : Nat := s.fld (Reg.TC_STATUS w) Fld.TC_STATUS_STATE
def State.setCoreState (s : State) (w x : Nat) : State := s.setFld (Reg.TC_STATUS w) Fld.TC_STATUS_STATE x

/-- WAIT_KIND codes. -/
def State.setWaitKind (s : State) (w x : Nat) : State := s.setFld (Reg.TC_STATUS w) Fld.TC_STATUS_WAIT_KIND x

/-- A core keeps its reset contents until something happens on it. -/
def coreDflt (_ : Nat) : CoreSt := CoreSt.reset

def State.core (s : State) (c : Nat) : CoreSt := sGet coreDflt s.tc.cores c
def State.setCore (s : State) (c : Nat) (x : CoreSt) : State :=
  { s with tc := { s.tc with cores := sSet coreDflt s.tc.cores c x } }

/-! ### S registers and PC -/

/-- S register `n` of the core whose window is `w`; S0 reads 0 (R76). -/
def State.sreg (s : State) (w n : Nat) : Word := if n = 0 then 0 else s.rd (Reg.TC_SREG w n)

/-- A write to S0 is discarded (R76). -/
def State.setSreg (s : State) (w n : Nat) (v : Word) : State := if n = 0 then s else s.wr (Reg.TC_SREG w n) v

def State.pc (s : State) (w : Nat) : Nat := s.fld (Reg.TC_PC w) Fld.TC_PC_PC

/-- The word at offset `o` of the program memory of core `c`. -/
def State.pmWord (s : State) (c o : Nat) : Word := BitVec.ofNat 64 (leNat (bytesAt s.tc.pmem (2 ^ 18 * c + o) 8))

def State.pmPoisoned (s : State) (c o : Nat) : Bool := sGet noMark s.tc.pmPoison (2 ^ 15 * c + o / 8)

/-- A word stored to program memory clears its poison (Table RAS-2). -/
def State.pmStore (s : State) (c o : Nat) (v : Word) : State :=
  { s with tc := { s.tc with
      pmem := putBytes s.tc.pmem (2 ^ 18 * c + o) (natLE 8 v.toNat)
      pmPoison := sSet noMark s.tc.pmPoison (2 ^ 15 * c + o / 8) false } }

/-! ### Faults -/

/-- An event of core `c` goes to a queue of its T-die, under the core's partition (R119). -/
def State.postCore (s : State) (c q type code : Nat) (a b : Word) : State × Nat :=
  let x := s.rd (Reg.TC_CTX (s.win c))
  s.postDie (c / 160) q (getF x Fld.TC_CTX_VALID == 1) (getF x Fld.TC_CTX_PARTITION) type code c a b

/-- The queue of the core's own events (Table TCR-18). -/
def State.coreEvq (s : State) (c : Nat) : Nat := s.fld (Reg.TC_CFG (s.win c)) Fld.TC_CFG_EVQ

/-- Source of a fault (Table TCR-22). -/
def srcSeq : Nat := 0
def srcMatrix : Nat := 1
def srcVector : Nat := 2
def srcFid : Nat := 3
def srcLoader : Nat := 4
def srcDie : Nat := 5

/-- A program transfer of core `c` is queued or under way. -/
def State.busyProg (s : State) (c : Nat) : Bool :=
  (s.fid.xfers.any fun x => x.core == c && !x.armed) || s.fid.queue.any fun i => i.core == c

/-- The waiting SEMWAIT of core `c`, if any, is withdrawn. -/
def State.dropSemWait (s : State) (c : Nat) : State :=
  { s with tc := { s.tc with semWaits := s.tc.semWaits.filter fun (e : Nat × Nat × Nat) => e.2.1 != c } }

/-- A fault of core `c` is recorded (R114): the fault registers are written, the core enters FAULTED with nothing awaited, the FAULT
event is posted, TC_EVENT.FAULT is set and counted, and with FAULT_DONE the core's done bit is set (R116). -/
def State.recordFault (s : State) (c : Nat) (f : FaultRec) : State :=
  let w := s.win c
  let tf := packF [(Fld.TC_FAULT_CODE, f.code), (Fld.TC_FAULT_IMPRECISE, if f.imprecise then 1 else 0),
    (Fld.TC_FAULT_SOURCE, f.source), (Fld.TC_FAULT_DETAIL, f.detail), (Fld.TC_FAULT_PC, f.pc)]
  let s := ((s.wr (Reg.TC_FAULT w) tf).wr (Reg.TC_FAULT_INSN w) f.word).wr (Reg.TC_FAULT_ADDR w) f.addr
  let s := (s.setCoreState w coreFaulted).setWaitKind w 0
  let s := s.setCore c { s.core c with wait := .none, loading := none, stopping := false }
  let s := s.dropSemWait c
  let s := (s.postCore c (s.coreEvq c) 2 f.code tf f.addr).1
  let s := s.event (Reg.TC_EVENT w) Fld.TC_EVENT_FAULT (Reg.TC_CNT_FAULT w)
  if s.flag (Reg.TC_CFG w) Fld.TC_CFG_FAULT_DONE then s.coreDone c else s

/-- The fault of core `c` that waits to be recorded, or else `f`: the first fault stops the core and stands (DESIGN CHOICE, log
entry 66). -/
def State.firstOf (s : State) (c : Nat) (f : FaultRec) : FaultRec :=
  match (s.core c).wait with
  | .fault g => g
  | _ => f

/-- A core takes a fault (R114): it issues nothing more, and the fault is recorded at once, or, while its Fid engine still holds
instructions of the program, when they have completed. Until then the core reads WAITING on a drain (DEDUCED, log entry 66). -/
def State.takeFault (s : State) (c : Nat) (f : FaultRec) : State :=
  let g := s.firstOf c f
  if s.busyProg c then
    let w := s.win c
    let s := ((s.dropSemWait c).setCoreState w coreWaiting).setWaitKind w 4
    s.setCore c { s.core c with wait := .fault g, loading := none, stopping := false }
  else s.recordFault c g

/-- Fault codes (Table TCR-11). -/
def fcIllegal : Nat := 0x01
def fcPcBounds : Nat := 0x02
def fcPmBounds : Nat := 0x03
def fcLoopDepth : Nat := 0x04
def fcNoTick : Nat := 0x06
def fcSemIndex : Nat := 0x07
def fcTsBounds : Nat := 0x08
def fcTranslation : Nat := 0x09
def fcProtection : Nat := 0x0A
def fcLoad : Nat := 0x0B
def fcPoison : Nat := 0x0C
def fcEngine : Nat := 0x0D
def fcTrap : Nat := 0x10
def fcStrandLost : Nat := 0x11

/-- A precise fault of the instruction at PC, found by the sequencer. -/
def State.seqFault (s : State) (c code detail : Nat) (addr word : Word) : State :=
  s.takeFault c ⟨code, srcSeq, false, detail, addr, word, s.pc (s.win c)⟩

/-! ### Flow -/

/-- PC becomes `t`; an offset out of range or misaligned raises PC_BOUNDS before anything there is executed (R78). No
word stands at such a PC: TC_FAULT_INSN takes a free value, and TC_PC and TC_FAULT.PC hold the low 18 bits of `t`, all that the fields
take (DESIGN CHOICE, log entry 7). -/
def State.goTo (s : State) (c t : Nat) : State :=
  let w := s.win c
  let s := s.setFld (Reg.TC_PC w) Fld.TC_PC_PC t
  if t % 8 = 0 ∧ t < 262144 then s
  else
    let x := s.free 1
    x.2.takeFault c ⟨fcPcBounds, srcSeq, false, 0, BitVec.ofNat 64 t, x.1, t % 2 ^ 18⟩

/-- LOOP_DEPTH follows the loop stack. -/
def State.setLoops (s : State) (c : Nat) (l : List LoopFrame) : State :=
  (s.setCore c { s.core c with loops := l }).setFld (Reg.TC_STATUS (s.win c)) Fld.TC_STATUS_LOOP_DEPTH l.length

/-- Sequential flow out of the instruction at `pc`: loops whose body ends there are repeated or end (R86). The result is
the next PC and the loop stack. -/
def afterInsn (pc : Nat) : List LoopFrame → Nat × List LoopFrame
  | [] => (pc + 8, [])
  | f :: r =>
    if f.last = pc then
      if f.left > 1 then (f.first, { f with left := f.left - 1 } :: r) else afterInsn pc r
    else (pc + 8, f :: r)

/-- The instruction at PC is done and flow goes on. -/
def State.advance (s : State) (c : Nat) : State :=
  let x := afterInsn (s.pc (s.win c)) (s.core c).loops
  (s.setLoops c x.2).goTo c x.1

/-- Loops that a taken branch to `t` leaves active: one whose body does not hold `t` ends, with every loop inside it
(R86). -/
def loopsAt (t : Nat) : List LoopFrame → List LoopFrame
  | [] => []
  | f :: r =>
    let r' := loopsAt t r
    if r'.length = r.length ∧ f.first ≤ t ∧ t ≤ f.last then f :: r' else r'

/-- A taken branch or jump to `t`, an exact integer reduced to 64 bits. -/
def State.jump (s : State) (c : Nat) (t : Int) : State :=
  let t := unsig 64 t
  (s.setLoops c (loopsAt t (s.core c).loops)).goTo c t

/-! ### Issue -/

/-- The operation codes of a class that name an instruction (Tables TCR-3 to TCR-6, MME-1, VEC-3 to VEC-6, FID-1; R83, R84, R89). -/
def classOps : Nat → List Nat
  | 0x01 => List.range 0x13
  | 0x02 => List.range 0x13
  | 0x03 => [0, 1]
  | 0x04 => [0, 1]
  | 0x08 => [0, 1, 2, 3, 4, 5, 8, 9, 0xA, 0xF]
  | 0x0C => [0, 1, 2, 4, 5, 6, 8, 0xA, 0xC]
  | 0x0E => [0, 1]
  | 0x10 => [0, 1, 2]
  | 0x18 => List.range 0xF ++ [0x10]
  | 0x19 => [0, 1, 2, 3, 4, 5, 8, 9, 0xA, 0xB, 0xC, 0xD]
  | 0x1A => List.range 7
  | 0x1B => [0, 1, 2, 3, 4, 8]
  | 0x20 => [0, 1]
  | _ => []

/-- A word's class and operation code name an instruction; no reserved class, reserved code or zero word does (R79, R80). -/
def opKnown (v : Word) : Bool := (classOps (bits v.toNat 63 58)).contains (bits v.toNat 57 52)

/-- Core `c` issues the word `word`: it is in service and RUNNING, and its PC holds that word (R78). Where PC holds another word that is
an instruction, nothing of the kind happens and the state stands; a word there of a reserved class or operation code faults
ILLEGAL_INSN whatever instruction is asked for (R79, log entry 5). A poisoned word faults POISON (Table RAS-2), an illegal word
ILLEGAL_INSN (R79), all precisely. -/
def State.issue (s : State) (c : Nat) (word : Word) (legal : Bool) (k : State → State) : State :=
  let w := s.win c
  if s.coreUp c = false ∨ s.coreState w ≠ coreRunning then s
  else
    let pc := s.pc w
    if s.pmPoisoned c pc then
      (s.bump32 (Reg.RAS_D_CNT_UE (c / 160)) 1).seqFault c fcPoison 0 (BitVec.ofNat 64 pc) word
    else if s.pmWord c pc ≠ word then (if opKnown (s.pmWord c pc) then s else s.seqFault c fcIllegal 0 0 (s.pmWord c pc))
    else if legal = false then s.seqFault c fcIllegal 0 0 word
    else k (s.bump64 (Reg.TC_CNT_INSN w) 1)

end Sys2Proof.Machine
end

