-- ==== Sys2Proof/Machine/Sync.lean ====
section
/-! DEFINITION. Synchronisation and event instructions of the sequencer (R87 to R89, R101 to R109) and the moments that end
their waits. -/

namespace Sys2Proof.Machine

/-! ### Waits -/

/-- The sequencer of core `c` waits; `kind` is WAIT_KIND (Table TCR-17). PC stays at the waiting instruction. -/
def State.block (s : State) (c kind : Nat) (x : CoreWait) : State :=
  let w := s.win c
  let s := (s.setCoreState w coreWaiting).setWaitKind w kind
  s.setCore c { s.core c with wait := x }

/-- The wait of core `c` is over. -/
def State.unblock (s : State) (c : Nat) : State :=
  let w := s.win c
  let s := (s.setCoreState w coreRunning).setWaitKind w 0
  s.setCore c { s.core c with wait := .none }

/-- The waiting instruction of core `c` completes. -/
def State.resume (s : State) (c : Nat) : State := (s.unblock c).advance c

/-- Any transfer of core `c`, armed ones included, is queued or under way (R215). -/
def State.busyFid (s : State) (c : Nat) : Bool :=
  (s.fid.xfers.any fun x => x.core == c) || (s.fid.queue.any fun i => i.core == c) || s.fid.armed.any fun x => x.core == c

/-- Some transfer of core `c` still has local work to do. -/
def State.busyLocal (s : State) (c : Nat) : Bool :=
  (s.fid.xfers.any fun x => x.core == c && !x.localDone) || (s.fid.queue.any fun i => i.core == c) ||
    s.fid.armed.any fun x => x.core == c

/-! ### Tick waits -/

/-- A late wait (R102). -/
def State.twaitLate (s : State) (c sd : Nat) : State :=
  let w := s.win c
  (s.event (Reg.TC_EVENT w) Fld.TC_EVENT_TWAIT_LATE (Reg.TC_CNT_TWAIT_LATE w)).setSreg w sd 1

/-- A tick wait for phase `p` of step `st` is issued (R101 to R103); `joining` is what awaits RUNNING where the state is JOINING. -/
def State.twait (s : State) (c : Nat) (word : Word) (st p sd : Nat) (joining : CoreWait) : State :=
  if s.hlyState = hlyIdle then s.seqFault c fcNoTick 0 0 word
  else if s.hlyState = hlyJoining then s.block c 1 joining
  else if s.passed st (s.phaseStart p) then (s.twaitLate c sd).advance c
  else s.block c 1 (.tick st p sd false)

/-- IMM[31:2] of a tick wait must be 0 (R87). -/
def twaitOk (r : Rest) : Bool := decide (fImm r < 4)

/-- TWAITA (R101): waits for phase IMM[1:0] of step SA[47:0]. -/
def execTwaita (core : Nat) (rest : Rest) (s : State) : Host.Outcome State Fault Refusal :=
  .next (s.issue core (insnWord 0x0C 0x00 rest) (fieldsOk [.sd, .sa, .imm] rest && twaitOk rest) fun s =>
    let st := (s.sreg (s.win core) (fSA rest)).toNat % 2 ^ 48
    s.twait core (insnWord 0x0C 0x00 rest) st (fImm rest % 4) (fSD rest) (.tick st (fImm rest % 4) (fSD rest) true))

/-- TWAITN (R101): waits for phase IMM[1:0] of the step after the current one. -/
def execTwaitn (core : Nat) (rest : Rest) (s : State) : Host.Outcome State Fault Refusal :=
  .next (s.issue core (insnWord 0x0C 0x01 rest) (fieldsOk [.sd, .imm] rest && twaitOk rest) fun s =>
    s.twait core (insnWord 0x0C 0x01 rest) (nextStep s.step) (fImm rest % 4) (fSD rest) (.joinNext (fImm rest % 4) (fSD rest)))

/-- TWAIT_MOMENT (R101): the awaited moment of the current tick is reached; SD receives 0, or 2 where the start of the tick
stood in for a phase that is not enabled. Before its step, and while no tick runs, the wait goes on. -/
def execTwaitMoment (core : Nat) (s : State) : Host.Outcome State Fault Refusal :=
  .next (
    if s.coreUp core = false ∨ s.coreState (s.win core) ≠ coreWaiting ∨ s.ticking = false then s
    else match (s.core core).wait with
      | .tick st p sd false =>
        if st ≠ s.step then s
        else
          let s := s.timeTo (s.phaseStart p)
          (s.setSreg (s.win core) sd (if s.hly.active.enabled p then 0 else 2)).resume core
      | _ => s)

/-- A tick wait of core `c` meets the end of the node's membership (R103). -/
def State.twaitNoTick (s : State) (c : Nat) : State :=
  s.seqFault c fcNoTick 0 0 (s.pmWord c (s.pc (s.win c)))

/-- Every waiting core with a tick wait faults NO_TICK, as the state becomes IDLE (R103). -/
def State.twaitsNoTick (s : State) : State :=
  s.tc.cores.foldl (fun s e => match e.2.wait with
    | .tick .. => s.twaitNoTick e.1
    | .joinNext .. => s.twaitNoTick e.1
    | _ => s) s

/-- The wait of core `c` for phase `p` of step `st` is judged as the node becomes RUNNING (R103). -/
def State.twaitJudge (s : State) (c st p sd : Nat) : State :=
  if s.passed st (s.phaseStart p) then (s.twaitLate c sd).resume c
  else s.setCore c { s.core c with wait := .tick st p sd false }

/-- What core `c` waits for is judged, where it was issued in JOINING; `next` is the step after the joined one. -/
def State.joinJudge (s : State) (c next : Nat) : CoreWait → State
  | .tick st p sd true => s.twaitJudge c st p sd
  | .joinNext p sd => s.twaitJudge c next p sd
  | _ => s

/-- The waits issued in JOINING are judged as the node becomes RUNNING (R103). -/
def State.twaitsJudge (s : State) : State := s.tc.cores.foldl (fun s e => s.joinJudge e.1 (nextStep s.step) e.2.wait) s

/-! ### Step-done -/

/-- HALT (R104): drains as DONE does, signals step-done when IMM[0] is 1, and ends the program. -/
def execHalt (core : Nat) (rest : Rest) (s : State) : Host.Outcome State Fault Refusal :=
  .next (s.issue core (insnWord 0x08 0x0F rest) (fieldsOk [.imm] rest && decide (fImm rest < 2)) fun s =>
    s.block core 4 (.drain (fImm rest == 1) true))

/-- DONE (R104): the drain of every earlier engine instruction begins. -/
def execDone (core : Nat) (rest : Rest) (s : State) : Host.Outcome State Fault Refusal :=
  .next (s.issue core (insnWord 0x0C 0x02 rest) (fieldsOk [] rest) fun s => s.block core 4 (.drain true false))

/-- The program of core `c` is over: the core is IDLE with nothing awaited. -/
def State.endProgram (s : State) (c : Nat) : State :=
  let w := s.win c
  let s := (s.setCoreState w coreIdle).setWaitKind w 0
  s.setCore c { s.core c with wait := .none, stopping := false }

/-- DONE_SIGNAL (R104, R105): the drain of DONE or HALT ends, remote completions included; step-done reaches Halyard where
the instruction signals, and the program goes on or ends. While a transfer is under way the drain goes on. -/
def execDoneSignal (core : Nat) (s : State) : Host.Outcome State Fault Refusal :=
  .next (
    if s.coreUp core = false ∨ s.coreState (s.win core) ≠ coreWaiting ∨ s.busyFid core then s
    else match (s.core core).wait with
      | .drain signal halt =>
        let s := if signal then s.coreDone core else s
        if halt then s.endProgram core else s.resume core
      | _ => s)

/-! ### Semaphores (R106 to R109, R551) -/

def semValue (n : Nat) : Nat := Reg.TC_SEM_VALUE (Reg.dieBlk (n / 256)) (n % 256)
def semOwner (n : Nat) : Nat := Reg.TC_SEM_OWNER (Reg.dieBlk (n / 256)) (n % 256)

/-- Semaphore `n` belongs to the partition. -/
def State.semOwned (s : State) (n : Nat) (valid : Bool) (part : Nat) : Bool :=
  s.flag (semOwner n) Fld.TC_SEM_OWNER_VALID && valid && s.fld (semOwner n) Fld.TC_SEM_OWNER_PARTITION == part

/-- Core `c` has a context, and its partition (Table TCR-19). -/
def State.ctxValid (s : State) (c : Nat) : Bool := s.flag (Reg.TC_CTX (s.win c)) Fld.TC_CTX_VALID
def State.ctxPart (s : State) (c : Nat) : Nat := s.fld (Reg.TC_CTX (s.win c)) Fld.TC_CTX_PARTITION
def State.ctxRoot (s : State) (c : Nat) : Nat := s.fld (Reg.TC_PTBASE (s.win c)) Fld.TC_PTBASE_ROOT

/-- The fault that an operation of core `c` on semaphore `n` raises, if any: SEM_INDEX, PROTECTION (R106), POISON (R551). -/
def State.semFault (s : State) (c n : Nat) : Option Nat :=
  if 1024 ≤ n ∨ s.present (capTdie (n / 256)) = false then some fcSemIndex
  else if s.semOwned n (s.ctxValid c) (s.ctxPart c) = false then some fcProtection
  else if sGet noMark s.tc.semPoison n then some fcPoison
  else none

def State.semVal (s : State) (n : Nat) : Nat := s.fld (semValue n) Fld.TC_SEM_VALUE_VALUE
def State.setSem (s : State) (n v : Nat) : State := s.wr (semValue n) (BitVec.ofNat 64 (v % 2 ^ 32))

/-- Waiting SEMWAITs on `n` are served in order until one cannot be (R108). -/
def State.semServe (s : State) (n : Nat) : Nat → State
  | 0 => s
  | k + 1 =>
    match s.tc.semWaits.find? fun (e : Nat × Nat × Nat) => e.1 == n with
    | none => s
    | some e =>
      if s.semVal n < e.2.2 then s
      else
        let s := s.setSem n (s.semVal n - e.2.2)
        let s := { s with tc := { s.tc with semWaits := s.tc.semWaits.erase e } }
        (s.resume e.2.1).semServe n k

/-- An increment reaches semaphore `n` (R108, R109): it saturates with SEM_OVF, and waits are served. -/
def State.semInc (s : State) (n amount : Nat) : State :=
  let v := s.semVal n + amount
  let s :=
    if v > 0xFFFFFFFF then
      let b := Reg.dieBlk (n / 256)
      (s.setSem n 0xFFFFFFFF).event (Reg.TC_DIE_EVENT b) Fld.TC_DIE_EVENT_SEM_OVF (Reg.TC_CNT_SEM_OVF b)
    else s.setSem n v
  s.semServe n s.tc.semWaits.length

/-- The semaphore operand SA + IMM. -/
def State.semIndex (s : State) (c : Nat) (r : Rest) : Word := s.sreg (s.win c) (fSA r) + wordOfInt (fSImm r)

/-- SB[31:0]. -/
def State.semCount (s : State) (c : Nat) (r : Rest) : Nat := (s.sreg (s.win c) (fSB r)).toNat % 2 ^ 32

/-- SEMINC is applied, every earlier write of the core being visible (R107). -/
def State.semIncDo (s : State) (c n amount : Nat) : State :=
  match s.semFault c n with
  | some f => s.seqFault c f 0 (BitVec.ofNat 64 n) (s.pmWord c (s.pc (s.win c)))
  | none => (s.advance c).semInc n amount

/-- SEMINC (R107): adds SB[31:0] to semaphore SA + IMM once every earlier write of the core is visible. -/
def execSeminc (core : Nat) (rest : Rest) (s : State) : Host.Outcome State Fault Refusal :=
  .next (s.issue core (insnWord 0x0C 0x04 rest) (fieldsOk [.sa, .sb, .imm] rest) fun s =>
    let n := (s.semIndex core rest).toNat
    match s.semFault core n with
    | some f => s.seqFault core f 0 (BitVec.ofNat 64 n) (insnWord 0x0C 0x04 rest)
    | none =>
      if s.busyProg core then s.block core 4 (.semHold n (s.semCount core rest))
      else s.semIncDo core n (s.semCount core rest))

/-- SEMWAIT (R108): waits until semaphore SA + IMM is at least SB[31:0] and every earlier wait on it is served, then
subtracts. A count of 0 completes at once (R107). -/
def execSemwait (core : Nat) (rest : Rest) (s : State) : Host.Outcome State Fault Refusal :=
  .next (s.issue core (insnWord 0x0C 0x05 rest) (fieldsOk [.sa, .sb, .imm] rest) fun s =>
    let n := (s.semIndex core rest).toNat
    let a := s.semCount core rest
    match s.semFault core n with
    | some f => s.seqFault core f 0 (BitVec.ofNat 64 n) (insnWord 0x0C 0x05 rest)
    | none =>
      if a = 0 then s.advance core
      else if s.semVal n < a ∨ (s.tc.semWaits.any fun (e : Nat × Nat × Nat) => e.1 == n) then
        let s := s.block core 2 (.sem n a)
        { s with tc := { s.tc with semWaits := s.tc.semWaits ++ [(n, core, a)] } }
      else (s.setSem n (s.semVal n - a)).advance core)

/-- SEMREAD (R106): SD := value of semaphore SA + IMM. -/
def execSemread (core : Nat) (rest : Rest) (s : State) : Host.Outcome State Fault Refusal :=
  .next (s.issue core (insnWord 0x0C 0x06 rest) (fieldsOk [.sd, .sa, .imm] rest) fun s =>
    let n := (s.semIndex core rest).toNat
    match s.semFault core n with
    | some f => s.seqFault core f 0 (BitVec.ofNat 64 n) (insnWord 0x0C 0x06 rest)
    | none => (s.setSreg (s.win core) (fSD rest) (BitVec.ofNat 64 (s.semVal n))).advance core)

/-! ### FENCE -/

/-- The classes of FENCE that still have work: bit 2 local Fid, bit 3 remote completions. Matrix and vector instructions and
semaphore operations of a core are complete when the next one issues (R91, R107). -/
def State.fenceBusy (s : State) (c sel : Nat) : Bool :=
  (bit sel 2 && s.busyLocal c) || (bit sel 3 && s.busyFid c)

/-- FENCE (R87): waits for completion of the earlier work that IMM[4:0] selects. -/
def execFence (core : Nat) (rest : Rest) (s : State) : Host.Outcome State Fault Refusal :=
  .next (s.issue core (insnWord 0x0C 0x08 rest) (fieldsOk [.imm] rest && decide (fImm rest < 32)) fun s =>
    if s.fenceBusy core (fImm rest) then s.block core 4 (.fence (fImm rest)) else s.advance core)

/-- Fid work of core `c` has completed: an instruction that waited for it goes on, a stalled one may issue again, and a fault that waited
for it is recorded. DONE and HALT end with DONE_SIGNAL. -/
def State.fidProgress (s : State) (c : Nat) : State :=
  match (s.core c).wait with
  | .semHold n a => if s.busyProg c then s else (s.unblock c).semIncDo c n a
  | .fence sel => if s.fenceBusy c sel then s else s.resume c
  | .stall => s.unblock c
  | .fault f => if s.busyProg c then s else s.recordFault c f
  | _ => s

/-! ### ARM, READSYS and events -/

/-- ARM (R60): commits word 0 from SA and word 1 from SB to the TALQ of the core's T-die; SD := the result. -/
def execArm (core : Nat) (rest : Rest) (s : State) : Host.Outcome State Fault Refusal :=
  .next (s.issue core (insnWord 0x0C 0x0A rest) (fieldsOk [.sd, .sa, .sb] rest) fun s =>
    let w := s.win core
    let r := s.arm (core / 160) (s.sreg w (fSA rest)) (s.sreg w (fSB rest))
    (r.1.setSreg w (fSD rest) (BitVec.ofNat 64 r.2)).advance core)

/-- The system values of Table TCR-7. Value 6 counts TCLK cycles, which the model does not: it is a free value. -/
def State.sysValue (s : State) (c n : Nat) : Word × State :=
  let d := c / 160
  match n with
  | 0 => (BitVec.ofNat 64 c, s)
  | 1 => (BitVec.ofNat 64 (8 * s.physStrand d (c % 160 / 8) + c % 8), s)
  | 2 => (BitVec.ofNat 64 d, s)
  | 3 => (BitVec.ofNat 64 s.step, s)
  | 4 => (BitVec.ofNat 64 s.phase, s)
  | 5 => (BitVec.ofNat 64 s.time, s)
  | 6 => s.free 2
  | 7 => (BitVec.ofNat 64 (s.ctxPart c), s)
  | _ => (BitVec.ofNat 64 (s.core c).desc, s)

/-- READSYS (R88): SD := system value IMM; IMM above 8 is reserved. -/
def execReadsys (core : Nat) (rest : Rest) (s : State) : Host.Outcome State Fault Refusal :=
  .next (s.issue core (insnWord 0x0C 0x0C rest) (fieldsOk [.sd, .imm] rest && decide (fImm rest ≤ 8)) fun s =>
    let x := s.sysValue core (fImm rest)
    (x.2.setSreg (s.win core) (fSD rest) x.1).advance core)

/-- EVPOST (R89): a USER event to queue IMM[2:0] with CODE IMM[15:8]; SD := 0 posted, 1 full, 2 disabled. -/
def execEvpost (core : Nat) (rest : Rest) (s : State) : Host.Outcome State Fault Refusal :=
  .next (s.issue core (insnWord 0x0E 0x00 rest)
      (fieldsOk [.sd, .sa, .sb, .imm] rest && (bits (fImm rest) 7 3 == 0 && bits (fImm rest) 31 16 == 0)) fun s =>
    let w := s.win core
    let r := s.postCore core (fImm rest % 8) 1 (bits (fImm rest) 15 8) (s.sreg w (fSA rest)) (s.sreg w (fSB rest))
    let s := if r.2 = 0 then r.1
      else r.1.event (Reg.TC_EVENT w) Fld.TC_EVENT_EVPOST_DROP (Reg.TC_CNT_EVPOST_DROP w)
    (s.setSreg w (fSD rest) (BitVec.ofNat 64 r.2)).advance core)

/-- TRAP (R89): raises fault TRAP with DETAIL IMM[7:0]. -/
def execTrap (core : Nat) (rest : Rest) (s : State) : Host.Outcome State Fault Refusal :=
  .next (s.issue core (insnWord 0x0E 0x01 rest) (fieldsOk [.imm] rest && decide (fImm rest < 256)) fun s =>
    s.seqFault core fcTrap (fImm rest) 0 (insnWord 0x0E 0x01 rest))

end Sys2Proof.Machine
end

