-- ==== Sys2Proof/Machine/Tick.lean ====
section
/-! DEFINITION. The life of a tick: its start and end (R44, R46 to R48, R53), holds (R53, R55), joining and leaving (R32, R41,
R42), and the checks of a parameter set (R43). -/

namespace Sys2Proof.Machine

/-! ### Parameters -/

/-- The staged set (R44) under a generation. -/
def State.stagedSet (s : State) (gen : Nat) : TickParams where
  period := s.hly.stagedPeriod
  mark1 := s.fld Reg.HLY_MARK12 Fld.HLY_MARK12_MARK1
  mark2 := s.fld Reg.HLY_MARK12 Fld.HLY_MARK12_MARK2
  mark3 := s.fld Reg.HLY_MARK3 Fld.HLY_MARK3_MARK3
  markEn := s.fld Reg.HLY_MARK3 Fld.HLY_MARK3_EN
  guard := s.fld Reg.HLY_GUARD_QUIET Fld.HLY_GUARD_QUIET_GUARD
  quiet := s.fld Reg.HLY_GUARD_QUIET Fld.HLY_GUARD_QUIET_QUIET
  quantum := s.fld Reg.HLY_SLIP_CFG Fld.HLY_SLIP_CFG_QUANTUM
  maxSlips := s.fld Reg.HLY_SLIP_CFG Fld.HLY_SLIP_CFG_MAX_SLIPS
  gen := gen

/-- The enabled marks, in ascending number. -/
def TickParams.marks (t : TickParams) : List Nat := ([1, 2, 3].filter t.enabled).map t.mark

/-- Each number is less than the next. -/
def rising : List Nat → Bool
  | [] => true
  | [_] => true
  | a :: b :: r => decide (a < b) && rising (b :: r)

/-- An enabled mark has every lower-numbered mark enabled. -/
def TickParams.marksFrom1 (t : TickParams) : Bool := t.markEn == 0 || t.markEn == 1 || t.markEn == 3 || t.markEn == 7

/-- The first check of R43 that the set fails, without the effective step; 0 none. `minGuard` is the least guard offset. -/
def TickParams.check (t : TickParams) (minGuard : Nat) : Nat :=
  if t.period < 1000 ∨ 4294967295 < t.period then 1
  else if t.guard < 1 ∨ t.period - 1 < t.guard then 1
  else if t.guard < minGuard then 3
  else if t.guard < t.quiet then 1
  else if t.marks.any fun m => m == 0 then 1
  else if t.marks.any fun m => decide (t.period - t.guard ≤ m) then 2
  else if !t.marksFrom1 || !rising t.marks then 2
  else if t.quantum < 100 ∨ 1000000 < t.quantum then 1
  else if t.maxSlips < 1 ∨ 255 < t.maxSlips then 1
  else 0

/-- A write of HLY_PARAM (R43 to R45): the staged set is committed, or PARAM_ERR says why not. MIN_GUARD binds the master
alone. -/
def State.commitParams (s : State) (v : Word) : State :=
  let eff := getF v Fld.HLY_PARAM_EFFECTIVE_STEP
  let gen := getF v Fld.HLY_PARAM_GENERATION
  let t := s.stagedSet gen
  let c := t.check (if s.isMaster then s.fld Reg.HLY_TREE Fld.HLY_TREE_MIN_GUARD else 0)
  let e := if c ≠ 0 then c else if laterStep eff s.step then 0 else 4
  let s := s.setFld Reg.HLY_STATUS Fld.HLY_STATUS_PARAM_ERR e
  if e ≠ 0 then s
  else
    let s := s.wr Reg.HLY_PARAM (packF [(Fld.HLY_PARAM_GENERATION, gen), (Fld.HLY_PARAM_EFFECTIVE_STEP, eff)])
    { s.setFld Reg.HLY_STATUS Fld.HLY_STATUS_PARAM_PENDING 1 with hly := { s.hly with committed := some (t, eff) } }

/-- The parameter set of step `st`: the committed one, once its effective step has come. -/
def State.paramsAt (s : State) (st : Nat) : TickParams :=
  match s.hly.committed with
  | some (t, eff) => if laterStep eff st then s.hly.active else t
  | none => s.hly.active

/-- A set becomes active. -/
def State.activate (s : State) (t : TickParams) : State :=
  let s := s.setFld Reg.HLY_PERIOD Fld.HLY_PERIOD_PERIOD t.period
  let s := s.setFlds Reg.HLY_STATUS [(Fld.HLY_STATUS_ACTIVE_GEN, t.gen), (Fld.HLY_STATUS_PARAM_PENDING, 0)]
  { s with hly := { s.hly with active := t, committed := none } }

/-- At the start of step `st` a committed set whose step has come becomes active (R44). -/
def State.paramsStart (s : State) (st : Nat) : State :=
  match s.hly.committed with
  | some (t, eff) => if laterStep eff st then s else s.activate t
  | none => s

/-! ### Start of a tick -/

/-- Logical cores in service. -/
def State.coresUp (s : State) : List Nat :=
  ((List.range 4).filter fun d => s.working (capTdie d)).flatMap fun d =>
    ((List.range 160).map fun c => 160 * d + c).filter s.coreUp

/-- Done state is cleared (R48), with DONE_THIS_STEP of the cores that had signalled. -/
def State.clearDone (s : State) : State :=
  let cs := (List.range 10).flatMap fun w => (ones (s.rd (Reg.HLY_DONE_C w)).toNat 64).map fun j => 64 * w + j
  let s := cs.foldl (fun s c => s.setFld (Reg.TC_STATUS (s.win c)) Fld.TC_STATUS_DONE_THIS_STEP 0) s
  doneWords.foldl (fun s e => s.wr e.2.1 0) s

/-- Writes of the done mask take effect (R47). -/
def State.takeMasks (s : State) : State :=
  let l := s.hly.maskNext
  let s := { s with hly := { s.hly with maskNext := [] } }
  l.foldl (fun s e => s.wr e.1 (s.maskAllowed e.1 e.2)) s

/-- Units that are done from the start of a tick (R48, R116): FAULTED cores with FAULT_DONE, the RSE with an empty queue, and
the checkpoint engine with no shard under way. -/
def State.doneAtStart (s : State) : State :=
  let cs := s.coresUp.filter fun c =>
    s.coreState (s.win c) == coreFaulted && s.flag (Reg.TC_CFG (s.win c)) Fld.TC_CFG_FAULT_DONE
  let s := cs.foldl State.coreDone s
  let s :=
    if s.working capRse && s.fld Reg.RSE_STATUS Fld.RSE_STATUS_OCCUPANCY == 0 && !s.flag Reg.RSE_STATUS Fld.RSE_STATUS_BUSY
    then s.unitDone Fld.HLY_DONE_U_RSE else s
  if s.working capCkp && s.ckp.stage != 2 then s.unitDone Fld.HLY_DONE_U_CKP else s

/-- Tick `st` begins at `b` and is planned to end at `e`, or after its period. -/
def State.beginTick (s : State) (st b : Nat) (e : Option Nat) : State :=
  let s := s.paramsStart st
  let s := s.wr Reg.HLY_STEP (BitVec.ofNat 64 st)
  let s := s.wr Reg.HLY_TICK_START (BitVec.ofNat 64 b)
  let s := s.wr Reg.HLY_TICK_END (BitVec.ofNat 64 (e.getD (b + s.hly.active.period)))
  let s := s.setFlds Reg.HLY_SLIPS
    [(Fld.HLY_SLIPS_LAST, s.fld Reg.HLY_SLIPS Fld.HLY_SLIPS_CURRENT), (Fld.HLY_SLIPS_CURRENT, 0), (Fld.HLY_SLIPS_FORCED, 0)]
  let s := { s with
    hly := { s.hly with final := none, latest := none, seen := [], guardDone := false, quiet := false, forced := [],
                        lateHold := false }
    hws := { s.hws with scount := [] } }
  (s.clearDone.takeMasks.doneAtStart.slipUpdate).leadUpdate

/-- A node that belongs to no domain runs its own tick, when LOCAL is 1 and ENABLE is 1 (R32): its first tick begins at once
with the current step (log entry 12). Otherwise it is IDLE. -/
def State.goLocal (s : State) : State :=
  if s.flag Reg.HLY_CTRL Fld.HLY_CTRL_ENABLE && s.flag Reg.HLY_CTRL Fld.HLY_CTRL_LOCAL &&
      !s.flag Reg.HLY_DOMAIN Fld.HLY_DOMAIN_VALID then
    let s := (s.setFld Reg.HLY_STATUS Fld.HLY_STATUS_ROLE 1).setHlyState hlyLocal
    s.beginTick s.step s.time none
  else s

/-! ### End of a tick -/

/-- What a tick end applies: the held operations of the step, complete refresh sets, and writes of VALID = 0 to tick-ordered
windows (R367, R371, R376). -/
def State.tickApply (s : State) (st : Nat) : State := (s.tobApply st).stageApply.winOffApply

/-- Tick N ends at the TIME_A of its TICK_FINAL (R46, R53). Where that time has passed when the TICK_FINAL arrives, the next tick
starts at the present time: HLY_TICK_START takes the later of the two (DESIGN CHOICE, log entry 61). -/
def State.endTick (s : State) (a b : Nat) : State :=
  let st := s.step
  let s := s.timeTo a
  let s := s.tickApply st
  let s := s.setHlyState (if s.flag Reg.HLY_DOMAIN Fld.HLY_DOMAIN_VALID then hlyRunning else hlyLocal)
  (s.ckpTickEnd).beginTick (nextStep st) (max a s.time) (some b)

/-- The master ends tick N at `a` (R52, R56, R510): TICK_FINAL goes to every child. -/
def State.sendFinal (s : State) (a : Nat) : State :=
  let b := a + (s.paramsAt (nextStep s.step)).period
  let y := { s.mkSym with children := s.hly.children.length, timeA := a, timeB := b }
  let s := s.sendChildren symTickFinal y
  let s := s.wr Reg.HLY_TICK_END (BitVec.ofNat 64 a)
  { s with hly := { s.hly with final := some (s.step, a, b), latest := some (symTickFinal, y) } }

/-- L of R51, as HLY_TREE shows it. -/
def State.lead (s : State) : Nat := s.fld Reg.HLY_TREE Fld.HLY_TREE_ANNOUNCE_LEAD

/-! ### Holds -/

/-- Lowest core in the HLY_LATE copy; 0xFFFF for none (Table BWL-8). -/
def State.lowestLate (s : State) : Nat :=
  (((List.range 10).flatMap fun w => (ones (s.rd (Reg.HLY_LATE_C w)).toNat 64).map fun j => 64 * w + j).head?).getD 0xFFFF

/-- The hold of a TICK_FAULT begins at `a` (R55, R512). No message is given by which Bowline reports it over Lanyard: the report is
the log entry of CODE 6, which LOG_READ reads (DESIGN CHOICE, log entry 61). -/
def State.holdFault (s : State) (a : Nat) : State :=
  let s := (s.timeTo a).setHlyState hlyHoldFault
  let s := s.event Reg.HLY_EVENT Fld.HLY_EVENT_TICK_FAULT Reg.HLY_CNT_FAULT
  (s.logCode 6 s.lowestLate).cutAbandon crTickFault

/-! ### Joining and leaving -/

/-- The tick of this node is over: nothing of it remains. -/
def State.tickGone (s : State) : State :=
  let s := s.setFlds Reg.HLY_STATUS
    [(Fld.HLY_STATUS_AGG_PENDING, 0), (Fld.HLY_STATUS_PENDING, 0), (Fld.HLY_STATUS_LOCKED, 0)]
  let s := s.setFlds Reg.HLY_TREE [(Fld.HLY_TREE_CHILDREN, 0), (Fld.HLY_TREE_LEVEL, 0)]
  { s with hly := { s.hly with
    children := [], final := none, latest := none, seen := [], guardDone := false, quiet := false, forced := [],
    lateHold := false, takeover := false, awaiting := false, missed := 0, lockRun := 0, hopLat := 0, rate := 0, slewRem := 0,
    useAlt := false, seq := 0, t1 := 0 } }

/-- The node becomes IDLE: its tick waits fault (R103), and bursts that wait run (R416). -/
def State.goIdle (s : State) : State := ((s.tickGone.setHlyState hlyIdle).twaitsNoTick).calIdle

/-- Every TALQ entry is discarded, with one event that gives the count (R42). -/
def State.discardTalq (s : State) : State :=
  let n := s.hly.talq.length
  let s := { s with hly := { s.hly with talq := [] } }
  ((List.range 7).foldl State.talqOcc s).logCode 1 n

/-- The node is a member of its domain or is joining it. -/
def State.inDomain (s : State) : Bool :=
  s.flag Reg.HLY_DOMAIN Fld.HLY_DOMAIN_VALID && (s.hlyState == hlyJoining || s.member)

/-- The node joins the domain of HLY_DOMAIN (R41). The master's first tick begins at once with the current step (log
entry 12). -/
def State.joinDomain (s : State) : State :=
  let r := s.fld Reg.HLY_DOMAIN Fld.HLY_DOMAIN_ROLE
  let s := s.tickGone.setFld Reg.HLY_STATUS Fld.HLY_STATUS_ROLE r
  if r = 1 then
    let s := (s.wr Reg.HLY_OFFSET 0).setHlyState hlyRunning
    s.beginTick s.step s.time none
  else s.setHlyState hlyJoining

/-- HLY_CTRL takes a value (R32, R42). -/
def State.writeHlyCtrl (s : State) (v : Word) : State :=
  let was := s.flag Reg.HLY_CTRL Fld.HLY_CTRL_ENABLE
  let s := s.wr Reg.HLY_CTRL (packF [(Fld.HLY_CTRL_LOCAL, getF v Fld.HLY_CTRL_LOCAL), (Fld.HLY_CTRL_ENABLE, getF v Fld.HLY_CTRL_ENABLE)])
  if s.flag Reg.HLY_CTRL Fld.HLY_CTRL_ENABLE = false then
    if s.hlyState = hlyIdle then s
    else if s.inDomain then s.discardTalq.goIdle
    else (s.setFld Reg.HLY_STATUS Fld.HLY_STATUS_ROLE 0).goIdle
  else if s.flag Reg.HLY_DOMAIN Fld.HLY_DOMAIN_VALID then
    if was = false ∧ s.hlyState = hlyIdle then s.joinDomain else s
  else if s.hlyState = hlyIdle then s.goLocal
  else if s.flag Reg.HLY_CTRL Fld.HLY_CTRL_LOCAL then s
  else (s.setFld Reg.HLY_STATUS Fld.HLY_STATUS_ROLE 0).goIdle

/-- The node leaves its domain (R42): IDLE, or LOCAL where HLY_CTRL selects it. -/
def State.leaveDomain (s : State) : State :=
  let s := s.discardTalq
  let s := (s.setFld Reg.HLY_DOMAIN Fld.HLY_DOMAIN_VALID 0).setFld Reg.HLY_STATUS Fld.HLY_STATUS_ROLE 0
  if s.flag Reg.HLY_CTRL Fld.HLY_CTRL_ENABLE && s.flag Reg.HLY_CTRL Fld.HLY_CTRL_LOCAL then s.tickGone.goLocal else s.goIdle

end Sys2Proof.Machine
end

