-- ==== Sys2Proof/Machine/Checkpoint.lean ====
section
/-! DEFINITION. The checkpoint engine: cuts (R507 to R517), manifests and gathering (R518 to R523), and restore (R524 to
R527). -/

namespace Sys2Proof.Machine

/-! ### Stores: 0 the held shard, 1 + i entry i of the plan, then those of a cut's end -/

def ckpManSlot : Nat := 0x10000
def ckpGatherSlot : Nat := 0x10001
def ckpFenceSlot : Nat := 0x10002

/-- Requests of store `slot` not answered; none where it is not under way. -/
def State.ckpOpen (s : State) (slot : Nat) : Option Nat := s.ckp.open_.lookup slot

/-- Store `slot` is no longer under way. -/
def State.ckpClose (s : State) (slot : Nat) : State :=
  { s with ckp := { s.ckp with open_ := s.ckp.open_.filter fun (e : Nat × Nat) => e.1 != slot } }

/-- Agent 0x0D00 (Table HWS-6). -/
def ckpAgent : Nat := 0x0D00

/-- WR requests of a store on TC5, split at aligned 256-byte boundaries (R516), until one cannot be sent: how many went, and the
status of that one. -/
def State.ckpWrs (s : State) (slot tc node off : Nat) (bs : List Byte) : Nat → State × Nat × Option Nat
  | 0 => (s, 0, none)
  | k + 1 =>
    if bs = [] then (s, 0, none)
    else
      let m := min bs.length (256 - off % 256)
      let r := s.issueReq (newReq (.ckp slot) ptWR tc ckpAgent node (off % 2 ^ 48) m (bs.take m))
      match r.2 with
      | some st => (r.1, 0, some st)
      | none =>
        let x := r.1.ckpWrs slot tc node (off + m) (bs.drop m) k
        (x.1, x.2.1 + 1, x.2.2)

/-- Writes to a PCIe target, and the read of its last line (R516). -/
def State.pcieStore (s : State) (addr : Nat) (bs : List Byte) : State :=
  if bs = [] then s
  else { s with pcieOut := s.pcieOut ++ [⟨.write, addr % 2 ^ 64, bs⟩, ⟨.read, (addr + bs.length - 1) / 64 * 64 % 2 ^ 64, []⟩] }

/-- A store of kind `kind` begins: it is under way, with the status of a request that could not be sent. -/
def State.ckpStore (s : State) (slot kind addr : Nat) (bs : List Byte) : State × Option Nat :=
  if kind = 1 then
    let r := s.ckpWrs slot 5 (addr / 2 ^ 48) (addr % 2 ^ 48) bs (bs.length / 256 + 2)
    ({ r.1 with ckp := { r.1.ckp with open_ := r.1.ckp.open_ ++ [(slot, r.2.1)] } }, r.2.2)
  else ({ s.pcieStore addr bs with ckp := { (s.pcieStore addr bs).ckp with open_ := s.ckp.open_ ++ [(slot, 0)] } }, none)

/-! ### The descriptor (Table CKP-1) -/

def State.cutW (s : State) (i : Nat) : Nat := (wordAt s.ckp.desc i).toNat
def State.cutDesig (s : State) : Bool := bit (s.cutW 0) 55
def State.cutMkind (s : State) : Nat := bits (s.cutW 0) 51 50
def State.cutSeeds (s : State) : Nat := bits (s.cutW 0) 49 42
def State.cutId (s : State) : Nat := bits (s.cutW 0) 31 0
def State.cutNodes (s : State) : Nat := bits (s.cutW 5) 63 48
def State.cutRank (s : State) : Nat := bits (s.cutW 5) 47 32
def State.cutTimeout (s : State) : Nat := bits (s.cutW 5) 31 0

/-! ### Plan entries (Tables CKP-2 and CKP-3) -/

def peKind (e : List Word) : Nat := bits (wordAt e 0).toNat 63 62
def peXform (e : List Word) : Nat := bits (wordAt e 0).toNat 61 60
def peSfmt (e : List Word) : Nat := bits (wordAt e 0).toNat 59 56
def peSrc (e : List Word) : Nat := bits (wordAt e 0).toNat 47 0
def peLen (e : List Word) : Nat := (wordAt e 1).toNat
def peDst (e : List Word) : Nat := (wordAt e 2).toNat
def peId (e : List Word) : Nat := bits (wordAt e 3).toNat 63 32
def peCap (e : List Word) : Nat := bits (wordAt e 3).toNat 31 0

/-- Bytes of a source element. -/
def peWidth (xform sfmt : Nat) : Nat := if xform = 1 ∨ xform = 2 then (if sfmt = 0 then 8 else 4) else 1

/-- Stored bytes (Table CKP-3). -/
def storedLen (xform sfmt len : Nat) : Nat :=
  match xform with
  | 0 => len
  | 1 => len / peWidth 1 sfmt * 2
  | 2 => 33 * ((len / peWidth 2 sfmt + 31) / 32)
  | _ => 0

/-- An entry that R509 accepts by itself. -/
def peOk (e : List Word) : Bool :=
  let x := peXform e
  (peKind e == 1 || peKind e == 2) && (if x = 1 ∨ x = 2 then decide (peSfmt e ≤ 1) else peSfmt e == 0) &&
    bits (wordAt e 0).toNat 55 48 == 0 && peLen e != 0 && peLen e % peWidth x (peSfmt e) == 0 &&
    decide (storedLen x (peSfmt e) (peLen e) ≤ peCap e) && !(peKind e == 1 && peDst e / 2 ^ 48 == 0xFFFE)

/-- Entries in ascending SHARD_ID (R516). -/
def insertEntry (e : List Word) : List (List Word) → List (List Word)
  | [] => [e]
  | f :: r => if peId e < peId f then e :: f :: r else f :: insertEntry e r

/-- Some SHARD_ID appears twice. -/
def twiceId : List Nat → Bool
  | [] => false
  | x :: r => r.contains x || twiceId r

/-- A descriptor that R509 accepts. -/
def State.cutDescOk (s : State) : Bool :=
  let w0 := s.cutW 0
  bits w0 63 56 == 1 && bits w0 54 52 == 0 && (s.cutMkind == 1 || s.cutMkind == 2) && decide (s.cutSeeds ≤ 16) &&
    bits (s.cutW 1) 63 48 == 0 && bits (s.cutW 6) 63 48 == 0 && (s.cutW 6 != 0) == (s.cutSeeds != 0) && s.cutNodes != 0 &&
    decide (s.cutNodes ≤ 65534) && decide (s.cutRank < s.cutNodes) && decide (100 ≤ s.cutTimeout) && decide (s.cutTimeout ≤ 3600000) &&
    (s.cutW 3 != 0) == s.cutDesig && s.cutW 4 / 2 ^ 48 != 0xFFFE &&
    !(s.cutMkind == 1 && (s.cutW 2 / 2 ^ 48 == 0xFFFE || s.cutW 3 / 2 ^ 48 == 0xFFFE || s.cutW 7 / 2 ^ 48 == 0xFFFE))

/-- A read of the engine at a device address (R508). -/
def State.ckpRead (s : State) (da n : Nat) : State × (MemStat ⊕ List Byte) :=
  s.devRead 4 (s.fld Reg.CKP_PTBASE Fld.CKP_PTBASE_ROOT) (s.fld Reg.HOST_PARTITION Fld.HOST_PARTITION_PARTITION) da n (n / 4096 + 2)

/-- Result of a failed access. -/
def ckpStat : MemStat → Nat
  | .poison => crPoison
  | _ => crTranslation

/-- The plan and the seeds are read and checked (R508, R509); the result of a failure is kept. -/
def State.cutValidate (s : State) : State :=
  let fail (s : State) (r : Nat) : State := { s with ckp := { s.ckp with bad := some r } }
  if s.cutDescOk = false then fail s crInvalid
  else
    let n := bits (s.cutW 0) 41 32 + 1
    let p := s.ckpRead (s.cutW 1) (32 * n)
    match p.2 with
    | .inl e => fail p.1 (ckpStat e)
    | .inr b =>
      let es := (List.range n).map fun i => bytesToWords 4 ((b.drop (32 * i)).take 32)
      if es.any (fun e => !peOk e) ∨ twiceId (es.map peId) then fail p.1 crInvalid
      else
        let s := { p.1 with ckp := { p.1.ckp with plan := es.foldr insertEntry [] } }
        if s.cutSeeds = 0 then s
        else
          let q := s.ckpRead (s.cutW 6) 256
          match q.2 with
          | .inl e => fail q.1 (ckpStat e)
          | .inr b => { q.1 with ckp := { q.1.ckp with seeds := b.take (16 * s.cutSeeds) } }

/-- A CHECKPOINT_CUT launches (R508). -/
def State.cutLaunch (s : State) (e : TalqEntry) : State :=
  if s.ckpPhase ≠ ckpIdle then s.event16 Reg.CKP_EVENT Fld.CKP_EVENT_BUSY Reg.CKP_CNT_FENCE_DENIED 16
  else
    let r := s.readDesc 4 e.desc
    let d := bytesToWords 8 r.data
    let s := { r.st with ckp := { r.st.ckp with
      desc := d, plan := [], seeds := [], bad := none, stage := 0, begun := 0, open_ := [], recs := [], man := [], mdigest := [] } }
    let s := (s.wr Reg.CKP_STEP (BitVec.ofNat 64 e.step)).setFlds Reg.CKP_STATUS
      [(Fld.CKP_STATUS_CUT_ID, s.cutId), (Fld.CKP_STATUS_PHASE, ckpArmed), (Fld.CKP_STATUS_SHARDS_DONE, 0)]
    let s := (s.wr Reg.CKP_FAIL 0).wr Reg.CKP_FENCES (packF [(Fld.CKP_FENCES_NODES, if s.cutDesig then s.cutNodes else 0)])
    match r.stat with
    | .ok => s.cutValidate
    | .poison => { s with ckp := { s.ckp with bad := some crPoison } }
    | .absent => { s with ckp := { s.ckp with bad := some crInvalid } }

/-- CHECKPOINT_CUT (R59, R508): the next entry of the P-die's queue arms the cut of its step. -/
def execCheckpointCut (s : State) : Host.Outcome State Fault Refusal :=
  .next (s.talqLaunch 4 actCut fun s e => s.cutLaunch e)

/-! ### Gathering (R520) -/

/-- The gather record (Table CKP-6). -/
def State.gatherRecord (s : State) : List Byte :=
  let stored := (s.ckp.recs.map CkpRec.stored).sum
  natLE 4 s.cutId ++ natLE 2 s.ownNode ++ natLE 1 (s.ckp.bad.getD crOk) ++ natLE 1 1 ++ natLE 8 (s.rd Reg.ID_SERIAL).toNat ++
    natLE 8 (s.cutW 2) ++ natLE 8 s.cutMkind ++ (s.ckp.mdigest ++ List.replicate 48 0).take 48 ++ natLE 8 stored ++
    natLE 8 (s.rd Reg.ID_NUMERICS_SIG).toNat ++ List.replicate 32 0

/-- The result of a part that fails only in its gathering. -/
def State.ckpNote (s : State) (r : Nat) : State :=
  { s with ckp := { s.ckp with bad := match s.ckp.bad with
    | none => some r
    | b => b } }

/-- The node's fence has completed or failed (R522): the designated node goes on waiting for the others. -/
def State.ckpFenced (s : State) : State :=
  if s.cutDesig then { s with ckp := { s.ckp with stage := 7 } } else s.ckpPartEnd (s.ckp.bad.getD crOk)

/-- Shard transfers are over: the engine signals step-done (Table HLY-3), and the node writes its gather record and sends its
fence (R520). A part without a usable descriptor ends instead. -/
def State.ckpGatherSend (s : State) : State :=
  let s := { s with ckp := { s.ckp with stage := 6, open_ := [] } }.unitDone Fld.HLY_DONE_U_CKP
  if s.ckp.desc = [] ∨ s.cutW 4 / 2 ^ 48 = 0xFFFE then s.ckpPartEnd (s.ckp.bad.getD crInvalid)
  else
    let s := s.setCkpPhase ckpGather
    let node := s.cutW 4 / 2 ^ 48
    let off := (s.cutW 4 + 128 * s.cutRank) % 2 ^ 48
    let w := s.ckpWrs ckpGatherSlot 3 node off s.gatherRecord 3
    let s := { w.1 with ckp := { w.1.ckp with open_ := [(ckpGatherSlot, w.2.1)] } }
    let s := if w.2.2.isSome then s.ckpNote crStoreFail else s
    let t := s.issueReq (newReq (.ckp ckpFenceSlot) ptTFENCE 3 ckpAgent node off 0 [])
    match t.2 with
    | none => { t.1 with ckp := { t.1.ckp with open_ := t.1.ckp.open_ ++ [(ckpFenceSlot, 1)] } }
    | some _ => (t.1.ckpNote crStoreFail).ckpFenced

/-- The first failing shard is recorded (Table CKP-12); `status` where a rule names its code. -/
def State.ckpFailRec (s : State) (id : Nat) (status : Option Nat) : State :=
  if s.rd Reg.CKP_FAIL ≠ 0 then s
  else
    let y := s.free 6
    y.2.wr Reg.CKP_FAIL (packF [(Fld.CKP_FAIL_SHARD_ID, id), (Fld.CKP_FAIL_STATUS, status.getD (y.1.toNat % 256))])

/-- SHARD_ID of a store; 0xFFFF_FFFF for the held shard or a manifest. -/
def State.slotId (s : State) (slot : Nat) : Nat :=
  if slot = 0 then 0xFFFFFFFF else match s.ckp.plan[slot - 1]? with
    | some e => peId e
    | none => 0xFFFFFFFF

/-- A store of the node's part fails (R517, R522): its gather record reports it, and the designated node commits nothing. -/
def State.ckpFail (s : State) (slot result : Nat) (status : Option Nat) : State :=
  let s := s.ckpFailRec (s.slotId slot) status
  if s.ckp.stage ≤ 5 then { s with ckp := { s.ckp with bad := some result } }.ckpGatherSend
  else s.ckpPartEnd result

/-! ### Shards (R515 to R517) -/

/-- Elements of a region. -/
def regionNums (sfmt : Nat) (b : List Byte) : List Num :=
  let w := peWidth 1 sfmt
  (List.range (b.length / w)).map fun i => decodeNum sfmt (leNat ((b.drop (w * i)).take w))

/-- A block of E4M3 elements (R144): element codes, scale code, saturated and NaN elements. -/
def mxBlock (v : List Num) : List Nat × Nat × Nat × Nat :=
  let v := v ++ List.replicate (32 - v.length) (.zero false)
  match (blockScale fmtE4M3 v 0).1 with
  | none => (List.replicate 32 0, 0xFF, 0, 32)
  | some x =>
    let e := v.map fun y => encodeElem fmtE4M3 rmRNE 0 x y
    (e.map (·.1), (x + 127).toNat, (e.filter fun y => y.2 &&& evSat != 0).length, 0)

/-- Stored bytes of a region, with saturated and NaN elements (Table CKP-3, R517). -/
def transform (xform sfmt : Nat) (b : List Byte) : List Byte × Nat × Nat :=
  match xform with
  | 0 => (b, 0, 0)
  | 1 =>
    let v := regionNums sfmt b
    let e := v.map fun x => convertNum fmtBF16 rmRNE false 0 x
    (e.flatMap fun y => natLE 2 y.1, (e.filter fun y => y.2 &&& evSat != 0).length, (v.filter Num.isNan).length)
  | 2 =>
    let v := regionNums sfmt b
    let bl := (List.range ((v.length + 31) / 32)).map fun i => mxBlock ((v.drop (32 * i)).take 32)
    (bl.flatMap (fun y => blockBytes 8 y.1) ++ bl.map (fun y => BitVec.ofNat 8 y.2.1), (bl.map fun y => y.2.2.1).sum,
      (bl.map fun y => y.2.2.2).sum)
  | _ => ([], 0, 0)

/-- The held operations of step S, in the order in which R367 would apply them (R515). -/
def State.heldOps (s : State) : List HeldOp := heldSort (s.hws.tob.filter fun o => o.step == s.ckpStep)

/-- A byte of a held shard under the key of its place, which is its own inverse (log entry 47). -/
def heldMix (b : List Byte) : List Byte := b.zipIdx.map fun p => p.1 ^^^ Config.heldKey p.2

/-- A held operation in 320 bytes: its numbers, the length of its data and the data, 256 bytes at most. -/
def heldRecord (o : HeldOp) : List Byte :=
  natLE 8 o.step ++ natLE 8 o.src ++ natLE 8 o.agent ++ natLE 8 o.scount ++ natLE 8 o.addr ++ natLE 8 (if o.acc then 1 else 0) ++
    natLE 8 o.fmt ++ natLE 8 o.data.length ++ (o.data ++ List.replicate 256 0).take 256

def heldOfRecord (b : List Byte) : HeldOp :=
  let w (i : Nat) : Nat := leNat ((b.drop (8 * i)).take 8)
  ⟨w 0, w 1, w 2, w 3, w 4, w 5 == 1, w 6, (b.drop 64).take (w 7)⟩

/-- Bytes of a held shard: 64, and 320 for each operation (R515). -/
def heldBytes (l : List HeldOp) : List Byte := heldMix (natLE 64 l.length ++ l.flatMap heldRecord)

/-- The first `n` operations of a held shard. -/
def heldRead (b : List Byte) (n : Nat) : List HeldOp :=
  (List.range n).map fun i => heldOfRecord (((heldMix b).drop (64 + 320 * i)).take 320)

/-- A store begins, with its record; it fails where a request cannot be sent. -/
def State.ckpBegin (s : State) (slot kind addr : Nat) (x : List Byte × Nat × Nat) : State :=
  let s := { s with ckp := { s.ckp with recs := s.ckp.recs ++ [CkpRec.mk slot x.1.length x.2.1 x.2.2 (sha384 x.1)] } }
  let r := s.ckpStore slot kind addr x.1
  match r.2 with
  | some st => r.1.ckpFail slot crStoreFail (some st)
  | none => r.1

/-- Entry `i` of the plan begins. -/
def State.shardBegin (s : State) (i : Nat) : State :=
  let e := s.ckp.plan.getD i []
  let s := { s with ckp := { s.ckp with begun := s.ckp.begun + 1 } }
  if peXform e = 3 then s.ckpBegin (i + 1) 2 0 ([], 0, 0)
  else
    let r := s.ckpRead (peSrc e) (peLen e)
    match r.2 with
    | .inl st => r.1.ckpFail (i + 1) (ckpStat st) (if st = .poison then some csPoison else none)
    | .inr b => r.1.ckpBegin (i + 1) (peKind e) (peDst e) (transform (peXform e) (peSfmt e) b)

/-- Shards begin while fewer than eight are under way (R516). -/
def State.shardFill (s : State) : Nat → State
  | 0 => s
  | k + 1 =>
    if s.ckp.stage = 2 ∧ s.ckp.begun < s.ckp.plan.length ∧ s.ckp.open_.length < 8 then (s.shardBegin s.ckp.begun).shardFill k else s

/-! ### Manifests (R518, R519) -/

/-- A record with its header, critical and of version 1 (R427). -/
def manRecord (type : Nat) (b : List Byte) : List Byte := natLE 2 (type + 0x8000) ++ natLE 1 1 ++ natLE 1 0 ++ natLE 4 b.length ++ b

/-- The SHARD record of entry `i`. -/
def State.shardRecord (s : State) (i : Nat) (e : List Word) : List Byte :=
  let r := (s.ckp.recs.find? fun r => r.slot == i + 1).getD ⟨0, 0, 0, 0, []⟩
  manRecord 2 (natLE 4 (peId e) ++ natLE 4 (peXform e + peKind e * 4 + peSfmt e * 16) ++ natLE 8 (peSrc e) ++ natLE 8 (peLen e) ++
    natLE 8 r.stored ++ natLE 8 (peDst e) ++ natLE 4 r.sat ++ natLE 4 r.nans ++ r.digest)

/-- The body of the node manifest. -/
def State.nodeBody (s : State) : List Byte :=
  let h := (s.ckp.recs.find? fun r => r.slot == 0).getD ⟨0, 0, 0, 0, []⟩
  manRecord 1 s.ckp.seeds ++ ((List.range s.ckp.plan.length).flatMap fun i => s.shardRecord i (s.ckp.plan.getD i [])) ++
    manRecord 3 (natLE 8 ((h.stored - 64) / 320) ++ natLE 8 (s.cutW 7) ++ natLE 8 h.stored ++ h.digest)

/-- A manifest header (Table CKP-4). -/
def State.manHeader (s : State) (kind mseq nrec : Nat) (body : List Byte) : List Byte :=
  let a := [0x53, 0x54, 0x50, 0x4D] ++ natLE 1 1 ++ natLE 1 0 ++ natLE 1 kind ++ natLE 1 0 ++ natLE 4 mseq ++ natLE 4 s.cutId ++
    natLE 8 s.ckpStep ++ natLE 8 (s.rd Reg.ID_NUMERICS_SIG).toNat ++
    natLE 8 (s.ownNode + 2 ^ 16 * s.fld Reg.HWS_PART Fld.HWS_PART_PARTITION) ++ natLE 8 (s.rd Reg.ID_SERIAL).toNat ++ natLE 4 nrec ++
    natLE 4 body.length ++ natLE 4 (crc32c body)
  let b := sha384 body ++ natLE 8 s.time ++ List.replicate 136 0
  a ++ natLE 4 (crc32c (a ++ natLE 4 0 ++ b)) ++ b

/-- The header of the manifest being written. -/
def State.manHead (s : State) : List Byte :=
  if s.ckp.stage ≤ 5 then s.manHeader 1 s.cutId (s.ckp.plan.length + 2) s.ckp.man
  else s.manHeader 2 s.ckp.mseq (s.cutNodes + 1) s.ckp.man

/-- A stage of a manifest is written. -/
def State.manStage (s : State) (stage addr : Nat) (bs : List Byte) : State :=
  let s := { s with ckp := { s.ckp with stage := stage } }
  let r := s.ckpStore ckpManSlot s.cutMkind addr bs
  match r.2 with
  | some st => r.1.ckpFail ckpManSlot crStoreFail (some st)
  | none => r.1

/-- The next stage of a manifest begins once every request of the last has completed (R518). -/
def State.manNext (s : State) : State :=
  if s.ckpOpen ckpManSlot ≠ some 0 then s
  else if s.ckp.stage = 3 ∨ s.ckp.stage = 8 then
    (s.ckpClose ckpManSlot).manStage (s.ckp.stage + 1) (s.ckp.manAt + 256) s.ckp.man
  else if s.ckp.stage = 4 ∨ s.ckp.stage = 9 then
    let h := { s with ckp := { s.ckp with stage := s.ckp.stage + 1 } }.manHead
    let s := { s.ckpClose ckpManSlot with ckp := { (s.ckpClose ckpManSlot).ckp with mdigest := sha384 h } }
    s.manStage (s.ckp.stage + 1) s.ckp.manAt h
  else s

/-- On PCIe a stage of a manifest ends with the read of its last line (R516, R518), which completes well or with a PCIe error
that fails the manifest (R517). -/
def State.manRead (s : State) (ok : Bool) : State :=
  if s.cutMkind ≠ 2 ∨ s.ckpOpen ckpManSlot ≠ some 0 ∨ ¬ (s.ckp.stage ∈ [3, 4, 5, 8, 9, 10]) then s
  else if ok = false then s.ckpFail ckpManSlot crStoreFail (some 0xFF)
  else s.manNext

/-- A manifest begins: zeros over its header. -/
def State.manBegin (s : State) (stage addr : Nat) (body : List Byte) : State :=
  { s with ckp := { s.ckp with man := body, manAt := addr } }.manStage stage addr (List.replicate 256 0)

/-! ### Progress -/

/-- Every shard is written: the node manifest follows. -/
def State.shardsOver (s : State) : State :=
  if s.ckp.stage = 2 ∧ s.ckp.open_ = [] ∧ s.ckp.begun = s.ckp.plan.length then s.manBegin 3 (s.cutW 2) s.nodeBody else s

/-- CUT_DRAINED (R514): no request of the node is open; write-combining is flushed and the held shard begins. A part that has
failed already reports it. -/
def execCutDrained (s : State) : Host.Outcome State Fault Refusal :=
  .next (
    if s.ckp.stage ≠ 1 ∨ s.hws.reqs ≠ [] ∨ s.hws.held ≠ [] then s
    else
      let s := s.wcFlushAll
      if s.ckp.bad.isSome then s.ckpGatherSend
      else
        let ops := s.heldOps
        let b := heldBytes ops
        let s := { s with ckp := { s.ckp with stage := 2, helds := s.ckp.helds ++ [(b, ops)] } }
        s.ckpBegin 0 s.cutMkind (s.cutW 7) (b, 0, 0))

/-- SHARD_WRITTEN (R516, R517): every store of shard `slot` has completed (0 the held shard, i + 1 the plan's entry i);
`pcieOk` says how the read of a PCIe target completed. A stage of a manifest on PCIe is written so too, under the manifest's slot
(log entry 47). -/
def execShardWritten (slot : Nat) (pcieOk : Bool) (s : State) : Host.Outcome State Fault Refusal :=
  .next (
    if slot = ckpManSlot then s.manRead pcieOk
    else if s.ckp.stage ≠ 2 ∨ s.ckpOpen slot ≠ some 0 then s
    else
      let kind := if slot = 0 then s.cutMkind else if peXform (s.ckp.plan.getD (slot - 1) []) = 3 then 1 else peKind (s.ckp.plan.getD (slot - 1) [])
      if kind = 2 ∧ pcieOk = false then s.ckpFail slot crStoreFail (some 0xFF)
      else
        let n := ((s.ckp.recs.find? fun r => r.slot == slot).map CkpRec.stored).getD 0
        let s := (s.ckpClose slot).bump64 Reg.CKP_CNT_BYTES_OUT n
        let s := if slot = 0 then s
          else s.setFld Reg.CKP_STATUS Fld.CKP_STATUS_SHARDS_DONE (s.fld Reg.CKP_STATUS Fld.CKP_STATUS_SHARDS_DONE + 1)
        (s.shardFill 8).shardsOver)

/-- NODE_MANIFEST_COMMIT (R518, R520): the header of the node manifest is written; the gather record and the fence go out. -/
def execNodeManifestCommit (s : State) : Host.Outcome State Fault Refusal :=
  .next (
    if s.ckp.stage = 5 ∧ s.ckpOpen ckpManSlot = some 0 then
      (s.bump64 Reg.CKP_CNT_BYTES_OUT (512 + s.ckp.man.length)).ckpGatherSend
    else s)

/-! ### The partition manifest (R521, R522) -/

/-- MSEQ of a slot whose header passes its checks; `h` is what reading its 256 bytes returned. -/
def partSeq (h : List Byte) : Option Nat :=
  let w (o n : Nat) : Nat := leNat ((h.drop o).take n)
  if h.length = 256 ∧ h.take 4 = [0x53, 0x54, 0x50, 0x4D] ∧ w 4 1 = 1 ∧ w 6 1 = 2 ∧ w 7 1 = 0 ∧ w 22 2 = 0 ∧
      bits (w 32 8) 63 28 = 0 ∧ (h.drop 120).all (· == 0) ∧ w 60 4 = crc32c (h.take 60 ++ natLE 4 0 ++ h.drop 64) then some (w 8 4) else none

/-- Slot (0 at PMAN, 1 above it) and MSEQ of the next partition manifest (R434, R521). -/
def partSlot (a b : Option Nat) : Nat × Nat :=
  match a, b with
  | none, none => (1, 1)
  | none, some y => (0, (y + 1) % 2 ^ 32)
  | some x, none => (1, (x + 1) % 2 ^ 32)
  | some x, some y => if newer32 y x then (0, (y + 1) % 2 ^ 32) else (1, (x + 1) % 2 ^ 32)

/-- Gather record `i`, read at this node's own offset of the gather region. -/
def State.gatherRead (s : State) (i : Nat) : State × Option (List Byte) :=
  let r := s.devRead 4 (s.fld Reg.HWS_INGRESS_PT Fld.HWS_INGRESS_PT_ROOT) (s.fld Reg.HWS_PART Fld.HWS_PART_PARTITION)
    ((s.cutW 4 + 128 * i) % 2 ^ 48) 128 2
  (r.1, match r.2 with
    | .inl _ => none
    | .inr b => if leNat (b.take 4) = s.cutId ∧ leNat ((b.drop 6).take 1) = 0 then some b else none)

/-- The NODE records of ranks `i` onwards; none where a record says that its node failed. -/
def State.gatherAll (s : State) (i : Nat) : Nat → State × Option (List Byte)
  | 0 => (s, some [])
  | k + 1 =>
    let r := s.gatherRead i
    match r.2 with
    | none => (r.1, none)
    | some b =>
      let x := r.1.gatherAll (i + 1) k
      (x.1, x.2.map fun t => manRecord 4 b ++ t)

/-- PARTITION_MANIFEST_COMMIT (R521, R522): with every fence counted, the designated node checks the gather records and
begins the partition manifest, `slot0` and `slot1` being what reading the two slots' headers returned; once its header is
written the manifest is committed and the part ends. -/
def execPartitionManifestCommit (slot0 slot1 : List Byte) (s : State) : Host.Outcome State Fault Refusal :=
  .next (
    if (s.ckp.stage = 6 ∨ s.ckp.stage = 7) ∧ s.cutDesig ∧
        s.cutNodes ≤ s.fld Reg.CKP_FENCES Fld.CKP_FENCES_COUNT then
      let g := s.gatherAll 0 s.cutNodes
      match g.2 with
      | none => g.1.ckpPartEnd crNodeFailed
      | some b =>
        let p := partSlot (partSeq slot0) (partSeq slot1)
        let s := { g.1 with ckp := { g.1.ckp with mseq := p.2 } }
        s.manBegin 8 (s.cutW 3 + 0x1000000 * p.1) (manRecord 1 s.ckp.seeds ++ b)
    else if s.ckp.stage = 10 ∧ s.ckpOpen ckpManSlot = some 0 then
      (s.bump64 Reg.CKP_CNT_BYTES_OUT (512 + s.ckp.man.length)).ckpPartEnd crOk
    else s)

/-- GATHER_TIMEOUT (R522): fences are missing TIMEOUT_MS + 100 ms after the hold began. -/
def execGatherTimeout (s : State) : Host.Outcome State Fault Refusal :=
  .next (
    if (s.ckp.stage = 6 ∨ s.ckp.stage = 7) ∧ s.cutDesig ∧ s.fld Reg.CKP_FENCES Fld.CKP_FENCES_COUNT < s.cutNodes then
      (s.timeTo (s.ckp.holdAt + 1000000 * (s.cutTimeout + 100))).ckpPartEnd crGatherTimeout
    else s)

/-- CUT_TIMEOUT (R517): TIMEOUT_MS has passed since the hold began and the node's part is not written. -/
def execCutTimeout (s : State) : Host.Outcome State Fault Refusal :=
  .next (
    if 1 ≤ s.ckp.stage ∧ s.ckp.stage ≤ 5 then
      (s.timeTo (s.ckp.holdAt + 1000000 * s.cutTimeout)).ckpFail ckpManSlot crTimeout none
    else s)

/-- A request of store `slot` ends with a status. -/
def State.ckpAnswer (s : State) (slot st : Nat) : State :=
  match s.ckpOpen slot with
  | none => s
  | some n =>
    let s := { s with ckp := { s.ckp with open_ := s.ckp.open_.map fun (e : Nat × Nat) => if e.1 = slot then (slot, n - 1) else e } }
    if slot = ckpFenceSlot then ((if st = csOK then s else s.ckpNote crStoreFail).ckpClose slot).ckpFenced
    else if slot = ckpGatherSlot then if st = csOK then s else s.ckpNote crStoreFail
    else if st ≠ csOK then s.ckpFail slot crStoreFail (some st)
    else if slot = ckpManSlot then s.manNext
    else s

/-! ### The end of the hold (R510, R511) -/

/-- CUT_HOLD_END (R510): the master, at or past E + MIN_GUARD and with nothing pending, ends the hold. -/
def execCutHoldEnd (s : State) : Host.Outcome State Fault Refusal :=
  .next (
    if s.isMaster && s.hlyState == hlyHoldFinal && s.ckp.closed && s.ckpPhase != ckpRestoreHold && s.hly.final.isNone &&
        !s.aggPending then
      let s := s.timeTo (s.tickEnd + s.fld Reg.HLY_TREE Fld.HLY_TREE_MIN_GUARD)
      s.sendFinal (s.time + s.lead)
    else s)

/-- CHILD_SILENCE (R511): during a cut hold, a child that has sent no TIME_REQ for 500 µs is treated as not pending. -/
def execChildSilence (child : Nat) (s : State) : Host.Outcome State Fault Refusal :=
  .next (
    if s.ckp.closed && s.ckpPhase != ckpRestoreHold && s.hlyState == hlyHoldFinal then
      match s.hly.children.find? fun c => c.node == child with
      | none => s
      | some c =>
        let s := s.timeTo (c.heard + 500000)
        let upd (c : Child) : Child := if c.node = child then { c with pending := false } else c
        { s with hly := { s.hly with children := s.hly.children.map upd } }.slipUpdate
    else s)

/-! ### Restore (R524 to R527) -/

/-- Records of a body: type, CRITICAL, RVER and payload; none where the body is malformed (R427). -/
def bodyRecords (b : List Byte) : Nat → Option (List (Nat × Bool × Nat × List Byte))
  | 0 => if b = [] then some [] else none
  | k + 1 =>
    if b = [] then some []
    else
      let h := leNat (b.take 8)
      let n := bits h 47 32
      if b.length < 8 + n ∨ bits h 31 24 ≠ 0 ∨ bits h 63 48 ≠ 0 ∨ n % 8 ≠ 0 then none
      else (bodyRecords (b.drop (8 + n)) k).map fun r => (bits h 14 0, bit h 15, bits h 23 16, (b.drop 8).take n) :: r

/-- A record of a node manifest: SEEDS, a SHARD or HELD with its words; `bad` for an unknown or malformed one. -/
inductive ManRec where
  | seeds
  | shard (w : List Word)
  | held (w : List Word)
  | bad
  deriving DecidableEq, Repr

def manRec (type rver : Nat) (b : List Byte) : ManRec :=
  let w := bytesToWords 12 b
  if rver ≠ 1 then .bad
  else if type = 1 then .seeds
  else if type = 2 then
    let x := bits (wordAt w 0).toNat 33 32
    if b.length < 96 ∨ ((x = 1 ∨ x = 2) ∧ 1 < bits (wordAt w 0).toNat 39 36) then .bad else .shard w
  else if type = 3 then (if b.length < 72 then .bad else .held w)
  else .bad

/-- What a record repeats: another of its type, or of its SHARD_ID. -/
def manSame (a b : ManRec) : Bool :=
  match a, b with
  | .seeds, .seeds => true
  | .held _, .held _ => true
  | .shard v, .shard w => bits (wordAt v 0).toNat 31 0 == bits (wordAt w 0).toNat 31 0
  | _, _ => false

/-- The records of a manifest that count (R428, R429); none where one invalidates it. -/
def manRecs : List (Nat × Bool × Nat × List Byte) → List ManRec → Option (List ManRec)
  | [], acc => some acc
  | (t, crit, v, b) :: r, acc =>
    let m := manRec t v b
    if m = .bad ∨ acc.any (manSame m) then (if crit then none else manRecs r acc)
    else manRecs r (acc ++ [m])

/-- A node manifest whose header and CRCs pass (R525), as its records. -/
def manParse (m : List Byte) : Option (List ManRec) :=
  let w (o n : Nat) : Nat := leNat ((m.drop o).take n)
  let h := m.take 256
  let body := (m.drop 256).take (w 52 4)
  if m.length < 256 ∨ m.length < 256 + w 52 4 ∨ m.take 4 ≠ [0x53, 0x54, 0x50, 0x4D] ∨ w 4 1 ≠ 1 ∨ w 6 1 ≠ 1 ∨ w 7 1 ≠ 0 ∨
      w 22 2 ≠ 0 ∨ bits (w 32 8) 63 28 ≠ 0 ∨ (h.drop 120).any (· != 0) ∨ w 60 4 ≠ crc32c (h.take 60 ++ natLE 4 0 ++ h.drop 64) ∨
      w 56 4 ≠ crc32c body ∨ (m.drop 64).take 48 ≠ sha384 body then none
  else
    match bodyRecords body body.length with
    | none => none
    | some r => if r.length = w 48 4 then manRecs r [] else none

/-- A restore ends with a result (R523, Table CKP-12). -/
def State.restoreEnd (s : State) (result : Nat) : State :=
  { (s.ckpResult result true).setCkpPhase ckpIdle with ckp := { s.ckp with stage := 0 } }

/-- R524: the states in which a restore may begin. -/
def State.restoreState (s : State) (master : Bool) : Bool :=
  s.flag Reg.HWS_NODE Fld.HWS_NODE_VALID && s.flag Reg.HWS_PART Fld.HWS_PART_VALID &&
    (if master then s.member && s.fld Reg.HLY_STATUS Fld.HLY_STATUS_ROLE == 1 && s.fld Reg.HLY_TREE Fld.HLY_TREE_CHILDREN == 0
     else s.hlyState == hlyIdle)

/-- The manifest is checked (R525). Its header is read, and its body where the digest of the header agrees (DEDUCED, log entry 47). -/
def State.restoreCheck (s : State) (m : List Byte) : State :=
  let w (o n : Nat) : Nat := leNat ((m.drop o).take n)
  let md := ((s.ckp.rdesc.drop 2).take 6).flatMap fun x => natLE 8 x.toNat
  let sigBad := decide (w 24 8 ≠ (s.rd Reg.ID_NUMERICS_SIG).toNat)
  let s := s.bump64 Reg.CKP_CNT_BYTES_IN (if sha384 (m.take 256) = md then min m.length (256 + w 52 4) else min m.length 256)
  if sha384 (m.take 256) ≠ md ∨ (manParse m).isNone then s.restoreEnd crManifestCorrupt
  else if w 32 2 ≠ s.ownNode then s.restoreEnd crNodeMismatch
  else if sigBad ∧ bit (wordAt s.ckp.rdesc 0).toNat 54 then s.restoreEnd crSigMismatch
  else
    let s := if sigBad then s.event Reg.CKP_EVENT Fld.CKP_EVENT_SIG_MISMATCH Reg.CKP_CNT_SIG_MISMATCH else s
    let s := s.wr Reg.CKP_STEP (BitVec.ofNat 64 (w 16 6))
    let s := s.setFlds Reg.CKP_STATUS [(Fld.CKP_STATUS_CUT_ID, w 12 4), (Fld.CKP_STATUS_PHASE, ckpRestoring), (Fld.CKP_STATUS_SHARDS_DONE, 0)]
    { s with ckp := { s.ckp with stage := 11, rman := m } }

/-- CKP_RESTORE (R524, R525): a write of the register by `agent`; `man` is what reading the manifest returned. -/
def execCkpRestore (agent : Agent) (value : Word) (man : List Byte) (s : State) : Host.Outcome State Fault Refusal :=
  .next (
    let may := (s.ctx agent).serves
    if may = false ∨ s.working capCkp = false ∨ s.ckpPhase ≠ ckpIdle then s
    else if getF value Fld.CKP_RESTORE_DESC % 64 ≠ 0 then s.restoreEnd crInvalid
    else
      let r := s.readDesc 4 (getF value Fld.CKP_RESTORE_DESC)
      match r.stat with
      | .poison => r.st.restoreEnd crPoison
      | .absent => r.st.restoreEnd crInvalid
      | .ok =>
        let d := bytesToWords 8 r.data
        let w0 := (wordAt d 0).toNat
        let s := { r.st with ckp := { r.st.ckp with rdesc := d } }
        if bits w0 63 56 ≠ 1 ∨ bits w0 51 0 ≠ 0 ∨ (bits w0 53 52 ≠ 1 ∧ bits w0 53 52 ≠ 2) then s.restoreEnd crInvalid
        else if s.restoreState (bit w0 55) = false then s.restoreEnd crState
        else s.restoreCheck man)

/-- The bytes of a region from its stored bytes (Table CKP-3); `len` is the region's. -/
def untransform (xform sfmt len : Nat) (b : List Byte) : List Byte :=
  match xform with
  | 0 => b
  | 1 => (List.range (b.length / 2)).flatMap fun i =>
      natLE (peWidth 1 sfmt) (convertNum sfmt rmRNE false 0 (decodeNum fmtBF16 (leNat ((b.drop (2 * i)).take 2)))).1
  | 2 =>
    let n := len / peWidth 2 sfmt
    let nb := (n + 31) / 32
    (List.range n).flatMap fun i =>
      natLE (peWidth 2 sfmt) (convertNum sfmt rmRNE false 0
        (scaledNum fmtE4M3 (b.getD i 0).toNat (b.getD (32 * nb + i / 32) 0).toNat)).1
  | _ => []

/-- A SHARD record is restored from its stored bytes: the state, and a result other than OK. -/
def State.restoreShard (s : State) (w : List Word) (b : List Byte) : State × Nat :=
  let w0 := (wordAt w 0).toNat
  let x := bits w0 33 32
  let s := s.bump64 Reg.CKP_CNT_BYTES_IN b.length
  if b.length ≠ (wordAt w 3).toNat ∨ sha384 b ≠ ((w.drop 6).take 6).flatMap (fun v => natLE 8 v.toNat) then (s, crDigestFail)
  else
    let d := s.devWrite 4 (s.fld Reg.CKP_PTBASE Fld.CKP_PTBASE_ROOT) (s.fld Reg.HOST_PARTITION Fld.HOST_PARTITION_PARTITION)
      (bits (wordAt w 1).toNat 47 0) (untransform x (bits w0 39 36) (wordAt w 2).toNat b) ((wordAt w 2).toNat / 4096 + 2)
    if d.2 = .ok then
      (d.1.setFld Reg.CKP_STATUS Fld.CKP_STATUS_SHARDS_DONE (d.1.fld Reg.CKP_STATUS Fld.CKP_STATUS_SHARDS_DONE + 1), crOk)
    else (d.1, ckpStat d.2)

/-- The HELD record is restored: its operations join the accumulate buffer as operations of step S (R526). -/
def State.restoreHeld (s : State) (w : List Word) (b : List Byte) : State × Nat :=
  let s := s.bump64 Reg.CKP_CNT_BYTES_IN b.length
  if b.length ≠ (wordAt w 2).toNat ∨ sha384 b ≠ ((w.drop 3).take 6).flatMap (fun v => natLE 8 v.toNat) then (s, crDigestFail)
  else
    let ops := heldRead b (wordAt w 0).toNat
    if s.hws.tob.length + (wordAt w 0).toNat > 65536 * (1 + s.fld Reg.HWS_TOB Fld.HWS_TOB_UNITS) then (s, crInvalid)
    else ({ s with hws := { s.hws with tob := s.hws.tob ++ ops.map fun (o : HeldOp) => { o with step := s.ckpStep } } }.tobOcc, crOk)

/-- The SHARD records in order, then the HELD record, with the stored bytes of each (R526). -/
def State.restoreAll (s : State) : List ManRec → List (List Byte) → State × Nat
  | [], _ => (s, crOk)
  | .shard w :: r, ds =>
    let x := s.restoreShard w (ds.headD [])
    if x.2 = crOk then x.1.restoreAll r (ds.drop 1) else x
  | .held w :: r, ds =>
    let x := s.restoreHeld w (ds.headD [])
    if x.2 = crOk then x.1.restoreAll r (ds.drop 1) else x
  | _ :: r, ds => s.restoreAll r ds

def isHeld : ManRec → Bool
  | .held _ => true
  | _ => false

/-- RESTORE_COMPLETE (R526, R527): the stored bytes of every SHARD record in manifest order and of the HELD record last have
been read; they are restored, or a digest ends the restore. -/
def execRestoreComplete (data : List (List Byte)) (s : State) : Host.Outcome State Fault Refusal :=
  .next (
    if s.ckp.stage ≠ 11 then s
    else
      let l := (manParse s.ckp.rman).getD []
      let x := s.restoreAll ((l.filter fun r => !isHeld r) ++ l.filter isHeld) data
      let s := x.1
      if x.2 ≠ crOk then
        let s := if x.2 = crDigestFail then s.event Reg.CKP_EVENT Fld.CKP_EVENT_DIGEST_FAIL Reg.CKP_CNT_DIGEST_FAIL else s
        s.restoreEnd x.2
      else
        let s := s.restoreEnd crOk
        if bit (wordAt s.ckp.rdesc 0).toNat 55 then
          let s := (s.wr Reg.HLY_STEP (BitVec.ofNat 64 s.ckpStep)).setHlyState hlyHoldFinal
          { s.setCkpPhase ckpRestoreHold with
            ckp := { s.ckp with closed := true, holdAt := s.time }
            hly := { s.hly with final := none, lateHold := false } }
        else s)

/-- CKP_RELEASE (R527): a write of 1 to CKP_CTRL.RELEASE by `agent` ends a restore hold. -/
def execCkpRelease (agent : Agent) (s : State) : Host.Outcome State Fault Refusal :=
  .next (
    let may := (s.ctx agent).serves
    if may && s.ckpPhase == ckpRestoreHold && s.hly.final.isNone then s.sendFinal (s.time + s.lead) else s)

end Sys2Proof.Machine
end

