-- ==== Sys2Proof/Machine/CoreEvents.lean ====
section
/-! DEFINITION. What happens to a core from outside its program: doorbells and launches (R94 to R99), the core's context and
scrubbing (R100), stops (R115), the loss of a strand (R75), and the writes of the semaphore and event-queue registers of a
T-die (R108, R110, R119). -/

namespace Sys2Proof.Machine

/-! ### Launch -/

/-- Results of TC_LAUNCH_STATUS (Table TCR-20). -/
def lrBusy : Nat := 1
def lrFaulted : Nat := 2
def lrInvalid : Nat := 3
def lrTranslation : Nat := 4
def lrNoContext : Nat := 5
def lrOffline : Nat := 6

/-- A launch descriptor that R95 accepts. -/
def launchValid (d : List Word) : Bool :=
  let w0 := (wordAt d 0).toNat
  let entry := bits w0 31 0
  let load := bit w0 32
  let src := bits (wordAt d 1).toNat 47 0
  let dst := bits (wordAt d 2).toNat 63 32
  let len := bits (wordAt d 2).toNat 31 0
  bits w0 63 56 == 1 && bits w0 55 34 == 0 && bits (wordAt d 1).toNat 63 48 == 0 && wordAt d 3 == 0 &&
    entry % 8 == 0 && decide (entry < 262144) &&
    (!load || (dst % 8 == 0 && len % 8 == 0 && len != 0 && decide (dst + len ≤ 262144) && src % 8 == 0))

/-- A read of `n` bytes at a device address within one page, in the context of core `c`. -/
def State.coreRead (s : State) (c da n : Nat) (acc : Access) : State × Option (List Byte) :=
  let t := s.translate (c / 160) (s.ctxRoot c) (s.ctxPart c) da acc
  match t.2 with
  | .bad .. => (t.1, none)
  | .ok pa =>
    let r := t.1.read pa n
    match r.stat with
    | .ok => (r.st, some r.data)
    | .poison => (r.st.poisonUsed (c / 160) r.line, none)
    | .absent => (r.st, none)

/-- The core takes a launch only when IDLE: OFFLINE, FAULTED, BUSY in that order (R96). -/
def State.launchState (s : State) (c : Nat) : Option Nat :=
  let x := s.coreState (s.win c)
  if x = coreOffline then some lrOffline
  else if x = coreFaulted then some lrFaulted
  else if x ≠ coreIdle ∨ (s.core c).ctxHeld.isSome then some lrBusy
  else none

/-- The checks of a launch in the order of R96: a refusal, or the descriptor's words. -/
def State.launchCheck (s : State) (c desc : Nat) : State × (Nat ⊕ List Word) :=
  match s.launchState c with
  | some k => (s, .inl k)
  | none =>
    if s.ctxValid c = false then (s, .inl lrNoContext)
    else if desc % 64 ≠ 0 then (s, .inl lrInvalid)
    else
      let r := s.coreRead c desc 64 .read
      match r.2 with
      | none => (r.1, .inl lrTranslation)
      | some b =>
        let d := bytesToWords 8 b
        if launchValid d then (r.1, .inr d) else (r.1, .inl lrInvalid)

/-- A refused launch is recorded (R97, R98). -/
def State.launchRefused (s : State) (c code desc : Nat) : State :=
  let w := s.win c
  let s := s.event (Reg.TC_EVENT w) Fld.TC_EVENT_LAUNCH_REFUSED (Reg.TC_CNT_REFUSED w)
  (s.postCore c (s.coreEvq c) 4 code (BitVec.ofNat 64 desc) 0).1

/-- A launch is asked for: LOADING with VE_SEQ and FID_SEQ at 0 (R99, R208, R225), or a recorded refusal. The number is the
result. READSYS 8 will return `desc`, the offset that R94 to R96 call the descriptor's, untranslated (DEDUCED, log entry 67). -/
def State.launch (s : State) (c desc : Nat) : State × Nat :=
  let r := s.launchCheck c desc
  match r.2 with
  | .inl k => (r.1.launchRefused c k desc, k)
  | .inr d =>
    let s := r.1
    let w := s.win c
    let s := (s.wr (Reg.VE_SEQ w) 0).wr (Reg.FID_SEQ w) 0
    let s := s.setCoreState w coreLoading
    (s.setCore c { s.core c with loading := some d, desc := desc }, 0)

/-- The physical core `phys` of T-die `die` exists, and the T-die is in service (R25, R26). -/
def State.winUp (s : State) (die phys : Nat) : Bool :=
  decide (die < 4) && decide (phys < 168) && s.working (capTdie die)

/-- An agent may write the window `w` of a core (R118). -/
def State.mayWriteCore (s : State) (agent : Agent) (w : Nat) : Bool :=
  (s.ctx agent).mayUse (s.flag (Reg.TC_CTX w) Fld.TC_CTX_VALID) (s.fld (Reg.TC_CTX w) Fld.TC_CTX_PARTITION)

/-- The logical core behind a window that takes the agent's writes; none where they are ignored. -/
def State.coreWrite (s : State) (agent : Agent) (die phys : Nat) : Option Nat :=
  let c := s.lcore die phys
  if s.winUp die phys && s.coreUp c && s.win c == Reg.coreWin die phys &&
      s.mayWriteCore agent (Reg.coreWin die phys) && s.coreState (Reg.coreWin die phys) != coreOffline then some c
  else none

/-- TC_DOORBELL (R96, R97): a launch is asked for with descriptor value[47:0]. A core out of service ignores the write
(R100). -/
def execTcDoorbell (agent : Agent) (die phys : Nat) (value : Word) (s : State) : Host.Outcome State Fault Refusal :=
  .next (
    match s.coreWrite agent die phys with
    | none => s
    | some c =>
      let w := s.win c
      let desc := getF value Fld.TC_DOORBELL_DESC
      if s.flag (Reg.TC_LAUNCH_STATUS w) Fld.TC_LAUNCH_STATUS_PENDING then s.launchRefused c lrBusy desc
      else
        let r := s.launch c desc
        r.1.wr (Reg.TC_LAUNCH_STATUS w) (packF [(Fld.TC_LAUNCH_STATUS_RESULT, r.2)]))

/-- PROGRAM_START (R98): the next entry of T-die `die`'s queue launches a program on its core, as a doorbell would. -/
def execProgramStart (die : Nat) (s : State) : Host.Outcome State Fault Refusal :=
  .next (if die < 4 then s.talqLaunch die actProgram fun s e => (s.launch (160 * die + e.target) e.desc).1 else s)

/-! ### The load -/

/-- Words stored to program memory from offset `o`. -/
def State.pmStores (s : State) (c o : Nat) : List Word → State
  | [] => s
  | v :: r => (s.pmStore c o v).pmStores c (o + 8) r

/-- The copy of `len` bytes from device address `src` to program memory at `dst`, page by page (R99); the address that
cannot be read, where there is one. -/
def State.loadImage (s : State) (c src dst len : Nat) : Nat → State × Option Nat
  | 0 => (s, none)
  | k + 1 =>
    if len = 0 then (s, none)
    else
      let n := min len (4096 - src % 4096)
      let r := s.coreRead c src n .image
      match r.2 with
      | none => (r.1, some src)
      | some b => (r.1.pmStores c dst (bytesToWords n b)).loadImage c (src + n) (dst + n) (len - n) k

/-- S5 to S31 are set to 0. -/
def State.clearS (s : State) (w : Nat) : State := s.dropRegs (Reg.TC_SREG w 5) (Reg.TC_SREG w 32)

/-- The loader has copied the image: S registers, loop stack and PC are set and the core is RUNNING (R99). -/
def State.startProgram (s : State) (c : Nat) (d : List Word) : State :=
  let w := s.win c
  let w0 := (wordAt d 0).toNat
  let s := (((s.setSreg w 1 (wordAt d 4)).setSreg w 2 (wordAt d 5)).setSreg w 3 (wordAt d 6)).setSreg w 4 (wordAt d 7)
  let s := if bit w0 33 then s.clearS w else s
  let s := s.setLoops c []
  let s := s.setCore c { s.core c with loading := none, wait := .none }
  let s := (s.setFld (Reg.TC_PC w) Fld.TC_PC_PC (bits w0 31 0)).setCoreState w coreRunning
  (s.setWaitKind w 0).bump32 (Reg.TC_CNT_LAUNCH w) 1

/-- PROGRAM_LOAD_COMPLETE (R99): the copy of a LOADING core ends. A source that cannot be translated or read raises LOAD;
the loader finds it, so that it is recorded with SOURCE 4, word 0 and IMPRECISE (log entry 8). -/
def execProgramLoadComplete (core : Nat) (s : State) : Host.Outcome State Fault Refusal :=
  .next (
    if s.coreUp core = false ∨ s.coreState (s.win core) ≠ coreLoading then s
    else match (s.core core).loading with
      | none => s
      | some d =>
        if bit (wordAt d 0).toNat 32 then
          let r := s.loadImage core (bits (wordAt d 1).toNat 47 0) (bits (wordAt d 2).toNat 63 32)
            (bits (wordAt d 2).toNat 31 0) 66
          match r.2 with
          | some a => r.1.takeFault core ⟨fcLoad, srcLoader, true, 0, BitVec.ofNat 64 a, 0, r.1.pc (r.1.win core)⟩
          | none => r.1.startProgram core d
        else s.startProgram core d)

/-! ### Context and scrubbing (R100) -/

/-- The engines' flags, records, histograms and counts of issue are cleared as a core enters SCRUBBING (R177, R210,
R238). -/
def State.clearEngines (s : State) (w : Nat) : State :=
  let s := (s.dropRegs (Reg.ME_FLAGS w) (Reg.ME_CTRL w)).dropRegs (Reg.ME_HIST w 0) (Reg.ME_HIST w 36)
  let s := (s.dropRegs (Reg.VE_FLAGS w) (Reg.VE_CTRL w)).dropRegs (Reg.VE_HIST w 0) (Reg.VE_HIST w 36)
  let s := (s.dropRegs (Reg.FID_FLAGS w) (Reg.FID_CTRL w)).dropRegs (Reg.FID_HIST w 0) (Reg.FID_HIST w 36)
  (s.wr (Reg.VE_SEQ w) 0).wr (Reg.FID_SEQ w) 0

/-- The Fid queue and the transfers of core `c` are gone. -/
def State.fidDrop (s : State) (c : Nat) : State :=
  { s with fid := { s.fid with
    xfers := s.fid.xfers.filter fun x => x.core != c
    queue := s.fid.queue.filter fun i => i.core != c
    armed := s.fid.armed.filter fun x => x.core != c } }

/-- The core of window `w` enters SCRUBBING. -/
def State.enterScrub (s : State) (w : Nat) : State :=
  ((s.clearEngines w).setCoreState w coreScrubbing).setWaitKind w 0

/-- A write of TC_CTX is taken: VALID and PARTITION are replaced, and a change puts an IDLE or FAULTED core into
SCRUBBING. -/
def State.takeCtx (s : State) (w : Nat) (value : Word) : State :=
  let old := s.rd (Reg.TC_CTX w)
  let v := packF [(Fld.TC_CTX_VALID, getF value Fld.TC_CTX_VALID), (Fld.TC_CTX_PARTITION, getF value Fld.TC_CTX_PARTITION)]
  let s := s.wr (Reg.TC_CTX w) v
  if v ≠ old ∧ s.coreState w ≠ coreOffline then s.enterScrub w else s

/-- A write of TC_CTX by a permitted agent (R100): taken in IDLE, FAULTED or OFFLINE only; while a transfer of the core is
under way it waits (chapter 7). -/
def State.writeCtx (s : State) (die phys : Nat) (value : Word) : State :=
  let w := Reg.coreWin die phys
  let st := s.coreState w
  if st = coreOffline then s.takeCtx w value
  else if st = coreIdle ∨ st = coreFaulted then
    let c := s.lcore die phys
    if s.busyFid c then s.setCore c { s.core c with ctxHeld := some value } else s.takeCtx w value
  else s

/-- TC_CTX (R100, R118): written by Bowline and the management context only. -/
def execTcCtx (agent : Agent) (die phys : Nat) (value : Word) (s : State) : Host.Outcome State Fault Refusal :=
  .next (if s.winUp die phys && (s.ctx agent).priv then s.writeCtx die phys value else s)

/-- A TC_CTX write that waited for armed transfers is taken once none is left. -/
def State.ctxRelease (s : State) (c : Nat) : State :=
  match (s.core c).ctxHeld with
  | none => s
  | some v =>
    if s.busyFid c then s
    else (s.setCore c { s.core c with ctxHeld := none }).takeCtx (s.win c) v

/-- Memory, registers and tiles of core `c` read 0, with no poison left (R100). -/
def State.zeroCore (s : State) (c : Nat) : State :=
  let s := s.dropRegs (Reg.TC_SREG (s.win c) 0) (Reg.TC_SREG (s.win c) 32)
  let lo := tsAddr c 0
  { s with
    mem := { s.mem with
      data := sDrop lo (lo + tileSize) s.mem.data
      poison := sDrop lo (lo + tileSize) s.mem.poison
      errs := sDrop lo (lo + tileSize) s.mem.errs }
    tc := { s.tc with
      pmem := sDrop (2 ^ 18 * c) (2 ^ 18 * (c + 1)) s.tc.pmem
      pmPoison := sDrop (2 ^ 15 * c) (2 ^ 15 * (c + 1)) s.tc.pmPoison
      tiles := sDrop (2 ^ 17 * c) (2 ^ 17 * (c + 1)) s.tc.tiles
      tilePoison := sDrop (2 ^ 11 * c) (2 ^ 11 * (c + 1)) s.tc.tilePoison
      masks := sDrop (2 ^ 12 * c) (2 ^ 12 * (c + 1)) s.tc.masks } }

/-- SCRUB_COMPLETE (R100): program memory, tile store, S1 to S31, T0 to T31 and M0 to M7 read 0 and the core is IDLE. -/
def execScrubComplete (die phys : Nat) (s : State) : Host.Outcome State Fault Refusal :=
  .next (
    let w := Reg.coreWin die phys
    if s.winUp die phys = false ∨ s.coreState w ≠ coreScrubbing then s
    else
      let c := s.lcore die phys
      let s := if c < 640 then s.zeroCore c else s
      s.setCoreState w coreIdle)

/-! ### Stops (R115) -/

/-- A stop is asked of core `c`: issue ends and whatever it waits for is withdrawn, a SEMINC that has not been applied too (R115 names
TWAIT and SEMWAIT; DESIGN CHOICE, log entry 68). A core whose fault waits to be recorded is stopping already. An abandoned copy leaves program
memory as it was (DESIGN CHOICE, log entry 68). -/
def State.stopCore (s : State) (c : Nat) : State :=
  let w := s.win c
  let st := s.coreState w
  if st = coreLoading then s.setCore c { s.core c with loading := none, stopping := true }
  else if st = coreRunning ∨ st = coreWaiting then
    match (s.core c).wait with
    | .fault _ => s
    | _ =>
    let s := (s.dropSemWait c).block c 4 .none
    s.setCore c { s.core c with stopping := true }
  else s

/-- STOP (R115): a write of 1 to TC_CTRL.STOP. -/
def execStop (agent : Agent) (die phys : Nat) (s : State) : Host.Outcome State Fault Refusal :=
  .next (
    match s.coreWrite agent die phys with
    | none => s
    | some c => s.stopCore c)

/-- STOP_COMPLETE (R115): the engines have finished what they hold; the core is IDLE and a STOPPED event is posted. -/
def execStopComplete (core : Nat) (s : State) : Host.Outcome State Fault Refusal :=
  .next (
    if s.coreUp core && (s.core core).stopping && !s.busyProg core then
      let s := s.endProgram core
      (s.postCore core (s.coreEvq core) 3 0 (BitVec.ofNat 64 (s.pc (s.win core))) 0).1
    else s)

/-- CLEAR_FAULT (R115): a FAULTED core becomes IDLE; TC_FAULT stays. -/
def execClearFault (agent : Agent) (die phys : Nat) (s : State) : Host.Outcome State Fault Refusal :=
  .next (
    match s.coreWrite agent die phys with
    | none => s
    | some c => if s.coreState (s.win c) = coreFaulted then s.setCoreState (s.win c) coreIdle else s)

/-! ### Loss of a strand (R75, R556) -/

/-- Core `c` of a lost strand stops: OFFLINE, with a FAULT event STRAND_LOST; its transfers and its done-mask bit go. -/
def State.loseCore (s : State) (c : Nat) : State :=
  let w := s.win c
  let s := s.fidDrop c
  let cfg := s.rd (Reg.TC_CFG w)
  let s := s.setCore c { s.core c with wait := .none }
  let s := (s.setFld (Reg.TC_CFG w) Fld.TC_CFG_FAULT_DONE 0).takeFault c ⟨fcStrandLost, srcDie, true, 0, 0, 0, s.pc w⟩
  let s := (s.wr (Reg.TC_CFG w) cfg).setCoreState w coreOffline
  s.maskForce (Reg.HLY_DONE_MASK_C (c / 64)) (c % 64)

/-- The strand bit of ID_STRANDS_EFF is cleared. -/
def State.strandClear (s : State) (d st : Nat) : State :=
  let a := if d < 2 then Reg.ID_STRANDS_EFF01 else Reg.ID_STRANDS_EFF23
  let j := 32 * (d % 2) + st
  if bit (s.rd a).toNat j then s.wr a (BitVec.ofNat 64 ((s.rd a).toNat - 2 ^ j)) else s

/-- Logical strand `strand` of T-die `die` leaves service (R75, R556). A die whose spare is used or has failed asks for service
(Table RAS-5). -/
def State.strandLose (s : State) (die strand : Nat) : State :=
  if decide (die < 4) && decide (strand < 20) && s.strandUp die strand then
    let b := Reg.dieBlk die
    let phys := s.physStrand die strand
    let spareGone := s.flag (Reg.TC_SPARE b) Fld.TC_SPARE_SPARE_USED ||
      s.losses.contains (lossStrand, 32 * die + s.fld (Reg.TC_SPARE b) Fld.TC_SPARE_SPARE_PHYS)
    let s := (List.range 8).foldl (fun s i => s.loseCore (160 * die + 8 * strand + i)) s
    let s := s.strandClear die strand
    let s := s.event Reg.RAS_EVENT Fld.RAS_EVENT_STRAND_LOST Reg.RAS_CNT_STRAND_LOST
    let s := s.addLoss lossStrand (32 * die + phys)
    if spareGone then s.service Fld.RAS_SERVICE_REQUEST_STRAND else s
  else s

/-- STRAND_LOST (R75, R556). -/
def execStrandLost (die strand : Nat) (s : State) : Host.Outcome State Fault Refusal := .next (s.strandLose die strand)

/-- A contained error of a core is counted against its strand, whose sixteenth within one second of TIMEBASE takes it out of service
(R556). -/
def State.strandWatch (s : State) (core : Nat) : State :=
  let k := core / 8
  let l := ((sGet noTimes s.tc.strandErr k).filter fun t => s.time ≤ 1000000000 + t) ++ [s.time]
  let s := { s with tc := { s.tc with strandErr := sSet noTimes s.tc.strandErr k l } }
  if 16 ≤ l.length then s.strandLose (k / 20) (k % 20) else s

/-! ### Semaphore and event-queue registers (R108, R110, R119) -/

/-- TC_SEM_VALUE (R108): the value written is added. The partition context writes a semaphore of its own only; a poisoned
semaphore ignores the write (R551). -/
def execTcSemValue (agent : Agent) (die sem : Nat) (value : Word) (s : State) : Host.Outcome State Fault Refusal :=
  .next (
    let n := 256 * die + sem
    if decide (die < 4) && decide (sem < 256) && s.working (capTdie die) &&
        (s.ctx agent).mayUse (s.flag (semOwner n) Fld.TC_SEM_OWNER_VALID) (s.fld (semOwner n) Fld.TC_SEM_OWNER_PARTITION) &&
        !sGet noMark s.tc.semPoison n then
      s.semInc n (getF value Fld.TC_SEM_VALUE_VALUE)
    else s)

/-- TC_SEM_OWNER (R119, R551): a change of the owner clears the value and the poison. -/
def execTcSemOwner (agent : Agent) (die sem : Nat) (value : Word) (s : State) : Host.Outcome State Fault Refusal :=
  .next (
    let n := 256 * die + sem
    if decide (die < 4) && decide (sem < 256) && s.working (capTdie die) && (s.ctx agent).priv then
      let v := packF [(Fld.TC_SEM_OWNER_VALID, getF value Fld.TC_SEM_OWNER_VALID),
        (Fld.TC_SEM_OWNER_PARTITION, getF value Fld.TC_SEM_OWNER_PARTITION)]
      if v = s.rd (semOwner n) then s
      else
        let s := (s.wr (semOwner n) v).setSem n 0
        { s with tc := { s.tc with semPoison := sSet noMark s.tc.semPoison n false } }
    else s)

/-- TC_EVQ_OWNER (R119): a change of the owner clears ENABLE and DROPPED. -/
def execTcEvqOwner (agent : Agent) (die queue : Nat) (value : Word) (s : State) : Host.Outcome State Fault Refusal :=
  .next (
    let w := Reg.dieEvq die queue
    if decide (die < 4) && decide (queue < 8) && s.working (capTdie die) && (s.ctx agent).priv then
      let v := packF [(Fld.TC_EVQ_OWNER_VALID, getF value Fld.TC_EVQ_OWNER_VALID),
        (Fld.TC_EVQ_OWNER_PARTITION, getF value Fld.TC_EVQ_OWNER_PARTITION)]
      if v = s.rd (Reg.EVQ_OWNER w) then s
      else ((s.wr (Reg.EVQ_OWNER w) v).setFld (Reg.EVQ_CTRL w) Fld.TC_EVQ_CTRL_ENABLE 0).wr (Reg.EVQ_DROPPED w) 0
    else s)

/-- An agent may write the ring registers of queue `queue` of T-die `die` (R119). -/
def State.mayWriteEvq (s : State) (agent : Agent) (die queue : Nat) : Bool :=
  let o := s.rd (Reg.EVQ_OWNER (Reg.dieEvq die queue))
  decide (die < 4) && decide (queue < 8) && s.working (capTdie die) &&
    (s.ctx agent).mayUse (getF o Fld.TC_EVQ_OWNER_VALID == 1) (getF o Fld.TC_EVQ_OWNER_PARTITION)

/-- A write of a queue's ring base: BASE changes only while ENABLE is 0 (R110). -/
def State.writeEvqBase (s : State) (w : Nat) (value : Word) : State :=
  if s.flag (Reg.EVQ_CTRL w) Fld.TC_EVQ_CTRL_ENABLE then s
  else s.wr (Reg.EVQ_BASE w) (packF [(Fld.TC_EVQ_BASE_BASE, getF value Fld.TC_EVQ_BASE_BASE)])

/-- A write of a queue's control register: SIZE_LOG2 changes only while ENABLE is 0 before the write, and HEAD is set to
TAIL when ENABLE goes from 0 to 1 (R110, Table TCR-29). -/
def State.writeEvqCtrl (s : State) (w : Nat) (value : Word) : State :=
  let was := s.flag (Reg.EVQ_CTRL w) Fld.TC_EVQ_CTRL_ENABLE
  let size := if was then s.fld (Reg.EVQ_CTRL w) Fld.TC_EVQ_CTRL_SIZE_LOG2 else getF value Fld.TC_EVQ_CTRL_SIZE_LOG2
  let en := getF value Fld.TC_EVQ_CTRL_ENABLE
  let s := s.wr (Reg.EVQ_CTRL w) (packF [(Fld.TC_EVQ_CTRL_VECTOR, getF value Fld.TC_EVQ_CTRL_VECTOR),
    (Fld.TC_EVQ_CTRL_SIZE_LOG2, size), (Fld.TC_EVQ_CTRL_ENABLE, en)])
  if was = false ∧ en = 1 then
    s.setFld (Reg.EVQ_HEAD w) Fld.TC_EVQ_HEAD_HEAD (s.fld (Reg.EVQ_TAIL w) Fld.TC_EVQ_TAIL_TAIL)
  else s

/-- TC_EVQ_BASE (R110). -/
def execTcEvqBase (agent : Agent) (die queue : Nat) (value : Word) (s : State) : Host.Outcome State Fault Refusal :=
  .next (if s.mayWriteEvq agent die queue then s.writeEvqBase (Reg.dieEvq die queue) value else s)

/-- TC_EVQ_CTRL (R110). -/
def execTcEvqCtrl (agent : Agent) (die queue : Nat) (value : Word) (s : State) : Host.Outcome State Fault Refusal :=
  .next (if s.mayWriteEvq agent die queue then s.writeEvqCtrl (Reg.dieEvq die queue) value else s)

end Sys2Proof.Machine
end

