-- ==== Sys2Proof/Machine/Engine.lean ====
section
/-! DEFINITION. What the engines of a core share: issue with operand checks and hazards (R90 to R92), tile-store accesses,
flags, and the histogram and exception records (R171 to R174, R207 to R209, R224 to R226). -/

namespace Sys2Proof.Machine

/-- A range of the tile store: first byte and length. -/
abbrev Range := Nat × Nat

/-- The range reaches beyond the tile store (TS_BOUNDS). -/
def Range.beyond (r : Range) : Bool := decide (r.1 + r.2 > tileSize)

/-- Two ranges share a byte. -/
def Range.meets (a b : Range) : Bool := decide (a.1 < b.1 + b.2) && decide (b.1 < a.1 + a.2) && a.2 != 0 && b.2 != 0

/-- Two ranges share a granule of 256 bytes (R92). -/
def Range.near (a b : Range) : Bool :=
  a.2 != 0 && b.2 != 0 && decide (a.1 / 256 ≤ (b.1 + b.2 - 1) / 256) && decide (b.1 / 256 ≤ (a.1 + a.2 - 1) / 256)

/-- A footprint meets that of a program transfer of core `c` that still has local accesses to make (R91); the footprint of
one whose descriptor has not been read is the whole tile store (R213). -/
def State.hazard (s : State) (c : Nat) (foot : List Range) : Bool :=
  ((s.fid.queue.any fun i => i.core == c) && foot.any fun r => r.2 != 0) || s.fid.xfers.any fun x => x.core == c && !x.armed && !x.localDone &&
    foot.any fun r => r.near (x.ownLo, x.ownHi - x.ownLo) || x.ownDesc.any fun o => r.near o

/-- A precise fault found at issue by the checks of an engine: code, source, DETAIL and address. -/
structure IssueFault where
  code   : Nat
  source : Nat
  detail : Nat
  addr   : Nat

/-- The first footprint that leaves the tile store, as a fault of the sequencer (Table TCR-11). -/
def boundsFault (foot : List Range) : Option IssueFault :=
  match foot.find? Range.beyond with
  | some r => some ⟨fcTsBounds, srcSeq, 0, r.1⟩
  | none => none

/-- Issue of an engine instruction: legality (R79), operand checks, then execution, held while its footprint meets that of
an unfinished transfer (R91): the core then waits with WAIT_KIND 5 and issues it again. Engine instructions take effect at issue, in
program order (R91). -/
def State.engine (s : State) (c : Nat) (word : Word) (legal : Bool) (check : State → Option IssueFault)
    (foot : State → List Range) (k : State → State) : State :=
  s.issue c word legal fun s1 =>
    match check s1 with
    | some f => s1.takeFault c ⟨f.code, f.source, false, f.detail, BitVec.ofNat 64 f.addr, word, s1.pc (s1.win c)⟩
    | none => if s1.hazard c (foot s1) then s.block c 5 .stall else k s1

/-- A fault of an engine in execution: imprecise, naming the instruction (R114). PC stays there. -/
def State.engineFault (s : State) (c source code : Nat) (addr : Nat) (word : Word) : State :=
  s.takeFault c ⟨code, source, true, 0, BitVec.ofNat 64 addr, word, s.pc (s.win c)⟩

/-! ### Tile store -/

/-- `n` bytes at offset `o` of the tile store of core `c`, as stored. -/
def State.tsBytes (s : State) (c o n : Nat) : List Byte := bytesAt s.mem.data (tsAddr c o) n

/-- A little-endian number of `n` bytes. -/
def State.tsNat (s : State) (c o n : Nat) : Nat := leNat (s.tsBytes c o n)

/-- Tile-store offset of the first poisoned line of a list of ranges. -/
def State.tsPoison (s : State) (c : Nat) : List Range → Option Nat
  | [] => none
  | r :: rs =>
    match (linesOf (tsAddr c r.1) r.2).find? s.poisoned with
    | some l => some (l - tsAddr c 0)
    | none => s.tsPoison c rs

/-- Bytes written to the tile store by an engine of the core. -/
def State.tsWrite (s : State) (c o : Nat) (bs : List Byte) : State := (s.write (tsAddr c o) bs).1

/-- An engine meets a poisoned line of its tile store: the consumption is counted (R555) and the core faults POISON. -/
def State.enginePoison (s : State) (c source off : Nat) (word : Word) : State :=
  (s.poisonUsed (c / 160) (tsAddr c off)).engineFault c source fcPoison off word

/-! ### Rounding mode (R135, R136) -/

/-- DEFAULT of the numerics signature; the level of stepping A1 sets RNE. -/
def State.defaultMode (s : State) : Nat := if s.fld Reg.ID_NUMERICS_SIG Fld.ID_NUMERICS_SIG_DEFAULT_RND = 1 then rmRTZ else rmRNE

/-- The rounding mode that CC[1:0] selects. -/
def State.ccMode (s : State) (cc : Nat) : Nat := if cc % 4 = 3 then s.defaultMode else cc % 4

/-! ### Flags and records -/

/-- Flags are set and stay set. -/
def State.raise (s : State) (a fl : Nat) : State := s.wr a (BitVec.ofNat 64 ((s.rd a).toNat ||| fl % 16))

/-- One 32-bit word of a histogram whose registers begin at `a` is raised by `n`, saturating. -/
def State.histAdd (s : State) (a word n : Nat) : State :=
  s.bumpFld (a + 8 * (word / 2)) (if word % 2 = 0 then Fld.ME_HIST_WORD_LO else Fld.ME_HIST_WORD_HI) n

/-- One stored element is counted: its word, its events, and the total (Table MME-10). -/
def State.histOne (s : State) (a : Nat) (e : Nat × Nat) : State :=
  let s := (s.histAdd a e.1 1).histAdd a 70 1
  let s := if e.2 &&& evSat ≠ 0 then s.histAdd a 68 1 else s
  if e.2 &&& evFlush ≠ 0 then s.histAdd a 69 1 else s

/-- Stored elements are counted, each with its word and its flags. -/
def State.histAll (s : State) (a : Nat) : List (Nat × Nat) → State
  | [] => s
  | e :: r => (s.histOne a e).histAll a r

/-- The 384 bytes of a record (Table MME-11): flags, coordinates, validity and kind, histogram. -/
def State.recordBytes (s : State) (flags exc info hist : Nat) : List Byte :=
  wordsToBytes ([s.rd flags, s.rd exc, s.rd info] ++ List.replicate 5 0 ++
    (List.range 36).map (fun i => s.rd (hist + 8 * i)) ++ List.replicate 4 0)

/-- A histogram reads 0 throughout. -/
def State.histClear (s : State) (a : Nat) : State := s.dropRegs a (a + 288)

/-- A write of a control register of a core's window by an agent, as R118 allows it. -/
def State.engineCtrl (s : State) (agent : Agent) (die phys : Nat) (k : State → Nat → State) : State :=
  match s.coreWrite agent die phys with
  | none => s
  | some c => k s (s.win c)

end Sys2Proof.Machine
end

