-- ==== Sys2Proof/Machine/FidOps.lean ====
section
/-! DEFINITION. The Fid engine: descriptors (R216, R234), addresses (R218, R219), elements and blocks (R220 to R223, R226),
the movement of a transfer unit by unit with its local and remote accesses (R229, R236), and its faults (R237). A unit is
one element of a plain destination, one block of a blocked one. -/

namespace Sys2Proof.Machine

/-! ### The descriptor (Tables FID-3 and FID-4) -/

def dHdr (d : List Word) : Nat := (wordAt d 0).toNat
def dNdim (d : List Word) : Nat := bits (dHdr d) 55 53
def dConvert (d : List Word) : Bool := bit (dHdr d) 52
def dSfmt (d : List Word) : Nat := bits (dHdr d) 51 48
def dDfmt (d : List Word) : Nat := bits (dHdr d) 47 44
def dSscaled (d : List Word) : Bool := bit (dHdr d) 43
def dDscaled (d : List Word) : Bool := bit (dHdr d) 42
def dCc (d : List Word) : Nat := bits (dHdr d) 41 39
def dScaleMode (d : List Word) : Nat := bits (dHdr d) 38 37
def dSoff (d : List Word) : Nat := bits (dHdr d) 36 29
def dHist (d : List Word) : Bool := bit (dHdr d) 28
def dSemEn (d : List Word) : Bool := bit (dHdr d) 27
def dSrem (d : List Word) : Bool := bit (dHdr d) 26
def dDrem (d : List Word) : Bool := bit (dHdr d) 25
def dRtc (d : List Word) : Nat := bits (dHdr d) 24 23
def dSnode (d : List Word) : Nat := bits (wordAt d 1).toNat 63 48
def dDnode (d : List Word) : Nat := bits (wordAt d 2).toNat 63 48
def dSrc (d : List Word) : Nat := bits (wordAt d 1).toNat 47 0
def dDst (d : List Word) : Nat := bits (wordAt d 2).toNat 47 0
def dSsc (d : List Word) : Nat := bits (wordAt d 3).toNat 47 0
def dDsc (d : List Word) : Nat := bits (wordAt d 4).toNat 47 0
def dSem (d : List Word) : Nat := bits (wordAt d 5).toNat 9 0
def dSemInc (d : List Word) : Nat := bits (wordAt d 5).toNat 63 32
def dCount (d : List Word) (i : Nat) : Nat := bits (wordAt d (8 + 3 * i)).toNat 31 0
def dSstride (d : List Word) (i : Nat) : Int := sext 64 (wordAt d (9 + 3 * i)).toNat
def dDstride (d : List Word) (i : Nat) : Int := sext 64 (wordAt d (10 + 3 * i)).toNat

/-- A side is blocked (R218). -/
def fidBlocked (f : Nat) (scaled : Bool) : Bool := scaled || f == 6 || f == 7 || f == 8 || f == 0xA

def dSblk (d : List Word) : Bool := fidBlocked (dSfmt d) (dSscaled d)
def dDblk (d : List Word) : Bool := fidBlocked (dDfmt d) (dDscaled d)

/-- Product of the counts of the dimensions from `i`. -/
def dProd (d : List Word) (i n : Nat) : Nat := (List.range (n - i)).foldl (fun p k => p * dCount d (i + k)) 1

/-- Elements of the transfer. -/
def dTotal (d : List Word) : Nat := dProd d 0 (dNdim d)

/-- Some reserved field or word is not 0 (R216), or the increment is 0 where it is used. -/
def fidReserved (d : List Word) : Bool :=
  bits (dHdr d) 22 0 != 0 || bits (wordAt d 3).toNat 63 48 != 0 || bits (wordAt d 4).toNat 63 48 != 0 ||
    bits (wordAt d 5).toNat 31 10 != 0 || wordAt d 6 != 0 || wordAt d 7 != 0 || wordAt d 30 != 0 || wordAt d 31 != 0 ||
    ((List.range 6).any fun i => bits (wordAt d (8 + 3 * i)).toNat 63 32 != 0) ||
    ((List.range 6).any fun i => decide (dNdim d ≤ i) &&
      (wordAt d (8 + 3 * i) != 0 || wordAt d (9 + 3 * i) != 0 || wordAt d (10 + 3 * i) != 0)) ||
    (dSemEn d && dSemInc d == 0)

def fidFormatBad (d : List Word) : Bool :=
  decide (dSfmt d ≥ 0xE) || decide (dDfmt d ≥ 0xE) || (dSscaled d && !(decide (4 ≤ dSfmt d) && decide (dSfmt d ≤ 0xA))) ||
    (dDscaled d && !(decide (4 ≤ dDfmt d) && decide (dDfmt d ≤ 0xA))) || (!dSscaled d && dSsc d != 0) ||
    (!dDscaled d && dDsc d != 0) || dRtc d == 3

def fidShapeBad (d : List Word) : Bool :=
  dNdim d == 0 || decide (dNdim d > 6) || ((List.range (dNdim d)).any fun i => dCount d i == 0) || decide (dTotal d > 2 ^ 40)

def fidAlignBad (d : List Word) : Bool :=
  (if dSblk d then dSrc d % 8 != 0 else dSrc d % (fmtBits (dSfmt d) / 8) != 0) ||
    (if dDblk d then dDst d % 8 != 0 else dDst d % (fmtBits (dDfmt d) / 8) != 0)

def fidModeBad (d : List Word) : Bool :=
  !dConvert d && (dSfmt d != dDfmt d || dSscaled d != dDscaled d || dCc d != 0 || dHist d)

def fidScaleBad (d : List Word) : Bool :=
  (!dDscaled d && dScaleMode d != 0) || dScaleMode d == 3 || (dScaleMode d == 0 && dSoff d != 0) ||
    (dScaleMode d == 1 && decide (dSoff d > 8)) || (dScaleMode d == 2 && decide (dSoff d > 0xFE))

def fidRemoteBad (d : List Word) : Bool :=
  (dSrem d && dDrem d) || dSnode d == 0xFFFE || dDnode d == 0xFFFE || (!dSrem d && dSnode d != 0) || (!dDrem d && dDnode d != 0)

/-- The lowest DETAIL code of Table FID-9 that the descriptor's words alone call for, 0x01 to 0x09. -/
def fidWordsBad (d : List Word) : Option Nat :=
  if bits (dHdr d) 63 56 ≠ 1 then some 1
  else if fidReserved d then some 2
  else if fidFormatBad d then some 3
  else if fidShapeBad d then some 4
  else if (dSblk d && dSstride d 0 != 1) || (dDblk d && dDstride d 0 != 1) then some 5
  else if fidAlignBad d then some 6
  else if fidModeBad d then some 7
  else if fidScaleBad d then some 8
  else if fidRemoteBad d then some 9
  else none

/-! ### Units and addresses (R217, R218) -/

/-- Units of dimension 0: elements of a plain destination, blocks of a blocked one. -/
def unitsPerRun (d : List Word) : Nat := if dDblk d then (dCount d 0 + 31) / 32 else dCount d 0

def unitTotal (d : List Word) : Nat := unitsPerRun d * dProd d 1 (dNdim d)

/-- First element of unit `u` within dimension 0. -/
def unitI0 (d : List Word) (u : Nat) : Nat := if dDblk d then 32 * (u % unitsPerRun d) else u % unitsPerRun d

/-- Elements of unit `u`. -/
def unitCount (d : List Word) (u : Nat) : Nat := if dDblk d then min 32 (dCount d 0 - unitI0 d u) else 1

/-- Linear index of the first element of unit `u`. -/
def unitL (d : List Word) (u : Nat) : Nat := unitI0 d u + dCount d 0 * (u / unitsPerRun d)

/-- The sum of i_d × STRIDE_d over the dimensions from 1, for outer index `o`. -/
def outerSum (d : List Word) (stride : Nat → Int) : Nat → Nat → Nat → Int
  | 0, _, _ => 0
  | k + 1, i, o => (o % max 1 (dCount d i) : Nat) * stride i + outerSum d stride k (i + 1) (o / max 1 (dCount d i))

/-- An access of a unit: side (Table FID-15), exact address, length, first element; `w` is the element width in bits of
a block of `cnt` elements, 0 where the access serves one element. -/
structure FidAccess where
  side : Nat
  addr : Int
  n    : Nat
  elem : Nat
  w    : Nat
  cnt  : Nat

/-- The element of an access that byte `p` of it belongs to. -/
def FidAccess.elemAt (a : FidAccess) (p : Nat) : Nat :=
  if a.w = 0 then a.elem
  else match (List.range a.cnt).find? fun j => decide ((a.w * j + a.w - 1) / 8 ≥ p) with
    | some j => a.elem + j
    | none => a.elem + (a.cnt - 1)

/-- Source accesses of unit `u`, in element order, scale last. -/
def srcAccs (d : List Word) (so : Word) (u : Nat) : List FidAccess :=
  let w := fmtBits (dSfmt d)
  let off : Int := sext 64 so.toNat + outerSum d (dSstride d) 5 1 (u / unitsPerRun d)
  let i0 := unitI0 d u
  let l := unitL d u
  if dSblk d then
    let blk : Int := off + (i0 / 32 : Nat)
    let base : Int := dSrc d + (4 * w : Nat) * blk
    (if dDblk d then [⟨1, base, 4 * w, l, w, unitCount d u⟩]
     else [⟨1, base + (w * (i0 % 32) / 8 : Nat), (w * (i0 % 32) + w - 1) / 8 - w * (i0 % 32) / 8 + 1, l, 0, 1⟩]) ++
      (if dSscaled d then [⟨3, dSsc d + blk, 1, l, 0, 1⟩] else [])
  else
    (List.range (unitCount d u)).map fun j =>
      ⟨1, dSrc d + (w / 8 : Nat) * (off + (i0 + j : Nat) * dSstride d 0), w / 8, l + j, 0, 1⟩

/-- Destination accesses of unit `u`. -/
def dstAccs (d : List Word) (dO : Word) (u : Nat) : List FidAccess :=
  let w := fmtBits (dDfmt d)
  let off : Int := sext 64 dO.toNat + outerSum d (dDstride d) 5 1 (u / unitsPerRun d)
  let i0 := unitI0 d u
  let l := unitL d u
  if dDblk d then
    let blk : Int := off + (i0 / 32 : Nat)
    ⟨2, dDst d + (4 * w : Nat) * blk, 4 * w, l, 0, 1⟩ :: (if dDscaled d then [⟨4, dDsc d + blk, 1, l, 0, 1⟩] else [])
  else [⟨2, dDst d + (w / 8 : Nat) * (off + (i0 : Nat) * dDstride d 0), w / 8, l, 0, 1⟩]

/-! ### Accesses -/

/-- A fault of a transfer (R237): reason of Table FID-10, level, side, whether the access was a write, address, element. -/
structure FidFault where
  reason : Nat
  level  : Nat
  side   : Nat
  write  : Bool
  da     : Nat
  elem   : Nat

/-- An access cut where `m` divides the address: offset within the access, address and length of each piece. -/
def cutAt (m : Nat) : Nat → Nat → Nat → Nat → List (Nat × Nat × Nat)
  | 0, _, _, _ => []
  | k + 1, p, a, n => if n = 0 then [] else let x := min n (m - a % m); (p, a, x) :: cutAt m k (p + x) (a + x) (n - x)

/-- The access lies outside 0 to 2^48 − 1 (R219). -/
def FidAccess.range (a : FidAccess) : Bool := decide (a.addr < 0) || decide (a.addr + a.n > 2 ^ 48)

/-- Translation of a device address in the context of core `c` (R231). -/
def State.fidXlat (s : State) (c da : Nat) (acc : Access) : State × Xlat :=
  s.translate (c / 160) (s.ctxRoot c) (s.ctxPart c) da acc

/-- The unit of memory at local offset `pa` is FAILED: a write there completes POISON (R337). -/
def State.failedAt (s : State) (pa : Nat) : Bool :=
  match (s.place pa).unit with
  | some u => s.unitFailed u
  | none => false

/-- The pages of a local access translated: local offsets and lengths, or the first fault; a write that FAILED memory would complete with
POISON faults DATA_POISON (R237, R337). -/
def State.fidPieces (s : State) (c : Nat) (a : FidAccess) (acc : Access) : List (Nat × Nat × Nat) →
    State × (FidFault ⊕ List (Nat × Nat × Nat))
  | [] => (s, .inr [])
  | (p, da, n) :: r =>
    let t := s.fidXlat c da acc
    match t.2 with
    | .bad reason lvl => (t.1, .inl ⟨reason, lvl, a.side, acc == .write, da, a.elemAt p⟩)
    | .ok pa =>
      if acc = .write ∧ t.1.failedAt pa then (t.1, .inl ⟨8, 0, a.side, true, da, a.elemAt p⟩)
      else
      let x := t.1.fidPieces c a acc r
      match x.2 with
      | .inl f => (x.1, .inl f)
      | .inr l => (x.1, .inr ((p, pa, n) :: l))

/-- A local access is checked and translated. -/
def State.fidCheck (s : State) (c : Nat) (a : FidAccess) (acc : Access) : State × (FidFault ⊕ List (Nat × Nat × Nat)) :=
  if a.range then (s, .inl ⟨3, 0, a.side, acc == .write, unsig 64 a.addr, a.elem⟩)
  else s.fidPieces c a acc (cutAt 4096 3 0 a.addr.toNat a.n)

/-- Translated pieces are read; poison is a fault at the first element that it touches. -/
def State.fidReadPieces (s : State) (c : Nat) (a : FidAccess) : List (Nat × Nat × Nat) → State × (FidFault ⊕ List Byte)
  | [] => (s, .inr [])
  | (p, pa, n) :: r =>
    let x := s.read pa n
    match x.stat with
    | .ok =>
      let y := x.st.fidReadPieces c a r
      match y.2 with
      | .inl f => (y.1, .inl f)
      | .inr b => (y.1, .inr (x.data ++ b))
    | .poison =>
      let q := p + (x.line - pa)
      (x.st.poisonUsed (c / 160) x.line, .inl ⟨8, 0, a.side, false, a.addr.toNat + q, a.elemAt q⟩)
    | .absent => (x.st, .inl ⟨4, 0, a.side, false, a.addr.toNat + p, a.elemAt p⟩)

/-- A local read. -/
def State.fidRead (s : State) (c : Nat) (a : FidAccess) : State × (FidFault ⊕ List Byte) :=
  let t := s.fidCheck c a .read
  match t.2 with
  | .inl f => (t.1, .inl f)
  | .inr l => t.1.fidReadPieces c a l

/-- Local reads of a unit, all of them made: their bytes in order, and the faults met. -/
def State.fidReads (s : State) (c : Nat) : List FidAccess → State × List Byte × List FidFault
  | [] => (s, [], [])
  | a :: r =>
    let x := s.fidRead c a
    let y := x.1.fidReads c r
    match x.2 with
    | .inl f => (y.1, y.2.1, f :: y.2.2)
    | .inr b => (y.1, b ++ y.2.1, y.2.2)

/-- Faults that the local destination of a unit would meet. -/
def State.fidDstFaults (s : State) (c : Nat) : List FidAccess → State × List FidFault
  | [] => (s, [])
  | a :: r =>
    let x := s.fidCheck c a .write
    let y := x.1.fidDstFaults c r
    match x.2 with
    | .inl f => (y.1, f :: y.2)
    | .inr _ => y

/-- The fault of the least element, the first listed where several share it (R236). -/
def firstFault : List FidFault → Option FidFault
  | [] => none
  | f :: r =>
    match firstFault r with
    | none => some f
    | some g => if g.elem < f.elem then some g else some f

/-- Bytes written at translated pieces. -/
def State.fidPutPieces (s : State) (bs : List Byte) : List (Nat × Nat × Nat) → State
  | [] => s
  | (p, pa, n) :: r => ((s.write pa ((bs.drop p).take n)).1).fidPutPieces bs r

/-- A local write of a destination access already checked. -/
def State.fidWrite (s : State) (c : Nat) (a : FidAccess) (bs : List Byte) : State :=
  let t := s.fidCheck c a .write
  match t.2 with
  | .inl _ => t.1
  | .inr l => t.1.fidPutPieces bs l

/-! ### Values -/

/-- A value of the source with the flags that reading it does not yet raise. -/
def fidSrcNum (d : List Word) (code scale : Nat) : Num :=
  if dSblk d then scaledNum (dSfmt d) code scale else decodeNum (dSfmt d) code

/-- Codes and scale of the source elements of unit `u`, from the bytes of its accesses. -/
def fidCodes (d : List Word) (u : Nat) (b : List Byte) : List Nat × Nat :=
  let w := fmtBits (dSfmt d)
  let n := unitCount d u
  if dSblk d then
    if dDblk d then ((List.range n).map fun j => blockElem w b j, if dSscaled d then (b.getD (4 * w) 0).toNat else 127)
    else
      let i := unitI0 d u % 32
      let k := (w * i + w - 1) / 8 - w * i / 8 + 1
      ([leNat (b.take k) / 2 ^ (w * i % 8) % 2 ^ w], if dSscaled d then (b.getD k 0).toNat else 127)
  else ((List.range n).map fun j => leNat ((b.drop (w / 8 * j)).take (w / 8)), 127)

/-- The key of R223: S registers where RKEY named them, the descriptor's words otherwise. -/
def fidKey (d : List Word) (key : List Word) : SrKey × Nat :=
  let k := if key.isEmpty then (d.drop 26).take 4 else key
  let st := (wordAt k 2).toNat
  (⟨(wordAt k 0).toNat + 2 ^ 64 * (wordAt k 1).toNat, st / 2 ^ 16, st % 2 ^ 16⟩, (wordAt k 3).toNat)

/-- The word of element `l` (R223). -/
def fidWord (d : List Word) (key : List Word) (l : Nat) : Nat :=
  if dCc d % 4 = 2 then let k := fidKey d key; srWord k.1 ((k.2 + l) % 2 ^ 64) else 0

/-- The histogram word of a scaled element: a subnormal code, or the scaled value (R226). -/
def histScaled (f c scale : Nat) : Nat :=
  match scaledNum f c scale with
  | .fin m e => if histWord f (decodeNum f c) = 65 then 65 else binWord (ilog2 m.natAbs e)
  | x => histWord f x

/-- What one destination element becomes: code, flags with histogram events, kind of its NV, histogram word. -/
structure FidElem where
  code  : Nat
  flags : Nat
  kind  : Nat
  word  : Nat

/-- Conversion to an element that is not scaled (R221). -/
def fidElemPlain (d : List Word) (mode r : Nat) (x : Num) : FidElem :=
  let f := dDfmt d
  let y := convertNum f mode (bit (dCc d) 2) r x
  ⟨y.1, y.2, if y.2 &&& flNV = 0 then 0 else if x.isSnan then 1 else 4, histWord f (decodeNum f y.1)⟩

/-- The scale exponent of a block (R222); none for scale 0xFF. -/
def fidScale (d : List Word) (v : List Num) : Option Int × Nat :=
  let z := blockScale (dDfmt d) v (if dScaleMode d = 1 then (dSoff d : Int) else 0)
  match z.1 with
  | none => z
  | some x => (some (if dScaleMode d = 2 then (dSoff d : Int) - 127 else x), z.2)

/-- A scaled block: its scale code and its elements (R144, R222). `r j` is the word of element `j`. -/
def fidBlock (d : List Word) (mode : Nat) (r : Nat → Nat) (v : List Num) : Nat × List FidElem :=
  let f := dDfmt d
  let z := fidScale d (v ++ List.replicate (32 - v.length) (.zero false))
  match z.1 with
  | none =>
    (0xFF, v.map fun x =>
      ⟨0, if x.isSnan then flNV else if x.isInf then z.2 &&& flOF else 0, if x.isSnan then 1 else 0, 67⟩)
  | some e =>
    ((e + 127).toNat, (List.range v.length).map fun j =>
      let y := encodeElem f mode (r j) e (v.getD j (.zero false))
      ⟨y.1, y.2, if y.2 &&& flNV = 0 then 0 else 4, histScaled f y.1 (e + 127).toNat⟩)

/-- The bytes of each destination access of a unit, and what its elements raise and count. -/
def fidConvert (d : List Word) (mode : Nat) (key : List Word) (u : Nat) (b : List Byte) : List (List Byte) × FidAcc :=
  let f := dDfmt d
  let w := fmtBits f
  if dConvert d = false then
    if dDblk d then
      let l := b.take (4 * w) :: (if dDscaled d then [(b.drop (4 * w)).take 1] else [])
      (l, ⟨0, [], none, (l.map List.length).foldl (· + ·) 0⟩)
    else ([b.take (w / 8)], ⟨0, [], none, w / 8⟩)
  else
    let c := fidCodes d u b
    let v := c.1.map fun x => fidSrcNum d x c.2
    let r (j : Nat) : Nat := fidWord d key (unitL d u + j)
    let e : Nat × List FidElem :=
      if dDscaled d then fidBlock d mode r v
      else (0, (List.range v.length).map fun j => fidElemPlain d mode (r j) (v.getD j (.zero false)))
    let l : List (List Byte) :=
      if dDblk d then
        blockBytes w (e.2.map (·.code) ++ List.replicate (32 - e.2.length) 0) ::
          (if dDscaled d then [[BitVec.ofNat 8 e.1]] else [])
      else e.2.map fun x => natLE (w / 8) x.code
    (l, ⟨e.2.foldl (fun a x => a ||| x.flags) 0 % 16, if dHist d then e.2.map fun x => (x.word, x.flags) else [],
      ((List.range e.2.length).find? fun j => (e.2.getD j ⟨0, 0, 0, 0⟩).kind != 0).map fun j =>
        (unitL d u + j, (e.2.getD j ⟨0, 0, 0, 0⟩).kind), (l.map List.length).foldl (· + ·) 0⟩)

/-- What two runs of units add, the first of them first. -/
def FidAcc.join (a b : FidAcc) : FidAcc :=
  ⟨a.flags ||| b.flags, a.hist ++ b.hist, if a.nv.isSome then a.nv else b.nv, a.bytes + b.bytes⟩

/-! ### Own tile store (R213, R219) -/

/-- Local offsets that an access touches in the tile store of core `c`; nothing where it does not translate. -/
def State.fidOwn (s : State) (c : Nat) (acc : Access) (a : FidAccess) : List (Nat × Nat) :=
  match (s.fidCheck c a acc).2 with
  | .inl _ => []
  | .inr l => (l.filter fun x => s.place x.2.1 == .tile c).map fun x => (x.2.1 - tsAddr c 0, x.2.2)

/-- Bytes of the core's own tile store that a side reads or writes. -/
def State.fidSrcOwn (s : State) (c : Nat) (d : List Word) (so : Word) : List (Nat × Nat) :=
  if dSrem d then [] else (List.range (unitTotal d)).flatMap fun u => (srcAccs d so u).flatMap (s.fidOwn c .read)

def State.fidDstOwn (s : State) (c : Nat) (d : List Word) (dO : Word) : List (Nat × Nat) :=
  if dDrem d then [] else (List.range (unitTotal d)).flatMap fun u => (dstAccs d dO u).flatMap (s.fidOwn c .write)

/-- Validation of a descriptor (R234): the lowest DETAIL code, or none. -/
def State.fidInvalid (s : State) (c : Nat) (d : List Word) (so dO : Word) : Option Nat :=
  match fidWordsBad d with
  | some k => some k
  | none =>
    let src := s.fidSrcOwn c d so
    if (s.fidDstOwn c d dO).any fun b => src.any fun a => decide (a.1 < b.1 + b.2) && decide (b.1 < a.1 + a.2) then some 0xA
    else none

/-! ### Remote accesses (R229) -/

/-- Reason of Table FID-10 for a completion status (Table HWS-5). -/
def fidStatusReason (st : Nat) : Nat :=
  if st = csUnitAbsent ∨ st = csNoRoute then 0x0A
  else if st = csPoison then 0x08
  else if st = csTimeout ∨ st = csAmbiguous then 0x0B
  else 0x09

/-- Requests that a list of accesses needs: pieces within aligned 256-byte blocks (R350). -/
def remotePieces (l : List FidAccess) (bs : List (List Byte)) : List FidPut :=
  (l.zip (bs ++ List.replicate l.length [])).flatMap fun e =>
    (cutAt 256 3 0 e.1.addr.toNat e.1.n).map fun p =>
      ⟨p.2.1, (e.2.drop p.1).take p.2.2, e.1.elemAt p.1, e.1.side⟩

/-- Length of each request of a list of accesses. -/
def remoteLens (l : List FidAccess) : List Nat :=
  l.flatMap fun a => (cutAt 256 3 0 a.addr.toNat a.n).map fun p => p.2.2

/-- A request of transfer `x` is issued for a piece. -/
def State.fidIssue (s : State) (x : Xfer) (write : Bool) (p : FidPut) (n : Nat) : State × Option Nat :=
  let d := x.words
  let tc := if write then (if dRtc d = 1 then 3 else if dRtc d = 2 then 5 else 4) else 4
  s.issueReq (newReq (.fid x.id) (if write then ptWR else ptRD) tc (x.core + (if x.armed then 0x400 else 0))
    (if write then dDnode d else dSnode d) p.off n p.bytes)

/-- The fault of a remote access. -/
def fidRemoteFault (x : Xfer) (write : Bool) (p : FidPut) (st : Nat) : FidFault :=
  ⟨fidStatusReason st, 0, p.side, write, 2 ^ 48 * (if write then dDnode x.words else dSnode x.words) + p.off, p.elem⟩

/-! ### A transfer's progress -/

/-- Where a transfer stands after it has gone as far as it can. -/
inductive FidOut where
  | done (x : Xfer)
  | wait (x : Xfer)
  | fail (x : Xfer) (f : FidFault)

/-- Unit `x.unit` is written: what it adds is added. -/
def Xfer.stored (x : Xfer) (a : FidAcc) : Xfer :=
  { x with unit := x.unit + 1, got := [], puts := [], acc := x.acc.join a, unitAcc := FidAcc.empty }

/-- The rounding mode of the descriptor's CC. -/
def State.fidMode (s : State) (d : List Word) : Nat := s.ccMode (dCc d)

/-- The unit whose source bytes are `b` is converted and stored, or its first remote write is sent. With the last unit of a remote
destination the transfer has issued its last local access (R214). -/
def State.fidStore (s : State) (x : Xfer) (b : List Byte) : State × FidOut :=
  let y := fidConvert x.words (s.fidMode x.words) x.key x.unit b
  let l := dstAccs x.words x.dO x.unit
  if dDrem x.words then
    match l.find? FidAccess.range with
    | some a => (s, .fail x ⟨3, 0, a.side, true, unsig 64 a.addr, a.elem⟩)
    | none =>
      let ps := remotePieces l y.1
      match ps with
      | [] => (s, .done (x.stored y.2))
      | p :: _ =>
        let r := s.fidIssue x true p p.bytes.length
        match r.2 with
        | some st => (r.1, .fail x (fidRemoteFault x true p st))
        | none => (r.1, .wait { x with puts := ps, unitAcc := y.2, localDone := x.unit + 1 == unitTotal x.words })
  else
    let s := (l.zip y.1).foldl (fun s e => s.fidWrite x.core e.1 e.2) s
    (s.bump64 (Reg.FID_CNT_BYTES (s.win x.core)) y.2.bytes, .done (x.stored y.2))

/-- The faults of the unit's local destination, behind those of its source. -/
def State.fidUnitFault (s : State) (x : Xfer) (fs : List FidFault) : State × Option FidFault :=
  if dDrem x.words then (s, firstFault fs)
  else
    let z := s.fidDstFaults x.core (dstAccs x.words x.dO x.unit)
    (z.1, firstFault (fs ++ z.2))

/-- One unit from a local source. -/
def State.fidUnitLocal (s : State) (x : Xfer) : State × FidOut :=
  let r := s.fidReads x.core (srcAccs x.words x.so x.unit)
  let z := r.1.fidUnitFault x r.2.2
  match z.2 with
  | some f => (z.1, .fail x f)
  | none => z.1.fidStore x r.2.1

/-- The requests of a unit's remote source: every piece, or, where an access leaves the address range, those before it of no higher
element, since elements are checked in L order (R219, R236). -/
def fidAsks (l : List FidAccess) : List FidPut :=
  match l.find? FidAccess.range with
  | none => remotePieces l []
  | some a => (remotePieces (l.takeWhile fun b => !b.range) []).takeWhile fun p => decide (p.elem ≤ a.elem)

/-- One unit from a remote source: the next request, or the unit's store once every answer is there. -/
def State.fidUnitRemote (s : State) (x : Xfer) : State × FidOut :=
  let l := srcAccs x.words x.so x.unit
  match (fidAsks l)[x.got.length]? with
  | some p =>
    let r := s.fidIssue x false p ((remoteLens l).getD x.got.length 0)
    match r.2 with
    | some st => (r.1, .fail x (fidRemoteFault x false p st))
    | none => (r.1, .wait x)
  | none =>
    let z := s.fidUnitFault x ((l.find? FidAccess.range).toList.map fun a => ⟨3, 0, a.side, false, unsig 64 a.addr, a.elem⟩)
    match z.2 with
    | some f => (z.1, .fail x f)
    | none => z.1.fidStore x x.got.flatten

/-- The transfer goes on from unit `x.unit` until it is done, waits for an answer, or faults. -/
def State.fidGo (s : State) (x : Xfer) : Nat → State × FidOut
  | 0 => (s, .done { x with localDone := true })
  | k + 1 =>
    if unitTotal x.words ≤ x.unit then (s, .done { x with localDone := true })
    else
      let r := if dSrem x.words then s.fidUnitRemote x else s.fidUnitLocal x
      match r.2 with
      | .done y => r.1.fidGo y k
      | o => (r.1, o)

/-! ### Effects on the core -/

/-- FID_STATUS follows the transfers and the queue. -/
def State.fidStatus (s : State) (c : Nat) : State :=
  let mine := s.fid.xfers.filter fun x => x.core == c
  s.setFlds (Reg.FID_STATUS (s.win c))
    [(Fld.FID_STATUS_ARMED, (mine.filter fun x => x.armed).length + (s.fid.armed.filter fun x => x.core == c).length),
     (Fld.FID_STATUS_QUEUE, (s.fid.queue.filter fun i => i.core == c).length),
     (Fld.FID_STATUS_REMOTE_WAIT, if mine.any fun x => !x.puts.isEmpty || (!x.localDone && dSrem x.words) then 1 else 0),
     (Fld.FID_STATUS_BUSY, if mine.isEmpty then 0 else 1)]

/-- Flags, histogram counts and the NV record of a transfer enter the registers (R224 to R227). -/
def State.fidEnter (s : State) (x : Xfer) : State :=
  let w := s.win x.core
  let s := (s.raise (Reg.FID_FLAGS w) x.acc.flags).histAll (Reg.FID_HIST w 0) x.acc.hist
  match x.acc.nv with
  | none => s
  | some e =>
    let s := s.bump32 (Reg.FID_CNT_NV w) 1
    if x.armed || s.flag (Reg.FID_EXC_INFO w) Fld.FID_EXC_INFO_VALID then s
    else (s.wr (Reg.FID_EXC w) (BitVec.ofNat 64 e.1)).wr (Reg.FID_EXC_INFO w)
      (packF [(Fld.FID_EXC_INFO_VALID, 1), (Fld.FID_EXC_INFO_SEQ, x.seq), (Fld.FID_EXC_INFO_PC, x.pc),
        (Fld.FID_EXC_INFO_KIND, e.2)])

/-- Core fault code of a reason (Table FID-10). -/
def fidFaultCode (reason : Nat) : Nat :=
  if reason = 5 ∨ reason = 6 ∨ reason = 9 ∨ reason = 0xD then fcProtection
  else if reason = 0xB then fcEngine
  else if reason = 0xC then fcSemIndex
  else if reason = 7 ∨ reason = 8 ∨ reason = 0 then fcPoison
  else fcTranslation

/-- A core faults from its Fid engine, whatever its state but OFFLINE (R237). An armed transfer has no instruction word:
TC_FAULT_INSN takes a free value (log entry 7). -/
def State.fidCoreFault (s : State) (x : Xfer) (code detail : Nat) (addr : Word) : State :=
  if s.coreState (s.win x.core) = coreOffline then s
  else if x.armed then
    let y := s.free 1
    y.2.takeFault x.core ⟨code, srcFid, true, detail, addr, y.1, 0x3FFFF⟩
  else s.takeFault x.core ⟨code, srcFid, true, detail, addr, x.word, x.pc⟩

/-- The fault of a transfer is recorded and raised (R237). -/
def State.fidFault (s : State) (x : Xfer) (f : FidFault) : State :=
  let w := s.win x.core
  let s := s.wr (Reg.FID_FAULT_DA w) (BitVec.ofNat 64 f.da)
  let s := s.wr (Reg.FID_FAULT_INFO w) (packF [(Fld.FID_FAULT_INFO_REASON, f.reason), (Fld.FID_FAULT_INFO_LEVEL, f.level),
    (Fld.FID_FAULT_INFO_SIDE, f.side), (Fld.FID_FAULT_INFO_WRITE, if f.write then 1 else 0),
    (Fld.FID_FAULT_INFO_ARMED, if x.armed then 1 else 0)])
  let s := s.wr (Reg.FID_FAULT_ELEM w) (BitVec.ofNat 64 (if f.side = 0 ∨ f.side = 5 then 0 else f.elem))
  let s := s.wr (Reg.FID_FAULT_DESC w) (packF [(Fld.FID_FAULT_DESC_DESC, x.desc)])
  s.fidCoreFault x (fidFaultCode f.reason) (if f.reason = 0xB then 0x0B else 0) (BitVec.ofNat 64 f.da)

/-- A transfer that has gone as far as it can takes its place among the transfers, or ends in its fault. -/
def State.fidSettle (s : State) (o : FidOut) : State :=
  match o with
  | .wait x => { s with fid := { s.fid with xfers := s.fid.xfers ++ [x] } }
  | .done x =>
    let s := if x.armed then s else s.fidEnter x
    { s with fid := { s.fid with xfers := s.fid.xfers ++ [{ x with localDone := true }] } }
  | .fail x f => (s.fidEnter x).fidFault x f

/-- Units of a transfer that may still be moved in one go. -/
def fidFuel (x : Xfer) : Nat := unitTotal x.words + 1

/-! ### Start -/

/-- The 256 bytes of a descriptor, read in the context of core `c`. -/
def State.fidDesc (s : State) (c : Nat) (a : Nat) : State × (FidFault ⊕ List Word) :=
  let r := s.fidRead c ⟨0, a, 256, 0, 0, 1⟩
  match r.2 with
  | .inl f => (r.1, .inl f)
  | .inr b => (r.1, .inr (bytesToWords 32 b))

/-- A transfer with the next number that begins with descriptor words `d`; its footprint in the core's own tile store, descriptor included,
is kept while it waits for a remote side. -/
def State.fidNew (s : State) (c : Nat) (armed : Bool) (desc : Nat) (d : List Word) (so dO : Word) (key : List Word)
    (seq pc : Nat) (word : Word) : Xfer :=
  let own := if dSrem d || dDrem d then s.fidSrcOwn c d so ++ s.fidDstOwn c d dO else []
  { id := s.fid.nextId, core := c, armed := armed, desc := desc, words := d, so := so, dO := dO, key := key, seq := seq, pc := pc, word := word,
    unit := 0, got := [], puts := [], acc := FidAcc.empty, unitAcc := FidAcc.empty, localDone := false,
    ownLo := match own with
      | [] => 0
      | a :: r => r.foldl (fun m e => min m e.1) a.1,
    ownHi := own.foldl (fun m e => max m (e.1 + e.2)) 0
    ownDesc := if dSrem d || dDrem d then s.fidOwn c .read ⟨0, desc, 256, 0, 0, 1⟩ else [] }

/-- The next number is taken. -/
def State.fidCounted (s : State) : State := { s with fid := { s.fid with nextId := s.fid.nextId + 1 } }

/-- An FXFER reaches the head of the queue (R213): its descriptor is read and validated, and it runs. -/
def State.fidBegin (s : State) (i : FidInsn) : State :=
  let x0 := s.fidNew i.core false i.addr.toNat [] i.so i.dO i.key i.seq i.pc i.word
  if i.addr.toNat % 64 ≠ 0 then s.fidCoreFault x0 fcEngine 6 0
  else
    let r := s.fidDesc i.core i.addr.toNat
    match r.2 with
    | .inl f => r.1.fidFault x0 f
    | .inr d =>
      match r.1.fidInvalid i.core d i.so i.dO with
      | some k => r.1.fidCoreFault x0 fcEngine k 0
      | none =>
        let x := r.1.fidNew i.core false i.addr.toNat d i.so i.dO i.key i.seq i.pc i.word
        let y := r.1.fidCounted.fidGo x (fidFuel x)
        y.1.fidSettle y.2

/-- Flags, exception record and histogram of Fid are cleared. -/
def State.fidClearFlags (s : State) (w : Nat) : State := s.wr (Reg.FID_FLAGS w) 0
def State.fidClearExc (s : State) (w : Nat) : State := (s.wr (Reg.FID_EXC w) 0).wr (Reg.FID_EXC_INFO w) 0
def State.fidClearHist (s : State) (w : Nat) : State := s.histClear (Reg.FID_HIST w 0)

/-- An FREC reaches the head of the queue (R227): bits 31 and 30 of its word are CLEAR and NOSTORE. -/
def State.fidRec (s : State) (i : FidInsn) : State :=
  let w := s.win i.core
  let s := if bit i.word.toNat 30 then s
    else s.tsWrite i.core i.addr.toNat
      (s.recordBytes (Reg.FID_FLAGS w) (Reg.FID_EXC w) (Reg.FID_EXC_INFO w) (Reg.FID_HIST w 0))
  if bit i.word.toNat 31 then ((s.fidClearFlags w).fidClearExc w).fidClearHist w else s

/-- The first entry equal to `i` leaves the queue. -/
def queueRemove (i : FidInsn) : List FidInsn → List FidInsn
  | [] => []
  | x :: r => if x = i then r else x :: queueRemove i r

/-- A transfer of core `c` has accesses to make, or remote writes to be answered. -/
def State.fidRunning (s : State) (c : Nat) : Bool := s.fid.xfers.any fun x => x.core == c && (!x.localDone || !x.puts.isEmpty)

/-- The Fid engine of core `c` takes its queue's next instructions, one at a time, while no transfer runs and no armed transfer waits to
start (R213, R214). -/
def State.fidRun (s : State) (c : Nat) : Nat → State
  | 0 => s.fidStatus c
  | k + 1 =>
    if s.fidRunning c || s.fid.armed.any fun x => x.core == c then s.fidStatus c
    else match s.fid.queue.find? fun i => i.core == c with
      | none => s.fidStatus c
      | some i =>
        let s := { s with fid := { s.fid with queue := queueRemove i s.fid.queue } }
        (if i.frec then s.fidRec i else s.fidBegin i).fidRun c k

/-- Fid work of core `c` has moved on: its queue runs, and what waited for it goes on. -/
def State.fidAfter (s : State) (c : Nat) : State :=
  let s := s.fidRun c (s.fid.queue.length + 1)
  (s.fidProgress c).ctxRelease c

/-- The answer to the request that transfer `x` waits for (R229, R364): status and data. -/
def State.fidAnswer (s : State) (x : Xfer) (st : Nat) (data : List Byte) : State :=
  let s := { s with fid := { s.fid with xfers := s.fid.xfers.erase x } }
  let write := dDrem x.words
  let r : State × FidOut :=
    if write then
      match x.puts with
      | [] => (s, .wait x)
      | p :: ps =>
        if st ≠ csOK then (s, .fail x (fidRemoteFault x true p st))
        else
          let s := s.bump64 (Reg.FID_CNT_BYTES (s.win x.core)) p.bytes.length
          match ps with
          | q :: _ =>
            let y := s.fidIssue x true q q.bytes.length
            match y.2 with
            | some st => (y.1, .fail x (fidRemoteFault x true q st))
            | none => (y.1, .wait { x with puts := ps })
          | [] => let x := x.stored x.unitAcc; s.fidGo x (fidFuel x)
    else
      let p := (remotePieces (srcAccs x.words x.so x.unit) []).getD x.got.length ⟨0, [], 0, 0⟩
      if st ≠ csOK then
        let z := s.fidUnitFault x [fidRemoteFault x false p st]
        (z.1, .fail x (z.2.getD (fidRemoteFault x false p st)))
      else let x := { x with got := x.got ++ [data] }; s.fidGo x (fidFuel x)
  (r.1.fidSettle r.2).fidAfter x.core

end Sys2Proof.Machine
end

