-- ==== Sys2Proof/Machine/Fid.lean ====
section
/-! DEFINITION. The commands of the Fid engine: FXFER and FREC (R212, R213, R227), completion (R228), armed transfers (R214)
and FID_CTRL (R224 to R226). -/

namespace Sys2Proof.Machine

/-- Instructions that the Fid queue of a core holds (Table FID-12). -/
def fidQueueSize : Nat := 16

def State.fidQueued (s : State) (c : Nat) : Nat := (s.fid.queue.filter fun i => i.core == c).length

/-- An instruction enters the Fid queue of core `c` and the sequencer goes on (R90); with a full queue it waits with WAIT_KIND 3 and
issues again. -/
def State.fidEnqueue (s s1 : State) (c : Nat) (i : FidInsn) (count : Bool) : State :=
  if s.fidQueued c ≥ fidQueueSize then s.block c 3 .stall
  else
    let s1 := if count then s1.bump32 (Reg.FID_SEQ (s1.win c)) 1 else s1
    let s1 := s1.advance c
    ({ s1 with fid := { s1.fid with queue := s1.fid.queue ++ [i] } }).fidAfter c

/-- RKEY names no register, or a block of four (R212); the rest of the word is 0. -/
def fxferLegal (r : Rest) : Bool := fImm r == 0 && fRsv r % 4 == 0

/-- FXFER (R213): S[RDESC], S[RSO], S[RDO] and the key block are read at issue; at the head of the Fid queue the descriptor
is read and validated and the transfer runs. -/
def execFxfer (core : Nat) (rest : Rest) (s : State) : Host.Outcome State Fault Refusal :=
  .next (s.issue core (insnWord 0x20 0x00 rest) (fxferLegal rest) fun s1 =>
    let w := s1.win core
    let k := fRsv rest
    s.fidEnqueue s1 core
      { core := core, frec := false, addr := s1.sreg w (fSD rest), so := s1.sreg w (fSA rest), dO := s1.sreg w (fSB rest),
        key := if k = 0 then [] else [s1.sreg w k, s1.sreg w (k + 1), s1.sreg w (k + 2), s1.sreg w (k + 3)],
        seq := s1.fld (Reg.FID_SEQ w) Fld.FID_SEQ_COUNT, pc := s1.pc w, word := insnWord 0x20 0x00 rest } true)

/-- The checks of FREC's address at issue (R212). -/
def frecCheck (store : Bool) (v : Nat) : Option IssueFault :=
  if store = false then none
  else if v / 2 ^ 21 ≠ 0 then some ⟨fcEngine, srcFid, 2, 0⟩
  else if v % 64 ≠ 0 then some ⟨fcEngine, srcFid, 6, 0⟩
  else boundsFault [(v, 384)]

/-- FREC (R227): behind every earlier FXFER, stores the record unless NOSTORE, then clears it with CLEAR. -/
def execFrec (core : Nat) (rest : Rest) (s : State) : Host.Outcome State Fault Refusal :=
  .next (
    let word := insnWord 0x20 0x01 rest
    s.issue core word (bits rest.toNat 46 32 == 0 && bits rest.toNat 29 0 == 0 && (!bit rest.toNat 30 || fSD rest == 0))
      fun s1 =>
        let a := s1.sreg (s1.win core) (fSD rest)
        match frecCheck (!bit rest.toNat 30) a.toNat with
        | some f => s1.takeFault core ⟨f.code, f.source, false, f.detail, BitVec.ofNat 64 f.addr, word, s1.pc (s1.win core)⟩
        | none => s.fidEnqueue s1 core ⟨core, true, a, 0, 0, [], 0, s1.pc (s1.win core), word⟩ false)

/-- A transfer completes (R228): it is counted, an armed one's flags enter (R227), and its semaphore is incremented. A
semaphore that breaks R106 faults the core with SIDE 5. -/
def State.fidComplete (s : State) (x : Xfer) : State :=
  let s := { s with fid := { s.fid with xfers := s.fid.xfers.erase x } }
  let s := if x.armed then s.fidEnter x else s
  let n := dSem x.words
  match if dSemEn x.words then s.semFault x.core n else none with
  | some f =>
    s.fidFault x ⟨if f = fcSemIndex then 0xC else if f = fcProtection then 0xD else 0, 0, 5, true, n, 0⟩
  | none =>
    let s := s.bump64 (Reg.FID_CNT_XFER (s.win x.core)) 1
    if dSemEn x.words then s.semInc n (dSemInc x.words) else s

/-- FXFER_COMPLETE (R228): the oldest transfer of the core with every access done completes. -/
def execFxferComplete (core : Nat) (s : State) : Host.Outcome State Fault Refusal :=
  .next (
    match s.fid.xfers.find? fun x => x.core == core && x.localDone && x.puts.isEmpty with
    | none => s
    | some x => (s.fidComplete x).fidAfter core)

/-- ARMED_TRANSFER_START (R214): the first armed transfer of the core begins, once the running transfer has issued its last
local access. -/
def execArmedTransferStart (core : Nat) (s : State) : Host.Outcome State Fault Refusal :=
  .next (
    if s.fid.xfers.any fun x => x.core == core && !x.localDone then s
    else match s.fid.armed.find? fun x => x.core == core with
      | none => s
      | some x =>
        let s := { s with fid := { s.fid with armed := s.fid.armed.erase x } }
        let r := s.fidGo x (fidFuel x)
        (r.1.fidSettle r.2).fidAfter core)

/-- The checks of an armed launch in the order of R96: a refusal code, or the descriptor's words. -/
def State.fidLaunchCheck (s : State) (c desc : Nat) : State × (Nat ⊕ List Word) :=
  let st := s.coreState (s.win c)
  if st = coreOffline then (s, .inl lrOffline)
  else if st = coreFaulted then (s, .inl lrFaulted)
  else if st = coreLoading ∨ st = coreScrubbing ∨ (s.core c).ctxHeld.isSome then (s, .inl lrBusy)
  else if s.ctxValid c = false then (s, .inl lrNoContext)
  else if desc % 64 ≠ 0 then (s, .inl lrInvalid)
  else
    let r := s.fidDesc c desc
    match r.2 with
    | .inl _ => (r.1, .inl lrTranslation)
    | .inr d => if (r.1.fidInvalid c d 0 0).isSome then (r.1, .inl lrInvalid) else (r.1, .inr d)

/-- A FID_TRANSFER action is launched on core `c` (R214), or refused (R98). -/
def State.fidLaunch (s : State) (c desc : Nat) : State :=
  let r := s.fidLaunchCheck c desc
  let w := r.1.win c
  match r.2 with
  | .inl k =>
    (r.1.launchRefused c k desc).event (Reg.FID_EVENT w) Fld.FID_EVENT_ARMED_REFUSED (Reg.FID_CNT_ARMED_REFUSED w)
  | .inr d =>
    let s := r.1.bump64 (Reg.FID_CNT_ARMED w) 1
    let x := s.fidNew c true desc d 0 0 [] 0 0x3FFFF 0
    { s.fidCounted with fid := { s.fidCounted.fid with armed := s.fid.armed ++ [x] } }.fidStatus c

/-- FID_TRANSFER (R59, R214): the next entry of T-die `die`'s queue launches its descriptor on the core TARGET names. -/
def execFidTransfer (die : Nat) (s : State) : Host.Outcome State Fault Refusal :=
  .next (if die < 4 then s.talqLaunch die actFid fun s e => s.fidLaunch (160 * die + e.target) e.desc else s)

/-- FID_CLEAR_FLAGS (R224): a write of FID_CTRL.CLEAR_FLAGS. -/
def execFidClearFlags (agent : Agent) (die phys : Nat) (s : State) : Host.Outcome State Fault Refusal :=
  .next (s.engineCtrl agent die phys State.fidClearFlags)

/-- FID_CLEAR_EXC (R225): a write of FID_CTRL.CLEAR_EXC. -/
def execFidClearExc (agent : Agent) (die phys : Nat) (s : State) : Host.Outcome State Fault Refusal :=
  .next (s.engineCtrl agent die phys State.fidClearExc)

/-- FID_CLEAR_HIST (R226): a write of FID_CTRL.CLEAR_HIST. -/
def execFidClearHist (agent : Agent) (die phys : Nat) (s : State) : Host.Outcome State Fault Refusal :=
  .next (s.engineCtrl agent die phys State.fidClearHist)

end Sys2Proof.Machine
end

