-- ==== Sys2Proof/Machine/RegView.lean ====
section
/-! DEFINITION. What a read of control space returns (R7, R11, R25, R26, R589, R591): the value kept for the register, or, where
the spec says that a read shows something else, that (R60, R119, R495, R600, Table TCR-26). -/

namespace Sys2Proof.Machine

/-- Dies at the ends of in-package link `l` that ID_CAPS names (R16, R339): a link is absent with either of them. -/
def linkCaps (l : Nat) : List Nat :=
  if l < 4 then [capTdie l]
  else if l < 8 then [capTdie ([0, 0, 1, 2].getD (l - 4) 0), capTdie ([1, 2, 3, 3].getD (l - 4) 0)]
  else if l < 12 then [capTdie (l - 8), capFdie ((l - 8) / 2)]
  else [capFdie (l - 12)]

/-- The T-die that traffic between T-dies `a` and `b` for local offset `off` crosses (R17): only 0 and 3, and 1 and 2, are no neighbours on
the ring, and bit 12 of the offset names the lower or the higher of the two between them. -/
def viaDie (a b off : Nat) : Option Nat :=
  if min a b = 0 ∧ max a b = 3 then some (if bit off 12 then 2 else 1)
  else if min a b = 1 ∧ max a b = 2 then some (if bit off 12 then 3 else 0)
  else none

/-- The ring link (Table MEM-11) between neighbouring T-dies. -/
def ringLink (a b : Nat) : Option Nat :=
  ([4, 5, 6, 7].find? fun l => linkCaps l == [capTdie (min a b), capTdie (max a b)])

/-- The ring links that traffic between T-dies `a` and `b` for local offset `off` takes (R17). No result depends on them, and what they
count is left open (log entry 1). -/
def routeLinks (a b off : Nat) : List Nat :=
  if a = b then []
  else match viaDie a b off with
    | none => (ringLink a b).toList
    | some v => (ringLink a v).toList ++ (ringLink v b).toList

/-- Bits of ID_CAPS of the units that own an address of control space (R588, R592, R594): none for the standby and Halyard
blocks and the blocks of the P-die itself. -/
def unitCaps (a : Nat) : List Nat :=
  if 0xF00001001000 ≤ a ∧ a < 0xF00001001700 then
    let q := (past 0xF00001001000 a) / 0x100
    if q < 4 then [capTdie q] else if q = 4 then [] else [capFdie (q - 5)]
  else if 0xF00010000000 ≤ a ∧ a < 0xF00014000000 then
    let d := (past 0xF00010000000 a) / 0x1000000
    let o := (past 0xF00010000000 a) % 0x1000000
    if 0xF80000 ≤ o ∧ o < 0xF83000 then [capTdie d, capStack (3 * d + (past 0xF80000 o) / 0x1000)] else [capTdie d]
  else if 0xF00021000000 ≤ a ∧ a < 0xF00022000000 then [capRse]
  else if Reg.MEMF_LINK 0 ≤ a ∧ a < Reg.MEMF_LINK 14 then linkCaps ((past (Reg.MEMF_LINK 0) a) / 0x20)
  else if 0xF00022010000 ≤ a ∧ a < 0xF0002201C000 then [capChan ((past 0xF00022010000 a) / 0x1000)]
  else if 0xF00023000000 ≤ a ∧ a < 0xF00030000000 then [capPcie]
  else if 0xF00030000000 ≤ a ∧ a < 0xF00032000000 then
    let f := (past 0xF00030000000 a) / 0x1000000
    let o := (past 0xF00030000000 a) % 0x1000000
    if 0x900000 ≤ o ∧ o < 0x904000 then [capFdie f, capPort (4 * f + (past 0x900000 o) / 0x1000)] else [capFdie f]
  else if 0xF00040000000 ≤ a ∧ a < 0xF00041000000 then [capCkp]
  else []

/-- Every unit that owns the address is present: its window can be read (R25, R26). -/
def State.readable (s : State) (a : Nat) : Bool := (unitCaps a).all s.present

/-- The unit whose bit of ID_CAPS is `b` takes writes: it works, or it is a stack or channel that has failed in operation, which R26
does not name (R340). -/
def State.takes (s : State) (b : Nat) : Bool :=
  s.working b || (decide (4 ≤ b ∧ b < 16) && s.unitFailed (b - 4)) || (decide (16 ≤ b ∧ b < 28) && s.unitFailed b)

/-- Every unit that owns the address takes writes (R26). -/
def State.writable (s : State) (a : Nat) : Bool := (unitCaps a).all s.takes

/-- The PCIe configuration window and memory window (R593). -/
def pcieCfgBase : Nat := 0xF00023000000
def pcieMemBase : Nat := 0xF00028000000

def inPcieWindow (a : Nat) : Bool :=
  (decide (pcieCfgBase ≤ a) && decide (a < pcieCfgBase + 2 ^ 26)) || (decide (pcieMemBase ≤ a) && decide (a < pcieMemBase + 2 ^ 27))

/-- ID_NODE mirrors HWS_NODE and HWS_PART (R600). -/
def State.idNode (s : State) : Word :=
  packF [(Fld.ID_NODE_NODE_VALID, s.fld Reg.HWS_NODE Fld.HWS_NODE_VALID),
    (Fld.ID_NODE_PART_VALID, s.fld Reg.HWS_PART Fld.HWS_PART_VALID),
    (Fld.ID_NODE_NODE, s.fld Reg.HWS_NODE Fld.HWS_NODE_NODE),
    (Fld.ID_NODE_EPOCH, s.fld Reg.HWS_PART Fld.HWS_PART_EPOCH),
    (Fld.ID_NODE_PARTITION, s.fld Reg.HWS_PART Fld.HWS_PART_PARTITION)]

/-- Word `i` of the event ring (R495): entry j of the ring is words 4j to 4j + 3; HEAD is the entry written next. -/
def State.ringWord (s : State) (i : Nat) : Word :=
  let age := (s.fld Reg.BWL_LOG_STATUS Fld.BWL_LOG_STATUS_HEAD + 4095 - i / 4) % 4096
  match s.logRing.reverse[age]? with
  | some e => e.word (i % 4)
  | none => 0

/-- A register of a TALQ window, as an agent reads it: ARM0 and the results are the agent's own (R60). -/
def State.talqView (s : State) (agent : Agent) (a : Nat) : Word :=
  let q := (past 0xF00001001000 a) / 0x100
  let k := armKey q agent
  match a % 0x100 with
  | 0 => sGet noArm s.hly.arm0 k
  | 0x10 =>
    let i := sGet noArmInfo s.hly.armInfo k
    setF (setF (setF (s.rd a) Fld.HLY_TALQ_STATUS_LAST_RESULT i.1) Fld.HLY_TALQ_STATUS_LAST_TAG i.2.1)
      Fld.HLY_TALQ_STATUS_CANCEL_COUNT i.2.2
  | _ => s.rd a

/-- A register of the die block of T-die `d` at block offset `o`, as an agent reads it (R119). -/
def State.dieView (s : State) (agent : Agent) (d o : Nat) : Word :=
  let b := Reg.dieBlk d
  if 0x10000 ≤ o ∧ o < 0x10800 then
    let w := Reg.TC_SEM_OWNER b ((past 0x10000 o) / 8)
    if (s.ctx agent).mayUse (s.flag w Fld.TC_SEM_OWNER_VALID) (s.fld w Fld.TC_SEM_OWNER_PARTITION) then s.rd (b + o) else 0
  else if 0x1000 ≤ o ∧ o < 0x1200 ∧ o % 0x40 < 0x28 then
    let w := Reg.EVQ_OWNER (Reg.dieEvq d ((past 0x1000 o) / 0x40))
    if (s.ctx agent).mayUse (s.flag w Fld.TC_EVQ_OWNER_VALID) (s.fld w Fld.TC_EVQ_OWNER_PARTITION) then s.rd (b + o) else 0
  else s.rd (b + o)

/-- S registers of a core read 0 while it is LOADING, RUNNING or WAITING (Table TCR-26). -/
def coreBusyState (st : Nat) : Bool := st == coreLoading || st == coreRunning || st == coreWaiting

/-- ME_STATUS (`limit` 8) or VE_STATUS (16) of the core of window `w`, read at `a`: the occupancy of the engine's queue and BUSY pass with time,
which the model does not keep, so that they are left open, within the queue's size, while the core's program runs (R178, R211, log
entry 1). -/
def State.engineView (s : State) (w a limit : Nat) : Word :=
  let st := s.coreState w
  if st = coreRunning ∨ st = coreWaiting then
    let v := (Config.openCount a s.time s.freeCtr).toNat
    packF [(Fld.VE_STATUS_QUEUE, v / 2 % (1 + limit)), (Fld.VE_STATUS_BUSY, v % 2)]
  else 0

/-- A register of a T-die region, at its offset, as an agent reads it. -/
def State.tdieView (s : State) (agent : Agent) (d o : Nat) : Word :=
  if o < 0xA80000 then
    let w := Reg.coreWin d (o / 0x10000)
    if 0x100 ≤ o % 0x10000 ∧ o % 0x10000 < 0x200 then
      if coreBusyState (s.coreState w) ∨ o % 0x10000 = 0x100 then 0 else s.rd (w + o % 0x10000)
    else if o % 0x10000 = 0x400 then s.engineView w (w + 0x400) 8
    else if o % 0x10000 = 0x600 then s.engineView w (w + 0x600) 16
    else s.rd (w + o % 0x10000)
  else if 0xF00000 ≤ o ∧ o < 0xF80000 then s.dieView agent d (past 0xF00000 o)
  else s.rd (0xF00010000000 + 0x1000000 * d + o)

/-- Counters of time, of link traffic and of caches, which the model does not keep: what they show is left open once TIMEBASE has left
0, its value after reset. -/
def openCounter (a : Nat) : Bool :=
  if 0xF00010000000 ≤ a ∧ a < 0xF00014000000 then
    let o := (past 0xF00010000000 a) % 0x1000000
    if o < 0xA80000 then
      [0x200, 0x210, 0x218, 0x220, 0x228, 0x448, 0x648, 0x890, 0x898, 0x8A0].contains (o % 0x10000)
    else if 0xF80000 ≤ o ∧ o < 0xF83000 then [0x110, 0x118, 0x120].contains (o % 0x1000)
    else false
  else if 0xF00020000000 ≤ a ∧ a < 0xF00024000000 then
    [Reg.HOST_CNT_BACKINVAL, Reg.HOST_CNT_AGENT_DIR, Reg.HOST_CNT_SNOOP, Reg.RSE_CNT_BUSY, Reg.RSE_CNT_MAC,
      Reg.RSE_CNT_SCACHE_HIT, Reg.RSE_CNT_SCACHE_MISS].contains a
    || (decide (Reg.MEMF_LINK 0 ≤ a) && decide (a < Reg.MEMF_LINK 14))
    || (decide (0xF00022010000 ≤ a) && decide (a < 0xF0002201C000) && [0x110, 0x118, 0x120].contains (a % 0x1000))
  else if 0xF00030000000 ≤ a ∧ a < 0xF00032000000 then
    let o := (past 0xF00030000000 a) % 0x1000000
    [Reg.HWS_CNT_CACHE_FULL_NS, Reg.HWS_CNT_TAG_STALL_NS].contains a
    || (decide (0x900000 ≤ o) && decide (o < 0x904000) && [0x110, 0x118, 0x120].contains (o % 0x1000))
  else false

/-- What a read of control space at `a` returns to an agent. The PCIe windows hold no registers (R593) and are not read here. -/
def State.regView (s : State) (agent : Agent) (a : Nat) : Word :=
  if a % 8 ≠ 0 ∨ s.readable a = false then 0
  else if openCounter a then if s.time = 0 then 0 else Config.openCount a s.time s.freeCtr
  else if a = Reg.ID_NODE then s.idNode
  else if 0xF00001001000 ≤ a ∧ a < 0xF00001001700 then s.talqView agent a
  else if 0xF00004010000 ≤ a ∧ a < 0xF00004030000 then s.ringWord ((past 0xF00004010000 a) / 8)
  else if 0xF00010000000 ≤ a ∧ a < 0xF00014000000 then
    s.tdieView agent ((past 0xF00010000000 a) / 0x1000000) ((past 0xF00010000000 a) % 0x1000000)
  else s.rd a

end Sys2Proof.Machine
end

