-- ==== Sys2Proof/Machine/Host.lean ====
section
/-! DEFINITION. The host processor complex: TICK.RD, TICK.WAIT, TICK.DONE and FWAIT (R260 to R263), posted accumulates and
accesses through apertures (R251, R252, R265 to R267), widening dot products and unordered reductions (R250, R270), and the
registers that cache regions and release harts. -/

namespace Sys2Proof.Machine

/-! ### Tick instructions -/

/-- Halyard values of TICK.RD (Table HST-5). -/
def State.tickValue (s : State) (sel : Nat) : Word :=
  match sel with
  | 0 => BitVec.ofNat 64 s.step
  | 1 => BitVec.ofNat 64 s.time
  | 2 => BitVec.ofNat 64 s.phase
  | 3 => s.rd Reg.HLY_TICK_START
  | 4 => BitVec.ofNat 64 s.hlyState
  | _ => BitVec.ofNat 64 (s.fld Reg.HLY_DOMAIN Fld.HLY_DOMAIN_DOMAIN)

/-- TICK.RD (R260): rd := Halyard value sel; sel above 5 is reserved. -/
def execTickRd (hart : Nat) (word : BitVec 32) (s : State) : Host.Outcome State Fault Refusal :=
  .next (s.svareot hart word 0 true true (iRs1 word == 0 && decide (bits word.toNat 31 20 ≤ 5)) fun s =>
    (s.setXreg hart (iRd word) (s.tickValue (bits word.toNat 31 20))).retire hart)

/-- TICK.WAIT (R261): waits for phase ph of step rs1[47:0]. -/
def execTickWait (hart : Nat) (word : BitVec 32) (s : State) : Host.Outcome State Fault Refusal :=
  .next (s.svareot hart word 1 true (s.xctrl hart Fld.HOST_XCTRL_TICK_U) (iF7 word == 0 && decide (iRs2 word < 4)) fun s =>
    let st := (s.xreg hart (iRs1 word)).toNat % 2 ^ 48
    let p := iRs2 word
    let rd := iRd word
    if s.hlyState = hlyIdle then s.hartWaitEnd hart rd 4
    else if s.hlyState = hlyJoining then s.setHart hart { s.hart hart with wait := .tick st p rd true }
    else if s.passed st (s.phaseStart p) then s.hartLate hart rd
    else s.setHart hart { s.hart hart with wait := .tick st p rd false })

/-- TICK_WAIT_END (R261): the awaited moment arrives, or the node has become IDLE. Before its step the wait goes on. -/
def execTickWaitEnd (hart : Nat) (s : State) : Host.Outcome State Fault Refusal :=
  .next (
    if s.hartUp hart = false then s
    else match (s.hart hart).wait with
      | .tick st p rd judge =>
        if s.hlyState = hlyIdle then s.hartWaitEnd hart rd 4
        else if judge ∨ s.ticking = false ∨ st ≠ s.step then s
        else (s.timeTo (s.phaseStart p)).hartWaitEnd hart rd (if s.hly.active.enabled p then 0 else 2)
      | _ => s)

/-- TICK_WAIT_INTERRUPT (R262): interrupt `cause` is taken into level `lvl`; the TICK.WAIT has not retired. -/
def execTickWaitInterrupt (hart : Nat) (lvl : HartLevel) (cause : Nat) (s : State) : Host.Outcome State Fault Refusal :=
  .next (
    match (s.hart hart).wait with
    | .tick .. =>
      if s.hartUp hart = false then s
      else
        let x := s.hart hart
        let c := BitVec.ofNat 64 (2 ^ 63 + cause % 2 ^ 63)
        let l : HartMode := match lvl with
          | .m => .m
          | .s => .s
          | .vs => .vs
        let v := match lvl with
          | .m => x.mtrap.tvec
          | .s => x.strap.tvec
          | .vs => x.vstrap.tvec
        let y := x.trapTo l c 0 none
        s.setHart hart { y with pc := if v &&& 3#64 = 1#64 then y.pc + BitVec.ofNat 64 (4 * cause) else y.pc }
    | _ => s)

/-- TICK.DONE (R263): the drain begins; step-done follows. -/
def execTickDone (hart : Nat) (word : BitVec 32) (s : State) : Host.Outcome State Fault Refusal :=
  .next (s.svareot hart word 2 true (s.xctrl hart Fld.HOST_XCTRL_TICK_U) (iF7 word == 0 && iRs2 word == 0 && iRs1 word == 0)
    fun s => s.setHart hart { s.hart hart with wait := .drain (iRd word) true })

/-- FWAIT (R263): the drain begins. -/
def execFwait (hart : Nat) (word : BitVec 32) (s : State) : Host.Outcome State Fault Refusal :=
  .next (s.svareot hart word 3 true (s.xctrl hart Fld.HOST_XCTRL_TICK_U) (iF7 word == 0 && iRs2 word == 0 && iRs1 word == 0)
    fun s => s.setHart hart { s.hart hart with wait := .drain (iRd word) false })

/-- A request is a posted operation of hart `h`. -/
def Req.postedBy (r : Req) (h : Nat) : Bool :=
  match r.origin with
  | .hart k op _ => k == h && (op == 1 || op == 3)
  | _ => false

/-- Hart `h` has posted operations without their completion. -/
def State.hartPosted (s : State) (h : Nat) : Bool :=
  (s.hws.reqs.any fun r => r.postedBy h) || s.hws.held.any fun r => r.postedBy h

/-- TICK_DONE_DRAINED (R263): every posted operation of the hart is complete; TICK.DONE signals host step-done, and the
number that failed is written to rd. -/
def execTickDoneDrained (hart : Nat) (s : State) : Host.Outcome State Fault Refusal :=
  .next (
    if s.hartUp hart = false ∨ s.hartPosted hart then s
    else match (s.hart hart).wait with
      | .drain rd signal =>
        let s := if signal then s.unitDone Fld.HLY_DONE_U_HOST else s
        let n := (s.hart hart).errs
        (s.setHart hart { s.hart hart with errs := 0 }).hartWaitEnd hart rd n
      | _ => s)

/-! ### Posted operations (R265, R266) -/

/-- A posted operation of hart `h` has failed (R266). -/
def State.postedFail (s : State) (h pa status : Nat) : State :=
  let x := s.hart h
  let s := s.setHart h { x with errs := min 0xFFFFFFFF (x.errs + 1) }
  let s :=
    if s.flag Reg.HOST_POSTED_FAIL Fld.HOST_POSTED_FAIL_VALID then s
    else
      (s.wr Reg.HOST_POSTED_FAIL
        (packF [(Fld.HOST_POSTED_FAIL_VALID, 1), (Fld.HOST_POSTED_FAIL_HART, h), (Fld.HOST_POSTED_FAIL_PA, pa)])).wr
        Reg.HOST_POSTED_STATUS (packF [(Fld.HOST_POSTED_STATUS_STATUS, status)])
  s.event Reg.HOST_EVENT Fld.HOST_EVENT_POSTED_FAIL Reg.HOST_CNT_POSTED_FAIL

/-- A physical address in the aperture region (Table HST-3). -/
def isAperture (pa : Nat) : Bool := bits pa 55 54 == 1 && decide (pa < 2 ^ 56)

def State.aperture (s : State) (pa : Nat) : Word := s.rd (Reg.HOST_AP (bits pa 53 48))

/-- The aperture can be used (R252). -/
def apertureOk (v : Word) : Bool :=
  getF v Fld.HOST_AP_VALID == 1 && getF v Fld.HOST_AP_RTC != 3 && getF v Fld.HOST_AP_NODE != 0xFFFE

/-- Class of an aperture's requests (Table HST-14). -/
def apertureClass (v : Word) : Nat :=
  if getF v Fld.HOST_AP_RTC = 1 then 3 else if getF v Fld.HOST_AP_RTC = 2 then 5 else 4

/-- An access through an unusable aperture (R252). -/
def State.apertureFault (s : State) (h : Nat) (store : Bool) (va : Word) : State :=
  (s.bump32 Reg.HOST_CNT_APERTURE 1).accessFault h store va hxAperture

/-- The request of hart `h` through an aperture; `op` is its kind (Origin.hart). -/
def State.apertureReq (s : State) (h op pa type len fmt aop : Nat) (data : List Byte) : Req :=
  let v := s.aperture pa
  { newReq (.hart h op pa) type (apertureClass v) (0x800 + h) (getF v Fld.HOST_AP_NODE) (bits pa 47 0) len data with
    fmt := fmt, op := aop }

/-- A posted operation is sent; the hart goes on. -/
def State.sendPosted (s : State) (h pa : Nat) (r : Req) : State :=
  let x := s.issueReq r
  let s := match x.2 with
    | some st => x.1.postedFail h pa st
    | none => x.1
  s.retire h

/-- FACC of `n` bytes (R265). -/
def State.facc (s : State) (h : Nat) (w : BitVec 32) (x : HartXlat) (n fmt : Nat) : State :=
  let va := s.xreg h (iRs1 w)
  match x with
  | .fault g => s.hartTrap h (if g then exStoreGuest else exStorePage) va none
  | .ok pa =>
    if isAperture pa = false ∨ pa % n ≠ 0 then s.accessFault h true va hxSize
    else if apertureOk (s.aperture pa) = false then s.apertureFault h true va
    else s.sendPosted h pa (s.apertureReq h 3 pa ptACC n fmt 0 (natLE n (s.xreg h (iRs2 w)).toNat))

/-- FACC.D (R265). A funct7 that Table HST-5 does not list is illegal here. -/
def execFaccD (hart : Nat) (word : BitVec 32) (xlat : HartXlat) (s : State) : Host.Outcome State Fault Refusal :=
  .next (s.svareot hart word 5 (iF7 word != 1) (s.xctrl hart Fld.HOST_XCTRL_FACC_U) (iF7 word == 0 && iRd word == 0)
    fun s => s.facc hart word xlat 8 0)

/-- FACC.S (R265). -/
def execFaccS (hart : Nat) (word : BitVec 32) (xlat : HartXlat) (s : State) : Host.Outcome State Fault Refusal :=
  .next (s.svareot hart word 5 (iF7 word == 1) (s.xctrl hart Fld.HOST_XCTRL_FACC_U) (iRd word == 0)
    fun s => s.facc hart word xlat 4 1)

/-! ### Accesses (R251, R252, R267) -/

/-- The access counts as a store or AMO for its exception. -/
def accStore : HartAccess → Bool
  | .load .. => false
  | .store .. => true
  | .amo .. => true
  | .lr .. => false
  | .sc .. => true
  | .vec st .. => st

/-- A scalar load or store of 1, 2, 4 or 8 bytes that is aligned. -/
def accScalar (a : HartAccess) (pa : Nat) : Bool :=
  match a with
  | .load n _ _ => (n == 1 || n == 2 || n == 4 || n == 8) && pa % n == 0
  | .store n _ => (n == 1 || n == 2 || n == 4 || n == 8) && pa % n == 0
  | _ => false

/-- An AMO of 4 or 8 bytes that is aligned. -/
def accAmo (a : HartAccess) (pa : Nat) : Bool :=
  match a with
  | .amo op n _ _ => (n == 4 || n == 8) && pa % n == 0 && decide (op ≤ 8)
  | _ => false

/-- What a load of `n` bytes writes to its register. -/
def loadValue (n : Nat) (signed : Bool) (x : Nat) : Word := if signed then wordOfInt (sext (8 * n) x) else BitVec.ofNat 64 x

/-- The reason of a failed completion (Table HWS-5). -/
def hostReason (st : Nat) : Nat :=
  if st = csUnitAbsent ∨ st = csNoRoute then hxRemoteAbsent
  else if st = csPoison then hxPoison
  else if st = csTimeout then hxRemoteTimeout
  else if st = csAmbiguous then hxAmbiguous
  else hxRemoteDenied

/-- A load or AMO through an aperture ends with a failure (R267). -/
def State.remoteFault (s : State) (h : Nat) (store : Bool) (va : Word) (st tag port : Nat) : State :=
  let s := if st = csAmbiguous then s.bump32 Reg.HOST_CNT_AMBIGUOUS 1 else s
  if st = csTimeout ∨ st = csAmbiguous then s.accessFault h store va (hostReason st) tag port
  else s.accessFault h store va (hostReason st)

/-- A load or AMO is sent through an aperture; the hart waits for its answer. -/
def State.sendRemote (s : State) (h : Nat) (va : Word) (rd n : Nat) (signed amo : Bool) (r : Req) : State :=
  let x := s.issueReq r
  match x.2 with
  | some st => x.1.remoteFault h amo va st 0 0
  | none => x.1.setHart h { x.1.hart h with wait := .remote va rd n signed amo }

/-- An access through an aperture (R252). -/
def State.accessAperture (s : State) (h : Nat) (va : Word) (pa : Nat) (a : HartAccess) : State :=
  if (accScalar a pa || accAmo a pa) = false then s.accessFault h (accStore a) va hxSize
  else if apertureOk (s.aperture pa) = false then s.apertureFault h (accStore a) va
  else match a with
    | .load n g rd => s.sendRemote h va rd n g false (s.apertureReq h 0 pa ptRD n 0 0 [])
    | .store n v => s.sendPosted h pa (s.apertureReq h 1 pa ptWR n 0 0 (natLE n v.toNat))
    | .amo op n v rd => s.sendRemote h va rd n true true (s.apertureReq h 2 pa ptATOMIC n 0 op (natLE n v.toNat))
    | _ => s

/-- What a hart reserved on the 64-byte lines from `pa` on goes when another writes them. -/
def State.resvDrop (s : State) (h pa n : Nat) : State :=
  s.host.harts.foldl (fun s e =>
    if e.1 ≠ h ∧ (e.2.resv.map fun l => decide (pa / 64 ≤ l) && decide (l ≤ (pa + n - 1) / 64)) = some true then
      s.setHart e.1 { s.hart e.1 with resv := none }
    else s) s

/-- A store of hart `h` to the tiers or to a tile store. -/
def State.hartStore (s : State) (h pa : Nat) (bs : List Byte) : State × MemStat :=
  let r := s.write pa bs
  (r.1.resvDrop h pa bs.length, r.2)

/-- A vector access (R251) from element `i` on: active elements move in order, and at one whose place is absent, or comes poisoned, the
access fault is raised with vstart at that element. -/
def State.accessVec (s : State) (h : Nat) (st vm : Bool) (n v : Nat) : Nat → List (Word × Nat) → State
  | _, [] => (s.setHart h { s.hart h with vstart := 0 }).retire h
  | i, e :: r =>
    let stop (s : State) := s.setHart h { s.hart h with vstart := i }
    if i < (s.hart h).vstart ∨ (s.hart h).vl ≤ i ∨ (vm || s.vmask h i) = false then s.accessVec h st vm n v (i + 1) r
    else if st then
      let x := s.hartStore h e.2 (natLE n (s.velem h v n i))
      if x.2 = .absent then (stop x.1).accessFault h true e.1 hxUnitAbsent else x.1.accessVec h st vm n v (i + 1) r
    else
      let x := s.read e.2 n
      match x.stat with
      | .ok => (x.st.setVelem h v n i (leNat x.data)).accessVec h st vm n v (i + 1) r
      | .poison => (stop (x.st.poisonUsed 4 x.line)).accessFault h false e.1 hxPoison
      | .absent => (stop x.st).accessFault h false e.1 hxUnitAbsent

/-- An access to the tiers or to a tile store. An SC whose reservation is held may still fail: whether it does is a free value (log
entry 71). -/
def State.accessLocal (s : State) (h : Nat) (va : Word) (pa : Nat) (a : HartAccess) : State :=
  match a with
  | .load n g rd =>
    let r := s.read pa n
    match r.stat with
    | .ok => (r.st.setXreg h rd (loadValue n g (leNat r.data))).retire h
    | .poison => (r.st.poisonUsed 4 r.line).accessFault h false va hxPoison
    | .absent => r.st.accessFault h false va hxUnitAbsent
  | .store n v =>
    let r := s.hartStore h pa (natLE n v.toNat)
    if r.2 = .absent then r.1.accessFault h true va hxUnitAbsent else r.1.retire h
  | .amo op n v rd =>
    let r := s.read pa n
    match r.stat with
    | .ok =>
      let o := leNat r.data
      ((r.st.hartStore h pa (natLE n (atomicNew op n o (v.toNat % 2 ^ (8 * n))))).1.setXreg h rd (loadValue n true o)).retire h
    | .poison => (r.st.poisonUsed 4 r.line).accessFault h true va hxPoison
    | .absent => r.st.accessFault h true va hxUnitAbsent
  | .lr n rd =>
    let r := s.read pa n
    match r.stat with
    | .ok =>
      let t := r.st.setXreg h rd (loadValue n true (leNat r.data))
      (t.setHart h { t.hart h with resv := some (pa / 64) }).retire h
    | .poison => (r.st.poisonUsed 4 r.line).accessFault h false va hxPoison
    | .absent => r.st.accessFault h false va hxUnitAbsent
  | .sc n v rd =>
    let held := (s.hart h).resv == some (pa / 64)
    let t := s.setHart h { s.hart h with resv := none }
    let f := t.free 63
    if s.exists pa n = false then s.accessFault h true va hxUnitAbsent
    else if held && bit f.1.toNat 0 then ((f.2.hartStore h pa (natLE n v.toNat)).1.setXreg h rd 0).retire h
    else (f.2.setXreg h rd 1).retire h
  | .vec st _ vm n v es => s.accessVec h st vm n v 0 es

/-- Region of HOST_FT_CACHE that holds a fast-tier offset is host-cacheable (R256). -/
def State.ftCached (s : State) (pa : Nat) : Bool :=
  let r := pa / 2 ^ 30
  bit (s.rd (Reg.HOST_FT_CACHE (r / 64))).toNat (r % 64)

/-- The access is an LR or an SC. -/
def accLrsc : HartAccess → Bool
  | .lr .. => true
  | .sc .. => true
  | _ => false

/-- A unit-stride vector access. -/
def accUnit : HartAccess → Bool
  | .vec _ u .. => u
  | _ => false

/-- An access of a hart by its region (Table HST-3); a vector access keeps to the region of its first address (log entry 71). A store to
control space and an access to a PCIe window are other commands. -/
def State.hartAccess (s : State) (h : Nat) (va : Word) (pa : Nat) (a : HartAccess) : State :=
  let size := s.accessFault h (accStore a) va hxSize
  if isAperture pa then s.accessAperture h va pa a
  else if pa < 0x018000000000 then
    if accLrsc a && !s.ftCached pa then size else s.accessLocal h va pa a
  else if 0x100000000000 ≤ pa ∧ pa < 0x180000000000 then s.accessLocal h va pa a
  else if 0xE00000000000 ≤ pa ∧ pa < 0xE00050000000 then
    if accScalar a pa || accUnit a then s.accessLocal h va pa a else size
  else if 0xF00000000000 ≤ pa ∧ pa < 0x1000000000000 then
    match a with
    | .load 8 _ rd =>
      if pa % 8 ≠ 0 then size
      else if inPcieWindow pa then s
      else (s.setXreg h rd (s.regView (.hart h (decide ((s.hart h).mode = .m))) pa)).retire h
    | .store 8 _ => if pa % 8 = 0 then s else size
    | _ => size
  else s.accessFault h (accStore a) va hxUnitAbsent

/-- APERTURE_ACCESS (R251, R252): an access of hart `hart` at virtual address `va`, translated to `pa`. -/
def execApertureAccess (hart : Nat) (va : Word) (pa : Nat) (access : HartAccess) (s : State) : Host.Outcome State Fault Refusal :=
  .next (if s.hartReady hart then s.hartAccess hart va pa access else s)

/-- The answer to a request of hart `h` (R266, R267). -/
def State.hartAnswer (s : State) (h op pa : Nat) (r : Req) (st : Nat) (data : List Byte) : State :=
  if op = 1 ∨ op = 3 then if st = csOK then s else s.postedFail h pa st
  else match (s.hart h).wait with
    | .remote va rd n g amo =>
      if st = csOK then (s.setXreg h rd (loadValue n g (leNat data))).retire h
      else s.remoteFault h amo va st r.tag (r.paths.headD r.sport)
    | _ => s

/-! ### Vector operations -/

/-- SEW in bytes, and the registers of a group at LMUL (a fraction takes one). -/
def HartSt.sew (x : HartSt) : Nat := 2 ^ bits x.vtype.toNat 5 3
def HartSt.group (x : HartSt) : Nat :=
  let l := bits x.vtype.toNat 2 0
  if l < 4 then 2 ^ l else 1

/-- Active body elements, in ascending order. -/
def State.activeElems (s : State) (h : Nat) (w : BitVec 32) (start : Nat) : List Nat :=
  ((List.range (s.hart h).vl).filter fun i => decide (start ≤ i)).filter fun i => iVm w || s.vmask h i

/-- The vector instruction of hart `h` retires. -/
def State.vretire (s : State) (h : Nat) : State := (s.setHart h { s.hart h with vstart := 0 }).retire h

/-- An unordered sum reduction (R250) of elements of `n` bytes of format `f` into a result of format `g`: word of funct6
`f6`, opcode OP-V, funct3 0b001. -/
def State.redusum (s : State) (h : Nat) (w : BitVec 32) (f6 : Nat) (fmts : Nat → Option (Nat × Nat)) : State :=
  if s.hartReady h = false ∨ iOpcode w ≠ 0x57 ∨ iF3 w ≠ 1 ∨ iF6 w ≠ f6 then s
  else
    let x := s.hart h
    let bad := bit x.vtype.toNat 63 || x.vstart != 0 || decide (4 < x.frm) || iRs2 w % x.group != 0
    match if bad then none else fmts x.sew with
    | none => s.hartIllegal h w
    | some (f, g) =>
      if x.vl = 0 then s.vretire h
      else
        let m := fmtBits g / 8
        let l := (s.activeElems h w 0).map fun i =>
          let c := s.velem h (iRs2 w) x.sew i
          if f = g then (c, 0) else let y := convertNum g rmRNE true 0 (decodeNum f c); (y.1, y.2 % 16)
        let v1 := s.velem h (iRs1 w) m 0
        let r :=
          if l.isEmpty then (v1, 0)
          else
            let t := hostTree g x.frm 16 (l.map (·.1))
            let a := hostAdd g x.frm v1 t.1
            (a.1, (a.2 ||| t.2) ||| (l.map (·.2)).foldl (· ||| ·) 0)
        ((s.setVelem h (iRd w) m 0 r.1).addFflags h r.2).vretire h

/-- VFREDUSUM (R250). -/
def execVfredusum (hart : Nat) (word : BitVec 32) (s : State) : Host.Outcome State Fault Refusal :=
  .next (s.redusum hart word 0x01 fun n =>
    if n = 2 then some (fmtFP16, fmtFP16) else if n = 4 then some (fmtFP32, fmtFP32) else if n = 8 then some (fmtFP64, fmtFP64)
    else none)

/-- VFWREDUSUM (R250): the elements are widened exactly. -/
def execVfwredusum (hart : Nat) (word : BitVec 32) (s : State) : Host.Outcome State Fault Refusal :=
  .next (s.redusum hart word 0x31 fun n =>
    if n = 2 then some (fmtFP16, fmtFP32) else if n = 4 then some (fmtFP32, fmtFP64) else none)

/-- A lane of a floating-point dot product (R270): the code and its flags. -/
def dotLane (lane narrow mode cnt vd a b : Nat) : Nat × Nat :=
  let w := fmtBits narrow
  let e (x j : Nat) : Num := decodeNum narrow (x / 2 ^ (w * j) % 2 ^ w)
  let prods := (List.range cnt).map fun j => numMul (e a j) (e b j)
  let ops := decodeNum lane vd :: ((List.range cnt).map (e a) ++ (List.range cnt).map (e b))
  let terms := decodeNum lane vd :: prods.map (·.1)
  let opp := (terms.any fun t => decide (t = .inf false)) && terms.any fun t => decide (t = .inf true)
  let nv := ops.any Num.isSnan || (prods.any fun p => p.2 != 0) || opp
  if ops.any Num.isNan || nv then (canonNan lane, if nv then flNV else 0)
  else
    let c := convertNum lane mode true 0 ((terms.drop 1).foldl (fun x t => (numAdd x t).1) (decodeNum lane vd))
    (c.1, c.2 % 16)

/-- A lane of VDOT4.I8. -/
def dotI8 (vd a b : Nat) : Nat :=
  let e (x j : Nat) : Int := sext 8 (x / 2 ^ (8 * j))
  unsig 32 ((List.range 4).foldl (fun s j => s + e a j * e b j) (vd : Int))

/-- An Xumdot word of funct6 `f6` (R269, R270) on lanes of `n` bytes. A word of a reserved funct6 or funct3 is illegal (R260);
another word is not this instruction. -/
def State.xumdot (s : State) (h : Nat) (w : BitVec 32) (f6 n : Nat) (lane : Nat → Nat → Nat → Nat → Nat × Nat) : State :=
  if s.hartReady h = false ∨ iOpcode w ≠ 0x5B then s
  else if iF3 w ≠ 0 ∨ 4 < iF6 w then s.hartIllegal h w
  else if iF6 w ≠ f6 then s
  else
    let x := s.hart h
    let g := x.group
    if bit x.vtype.toNat 63 || x.sew != n || decide (1 < x.frm) || iRd w % g != 0 || iRs1 w % g != 0 || iRs2 w % g != 0 ||
        (!iVm w && iRd w == 0) then s.hartIllegal h w
    else
      let s := (s.activeElems h w x.vstart).foldl (fun s i =>
        let r := lane x.frm (s.velem h (iRd w) n i) (s.velem h (iRs2 w) n i) (s.velem h (iRs1 w) n i)
        (s.setVelem h (iRd w) n i r.1).addFflags h r.2) s
      s.vretire h

/-- VDOT4.I8 (R270). -/
def execVdot4I8 (hart : Nat) (word : BitVec 32) (s : State) : Host.Outcome State Fault Refusal :=
  .next (s.xumdot hart word 0 4 fun _ vd a b => (dotI8 vd a b, 0))
/-- VDOT4.E4M3 (R270). -/
def execVdot4E4m3 (hart : Nat) (word : BitVec 32) (s : State) : Host.Outcome State Fault Refusal :=
  .next (s.xumdot hart word 1 4 fun rm vd a b => dotLane fmtFP32 fmtE4M3 rm 4 vd a b)
/-- VDOT4.E5M2 (R270). -/
def execVdot4E5m2 (hart : Nat) (word : BitVec 32) (s : State) : Host.Outcome State Fault Refusal :=
  .next (s.xumdot hart word 2 4 fun rm vd a b => dotLane fmtFP32 fmtE5M2 rm 4 vd a b)
/-- VDOT2.BF16 (R270). -/
def execVdot2Bf16 (hart : Nat) (word : BitVec 32) (s : State) : Host.Outcome State Fault Refusal :=
  .next (s.xumdot hart word 3 4 fun rm vd a b => dotLane fmtFP32 fmtBF16 rm 2 vd a b)
/-- VDOT2.W.S (R270). -/
def execVdot2WS (hart : Nat) (word : BitVec 32) (s : State) : Host.Outcome State Fault Refusal :=
  .next (s.xumdot hart word 4 8 fun rm vd a b => dotLane fmtFP64 fmtFP32 rm 2 vd a b)

/-! ### Registers -/

/-- HOST_FT_CACHE word `i` takes a value (R256): regions beyond the fast tier read 0. -/
def State.putFtCache (s : State) (i : Nat) (value : Word) : State :=
  let n := s.fld Reg.MEMF_MAP Fld.MEMF_MAP_SIZE_GIB
  s.wr (Reg.HOST_FT_CACHE i) (BitVec.ofNat 64
    ((ones value.toNat 64).foldl (fun m j => if 64 * i + j < n then m + 2 ^ j else m) 0))

/-- HOST_FT_CACHE (R256). The write-back of host copies and the end of agent accesses change no data (R255). -/
def execHostFtCache (agent : Agent) (index : Nat) (value : Word) (s : State) : Host.Outcome State Fault Refusal :=
  .next (if index < 24 ∧ (s.ctx agent).priv then s.putFtCache index value else s)

/-- Hart `h` leaves reset hold at its reset vector, which the spec does not give: a free value. -/
def State.hartStart (s : State) (h : Nat) : State :=
  let w := s.free 4
  w.2.setHart h { HartSt.reset with pc := w.1 }

/-- HOST_HART_RELEASE0 and 1 (R275, Table HST-12): harts that were held are released. -/
def execHostHartRelease (agent : Agent) (index : Nat) (value : Word) (s : State) : Host.Outcome State Fault Refusal :=
  .next (
    if index < 2 ∧ (s.ctx agent).priv then
      let a := if index = 0 then Reg.HOST_HART_RELEASE0 else Reg.HOST_HART_RELEASE1
      let old := s.rd a
      let new := (ones value.toNat (if index = 0 then 64 else 4)).filter fun j => !bit old.toNat j
      let s := s.wr a (BitVec.ofNat 64 (new.foldl (fun m j => m + 2 ^ j) old.toNat))
      new.foldl (fun s j => s.hartStart (64 * index + j)) s
    else s)

end Sys2Proof.Machine
end

