-- ==== Sys2Proof/Machine/Crypto.lean ====
section
/-! DEFINITION. The cryptographic functions that the spec names beside SHA-384 (R426, R473, R487): HMAC and HKDF (RFC 5869),
AES-256 in Galois/counter mode (NIST SP 800-38D) and P-384 (FIPS 186-5), as those standards define them (log entry 15). -/

namespace Sys2Proof.Machine

/-! ### HMAC and HKDF -/

def xorBytes (a b : List Byte) : List Byte := (a.zip b).map fun p => p.1 ^^^ p.2

/-- HMAC with SHA-384, whose block has 128 bytes. -/
def hmac384 (key m : List Byte) : List Byte :=
  let k := if key.length > 128 then sha384 key else key
  let k := k ++ List.replicate (128 - k.length) 0#8
  sha384 (k.map (· ^^^ 0x5C#8) ++ sha384 (k.map (· ^^^ 0x36#8) ++ m))

/-- HKDF with SHA-384: at most 96 bytes. -/
def hkdf384 (salt ikm info : List Byte) (n : Nat) : List Byte :=
  let prk := hmac384 salt ikm
  let t1 := hmac384 prk (info ++ [1#8])
  let t2 := hmac384 prk (t1 ++ info ++ [2#8])
  (t1 ++ t2).take n

/-! ### AES-256 -/

/-- Product in the field of 256 elements of FIPS 197. -/
def gmul8 (a b : Nat) : Nat :=
  (List.range 8).foldl (fun r i =>
    let d := 2 * r
    let d := if d ≥ 256 then d ^^^ 0x11B else d
    if bit b (7 - i) then d ^^^ a else d) 0

/-- `a` to the power `b`, over the bits of `b` given, highest first. -/
def gpow8 (a : Nat) (bs : List Bool) : Nat :=
  bs.foldl (fun r b => let q := gmul8 r r; if b then gmul8 q a else q) 1

/-- SubBytes of one byte: the inverse (the 254th power), then the affine map. -/
def aesSub (x : Nat) : Nat :=
  let v := gpow8 x [true, true, true, true, true, true, true, false]
  let r (n : Nat) : Nat := (v <<< n ||| v >>> (8 - n)) % 256
  (((v ^^^ r 1) ^^^ r 2) ^^^ r 3) ^^^ (r 4 ^^^ 0x63)

/-- The table of SubBytes. -/
def aesBox : List Nat := (List.range 256).map aesSub

/-- The rest of the key schedule after the first eight words: `w` holds the words so far, newest first. -/
def aesExpand (box : List Nat) : Nat → List (List Nat) → Nat → List (List Nat)
  | 0, w, _ => w
  | n + 1, w, i =>
    let t := w.getD 0 []
    let t := if i % 8 = 0 then
        let t := (t.drop 1 ++ t.take 1).map fun b => box.getD b 0
        (t.getD 0 0 ^^^ 2 ^ (i / 8 - 1)) :: t.drop 1
      else if i % 8 = 4 then t.map fun b => box.getD b 0
      else t
    let x := (t.zip (w.getD 7 [])).map fun p => p.1 ^^^ p.2
    aesExpand box n (x :: w) (i + 1)

def chunk4 : Nat → List Nat → List (List Nat)
  | 0, _ => []
  | n + 1, l => l.take 4 :: chunk4 n (l.drop 4)

/-- The 60 words of the key schedule, in order. -/
def aesKey (box : List Nat) (key : List Byte) : List (List Nat) :=
  (aesExpand box 52 (chunk4 8 (key.map BitVec.toNat)).reverse 8).reverse

/-- The state is 16 bytes, column by column. -/
def aesRoundKey (ks : List (List Nat)) (r : Nat) : List Nat := ((ks.drop (4 * r)).take 4).flatten

def xorNats (a b : List Nat) : List Nat := (a.zip b).map fun p => p.1 ^^^ p.2

def aesShift (s : List Nat) : List Nat := (List.range 16).map fun i => s.getD ((i + 4 * (i % 4)) % 16) 0

def aesMix (s : List Nat) : List Nat :=
  (List.range 16).map fun i =>
    let c (k : Nat) : Nat := s.getD (i / 4 * 4 + (i + k) % 4) 0
    ((gmul8 (c 0) 2 ^^^ gmul8 (c 1) 3) ^^^ c 2) ^^^ c 3

/-- One block under AES-256. -/
def aesBlock (box : List Nat) (ks : List (List Nat)) (b : List Nat) : List Nat :=
  let s := xorNats b (aesRoundKey ks 0)
  let s := (List.range 13).foldl
    (fun s r => xorNats (aesMix (aesShift (s.map fun x => box.getD x 0))) (aesRoundKey ks (r + 1))) s
  xorNats (aesShift (s.map fun x => box.getD x 0)) (aesRoundKey ks 14)

/-! ### Galois/counter mode, with a nonce of 12 bytes and a tag of 16 -/

/-- Product in the field of 2^128 elements of SP 800-38D, blocks as big-endian numbers. -/
def gmul128 (x y : Nat) : Nat :=
  ((List.range 128).foldl (fun (p : Nat × Nat) i =>
    let z := if bit x (127 - i) then p.1 ^^^ p.2 else p.1
    (z, if bit p.2 0 then (p.2 / 2) ^^^ (0xE1 * 2 ^ 120) else p.2 / 2)) (0, y)).1

/-- Bytes filled with zeros to whole blocks. -/
def pad16 (l : List Byte) : List Byte := l ++ List.replicate ((16 - l.length % 16) % 16) 0#8

def ghashOver (h : Nat) : Nat → Nat → List Byte → Nat
  | 0, y, _ => y
  | n + 1, y, l => ghashOver h n (gmul128 (y ^^^ beNat (l.take 16)) h) (l.drop 16)

/-- The key stream from counter block `c` on, `n` blocks. -/
def gcmStream (box : List Nat) (ks : List (List Nat)) (nonce : List Byte) (c n : Nat) : List Byte :=
  (List.range n).flatMap fun i =>
    (aesBlock box ks ((nonce ++ natBE 4 (c + i)).map BitVec.toNat)).map fun x => BitVec.ofNat 8 x

/-- The tag of a ciphertext. -/
def gcmTag (box : List Nat) (ks : List (List Nat)) (nonce aad ct : List Byte) : List Byte :=
  let h := beNat ((aesBlock box ks (List.replicate 16 0)).map fun x => BitVec.ofNat 8 x)
  let m := pad16 aad ++ pad16 ct ++ natBE 8 (8 * aad.length) ++ natBE 8 (8 * ct.length)
  xorBytes (natBE 16 (ghashOver h (m.length / 16) 0 m)) (gcmStream box ks nonce 1 1)

/-- Ciphertext and tag. -/
def gcmSeal (key nonce aad pt : List Byte) : List Byte :=
  let box := aesBox
  let ks := aesKey box key
  let ct := xorBytes pt (gcmStream box ks nonce 2 ((pt.length + 15) / 16))
  ct ++ gcmTag box ks nonce aad ct

/-- The plaintext of ciphertext and tag; none where the tag does not fit. -/
def gcmOpen (key nonce aad msg : List Byte) : Option (List Byte) :=
  if msg.length < 16 then none
  else
    let box := aesBox
    let ks := aesKey box key
    let ct := msg.take (msg.length - 16)
    if gcmTag box ks nonce aad ct = msg.drop (msg.length - 16) then
      some (xorBytes ct (gcmStream box ks nonce 2 ((ct.length + 15) / 16)))
    else none

/-! ### P-384 -/

def p384P : Nat := 2 ^ 384 - 2 ^ 128 - 2 ^ 96 + 2 ^ 32 - 1

def p384N : Nat :=
  0xffffffffffffffffffffffffffffffffffffffffffffffffc7634d81f4372ddf581a0db248b0a77aecec196accc52973

def p384B : Nat :=
  0xb3312fa7e23ee7e4988e056be3f82d19181d9c6efe8141120314088f5013875ac656398d8a2ed19d2a85c8edd3ec2aef

def p384G : Option (Nat × Nat) :=
  some (0xaa87ca22be8b05378eb1c71ef320ad746e1d3b628ba79b9859f741e082542a385502f25dbf55296c3a545e3872760ab7,
    0x3617de4a96262c6f5d9e98bf9292dc29f8f41dbd289a147ce9da3113b5f0b8c00a60b1ce1d7e819d7a431d7c90ea0e5f)

/-- `a` to the power `e` modulo `m`, over the low `n` bits of `e`. -/
def modPow (a e m : Nat) : Nat → Nat
  | 0 => 1 % m
  | n + 1 =>
    let r := modPow a e m n
    let q := r * r % m
    if bit e (383 - n) then q * a % m else q

/-- The inverse modulo a prime. -/
def modInv (a m : Nat) : Nat := modPow (a % m) (m - 2) m 384

/-- The sum of two points; `none` is the point at infinity. -/
def ecAdd (a b : Option (Nat × Nat)) : Option (Nat × Nat) :=
  match a, b with
  | none, _ => b
  | _, none => a
  | some (x1, y1), some (x2, y2) =>
    if x1 = x2 ∧ (y1 + y2) % p384P = 0 then none
    else
      let l := if x1 = x2 then
          (3 * x1 * x1 + p384P - 3) % p384P * modInv (2 * y1) p384P % p384P
        else (y2 + p384P - y1) % p384P * modInv (x2 + p384P - x1) p384P % p384P
      let x := (l * l + 2 * p384P - x1 - x2) % p384P
      some (x, (l * (x1 + p384P - x) + p384P - y1) % p384P)

/-- A multiple of a point, over the low `n` bits of the scalar. -/
def ecMul (k : Nat) (q : Option (Nat × Nat)) : Nat → Option (Nat × Nat)
  | 0 => none
  | n + 1 =>
    let r := ecMul k q n
    let d := ecAdd r r
    if bit k (383 - n) then ecAdd d q else d

/-- The point of a SEC1 uncompressed encoding of 97 bytes, which must lie on the curve. -/
def ecPoint (l : List Byte) : Option (Nat × Nat) :=
  let x := beNat ((l.drop 1).take 48)
  let y := beNat ((l.drop 49).take 48)
  if l.length = 97 ∧ l.head? = some 4#8 ∧ x < p384P ∧ y < p384P ∧
      y * y % p384P = (x * x * x + p384P * 3 - 3 * x + p384B) % p384P then some (x, y)
  else none

/-- The SEC1 uncompressed encoding of a point. -/
def ecBytes (q : Option (Nat × Nat)) : List Byte :=
  match q with
  | some (x, y) => 4#8 :: natBE 48 x ++ natBE 48 y
  | none => [0#8]

/-- A public key of a scalar. -/
def ecPublic (d : Nat) : List Byte := ecBytes (ecMul d p384G 384)

/-- The x-coordinate of the shared point of ECDH. -/
def ecShared (d : Nat) (q : List Byte) : Option (List Byte) :=
  match ecMul d (ecPoint q) 384 with
  | some (x, _) => some (natBE 48 x)
  | none => none

/-- ECDSA verification of (r, s), 96 bytes, over a message. -/
def ecdsaVerify (key msg sig : List Byte) : Bool :=
  let r := beNat (sig.take 48)
  let s := beNat ((sig.drop 48).take 48)
  match ecPoint key with
  | none => false
  | some q =>
    if r = 0 ∨ s = 0 ∨ p384N ≤ r ∨ p384N ≤ s then false
    else
      let e := beNat (sha384 msg)
      let w := modInv s p384N
      match ecAdd (ecMul (e * w % p384N) p384G 384) (ecMul (r * w % p384N) (some q) 384) with
      | none => false
      | some (x, _) => x % p384N == r

/-- ECDSA signature with the per-message number `k`, from 1 to n − 1. -/
def ecdsaSign (d k : Nat) (msg : List Byte) : List Byte :=
  let r := match ecMul k p384G 384 with
    | some (x, _) => x % p384N
    | none => 0
  let s := modInv k p384N * (beNat (sha384 msg) + r * d) % p384N
  natBE 48 r ++ natBE 48 s

end Sys2Proof.Machine
end

