-- ==== Sys2Proof/Machine/Flash.lean ====
section
/-! DEFINITION. The configuration flash (R419 to R422): its bytes, the boot state (R470, R471), the fatal records and the
loss record as bytes (R496, R497). -/

namespace Sys2Proof.Machine

/-- An erased byte. -/
def flashDflt (_ : Nat) : Byte := 0xFF

/-- `n` bytes of the flash from offset `o`. -/
def flashBytes (l : List Host.Cell) (o : Nat) : Nat → List Byte
  | 0 => []
  | n + 1 => sGet flashDflt l o :: flashBytes l (o + 1) n

/-- Bytes programmed from offset `o` on. -/
def flashPut (l : List Host.Cell) (o : Nat) : List Byte → List Host.Cell
  | [] => l
  | b :: bs => flashPut (sSet flashDflt l o b) (o + 1) bs

def State.flash (s : State) (o n : Nat) : List Byte := flashBytes s.nvm.flash o n

def State.flashErase (s : State) (o n : Nat) : State := { s with nvm := { s.nvm with flash := sDrop o (o + n) s.nvm.flash } }

def State.flashWrite (s : State) (o : Nat) (bs : List Byte) : State :=
  { s with nvm := { s.nvm with flash := flashPut s.nvm.flash o bs } }

/-- A region that begins at offset `o` holds exactly these bytes; the rest of the flash is as it was. -/
def State.flashLoad (s : State) (o : Nat) (bs : List Byte) : State :=
  let l := s.nvm.flash
  let new := ((List.range bs.length).zip bs).filterMap fun e => if e.2 = flashDflt 0 then none else some (o + e.1, e.2)
  let all := l.filter (fun e => decide (e.1 < o)) ++ new ++ l.filter (fun e => decide (o + bs.length ≤ e.1))
  { s with nvm := { s.nvm with flash := all } }

/-! ### Layout (Table CFG-1) -/

def cfgCopyA : Nat := 0x20000
def cfgCopyB : Nat := 0x60000
def cfgLen : Nat := 0x40000
/-- Firmware slots A and B. -/
def fwSlot (t : Nat) : Nat := if t = 0 then 0x400000 else 0x1400000
def fwArea : Nat := 0x1000000
def fwMax : Nat := 16773120
def stagingBase : Nat := 0x2400000

/-- The flash answers, has a valid SFDP table and declares at least 64 MiB; else it is absent (R419). -/
def State.nvmPresent (s : State) : Bool := s.nvm.present && decide (64 ≤ s.nvm.sizeMib)

/-- The NVM header passes its checks (R422). -/
def State.nvmHeaderOk (s : State) : Bool :=
  s.flash 0 8 == [0x50#8, 0x4C, 0x59, 0x4E, 1, 0, 2, 0] && leNat (s.flash 12 4) == crc32c (s.flash 0 12)

/-! ### Boot state -/

/-- The newer of two records (R434, R470). -/
def BootRec.later (a : Option BootRec) (b : BootRec) : Option BootRec :=
  match a with
  | none => some b
  | some a => if newer32 b.rseq a.rseq then some b else some a

/-- The newest record of a half. -/
def bootNewest (l : List BootRec) : Option BootRec := l.foldl BootRec.later none

def BootRec.empty : BootRec := ⟨0, 0, 0, 0, false, false, 0, false⟩

/-- The boot record that waits for the flash, if one does (R441). -/
def NvmJob.boot? (j : NvmJob) : Option BootRec :=
  match j with
  | .boot _ r => some r
  | _ => none

/-- The current boot state: what a write that waits will record, else the newest record; its defaults when no record is valid or the
flash is absent (R470). -/
def State.boot (s : State) : BootRec :=
  match (s.bwl.nvmWait.filterMap NvmJob.boot?).getLast? with
  | some r => r
  | none => if s.nvmPresent then (bootNewest (s.nvm.bootA ++ s.nvm.bootB)).getD BootRec.empty else BootRec.empty

/-- Half B holds the current record. -/
def State.bootOnB (s : State) : Bool :=
  match bootNewest s.nvm.bootA, bootNewest s.nvm.bootB with
  | none, some _ => true
  | some a, some b => newer32 b.rseq a.rseq
  | _, none => false

/-- A configuration write holds the flash, and every other write waits for it (R441). -/
def State.nvmBusy (s : State) : Bool := s.bwl.cfgNew.isSome

/-- A write waits for the flash. -/
def State.nvmLater (s : State) (j : NvmJob) : State := { s with bwl := { s.bwl with nvmWait := s.bwl.nvmWait ++ [j] } }

/-- A record of the boot state is appended (R471); `ok` says whether erase and program succeed. -/
def State.bootPut (s : State) (ok : Bool) (r : BootRec) : State :=
  if (ok && s.nvmPresent) = false then
    (s.setFld Reg.RST_FAILSTART Fld.RST_FAILSTART_MIRROR_OK 0).event Reg.RST_EVENT Fld.RST_EVENT_BOOTSTATE_FAIL
      Reg.RST_CNT_BOOTSTATE_FAIL
  else
    let r := { r with rseq := (s.boot.rseq + 1) % 2 ^ 32 }
    let nvm :=
      if s.bootOnB then
        if s.nvm.bootB.length ≥ 512 then { s.nvm with bootA := [r] } else { s.nvm with bootB := s.nvm.bootB ++ [r] }
      else
        if s.nvm.bootA.length ≥ 512 then { s.nvm with bootB := [r] } else { s.nvm with bootA := s.nvm.bootA ++ [r] }
    { s.setFld Reg.RST_FAILSTART Fld.RST_FAILSTART_MIRROR_OK 1 with nvm := nvm }

/-- A change of the boot state: its record is appended, once the flash is free. -/
def State.bootWrite (s : State) (ok : Bool) (r : BootRec) : State := if s.nvmBusy then s.nvmLater (.boot ok r) else s.bootPut ok r

/-- CFG_BOOTSTATE and its marks in CFG_STATUS follow the boot state. -/
def State.bootShow (s : State) : State :=
  let b := s.boot
  let s := s.setFlds Reg.CFG_STATUS [(Fld.CFG_STATUS_REJ_KNOWN, if b.rejKnown then 1 else 0),
    (Fld.CFG_STATUS_CONF_KNOWN, if b.confKnown then 1 else 0)]
  s.setFlds Reg.CFG_BOOTSTATE [(Fld.CFG_BOOTSTATE_CONF_SEQ, b.confSeq), (Fld.CFG_BOOTSTATE_REJ_SEQ, b.rejSeq)]

/-! ### The fatal-event region -/

def LogEntry.bytes (e : LogEntry) : List Byte := wordsToBytes ((List.range 4).map e.word)

/-- `n` erased bytes. -/
def erased (n : Nat) : List Byte := List.replicate n 0xFF#8

/-- A list of bytes cut or filled with erased bytes to `n`. -/
def erasedTo (n : Nat) (l : List Byte) : List Byte := l.take n ++ erased (n - l.length)

/-- The 256 bytes of a fatal record (R496); what the rule gives no byte stays erased. -/
def FatalRec.bytes (r : FatalRec) : List Byte :=
  let b := [0x46#8, 0x54, 0x4C, 0x31] ++ natLE 4 r.fseq ++ natLE 8 r.serial ++ natLE 8 r.time ++ natLE 6 r.step ++ natLE 2 r.cause
  let b := erasedTo 252 (b ++ r.entries.flatMap LogEntry.bytes)
  b ++ natLE 4 (crc32c b)

/-- The 4,096 bytes of a copy of the loss record (R496). -/
def LossRec.bytes (r : LossRec) : List Byte :=
  let b := [0x4C#8, 0x53, 0x53, 0x31] ++ natLE 4 r.rseq ++ natLE 8 r.serial ++ natLE 2 r.losses.length
  let b := erasedTo 32 b ++ r.losses.flatMap fun e => natLE 1 e.1 ++ natLE 2 e.2 ++ erased 1
  let b := erasedTo 4092 b
  b ++ natLE 4 (crc32c b)

/-- The bytes of place `i` of the ring of fatal records. -/
def State.fatalBytes (s : State) (i : Nat) : List Byte :=
  match s.nvm.fatals.find? fun e => e.1 == i with
  | some (_, r) => r.bytes
  | none => erased 256

/-- The record of a fatal event that happens now (R496); its FSEQ is given when it is written. -/
def State.fatalNew (s : State) (cause : Nat) : FatalRec :=
  { fseq := 0, serial := s.serial, time := s.time, step := s.step, cause := cause, entries := (s.logRing.reverse).take 6 }

/-- A fatal record is written (R497): before the first record of a sector of 16, the sector is erased. -/
def State.fatalPut (s : State) (ok : Bool) (r : FatalRec) : State :=
  if (ok && s.nvmPresent) = false then s.event Reg.BWL_EVENT Fld.BWL_EVENT_NVM_FAIL (Reg.BWL_CNT 11)
  else
    let i := s.nvm.fatalAt % 224
    let last := s.nvm.fatals.find? fun e => e.1 == (i + 223) % 224
    let r : FatalRec :=
      { r with fseq := match last with
          | some (_, x) => (x.fseq + 1) % 2 ^ 32
          | none => 0 }
    let keep := if i % 16 = 0 then s.nvm.fatals.filter fun e => e.1 / 16 != i / 16 else s.nvm.fatals
    { s with nvm := { s.nvm with fatals := (keep.filter fun e => e.1 != i) ++ [(i, r)], fatalAt := (i + 1) % 224 } }

/-- A fatal event is recorded, once the flash is free (R441). -/
def State.fatalWrite (s : State) (ok : Bool) (cause : Nat) : State :=
  if s.nvmBusy then s.nvmLater (.fatal ok (s.fatalNew cause) none) else s.fatalPut ok (s.fatalNew cause)

end Sys2Proof.Machine
end

