-- ==== Sys2Proof/Machine/Image.lean ====
section
/-! DEFINITION. Plyn images: header, signature, records and their checks (R423 to R432), firmware images (R475, R476), and the
choice between copies (R434, R435). -/

namespace Sys2Proof.Machine

/-- `n` bytes of an image at offset `o`, as a number. -/
def imgNum (m : List Byte) (o n : Nat) : Nat := leNat ((m.drop o).take n)

def imgSeq (m : List Byte) : Nat := imgNum m 8 4
def imgBodyLen (m : List Byte) : Nat := imgNum m 12 4
def imgMagic (m : List Byte) : Bool := m.take 4 == [0x50#8, 0x4C, 0x59, 0x4E]
def imgSigned (m : List Byte) : Bool := bit (imgNum m 7 1) 0

/-- Header bytes 0 to 127 with HDR_CRC taken as 0. -/
def imgHeader (m : List Byte) : List Byte := m.take 20 ++ natLE 4 0 ++ (m.drop 24).take 104

/-- The signature under R426: of the signed message by the key of a programmed slot that is not revoked. -/
def imgSigOk (keys : List (List Byte)) (revoked : Nat) (blk msg : List Byte) : Bool :=
  let k := (blk.headD 0).toNat
  let pub := (blk.drop 8).take 97
  let hash := keys.getD k []
  decide (k < 4) && ((blk.drop 1).take 7).all (· == 0) && ((blk.drop 105).take 7).all (· == 0) && (blk.drop 208).all (· == 0) &&
    hash != [] && !bit revoked k && sha384 pub == hash && ecdsaVerify pub msg ((blk.drop 112).take 96)

/-! ### Records of a configuration image -/

def rtIDENTITY : Nat := 1
def rtPORT : Nat := 2
def rtTICK : Nat := 3
def rtMEMORY : Nat := 4
def rtFABRIC : Nat := 5
def rtPOWER : Nat := 6
def rtSECURITY : Nat := 7
def rtTELEMETRY : Nat := 8
def rtSITE : Nat := 9

/-- A record of a body: image offset, type, CRITICAL, RVER, payload length and payload words. -/
structure CfgRec where
  off   : Nat
  type  : Nat
  crit  : Bool
  rver  : Nat
  len   : Nat
  words : List Word
  deriving DecidableEq, Repr

/-- The records of a body from image offset `o` on, and the offset of a record that leaves the body malformed (R427). -/
def cfgRecords (b : List Byte) (o : Nat) : Nat → List CfgRec × Option Nat
  | 0 => ([], none)
  | k + 1 =>
    if b = [] then ([], none)
    else
      let h := leNat (b.take 8)
      let n := bits h 47 32
      if b.length < 8 + n ∨ bits h 31 24 ≠ 0 ∨ bits h 63 48 ≠ 0 ∨ n % 8 ≠ 0 then ([], some o)
      else
        let r := cfgRecords (b.drop (8 + n)) (o + 8 + n) k
        (⟨o, bits h 14 0, bit h 15, bits h 23 16, n, bytesToWords (n / 8) ((b.drop 8).take n)⟩ :: r.1, r.2)

def CfgRec.w (r : CfgRec) (i : Nat) : Nat := (wordAt r.words i).toNat

/-- A record of a type that the device knows at its version (R428). -/
def CfgRec.known (r : CfgRec) : Bool := r.rver == 1 && decide (1 ≤ r.type) && decide (r.type ≤ 9)

/-- Length of Table CFG-3. -/
def CfgRec.minLen (r : CfgRec) : Nat :=
  if r.type = rtIDENTITY then 16
  else if r.type = rtTICK then 48
  else if r.type = rtMEMORY then 216
  else if r.type = rtFABRIC then 24
  else if r.type = rtSECURITY then 8 + 48 * (if r.len < 8 then 0 else bits (r.w 0) 19 16)
  else 8

/-- A value from `lo` to `hi`. -/
def within (lo hi x : Nat) : Bool := decide (lo ≤ x) && decide (x ≤ hi)

/-- The set of a TICK record (R431). -/
def tickOf (w : Nat → Nat) : TickParams where
  period := bits (w 1) 31 0
  guard := bits (w 1) 63 32
  quiet := bits (w 2) 31 0
  markEn := bits (w 2) 34 32
  mark1 := bits (w 3) 31 0
  mark2 := bits (w 3) 63 32
  mark3 := bits (w 4) 31 0
  quantum := bits (w 4) 51 32
  maxSlips := bits (w 5) 7 0
  gen := 0

/-- Only the bits of a mask are set: the reserved ones are 0. -/
def onlyBits (mask x : Nat) : Bool := x &&& mask == x

/-- The capacity window. -/
def inCapWindow (a : Nat) : Bool := decide (capBase ≤ a) && decide (a < 0x180000000000)

/-- Every field lies in its range (Table CFG-4). -/
def CfgRec.inRange (r : CfgRec) : Bool :=
  let w := r.w
  if r.type = rtIDENTITY then onlyBits 0xFFFF (w 1) && w 1 != 0xFFFE
  else if r.type = rtPORT then
    onlyBits 0x3FFFF1F0107 (w 0) && within 4 16 (bits (w 0) 20 16) && within 10 1000 (bits (w 0) 41 32)
  else if r.type = rtTICK then
    onlyBits 3 (w 0) && onlyBits 0x7FFFFFFFF (w 2) && onlyBits 0xFFFFFFFFFFFFF (w 4) && onlyBits 0xFF (w 5) &&
      (tickOf w).check 0 == 0
  else if r.type = rtMEMORY then
    onlyBits 0x3FF3FFFFF01FF01 (w 0) && onlyBits 0xFFFFFFFFFFFF (w 1) && onlyBits 0xFFF (w 2) &&
      within 1 168 (bits (w 0) 15 8) && within 1 168 (bits (w 0) 31 24) &&
      (bits (w 0) 45 32 == 0 || within 3200 8800 (bits (w 0) 45 32)) && within 1 1000 (bits (w 0) 57 48) &&
      (if w 1 = 0 then w 2 == 0 else inCapWindow (w 1) && w 1 % 2 ^ 30 == 0) && decide (w 2 ≤ 2048)
  else if r.type = rtFABRIC then
    let req := bits (w 0) 27 16
    let lease := bits (w 0) 44 32
    let home := bits (w 0) 60 48
    onlyBits 0x1FFF1FFF0FFFFF01 (w 0) && onlyBits 0xFFFFFFFFFFFF (w 1) && onlyBits 0xFF (w 2) &&
      within 10 4000 req && within 500 8000 lease && decide (req < lease) && (home == 0 || within 500 8000 home) &&
      (w 1 == 0 || (inCapWindow (w 1) && w 1 % 2 ^ 21 == 0))
  else if r.type = rtPOWER then
    onlyBits 0xFF0FFF (w 0) && (bits (w 0) 11 0 == 0 || within 900 4095 (bits (w 0) 11 0)) && within 1 40 (bits (w 0) 23 16)
  else if r.type = rtSECURITY then onlyBits 0xF070F (w 0) && decide (bits (w 0) 19 16 ≤ 4)
  else if r.type = rtTELEMETRY then
    onlyBits 0xFFFFFFFFFFFF03FF (w 0) && decide (bits (w 0) 9 0 ≤ 1000) && decide (bits (w 0) 31 16 ≤ 0xFFFD)
  else true

def CfgRec.malformed (r : CfgRec) : Bool := r.known && decide (r.len < r.minLen)

/-- A record that counts, but for duplicates. -/
def CfgRec.usable (r : CfgRec) : Bool := r.known && !r.malformed && r.inRange

/-- What a record is held under: its type, or its port (R429). -/
def CfgRec.key (r : CfgRec) : Nat := if r.type = rtPORT then 0x200 + bits (r.w 0) 2 0 else r.type

/-- The records that are used, the first of each key; the critical duplicates; and the number skipped (R428, R429). -/
def cfgUsed : List CfgRec → List CfgRec → List CfgRec → Nat → List CfgRec × List CfgRec × Nat
  | [], used, dup, n => (used, dup, n)
  | r :: l, used, dup, n =>
    if r.usable = false then cfgUsed l used dup (n + 1)
    else if used.any fun u => u.key == r.key then
      if r.crit then cfgUsed l used (dup ++ [r]) n else cfgUsed l used dup (n + 1)
    else cfgUsed l (used ++ [r]) dup n

/-! ### Checks (Table CFG-5) -/

/-- The outcome of the checks: reason (0 valid), offset of the failing record, records used and number skipped. -/
structure ImgCheck where
  reason  : Nat
  off     : Nat := 0
  recs    : List (Nat × List Word) := []
  skipped : Nat := 0
  deriving DecidableEq, Repr

/-- Check 8: the first record in body order that is unknown and critical, or leaves the body malformed. -/
def check8 (recs : List CfgRec) (bad : Option Nat) : Option ImgCheck :=
  match recs.find? fun r => r.crit && !r.known with
  | some r => some { reason := 8, off := r.off }
  | none => bad.map fun o => { reason := 9, off := o }

/-- Check 9: the first critical record that is malformed or out of range. -/
def check9 (recs : List CfgRec) : Option ImgCheck :=
  (recs.find? fun r => r.crit && r.known && !r.usable).map fun r => { reason := if r.malformed then 9 else 10, off := r.off }

/-- Checks 8 to 12 on the body. -/
def cfgBodyCheck (serial : Nat) (rej : Option Nat) (m : List Byte) : ImgCheck :=
  let p := cfgRecords ((m.drop 128).take (imgBodyLen m)) 128 (imgBodyLen m)
  let u := cfgUsed p.1 [] [] 0
  match check8 p.1 p.2, check9 p.1 with
  | some c, _ => c
  | none, some c => c
  | none, none =>
    match u.1.find? fun r => r.type == rtIDENTITY && r.w 0 != 0 && r.w 0 != serial, u.2.1 with
    | some r, _ => { reason := 11, off := r.off }
    | none, d :: _ => { reason := 12, off := d.off }
    | none, [] =>
      if rej = some (imgSeq m) then { reason := 13 }
      else { reason := 0, recs := u.1.map fun r => (r.key, r.words), skipped := u.2.2 }

/-- Checks 1 to 3 of a header of a kind, whose words from `zeros` on must be 0. -/
def imgHeadCheck (m : List Byte) (kind zeros : Nat) : Nat :=
  if imgMagic m = false then 1
  else if imgNum m 4 1 ≠ 1 ∨ imgNum m 6 1 ≠ kind ∨ 1 < imgNum m 7 1 ∨ ((m.take 128).drop (8 * zeros)).any (· != 0) then 2
  else if imgNum m 20 4 ≠ crc32c (imgHeader m) then 3
  else 0

/-- Table CFG-5 on a configuration image of 256 KiB. -/
def cfgCheck (f : FuseSt) (serial : Nat) (signReq : Bool) (rej : Option Nat) (m : List Byte) : ImgCheck :=
  let h := imgHeadCheck m 1 4
  let n := imgBodyLen m
  let body := (m.drop 128).take n
  if h ≠ 0 then { reason := h }
  else if n % 8 ≠ 0 ∨ 261504 < n then { reason := 4 }
  else if imgNum m 16 4 ≠ crc32c body then { reason := 5 }
  else if signReq = true ∧ imgSigned m = false then { reason := 6 }
  else if imgSigned m = true ∧ imgSigOk f.cfgKeys f.cfgRevoke ((m.drop 0x3FE00).take 512) (imgHeader m ++ body) = false then
    { reason := 7 }
  else cfgBodyCheck serial rej m

/-! ### Firmware images -/

/-- Fields of Table BWL-3 within their ranges. -/
def fwRange (m : List Byte) : Bool :=
  let w4 := imgNum m 32 8
  let w5 := imgNum m 40 8
  let w6 := imgNum m 48 8
  let load := bits w5 31 0
  bits w4 39 33 == 0 && bits w4 63 56 == 0 && bits w4 55 48 == 1 && load % 8 == 0 && within 8 786432 load &&
    decide (load ≤ imgBodyLen m) && within 0x20000 (0x20000 + load - 4) (bits w5 63 32) && w6 < 1024 &&
    (w6 == 0 || within 10 600 w6)

/-- R476: checks 1 to 7 with KIND 0x02 and a signature, SECVER and the fields; the reason, 0 valid. -/
def fwCheck (f : FuseSt) (m : List Byte) : Nat :=
  let h := imgHeadCheck m 2 7
  let n := imgBodyLen m
  let body := (m.drop 0x280).take n
  if h ≠ 0 then h
  else if n % 8 ≠ 0 ∨ fwMax < 0x280 + n ∨ body.length ≠ n then 4
  else if imgNum m 16 4 ≠ crc32c body then 5
  else if imgSigned m = false then 6
  else if imgSigOk f.fwKeys f.fwRevoke ((m.drop 0x80).take 512) (imgHeader m ++ body) = false then 7
  else if imgNum m 32 4 < f.rollback then Config.rollbackReason.toNat + 1
  else if fwRange m = false then 10
  else 0

/-- The fields of a valid firmware image that the start uses. -/
def fwUse (m : List Byte) : FwUse where
  secver := imgNum m 32 4
  advance := bit (imgNum m 32 8) 32
  revokeFw := bits (imgNum m 32 8) 43 40
  revokeCfg := bits (imgNum m 32 8) 47 44
  level := bits (imgNum m 32 8) 55 48
  window := if imgNum m 48 8 = 0 then 120 else imgNum m 48 8
  key := imgNum m 0x80 1

/-- The image of firmware slot `t`. -/
def State.slotBytes (s : State) (t : Nat) : List Byte := s.flash (fwSlot t) fwArea

def State.slotValid (s : State) (t : Nat) : Bool := fwCheck s.fuse (s.slotBytes t) == 0

/-! ### Staging (R483) -/

/-- State of the staging header: 1 BUILDING, 2 PENDING, 0 anything else; and the image length. -/
def State.staging (s : State) : Nat × Nat :=
  let h := s.flash stagingBase 16
  let st := imgNum h 4 1
  if h.take 4 = [0x53, 0x54, 0x47, 0x31] ∧ imgNum h 12 4 = crc32c (h.take 12) ∧ (st = 1 ∨ st = 2) then (st, imgNum h 8 4) else (0, 0)

/-- A staging header is written. -/
def State.stageHead (s : State) (st len : Nat) : State :=
  let h := [0x53#8, 0x54, 0x47, 0x31] ++ natLE 1 st ++ erased 3 ++ natLE 4 len
  (s.flashErase stagingBase 4096).flashWrite stagingBase (h ++ natLE 4 (crc32c h))

/-- The staged image. -/
def State.staged (s : State) : List Byte := s.flash (stagingBase + 0x1000) s.staging.2

/-! ### Copies -/

/-- The bytes of copy A or B. -/
def State.copyBytes (s : State) (b : Bool) : List Byte := s.flash (if b then cfgCopyB else cfgCopyA) cfgLen

/-- The rejected sequence number, where one is set (check 12). -/
def State.rejected (s : State) : Option Nat := if s.boot.rejKnown then some s.boot.rejSeq else none

def State.copyCheck (s : State) (b : Bool) : ImgCheck := cfgCheck s.fuse s.serial s.fuse.signReq s.rejected (s.copyBytes b)

/-- The choice of R434 between copies with their validity and SEQ: false A, true B. -/
def chooseCopy (va vb : Bool) (sa sb : Nat) : Option Bool :=
  if va && vb then some (newer32 sb sa)
  else if va then some false
  else if vb then some true
  else none

end Sys2Proof.Machine
end

