-- ==== Sys2Proof/Machine/MemEvents.lean ====
section
/-! DEFINITION. The memory tiers' own commands: line reads and writes (R320, R321), write-combining (R331), refresh (R322),
patrol scrub (R334 to R336) and failure in operation (R337). -/

namespace Sys2Proof.Machine

/-- What a code guarantees for an error: none there, corrected, detected, or neither. -/
inductive CodeOut where
  | clean
  | corrects
  | detects
  | beyond
  deriving DecidableEq, Repr

/-- How many devices of `w` lanes hold the lanes `l`; with `w = 1`, how many lanes. -/
def devices (w : Nat) (l : List Nat) : Nat := (l.map (· / w)).eraseDups.length

/-- The code of a stack's line (R319): two symbols corrected, six detected; symbol s is lane s. -/
def stackCode (l : List Nat) : CodeOut :=
  if l = [] then .clean else if devices 1 l ≤ 2 then .corrects else if devices 1 l ≤ 6 then .detects else .beyond

/-- The code of a line of a channel with DIMMs of device width `w` (R328): with x4 one device corrected, two detected; with x8 one
lane corrected, one device detected. -/
def chanCode (w : Nat) (l : List Nat) : CodeOut :=
  if l = [] then .clean
  else if w = 4 then (if devices 4 l ≤ 1 then .corrects else if devices 4 l ≤ 2 then .detects else .beyond)
  else if devices 1 l ≤ 1 then .corrects else if devices 8 l ≤ 1 then .detects else .beyond

/-- The code of a tile-store line (R549): in each word of 72 bits one bit corrected, two detected. -/
def tileCode (l : List Nat) : CodeOut :=
  let worst := ((List.range 8).map fun w => (l.eraseDups.filter fun b => b / 72 == w).length).foldl max 0
  if worst = 0 then .clean else if worst = 1 then .corrects else if worst = 2 then .detects else .beyond

/-- The code of the line at `line`. -/
def State.codeOut (s : State) (line : Nat) (l : List Nat) : CodeOut :=
  match s.place line with
  | .fast _ => stackCode (l.filter fun x => decide (x < 72))
  | .cap c => chanCode (s.fld (Reg.MEMC_CH_DIMM (Reg.chanWin c) 0) Fld.MEMC_CH_DIMM_WIDTH) (l.filter fun x => decide (x < 40))
  | .tile _ => tileCode l
  | _ => .clean

/-- The symbol of the largest error; 0x7F when not located (Table MEM-9). -/
def laneSymbol (e : LaneErr) (located : Bool) : Nat := if located then e.lanes.headD 0x7F else 0x7F

/-- Bytes of a line that no rule gives. -/
def State.freeLine (s : State) : List Byte × State :=
  (wordsToBytes ((List.range 8).map fun i => Config.freeWord 60 (s.freeCtr + i)), { s with freeCtr := 8 + s.freeCtr })

/-- A line with errors beyond what its code detects: it may be detected all the same, or pass as good or as corrected with data that
are wrong. Which of these is a free value, and so are the wrong data (log entry 64). -/
def State.errBeyond (s : State) (line : Nat) (detected : State → State) : State :=
  let x := s.free 61
  if x.1.toNat % 3 = 0 then detected x.2
  else
    let y := x.2.freeLine
    (y.2.storeBytes line y.1).setErr line (if x.1.toNat % 3 = 1 then .none else .ce 0x7F)

/-- A contained error of a tile-store line (R549, R556): the line is poisoned in place, and the error counts on the die and against the
strand. -/
def State.tileBad (s : State) (line core : Nat) : State :=
  ((s.setPoison line true).bump32 (Reg.RAS_D_CNT_UE (core / 160)) 1).strandWatch core

/-- An error of a tile-store line is found (R549): corrected in place, or contained. -/
def State.tileFound (s : State) (line core : Nat) : CodeOut → State
  | .clean => s
  | .corrects => s.bump32 (Reg.RAS_D_CNT_CE (core / 160)) 1
  | .detects => s.tileBad line core
  | .beyond => s.errBeyond line fun s => s.tileBad line core

/-- The lanes in error of a stored line as a read finds them (R319, R328, R549); a line stored as poisoned is not looked at. -/
def State.errFound (s : State) (line : Nat) (e : LaneErr) : State :=
  if s.poisoned line then s
  else match s.place line with
    | .tile c => s.tileFound line c (s.codeOut line e.lanes)
    | _ =>
      match s.codeOut line e.lanes with
      | .clean => s
      | .corrects => s.setErr line (.ce (laneSymbol e true))
      | .detects => s.setErr line (.ue (laneSymbol e e.located))
      | .beyond => s.errBeyond line fun s => s.setErr line (.ue (laneSymbol e e.located))

/-- MEMORY_READ (R319, R320, R328, R337): an agent reads the line at local offset `line`, in which `err` stands. -/
def execMemoryRead (line : Nat) (err : LaneErr) (s : State) : Host.Outcome State Fault Refusal :=
  .next ((s.errFound (line / 64 * 64) err).read (line / 64 * 64) 64).st

/-- MEMORY_WRITE (R321, R329, R337): an agent writes bytes at local offset `addr`; `err` is what a read-modify-write finds
in the first line. -/
def execMemoryWrite (addr : Nat) (data : List Byte) (err : LaneErr) (s : State) : Host.Outcome State Fault Refusal :=
  .next ((s.errFound (addr / 64 * 64) err).write addr data).1

/-! ### Write-combining -/

/-- WC_AGE_EXPIRY (R331): the entry of a line reaches AGE_US. -/
def execWcAgeExpiry (line : Nat) (s : State) : Host.Outcome State Fault Refusal :=
  .next (
    match s.wcOf line with
    | none => s
    | some e => (s.timeTo (e.born + 1000 * s.fld Reg.MEMC_WC_CTRL Fld.MEMC_WC_CTRL_AGE_US)).wcFlush e)

/-- Every entry of every channel is flushed at software's request; FLUSHING reads 1 until the last write-back is complete. -/
def State.wcFlushAsked (s : State) : State :=
  if s.mem.wc = [] then s else (s.setFld Reg.MEMC_WC_CTRL Fld.MEMC_WC_CTRL_FLUSHING 1).wcFlushAll

/-- MEMC_WC_FLUSH (R331, R340): a write of FLUSH = 1. -/
def execMemcWcFlush (agent : Agent) (s : State) : Host.Outcome State Fault Refusal :=
  .next (if (s.ctx agent).priv then s.wcFlushAsked else s)

/-- WC_FLUSH_COMPLETE (R331). -/
def execWcFlushComplete (s : State) : Host.Outcome State Fault Refusal :=
  .next (s.setFld Reg.MEMC_WC_CTRL Fld.MEMC_WC_CTRL_FLUSHING 0)

/-! ### Refresh -/

/-- DRAM_REFRESH (R322, R328): rows of a unit are refreshed, which changes timing only; REFRESH of a stack reports the rate in
force, by its temperature in units of 1/16 °C. -/
def execDramRefresh (unit : Nat) (s : State) : Host.Outcome State Fault Refusal :=
  .next (
    if unit < 12 ∧ s.unitState unit = 2 then
      let t := sext 16 (s.fld (Reg.MEMF_ST_TEMP (unitWin unit)) Fld.MEMF_ST_TEMP_TEMP)
      s.setFld (Reg.MEMF_ST_STATUS (unitWin unit)) Fld.MEMF_ST_STATUS_REFRESH (if t ≤ 85 * 16 then 0 else 1)
    else s)

/-! ### Scrub (stack s is unit s, channel c is unit 16 + c) -/

def noPlace (_ : Nat) : Nat := 0

/-- The scrubber of unit `u` runs: its tier's ENABLE, and the unit working. -/
def State.scrubs (s : State) (u : Nat) : Bool :=
  s.unitState u == 2 && s.flag (if u < 16 then Reg.MEMF_SCRUB else Reg.MEMC_SCRUB) Fld.MEMF_SCRUB_ENABLE &&
    (if u < 16 then s.stackList.contains u else s.chanList.contains (u - 16))

/-- Bytes of unit `u`. -/
def State.unitSize (s : State) (u : Nat) : Nat :=
  if u < 16 then 128 * 2 ^ 30 else s.capSize / max 1 s.chanList.length

/-- Local offset of address `x` within unit `u`: the inverse of ft_locate and cap_locate. -/
def State.unitOffset (s : State) (u x : Nat) : Nat :=
  let l := if u < 16 then s.stackList else s.chanList
  let i := (l.idxOf (if u < 16 then u else u - 16))
  (if u < 16 then 0 else capBase) + 4096 * (x / 4096 * l.length + i) + x % 4096

/-- A scrub read of a line (R336): counted, and what it finds; a line already stored as poisoned is skipped and counted nowhere. -/
def State.scrubLine (s : State) (u line : Nat) : State :=
  if s.poisoned line then s
  else
    let s := s.bump64 (cntScrubLines u) 1
    match s.lineErr line with
    | .none => s
    | .ce y => s.corrected u line y
    | .ue y =>
      let s := (s.setPoison line true).event (unitEvent u) Fld.MEMC_CH_EVENT_SCRUB_UE (cntScrubUe u)
      let s := (s.bump32 (Reg.RAS_D_CNT_UE (unitDie u)) 1).setErr line .none
      s.capture (unitUeAddr u) line y

/-- SCRUB_READ (R334, R336): the scrubber of a unit reads its next line, in which `err` stands; after the last line
the next pass begins. -/
def execScrubRead (unit : Nat) (err : LaneErr) (s : State) : Host.Outcome State Fault Refusal :=
  .next (
    if s.scrubs unit = false then s
    else
      let x := sGet noPlace s.mem.scrub unit
      let a := s.unitOffset unit x
      let size := s.unitSize unit
      let s := (s.errFound a err).scrubLine unit a
      if x + 64 < size then { s with mem := { s.mem with scrub := sSet noPlace s.mem.scrub unit (x + 64) } }
      else
        { s.bump32 (cntScrubPass unit) 1 with mem := { (s.bump32 (cntScrubPass unit) 1).mem with
          scrub := sSet noPlace s.mem.scrub unit 0
          scrubAt := sSet noPlace s.mem.scrubAt unit s.time
          scrubLate := sSet noMark s.mem.scrubLate unit false } })

/-- SCRUB_PERIOD_END (R335): the period of the running pass ends before the pass; it is late once, and goes on. -/
def execScrubPeriodEnd (unit : Nat) (s : State) : Host.Outcome State Fault Refusal :=
  .next (
    if s.scrubs unit = false ∨ sGet noMark s.mem.scrubLate unit then s
    else
      let h := s.fld (if unit < 16 then Reg.MEMF_SCRUB else Reg.MEMC_SCRUB) Fld.MEMF_SCRUB_PERIOD_H
      let s := s.timeTo (sGet noPlace s.mem.scrubAt unit + 3600000000000 * h)
      let s := { s with mem := { s.mem with scrubLate := sSet noMark s.mem.scrubLate unit true } }
      s.event (unitEvent unit) Fld.MEMC_CH_EVENT_SCRUB_LATE (cntScrubLate unit))

/-! ### Failure -/

/-- MEMORY_FAIL (R337, R556, R560): a working stack or channel is declared FAILED; the entries of a channel go, the loss is
recorded (R497) and Bowline asks for service. -/
def execMemoryFail (unit : Nat) (s : State) : Host.Outcome State Fault Refusal :=
  .next (if s.unitState unit ≠ 2 ∨ s.working (unitCap unit) = false then s else (s.unitWcLost unit).unitFail unit)

end Sys2Proof.Machine
end

