-- ==== Sys2Proof/Machine/LaneCode.lean ====
section
/-! DEFINITION. The coding of a lane (R393): the additive PRBS31 scrambler, and the Reed–Solomon code RS(544,514) over 10-bit symbols.
R393 takes the code from IEEE 802.3 clause 91 and does not repeat it: the field polynomial x^10 + x^3 + 1, the generator, whose roots are
the powers 0 to 29 of the field's element x, and the order of symbols and of bits are that clause's (PRESUMED, log entry 70). -/

namespace Sys2Proof.Machine

/-- One step of a PRBS31 register of 31 bits, polynomial x^31 + x^28 + 1: the bit of the sequence, and the register after it. -/
def prbsStep (r : Nat) : Nat × Nat :=
  let b := (bits r 30 30 + bits r 27 27) % 2
  (b, (2 * r + b) % 2 ^ 31)

/-- The next `n` bits of the sequence, the first in bit 0, and the register after them. -/
def prbsRun : Nat → Nat → Nat × Nat
  | 0, r => (0, r)
  | n + 1, r =>
    let a := prbsStep r
    let t := prbsRun n a.2
    (a.1 + 2 * t.1, t.2)

/-- An element of the field times x. -/
def gfTwice (a : Nat) : Nat := if 2 * a < 1024 then 2 * a else (2 * a) ^^^ 0x409

/-- The product of two elements of the field of 1,024. -/
def gfMul (a b : Nat) : Nat := (List.range 10).foldr (fun i acc => gfTwice acc ^^^ (if bit b i then a else 0)) 0

/-- Coefficients, highest power first, of a polynomial times (X − r). -/
def gfRoot (g : List Nat) (r : Nat) : List Nat := List.zipWith (· ^^^ ·) (g ++ [0]) (0 :: g.map fun c => gfMul c r)

/-- The generator: its coefficients below the leading one, highest power first. -/
def rsGen : List Nat := ((List.range 30).foldl (fun e _ => (gfRoot e.1 e.2, gfTwice e.2)) ([1], 1)).1.tail

/-- The 30 check symbols of a message, highest power first: the remainder of the message, moved up 30 places, by the generator. -/
def rsParity (m : List Nat) : List Nat :=
  m.foldl (fun p a =>
    let k := a ^^^ p.headD 0
    List.zipWith (· ^^^ ·) (p.tail ++ [0]) (rsGen.map fun c => gfMul c k)) (List.replicate 30 0)

/-- The codeword of a message of 5,140 bits on a lane whose scrambler holds `r`, in the order of transmission, and the register after it. -/
def laneCodeword (r msg : Nat) : List Nat × Nat :=
  let w := prbsRun 5140 r
  let m := (List.range 514).map fun i => (msg ^^^ w.1) / 2 ^ (10 * i) % 1024
  (m ++ rsParity m, w.2)

end Sys2Proof.Machine
end

