-- ==== Sys2Proof/Machine/Puts.lean ====
section
/-! DEFINITION. What the F-dies issue by themselves: FABRIC_PUT (R380) and REPLICA_REFRESH (R375, R553). -/

namespace Sys2Proof.Machine

/-! ### FABRIC_PUT -/

/-- A put ends with a failure (R380). -/
def State.putFailed (s : State) (f tag status done : Nat) : State :=
  let s :=
    if s.flag Reg.HWS_PUT_FAIL Fld.HWS_PUT_FAIL_VALID then s
    else s.wr Reg.HWS_PUT_FAIL (packF [(Fld.HWS_PUT_FAIL_VALID, 1), (Fld.HWS_PUT_FAIL_FDIE, f), (Fld.HWS_PUT_FAIL_STATUS, status),
      (Fld.HWS_PUT_FAIL_TAG, tag), (Fld.HWS_PUT_FAIL_DONE_BYTES, done)])
  s.event Reg.HWS_EVENT Fld.HWS_EVENT_PUT_FAIL Reg.HWS_CNT_PUT_FAIL

/-- Every request of put `j` has ended: its semaphore is incremented, or its failure recorded (R380). -/
def State.putEnd (s : State) (j : PutJob) : State :=
  match j.bad with
  | some st => s.putFailed j.f j.tag st j.done
  | none =>
    if j.semEn = false then s
    else if 1024 ≤ j.sem ∨ s.present (capTdie (j.sem / 256)) = false ∨
        s.semOwned j.sem (s.flag Reg.HWS_PART Fld.HWS_PART_VALID) (s.fld Reg.HWS_PART Fld.HWS_PART_PARTITION) = false ∨
        sGet noMark s.tc.semPoison j.sem then s.putFailed j.f j.tag csDenied j.len
    else s.semInc j.sem j.semInc

/-- Put `j` takes its place among the puts, or ends. After a failure nothing further is sent: its requests that the egress holds are
dropped. -/
def State.putKeep (s : State) (j : PutJob) : State :=
  let mine (r : Req) : Bool := j.bad.isSome && r.origin == .put j.id
  let j := { j with open_ := j.open_ - (s.hws.held.filter mine).length }
  let s := { s with hws := { s.hws with held := s.hws.held.filter fun r => !mine r } }
  let s := { s with hws := { s.hws with puts := s.hws.puts.filter fun x => x.id != j.id } }
  if j.open_ = 0 then s.putEnd j else { s with hws := { s.hws with puts := s.hws.puts ++ [j] } }

/-- Source bytes of one request, page by page (R380). -/
def State.putRead (s : State) (f da n : Nat) : State × (Nat ⊕ List Byte) :=
  let t := s.translate (5 + f) (s.fld Reg.HWS_PUT_PT Fld.HWS_PUT_PT_ROOT) (s.fld Reg.HWS_PART Fld.HWS_PART_PARTITION) da .read
  match t.2 with
  | .bad .. => (t.1, .inl csMalformed)
  | .ok pa =>
    let r := t.1.read pa n
    match r.stat with
    | .ok => (r.st, .inr r.data)
    | .poison => (r.st.poisonUsed (5 + f) r.line, .inl csPoison)
    | .absent => (r.st, .inl csMalformed)

/-- Source bytes of one request, which may cross a page. -/
def State.putFetch (s : State) (f da n : Nat) : State × (Nat ⊕ List Byte) :=
  let k := min n (4096 - da % 4096)
  let r := s.putRead f da k
  match r.2 with
  | .inl st => (r.1, .inl st)
  | .inr b =>
    if k = n then (r.1, .inr b)
    else
      let r2 := r.1.putRead f (da + k) (n - k)
      match r2.2 with
      | .inl st => (r2.1, .inl st)
      | .inr b2 => (r2.1, .inr (b ++ b2))

/-- Every page of the source can be read. -/
def State.putSource (s : State) (f da n : Nat) : Nat → State × Bool
  | 0 => (s, true)
  | k + 1 =>
    if n = 0 then (s, true)
    else
      let t := s.translate (5 + f) (s.fld Reg.HWS_PUT_PT Fld.HWS_PUT_PT_ROOT) (s.fld Reg.HWS_PART Fld.HWS_PART_PARTITION) da .read
      let m := min n (4096 - da % 4096)
      match t.2 with
      | .bad .. => (t.1, false)
      | .ok pa => if t.1.exists pa m then t.1.putSource f (da + m) (n - m) k else (t.1, false)

/-- Class of a put's requests (Table HWS-9). -/
def rtcClass (rtc : Nat) : Nat := if rtc = 1 then 3 else if rtc = 2 then 5 else 4

/-- The requests of a put, in ascending offset, until one cannot be sent. -/
def State.putSend (s : State) (j : PutJob) (tc node off da n : Nat) : Nat → State × PutJob
  | 0 => (s, j)
  | k + 1 =>
    if n = 0 then (s, j)
    else
      let m := min n (256 - off % 256)
      let b := s.putFetch j.f da m
      match b.2 with
      | .inl st => (b.1, { j with bad := some st })
      | .inr bs =>
        let r := b.1.issueReq (newReq (.put j.id) ptWR tc (0xC00 + j.f) node (off % 2 ^ 48) m bs)
        match r.2 with
        | some st => (r.1, { j with bad := some st })
        | none => r.1.putSend { j with open_ := j.open_ + 1 } tc node (off + m) (da + m) (n - m) k

/-- A descriptor that Table HWS-9 accepts. -/
def putValid (d : List Word) : Bool :=
  let w0 := (wordAt d 0).toNat
  let w3 := (wordAt d 3).toNat
  bits w0 63 56 == 1 && bits w0 55 54 != 3 && bits w0 52 42 == 0 && (!bit w0 53 || bits w0 31 0 != 0) &&
    bits (wordAt d 1).toNat 63 48 == 0 && bits (wordAt d 2).toNat 63 48 != 0xFFFE && bits w3 63 32 == 0 && bits w3 31 0 != 0 &&
    (d.drop 4).all (· == 0)

/-- A FABRIC_PUT of F-die `f` launches. -/
def State.putLaunch (s : State) (f : Nat) (e : TalqEntry) : State :=
  let r := s.readDesc (5 + f) e.desc
  match r.stat with
  | .poison => r.st.putFailed f e.tag csPoison 0
  | .absent => r.st.putFailed f e.tag csMalformed 0
  | .ok =>
    let s := r.st
    let d := bytesToWords 8 r.data
    if putValid d = false then s.putFailed f e.tag csMalformed 0
    else
      let w0 := (wordAt d 0).toNat
      let src := bits (wordAt d 1).toNat 47 0
      let dst := (wordAt d 2).toNat
      let len := bits (wordAt d 3).toNat 31 0
      let c := s.putSource f src len (len / 4096 + 2)
      if c.2 = false then c.1.putFailed f e.tag csMalformed 0
      else
        let s := c.1
        let j : PutJob := { id := s.hws.nextJob, f := f, tag := e.tag, semEn := bit w0 53, sem := bits w0 41 32,
                            semInc := bits w0 31 0, len := len, open_ := 0, done := 0, bad := none }
        let s := { s with hws := { s.hws with nextJob := s.hws.nextJob + 1 } }
        let x := s.putSend j (rtcClass (bits w0 55 54)) (bits dst 63 48) (bits dst 47 0) src len (len / 256 + 2)
        x.1.putKeep x.2

/-- FABRIC_PUT (R59, R380): the next entry of F-die `f`'s queue launches its put. -/
def execFabricPut (f : Nat) (s : State) : Host.Outcome State Fault Refusal :=
  .next (if f < 2 then s.talqLaunch (5 + f) actPut fun s e => s.putLaunch f e else s)

/-- A request of put `id` ends with status `st` (R380). -/
def State.putDone (s : State) (id st n : Nat) : State :=
  match s.hws.puts.find? fun j => j.id == id with
  | none => s
  | some j =>
    s.putKeep { j with
      open_ := j.open_ - 1
      done := if st = csOK then j.done + n else j.done
      bad := if st = csOK then j.bad else if j.bad.isSome then j.bad else some st }

/-! ### REPLICA_REFRESH -/

/-- FULL_DUE bit of replica `r`. -/
def State.fullDue (s : State) (w r : Nat) : Bool := bit (s.fld (Reg.HWS_WIN_STATUS (Reg.winWin w)) Fld.HWS_WIN_STATUS_FULL_DUE) r

def State.setFullDue (s : State) (w r : Nat) (b : Bool) : State :=
  let x := s.fld (Reg.HWS_WIN_STATUS (Reg.winWin w)) Fld.HWS_WIN_STATUS_FULL_DUE
  let y := (if bit x r then x - 2 ^ r else x) + (if b then 2 ^ r else 0)
  s.setFld (Reg.HWS_WIN_STATUS (Reg.winWin w)) Fld.HWS_WIN_STATUS_FULL_DUE y

/-- Dirty bit of line `i` of window `w` (R374). -/
def State.dirtyBit (s : State) (w i : Nat) : Bool := bit (s.byte (s.dirtyByte w i)).toNat (i % 8)

/-- Physical offset of line `i` of window `w`, where the ingress tables map it. -/
def State.winLine (s : State) (w i : Nat) : Option Nat := (s.winPage w (i / 64)).map fun pa => pa + 64 * (i % 64)

/-- Lines that lie one after another are joined to a packet's payload: first line and its bytes. -/
def lineRuns : List (Nat × List Byte) → List (Nat × Nat × List Byte)
  | [] => []
  | (i, b) :: r =>
    match lineRuns r with
    | (j, n, c) :: t => if j = i + 1 then (i, n + 1, b ++ c) :: t else (i, 1, b) :: (j, n, c) :: t
    | [] => [(i, 1, b)]

/-- Lines of one aligned 256-byte block that the refresh reads, until a poisoned one (R553). -/
def State.refreshRead (s : State) (w : Nat) (all : Bool) : List Nat → State × List (Nat × Bool × List Byte) × Bool
  | [] => (s, [], true)
  | i :: r =>
    let dirty := s.dirtyBit w i
    match if dirty || all then s.winLine w i else none with
    | none => s.refreshRead w all r
    | some pa =>
      let x := s.read pa 64
      match x.stat with
      | .ok =>
        let y := (x.st.dirtySet w i false).refreshRead w all r
        (y.1, (i, dirty, x.data) :: y.2.1, y.2.2)
      | .poison => (x.st.poisonUsed 5 x.line, [], false)
      | .absent => x.st.refreshRead w all r

/-- A packet of refresh `j` goes to replica `r`. -/
def State.refreshSend (s : State) (j : RefreshJob) (r off n : Nat) (b : List Byte) (mark : Option Nat) : State × RefreshJob :=
  let q := newReq (.refresh j.id r) ptREFRESH 5 (0xC10 + j.f) (s.winRep j.win r) off n b
  let x := s.issueReq { q with op := if mark.isSome then 1 else 0, scount := mark.getD 0 }
  (x.1, if x.2.isSome then j else { j with open_ := j.open_ + 1 })

/-- The packets of one block for replica `r`; `n` counts the replica's data packets. -/
def State.refreshBlock (s : State) (j : RefreshJob) (r : Nat) (lines : List (Nat × Bool × List Byte)) (n : Nat) :
    State × RefreshJob × Nat :=
  let l := (lines.filter fun e => e.2.1 || j.full.contains r).map fun e => (e.1, e.2.2)
  (lineRuns l).foldl (fun x e =>
    let y := x.1.refreshSend x.2.1 r (x.1.winBase j.win + 64 * e.1) (64 * e.2.1) e.2.2 none
    (y.1, y.2, x.2.2 + 1)) (s, j, n)

/-- The packets of one block for every replica. -/
def State.refreshReps (s : State) (j : RefreshJob) (lines : List (Nat × Bool × List Byte)) (ns : List Nat) :
    State × RefreshJob × List Nat :=
  ns.foldl (fun (x : State × RefreshJob × List Nat) n =>
    let y := x.1.refreshBlock x.2.1 x.2.2.length lines n
    (y.1, y.2.1, x.2.2 ++ [y.2.2])) (s, j, [])

/-- Blocks `b` up to the end of the window; false where a poisoned line stopped the refresh. -/
def State.refreshRun (s : State) (j : RefreshJob) (b : Nat) (ns : List Nat) : Nat → State × RefreshJob × List Nat × Bool
  | 0 => (s, j, ns, true)
  | k + 1 =>
    let x := s.refreshRead j.win (!j.full.isEmpty) ((List.range 4).map fun i => 4 * b + i)
    let y := x.1.refreshReps j x.2.1 ns
    if x.2.2 then y.1.refreshRun y.2.1 (b + 1) y.2.2 k else (y.1, y.2.1, y.2.2, false)

/-- The end markers (R375). -/
def State.refreshMarks (s : State) (j : RefreshJob) (ns : List Nat) : State × RefreshJob :=
  let x := ns.foldl (fun (x : State × RefreshJob × Nat) n =>
    let y := x.1.refreshSend x.2.1 x.2.2 (x.1.winBase j.win) 0 [] (some n)
    (y.1, y.2, x.2.2 + 1)) (s, j, 0)
  (x.1, x.2.1)

/-- A refresh stopped by poison (R553). -/
def State.refreshPoison (s : State) (w reps : Nat) : State :=
  let s := (List.range reps).foldl (fun s r => s.setFullDue w r true) s
  s.event Reg.RAS_EVENT Fld.RAS_EVENT_REFRESH_POISON Reg.RAS_CNT_REFRESH_POISON

/-- A refresh takes its place among the refreshes, or is complete. -/
def State.refreshKeep (s : State) (j : RefreshJob) : State :=
  let s := { s with hws := { s.hws with refresh := s.hws.refresh.filter fun x => x.id != j.id } }
  let on := j.open_ != 0
  let s := if on then { s with hws := { s.hws with refresh := s.hws.refresh ++ [j] } } else s
  s.setFld (Reg.HWS_WIN_STATUS (Reg.winWin j.win)) Fld.HWS_WIN_STATUS_REFRESHING
    (if s.hws.refresh.any fun x => x.win == j.win then 1 else 0)

/-- A REPLICA_REFRESH of F-die `f` launches (R375). -/
def State.refreshLaunch (s : State) (f : Nat) (e : TalqEntry) : State :=
  let w := e.target
  let r := s.readDesc (5 + f) e.desc
  let d := bytesToWords 8 r.data
  let w0 := (wordAt d 0).toNat
  let ok := decide (r.stat = .ok) && bits w0 63 56 == 1 && bits w0 55 1 == 0 && (d.drop 1).all (· == 0) && r.st.winValid w &&
    r.st.winKind w == 1
  if ok = false then r.st.event Reg.HWS_EVENT Fld.HWS_EVENT_REFRESH_INVALID Reg.HWS_CNT_REFRESH_INVALID
  else
    let s := r.st
    let reps := (s.winReps w).length
    let full := (List.range reps).filter fun k => bit w0 0 || s.fullDue w k
    let j : RefreshJob := { id := s.hws.nextJob, f := f, win := w, full := full, open_ := 0 }
    let s := { s with hws := { s.hws with nextJob := s.hws.nextJob + 1 } }
    let x := s.refreshRun j 0 (List.replicate reps 0) (16 * s.winPages w)
    if x.2.2.2 then
      let y := x.1.refreshMarks x.2.1 x.2.2.1
      y.1.refreshKeep y.2
    else (x.1.refreshPoison w reps).refreshKeep x.2.1

/-- REPLICA_REFRESH (R59, R375): the next entry of F-die `f`'s queue launches its refresh in the quiet band. -/
def execReplicaRefresh (f : Nat) (s : State) : Host.Outcome State Fault Refusal :=
  .next (if f < 2 then s.talqLaunch (5 + f) actRefresh fun s e => s.refreshLaunch f e else s)

/-- A packet of refresh `id` to replica `r` is answered (R375, R376). -/
def State.refreshDone (s : State) (id r st op : Nat) : State :=
  match s.hws.refresh.find? fun j => j.id == id with
  | none => s
  | some j =>
    let s :=
      if op ≠ 1 then s
      else if st = csOK then if j.full.contains r then s.setFullDue j.win r false else s
      else if st = csRefreshOvf then
        (s.setFullDue j.win r true).event Reg.HWS_EVENT Fld.HWS_EVENT_REFRESH_OVF Reg.HWS_CNT_REFRESH_OVF
      else s
    s.refreshKeep { j with open_ := j.open_ - 1 }

end Sys2Proof.Machine
end

