-- ==== Sys2Proof/Machine/Requester.lean ====
section
/-! DEFINITION. Hawser at the requester: responses (R364), retries and failure (R361), RELEASE (R359), back-off (R382), requests
that the egress holds (R344), and a change of partition or epoch (R384). -/

namespace Sys2Proof.Machine

/-- A request ends with a status and data: what issued it goes on (R364). -/
def State.finishReq (s : State) (r : Req) (st : Nat) (data : List Byte) : State :=
  match r.origin with
  | .fid id =>
    match s.fid.xfers.find? fun x => x.id == id with
    | some x => s.fidAnswer x st data
    | none => s
  | .hart h op pa => s.hartAnswer h op pa r st data
  | .put id => s.putDone id st r.len
  | .refresh id rep => s.refreshDone id rep st r.op
  | .ckp slot => s.ckpAnswer slot st

/-- Requests that the egress held are sent in order, as far as they may be; one that has lost its route completes with
NO_ROUTE, and every one with NOT_READY while the node sends none (R342). The result lists those still held and those without a route. -/
def State.flushList (s : State) : List Req → List Req → State × List Req × List Req
  | [], kept => (s, kept, [])
  | r :: l, kept =>
    match s.reqPort r.tc r.dst r.off with
    | none =>
      let x := s.flushList l kept
      (x.1, x.2.1, r :: x.2.2)
    | some p => if s.mustHold kept r p then s.flushList l (kept ++ [r]) else (s.sendReq r p).flushList l kept

/-- What held requests waited for has changed (R344, R357, R382). -/
def State.flushHeld (s : State) : State :=
  let x := { s with hws := { s.hws with held := [] } }.flushList s.hws.held []
  let on := s.hwsOn
  x.2.2.foldl (fun (s : State) r => (s.bump32 (if on then Reg.HWS_CNT_NO_ROUTE else Reg.HWS_CNT_NOT_READY) 1).finishReq r
      (if on then csNoRoute else csNotReady) [])
    { x.1 with hws := { x.1.hws with held := x.2.1 } }

/-! ### RELEASE (R359) -/

/-- Up to 32 RELEASE words go to node `dst`. LEN is the length of the payload (R398 needs it); fields of the header that no
rule gives a RELEASE are free. -/
def State.releaseSend (s : State) (dst : Nat) : State :=
  match s.respPort dst with
  | none => s
  | some q =>
    let mine := (s.hws.release.filter fun (e : Nat × Nat × Nat) => e.1 == dst).take 32
    if mine = [] then s
    else
      let a := s.free 7
      let b := a.2.free 7
      let c := b.2.free 7
      let s := c.2
      let s := { s with hws := { s.hws with release := mine.foldl List.erase s.hws.release } }
      s.emit q (mkPacket (s.hdr0 ptRELEASE 2 (a.1.toNat % 8) dst)
        (hdr1 (b.1.toNat) (b.1.toNat / 2 ^ 20) (4 * mine.length) 0 0 false 0) c.1 (s.hdr3 (a.1.toNat / 256))
        (mine.flatMap fun e => natLE 4 (2 ^ 20 * e.2.1 + e.2.2)))

/-- A response to a request that keeps an entry has arrived: its RELEASE word waits, and 32 are sent at once. -/
def State.releaseAdd (s : State) (dst sport tag : Nat) : State :=
  let s := { s with hws := { s.hws with release := s.hws.release ++ [(dst, sport, tag)] } }
  if 32 ≤ (s.hws.release.filter fun (e : Nat × Nat × Nat) => e.1 == dst).length then s.releaseSend dst else s

/-- RELEASE_SEND (R359): within 1 µs the words that wait for node `dst` are sent. -/
def execReleaseSend (dst : Nat) (s : State) : Host.Outcome State Fault Refusal := .next (s.releaseSend dst)

/-! ### Responses -/

/-- Request `r` leaves the list of those open. -/
def State.dropReq (s : State) (r : Req) : State := { s with hws := { s.hws with reqs := s.hws.reqs.erase r } }

/-- A response of type `type` arrives (R364, R382). One of another known type is not this command's. -/
def State.hwsResponse (s : State) (type : Nat) (p : Packet) : State :=
  if s.working (capFdie 0) = false ∨ (typeKnown (pType p) ∧ pType p ≠ type) then s
  else
    let a := (s.rxTake p).hwsAccept p
    let s := a.1
    if a.2 = false then s
    else
      let s := if type = ptRD_DATA then s else s.releaseAdd (pSrc p) (pSport p) (pTag p)
      match s.hws.reqs.find? fun r => r.sport == pSport p && r.tag == pTag p && r.dst == pSrc p && answerType r.type == type with
      | some r =>
        let b := bits p.w2.toNat 63 48
        let s := s.dropReq r
        let s := if b = 0 then s
          else { s with hws := { s.hws with backoff := s.hws.backoff ++ [(r.agent, r.dst, r.off / 64, s.time + 8 * b)] } }
        (s.finishReq r (pStatus p) p.payload).flushHeld
      | none =>
        if s.hws.declared.contains (pSport p, pTag p) then s.event Reg.HWS_EVENT Fld.HWS_EVENT_LATE_CPL Reg.HWS_CNT_LATE_CPL
        else s

/-- CPL (R364). -/
def execCpl (p : Packet) (s : State) : Host.Outcome State Fault Refusal := .next (s.hwsResponse ptCPL p)
/-- RD_DATA (R364). -/
def execRdData (p : Packet) (s : State) : Host.Outcome State Fault Refusal := .next (s.hwsResponse ptRD_DATA p)
/-- ATOMIC_DATA (R364). -/
def execAtomicData (p : Packet) (s : State) : Host.Outcome State Fault Refusal := .next (s.hwsResponse ptATOMIC_DATA p)

/-- BACKOFF_EXPIRY (R382): a back-off of `agent` for a line of node `dst` ends. -/
def execBackoffExpiry (agent dst line : Nat) (s : State) : Host.Outcome State Fault Refusal :=
  .next (
    match s.hws.backoff.find? fun (e : Nat × Nat × Nat × Nat) => e.1 == agent && e.2.1 == dst && e.2.2.1 == line with
    | none => s
    | some e =>
      let s := s.timeTo e.2.2.2
      { s with hws := { s.hws with backoff := s.hws.backoff.erase e } }.flushHeld)

/-! ### Retries and failure (R361) -/

/-- The request of a port and tag that has been sent. -/
def State.reqOf (s : State) (port tag : Nat) : Option Req := s.hws.reqs.find? fun r => r.sport == port && r.tag == tag

/-- REQUEST_RETRY: the request is sent again at t0 + kT, with RETRY = 1 and a new SEND_T, while kT ≤ Λ − T. -/
def execRequestRetry (port tag : Nat) (s : State) : Host.Outcome State Fault Refusal :=
  .next (
    match s.reqOf port tag with
    | none => s
    | some r =>
      if r.leaseUs < (r.sends + 1) * r.reqUs then s
      else
        let s := s.timeTo (r.t0 + 1000 * (r.sends * r.reqUs))
        let q := s.reqPort r.tc r.dst r.off
        let r' := { r with sends := r.sends + 1, paths := q.toList ++ r.paths }
        let s := { s with hws := { s.hws with reqs := s.hws.reqs.map fun (x : Req) => if x = r then r' else x } }
        match q with
        | some q => ((s.bump32 Reg.HWS_CNT_RETRY 1).bump64 Reg.HWS_CNT_TX_REQ 1).emit q (s.reqPacket r' true)
        | none => s)

/-- A response to request `r` has arrived and waits (R364). -/
def State.answered (s : State) (r : Req) : Bool :=
  s.ports.rx.any fun e => packetCrcOk e.2 && pType e.2 == answerType r.type && pTc e.2 == 2 && pDst e.2 == s.ownNode &&
    pPart e.2 == s.fld Reg.HWS_PART Fld.HWS_PART_PARTITION && pEpoch e.2 == s.fld Reg.HWS_PART Fld.HWS_PART_EPOCH &&
    pSrc e.2 == r.dst && pSport e.2 == r.sport && pTag e.2 == r.tag

/-- REQUEST_FAILURE: no response has come by t0 + (k_max + 1) × T; an RD completes with TIMEOUT, any other with AMBIGUOUS. A
response that has arrived wins (R364). -/
def execRequestFailure (port tag : Nat) (s : State) : Host.Outcome State Fault Refusal :=
  .next (
    match s.reqOf port tag with
    | none => s
    | some r =>
      if s.answered r then s
      else
      let s := s.timeTo (r.t0 + 1000 * (((r.leaseUs - r.reqUs) / r.reqUs + 1) * r.reqUs))
      let s := s.dropReq r
      let s := { s with hws := { s.hws with declared := s.hws.declared ++ [(r.sport, r.tag)] } }
      if r.type = ptRD then ((s.bump32 Reg.HWS_CNT_TIMEOUT 1).finishReq r csTimeout []).flushHeld
      else
        let s := s.event Reg.HWS_EVENT Fld.HWS_EVENT_AMBIGUOUS Reg.HWS_CNT_AMBIGUOUS
        let s :=
          if s.flag Reg.HWS_AMBIG Fld.HWS_AMBIG_VALID then s
          else (s.wr Reg.HWS_AMBIG (packF [(Fld.HWS_AMBIG_VALID, 1), (Fld.HWS_AMBIG_SPORT, r.sport), (Fld.HWS_AMBIG_TAG, r.tag),
              (Fld.HWS_AMBIG_AGENT, r.agent), (Fld.HWS_AMBIG_NODE, r.dst)])).wr Reg.HWS_AMBIG_ADDR (BitVec.ofNat 64 r.off)
        (s.finishReq r csAmbiguous []).flushHeld)

/-! ### Partition and epoch (R384) -/

/-- HWS_PART takes a value: where it changes, nothing of the old partition and epoch remains but the journal. -/
def State.setPart (s : State) (v : Word) : State :=
  if s.rd Reg.HWS_PART = v then s
  else
    let l := s.hws.reqs ++ s.hws.held
    let wins := s.winList
    let s := s.hws.parked.foldl (fun s e => s.creditFree e.1 e.2) s
    let s := s.wr Reg.HWS_PART v
    let s := { s with hws := { s.hws with
      reqs := [], held := [], declared := [], nextTag := [], release := [], cache := [], tops := [], tob := [], toBusy := false,
      repBusy := [], stage := [], winOff := [], parked := [], backoff := [] } }
    let s := wins.foldl (fun s w =>
      (s.setFld (Reg.HWS_WIN_CFG (Reg.winWin w)) Fld.HWS_WIN_CFG_VALID 0).setFld (Reg.HWS_WIN_STATUS (Reg.winWin w))
        Fld.HWS_WIN_STATUS_PENDING_APPLY 0) s
    let s := s.replayOcc.tobOcc.refreshOcc
    l.foldl (fun s r => (s.bump32 Reg.HWS_CNT_ABORTED 1).finishReq r csAborted []) s

end Sys2Proof.Machine
end

