-- ==== Sys2Proof/Machine/LinkOps.lean ====
section
/-! DEFINITION. The link layer of a port: flits and their check (R395, R396), the packet stream (R398), credits (R401), link-level
retry (R402 to R405), what the transmitter sends (R397, R399, R415), and links that go down (R405, R406). -/

namespace Sys2Proof.Machine

/-! ### States and types -/

def optDisabled : Nat := 0
def optDown : Nat := 1
def optLight : Nat := 2
def optAcquire : Nat := 3
def optAlign : Nat := 4
def optQualify : Nat := 5
def optMap : Nat := 6
def optNegotiate : Nat := 7
def optDelay : Nat := 8
def optCal : Nat := 9
def optIncompatible : Nat := 11
def optMappedOut : Nat := 12

/-- FTYPE codes (Table OPT-4). -/
def ftIDLE : Nat := 0
def ftDATA : Nat := 1
def ftTICK : Nat := 2
def ftNAK : Nat := 3
def ftTRAIN : Nat := 4
def ftCAL : Nat := 5
def ftREMAP : Nat := 6

/-! ### Flits -/

/-- Bytes of a payload, exactly 632. -/
def flitBytes (l : List Byte) : List Byte := (l ++ List.replicate 632 0).take 632

/-- Bits [5107:0] of a flit (Table OPT-4). -/
def flitMessage (f : Flit) : Nat :=
  f.seq % 4096 + 2 ^ 12 * (f.ftype % 16) + 2 ^ 16 * (f.rsv % 16) + 2 ^ 20 * (f.ackSeq % 4096) + (if f.ackValid then 2 ^ 32 else 0) +
    2 ^ 33 * (f.crTc % 8) + 2 ^ 36 * (f.crTotal % 4096) + 2 ^ 48 * (f.rsv2 % 16) + 2 ^ 52 * leNat (flitBytes f.payload)

/-- CRC-32C of the 5,108 bits, bit 0 first: 638 bytes and 4 bits. -/
def flitCrc (f : Flit) : Nat :=
  let m := flitMessage f
  let c := (natLE 638 m).foldl crcByte 0xFFFFFFFF
  ([5104, 5105, 5106, 5107].foldl (fun c i => crcBit (c ^^^ bits m i i)) c) ^^^ 0xFFFFFFFF

/-- The 32 bytes of a tick symbol (Table HLY-1). -/
def symBytes (type : Nat) (y : TickSymbol) : List Byte :=
  wordsToBytes [
    BitVec.ofNat 64 (2 ^ 60 * (type % 16) + 2 ^ 56 * (y.verMajor % 16) + 2 ^ 52 * (y.verMinor % 16) + 2 ^ 40 * (y.domain % 4096) +
      2 ^ 32 * (y.gen % 256) + 2 ^ 24 * (y.slips % 256) + 2 ^ 17 * (y.children % 128) + (if y.pending then 65536 else 0) + y.seq % 65536),
    BitVec.ofNat 64 (2 ^ 48 * (y.level % 4) + y.step % 2 ^ 48), BitVec.ofNat 64 y.timeA, BitVec.ofNat 64 y.timeB]

/-- The type and fields of a tick symbol in a payload. -/
def readSym (b : List Byte) : Nat × TickSymbol :=
  let d := bytesToWords 4 (b.take 32)
  let w := (wordAt d 0).toNat
  let v := (wordAt d 1).toNat
  (bits w 63 60,
    { verMajor := bits w 59 56, verMinor := bits w 55 52, domain := bits w 51 40, gen := bits w 39 32, slips := bits w 31 24,
      children := bits w 23 17, pending := bit w 16, seq := bits w 15 0, level := bits v 49 48, step := bits v 47 0,
      timeA := (wordAt d 2).toNat, timeB := (wordAt d 3).toNat })

/-! ### The packet stream (R398) -/

/-- Bytes of a packet's payload, by its type, LEN, OP and STATUS (Table HWS-3). -/
def payloadLen (w0 w1 : Nat) : Nat :=
  let t := bits w0 63 58
  let n := bits w1 27 19
  if t = ptRD ∨ t = ptTFENCE ∨ t = ptCPL then 0
  else if t = ptREFRESH ∧ bits w1 14 11 = 1 then 0
  else if (t = ptRD_DATA ∨ t = ptATOMIC_DATA) ∧ bits w1 7 0 ≠ csOK then 0
  else n

/-- A packet in the stream, followed by zeros up to a multiple of 8 bytes. -/
def streamBytes (k : Packet) : List Byte :=
  packetBody k ++ natLE 8 k.trailer.toNat ++ List.replicate ((8 - k.payload.length % 8) % 8) 0

/-- The whole packets at the head of the stream, and the bytes of one that is not complete. A word of type 0 where a header
would begin makes the rest filler. -/
def streamPackets : Nat → List Byte → List Packet × List Byte
  | 0, b => ([], b)
  | k + 1, b =>
    let d := bytesToWords 4 (b.take 32)
    if b.isEmpty then ([], [])
    else if bits (wordAt d 0).toNat 63 58 = 0 then ([], [])
    else if b.length < 32 then ([], b)
    else
      let n := payloadLen (wordAt d 0).toNat (wordAt d 1).toNat
      let m := 32 + n + 8
      if b.length < (m + 7) / 8 * 8 then ([], b)
      else
        let p : Packet := ⟨wordAt d 0, wordAt d 1, wordAt d 2, wordAt d 3, (b.drop 32).take n,
          BitVec.ofNat 64 (leNat ((b.drop (32 + n)).take 8))⟩
        let r := streamPackets k (b.drop ((m + 7) / 8 * 8))
        (p :: r.1, r.2)

/-- Management-only operation of port `p` (R417). -/
def State.mgmtOnly (s : State) (p : Nat) : Bool := s.flag (Reg.OPT_CTRL (pw p)) Fld.OPT_CTRL_MGMT_ONLY

/-- A packet has come whole on port `p`; in management-only operation one of classes 2 to 5 is discarded (R417). -/
def State.rxPacket (s : State) (p : Nat) (k : Packet) : State :=
  if s.mgmtOnly p ∧ pTc k ≠ 1 then s.creditBack p (pTc k) (creditUnits k)
  else { s with ports := { s.ports with rx := s.ports.rx ++ [(some p, k)] } }

/-! ### Lanes -/

def State.rxRole (s : State) (p l : Nat) : Nat := s.fld (Reg.OPT_L_STAT (Reg.laneWin p l)) Fld.OPT_L_STAT_RX_ROLE
def State.txRole (s : State) (p l : Nat) : Nat := s.fld (Reg.OPT_L_STAT (Reg.laneWin p l)) Fld.OPT_L_STAT_TX_ROLE
def State.rxLaneState (s : State) (p l : Nat) : Nat := s.fld (Reg.OPT_L_STAT (Reg.laneWin p l)) Fld.OPT_L_STAT_RX_STATE

/-- RX_STATE codes (Table OPT-13). -/
def laneDark : Nat := 0
def laneTraining : Nat := 1
def laneInUse : Nat := 2
def laneSpare : Nat := 3
def laneFailed : Nat := 4

def roleSpare : Nat := 0x1E
def roleNone : Nat := 0x1F

def State.setRx (s : State) (p l role st : Nat) : State :=
  s.setFlds (Reg.OPT_L_STAT (Reg.laneWin p l)) [(Fld.OPT_L_STAT_RX_ROLE, role), (Fld.OPT_L_STAT_RX_STATE, st)]

def State.setTx (s : State) (p l role : Nat) : State :=
  s.setFld (Reg.OPT_L_STAT (Reg.laneWin p l)) Fld.OPT_L_STAT_TX_ROLE role

/-- Physical lane that carries logical lane `k` on receive, and on transmit. -/
def State.rxLaneOf (s : State) (p k : Nat) : Option Nat := (List.range 18).find? fun l => s.rxRole p l == k
def State.txLaneOf (s : State) (p k : Nat) : Option Nat := (List.range 18).find? fun l => s.txRole p l == k

/-- Agreed feature bit `i` (Table OPT-7). -/
def State.feature (s : State) (p i : Nat) : Bool := bit (s.fld (Reg.OPT_NEG (pw p)) Fld.OPT_NEG_FEATURES) i

/-- Least width of port `p` (R407, R417). -/
def State.minWidth (s : State) (p : Nat) : Nat :=
  if s.mgmtOnly p then 4 else max 4 (s.fld (Reg.OPT_CTRL (pw p)) Fld.OPT_CTRL_MIN_WIDTH)

/-- A width below 16 in either direction asks for service, outside management-only operation (R408). -/
def State.widthService (s : State) (p : Nat) : State :=
  if (s.fld (Reg.OPT_STATUS (pw p)) Fld.OPT_STATUS_RX_WIDTH < 16 ∨ s.fld (Reg.OPT_STATUS (pw p)) Fld.OPT_STATUS_TX_WIDTH < 16) ∧
      s.mgmtOnly p = false then
    s.service Fld.RAS_SERVICE_REQUEST_PORT_WIDTH
  else s

/-! ### Links that go down -/

def State.setOpt (s : State) (p st : Nat) : State := s.setFld (Reg.OPT_STATUS (pw p)) Fld.OPT_STATUS_STATE st

/-- Nothing of a link is left on port `p` (R405, R411): lanes, agreed values, flits, credits and sequence numbers. -/
def State.linkClear (s : State) (p : Nat) : State :=
  let s := (List.range 18).foldl (fun s l => (s.setRx p l roleNone laneDark).setTx p l roleNone) s
  let s := s.wr (Reg.OPT_NEG (pw p)) 0
  let s := s.setFlds (Reg.OPT_STATUS (pw p)) [(Fld.OPT_STATUS_RX_WIDTH, 0), (Fld.OPT_STATUS_TX_WIDTH, 0), (Fld.OPT_STATUS_CALIBRATING, 0)]
  (s.setPort p { PortSt.reset with calAt := (s.port p).calAt }).creditGone p

/-- Port `p` begins training at step 1 (R406), or stands still where it is not enabled. -/
def State.trainBegin (s : State) (p : Nat) : State :=
  let s := s.linkClear p
  if s.flag (Reg.OPT_CTRL (pw p)) Fld.OPT_CTRL_ENABLE then s.setOpt p optLight else s.setOpt p optDisabled

/-- The link of port `p` goes down (R405): routes are chosen again, and requests that the egress holds with them. -/
def State.linkDown (s : State) (p : Nat) : State :=
  if s.portState p = optUp then
    ((s.event (Reg.OPT_EVENT (pw p)) Fld.OPT_EVENT_LINK_DOWN (Reg.OPT_CNT_LINK_DOWN (pw p))).trainBegin p).chooseServe.flushHeld
  else s.trainBegin p

/-- A training failure (R406): counted, and followed by a wait of 10 ms in DOWN. -/
def State.trainFail (s : State) (p : Nat) : State :=
  let s := s.event (Reg.OPT_EVENT (pw p)) Fld.OPT_EVENT_TRAIN_FAIL (Reg.OPT_CNT_TRAIN_FAIL (pw p))
  let s := (s.linkClear p).setOpt p optDown
  s.setPort p { s.port p with waiting := true, waitAt := s.time }

/-! ### Receipt of a flit (R394, R396, R401, R403) -/

/-- The link carries traffic: it is up, or ends its training while the partner may be up already. -/
def State.traffic (s : State) (p : Nat) : Bool := s.portState p == optUp || s.portState p == optCal

/-- Something was lost (R403): DATA flits are discarded until the expected one comes, and on the first loss a NAK is due. -/
def State.rxLoss (s : State) (p : Nat) : State :=
  let x := s.port p
  if x.rxLost ∨ s.traffic p = false then s else s.setPort p { x with rxLost := true, nakDue := true, nakAt := s.time }

/-- Flits that ACK_SEQ covers leave the replay buffer (R402). -/
def ackDrop (n : Nat) (l : List ReplayFlit) : List ReplayFlit :=
  match l.findIdx? fun e => e.seq == n with
  | some i => l.drop (i + 1)
  | none => l

/-- The acknowledgement of a control field. -/
def State.takeAck (s : State) (p : Nat) (f : Flit) : State :=
  if f.ackValid then
    let x := s.port p
    let l := ackDrop f.ackSeq x.replay
    s.setPort p { x with replay := l, resend := min x.resend l.length }
  else s

/-- The credit total of a control field; one that would put more outstanding than the initial credit takes the link down. -/
def State.takeCredit (s : State) (p : Nat) (f : Flit) : State :=
  if 1 ≤ f.crTc ∧ f.crTc ≤ 5 then
    let x := s.port p
    if byClass x.crInit f.crTc < (byClass x.crSent f.crTc + 4096 - f.crTotal % 4096) % 4096 then s.linkDown p
    else s.setPort p { x with crBack := x.crBack.set (f.crTc - 1) (f.crTotal % 4096) }
  else s

/-- A codeword comes on logical lane `k`. Flits come as the receiver takes them after its common delay, those of each period in logical-lane
order (R397), so that a lane not above the last one begins the next period (DEDUCED, log entry 70). -/
def State.rxTurn (s : State) (p k : Nat) : State :=
  let x := s.port p
  s.setPort p { x with rxPeriod := if x.rxPeriod = 0 ∨ k ≤ x.rxLast then x.rxPeriod + 1 else x.rxPeriod, rxLast := k }

/-- A codeword arrives on physical lane `l` of port `p` with `errs` symbols in error: counted against its lane; one with more
than 15 is uncorrectable, and one that fails its CRC or has a reserved type is damage. Otherwise its control field is taken
(R396) and, where that does not retrain the link, `k` handles it; `k` is told whether the lane carries a logical lane. A flit of another
type is not this command's. -/
def State.flitIn (s : State) (p l errs : Nat) (f : Flit) (type : Nat) (k : Bool → State → State) : State :=
  let good := f.crc == flitCrc f && decide (f.ftype ≤ ftREMAP)
  let st := s.portState p
  if !s.working (capPort p) || decide (18 ≤ l) || decide (st < optAlign) || decide (optUp < st) || s.rxLaneState p l == laneFailed ||
      s.rxLaneState p l == laneDark || (decide (errs ≤ 15) && good && f.ftype != type) then s
  else
    let w := Reg.laneWin p l
    let used := decide (s.rxRole p l < 16)
    let s := s.bump48 (Reg.OPT_L_CW w) 1
    let s := if used && s.traffic p then s.rxTurn p (s.rxRole p l) else s
    if 15 < errs then
      let s := s.bump48 (Reg.OPT_L_UNCORR w) 1
      if used then s.rxLoss p else s
    else
      let s := s.bump48 (Reg.OPT_L_CORR w) errs
      if good = false then
        let s := s.bump32 (Reg.OPT_CNT_CRC_FAIL (pw p)) 1
        if used then s.rxLoss p else s
      else
        let s := (s.takeAck p f).takeCredit p f
        if s.portState p < optAlign then s else k used s

/-- A DATA flit on a logical lane (R398, R403): accepted in sequence, its packets going on, or discarded. -/
def State.rxData (s : State) (p : Nat) (f : Flit) : State :=
  if s.traffic p = false then s
  else
    let x := s.port p
    if f.seq % 4096 ≠ x.rxSeq then s.rxLoss p
    else
      let r := streamPackets 40 (x.rxPart ++ flitBytes f.payload)
      let s := s.setPort p { x with
        rxSeq := (x.rxSeq + 1) % 4096, rxAny := true, rxLost := false, nakDue := false, rxPart := r.2 }
      r.1.foldl (fun s k => s.rxPacket p k) (s.bump64 (Reg.OPT_CNT_FLIT_RX (pw p)) 1)

/-- A replay starts (R403): it is counted, and the flits from entry `i` of the replay buffer are sent again. -/
def State.replayFrom (s : State) (p i : Nat) : State :=
  let x := s.port p
  let s := s.setPort p { x with resend := x.replay.length - i }
  s.event (Reg.OPT_EVENT (pw p)) Fld.OPT_EVENT_RETRY (Reg.OPT_CNT_RETRY (pw p))

/-- A NAK (R403, R405): the eighth in a row that names one SEQ takes the link down; otherwise the flits from that SEQ are
sent again, where the replay buffer holds it. -/
def State.rxNak (s : State) (p : Nat) (f : Flit) : State :=
  if s.traffic p = false then s
  else
    let n := f.seq % 4096
    let x := s.port p
    let run := if x.nakSeq = n then x.nakRun + 1 else 1
    if 8 ≤ run then s.linkDown p
    else
      let s := s.setPort p { x with nakSeq := n, nakRun := run }
      match x.replay.findIdx? fun e => e.seq == n with
      | some i => s.replayFrom p i
      | none => s

/-! ### The transmitter (R397 to R402, R415) -/

/-- A lane's scrambler holds 0 until it is synchronised. -/
def noScram (_ : Nat) : Nat := 0

/-- A flit leaves on physical lane `l`: it carries the control field of port `p`, which reports the classes in rotation, and goes out in the
lane's next codeword (R393). -/
def State.flitSend (s : State) (p l ftype seq : Nat) (payload : List Byte) (times : List Nat := []) : State :=
  let x := s.port p
  let f : Flit := ⟨seq, ftype, 0, (x.rxSeq + 4095) % 4096, x.rxAny, x.crNext, byClass x.crOwn x.crNext, 0, payload, 0⟩
  let f := { f with crc := flitCrc f }
  let c := laneCodeword (sGet noScram x.scram l) (flitMessage f + 2 ^ 5108 * f.crc)
  let s := s.setPort p { x with crNext := x.crNext % 5 + 1, scram := sSet noScram x.scram l c.2 }
  { s with ports := { s.ports with sent := s.ports.sent ++ [FlitOut.mk p l f c.1 times] } }

/-- A payload that the spec leaves open. -/
def State.openPayload (s : State) (ftype : Nat) : List Byte × State :=
  ((List.range 632).map fun i => Config.flitByte ftype s.freeCtr i, { s with freeCtr := s.freeCtr + 1 })

/-- A flit with an open payload and the next sequence number. -/
def State.flitOpen (s : State) (p l ftype seq : Nat) (times : List Nat := []) : State :=
  let r := s.openPayload ftype
  r.2.flitSend p l ftype seq r.1 times

/-- The packet of class `c` that port `p` may place next: the first of its class, where its credit suffices. -/
def State.headOf (s : State) (p c : Nat) : Option Packet :=
  if s.mgmtOnly p ∧ c ≠ 1 then none
  else match s.hws.out.find? fun e => e.1 == p && pTc e.2 == c with
    | none => none
    | some (_, k) =>
      let x := s.port p
      let out := (byClass x.crSent c + 4096 - byClass x.crBack c) % 4096
      if out + creditUnits k ≤ byClass x.crInit c then some k else none

/-- The next packet under the priorities of R349: classes 1 and 2 first, then 3 and 4 in turn, with one slot in eight for a
waiting packet of class 5. -/
def State.nextPacket (s : State) (p : Nat) : Option Packet :=
  let x := s.port p
  let a := (s.headOf p 1).orElse fun _ => s.headOf p 2
  let b := if x.last34 = 3 then (s.headOf p 4).orElse fun _ => s.headOf p 3 else (s.headOf p 3).orElse fun _ => s.headOf p 4
  let c := s.headOf p 5
  a.orElse fun _ => if 7 ≤ x.since5 then c.orElse fun _ => b else b.orElse fun _ => c

/-- A packet is placed in the stream: it leaves the queue, and takes its credit. -/
def State.placed (s : State) (p : Nat) (k : Packet) : State :=
  let c := pTc k
  let x := s.port p
  let waits := (s.headOf p 5).isSome
  let s := { s with hws := { s.hws with out := listTake (p, k) s.hws.out } }
  s.setPort p { x with
    crSent := addClass x.crSent c (creditUnits k)
    last34 := if c = 3 ∨ c = 4 then c else x.last34
    since5 := if c = 5 then 0 else if (c = 3 ∨ c = 4) ∧ waits then x.since5 + 1 else x.since5 }

/-- Bytes for the next DATA flit: the rest of a packet, then packets while the flit has room. -/
def State.fillFlit (s : State) (p : Nat) (b : List Byte) : Nat → List Byte × State
  | 0 => (b, s)
  | n + 1 =>
    if 632 ≤ b.length then (b, s)
    else match s.nextPacket p with
      | none => (b, s)
      | some k => (s.placed p k).fillFlit p (b ++ streamBytes k) n

/-- The tick symbol that port `p` sends next, in its turn among those sent. -/
def State.tickNext (s : State) (p : Nat) : Option SentSymbol := s.hly.sent.find? fun e => s.tickPort e.dst == some p

/-- Send times are stamped as the flit leaves (R400). -/
def State.stamp (s : State) (e : SentSymbol) : SentSymbol × State :=
  if e.type = symTimeReq then ({ e with sym := { e.sym with timeA := s.time } }, { s with hly := { s.hly with t1 := s.time } })
  else if e.type = symTimeResp then ({ e with sym := { e.sym with timeB := s.time } }, s)
  else (e, s)

/-- A TICK flit (R399); the symbols that are sent twice leave a second copy for the next slot. -/
def State.sendTick (s : State) (p l : Nat) (e : SentSymbol) : State :=
  let s := { s with hly := { s.hly with sent := listTake e s.hly.sent } }
  let r := s.stamp e
  let s := r.2
  let x := s.port p
  let s := s.setPort p { x with again := if symSlipState ≤ e.type ∧ e.type ≤ symTickFault then some r.1 else none }
  s.flitSend p l ftTICK x.txSeq (symBytes e.type r.1.sym)

/-- A DATA flit of the replay buffer is sent again. -/
def State.sendAgain (s : State) (p l : Nat) : State :=
  let x := s.port p
  let i := x.replay.length - x.resend
  match x.replay[i]? with
  | none => s.setPort p { x with resend := 0 }
  | some e =>
    let s := s.setPort p { x with replay := x.replay.set i { e with sentAt := s.time }, resend := x.resend - 1 }
    (s.bump64 (Reg.OPT_CNT_FLIT_TX (pw p)) 1).flitSend p l ftDATA e.seq e.payload

/-- A new DATA flit, where the replay buffer has room and there is something to send; otherwise an IDLE flit. -/
def State.sendNew (s : State) (p l : Nat) : State :=
  let x := s.port p
  if 1536 ≤ x.replay.length then s.flitOpen p l ftIDLE x.txSeq
  else
    let r := s.fillFlit p x.txPart 32
    if r.1.isEmpty then s.flitOpen p l ftIDLE x.txSeq
    else
      let s := r.2
      let y := s.port p
      let d := flitBytes r.1
      let s := s.setPort p { y with
        txPart := r.1.drop 632, txSeq := (x.txSeq + 1) % 4096, replay := y.replay ++ [ReplayFlit.mk x.txSeq d s.time] }
      (s.bump64 (Reg.OPT_CNT_FLIT_TX (pw p)) 1).flitSend p l ftDATA x.txSeq d

/-- One slot: a tick symbol ahead of everything, then NAK and REMAP, the calibration pattern during a burst, a replay, new
packets. -/
def State.sendSlot (s : State) (p l : Nat) : State :=
  let x := s.port p
  match x.again with
  | some e => (s.setPort p { x with again := none }).flitSend p l ftTICK x.txSeq (symBytes e.type e.sym)
  | none =>
    match s.tickNext p with
    | some e => s.sendTick p l e
    | none =>
      if x.nakDue then (s.setPort p { x with nakDue := false, nakAt := s.time }).flitOpen p l ftNAK x.rxSeq
      else match x.remapDue with
        | r :: rest =>
          (s.setPort p { x with remapDue := rest }).flitSend p l ftREMAP x.txSeq ((List.range 632).map (Config.remapByte r))
        | [] =>
          if s.calibrating p then s.flitOpen p l ftCAL x.txSeq
          else if 0 < x.resend then s.sendAgain p l
          else s.sendNew p l

/-- The payload of a TRAIN flit in NEGOTIATE: this node's CAPS record (Table OPT-6). -/
def State.capsWords (s : State) (p : Nat) : List Word :=
  [0x0100, 0x0100, 7, 0,
    BitVec.ofNat 64 (2 ^ 62 + (if s.mgmtOnly p then 2 ^ 48 else 0) + 2 ^ 32 * s.ownNode + 2 ^ 16 * Config.capsIdLow.toNat + 2 ^ 8 * p),
    BitVec.ofNat 64 (256 + 2040 * 2 ^ 12 + 2040 * 2 ^ 24 + 2040 * 2 ^ 36 + 2040 * 2 ^ 48), 0]

end Sys2Proof.Machine
end

