-- ==== Sys2Proof/Machine/Ports.lean ====
section
/-! DEFINITION. The commands of the optical ports: flits (R396 to R405), training (R406 to R412), lanes lost in operation (R409),
calibration bursts (R414 to R416), management-only operation (R417) and the light (R391). -/

namespace Sys2Proof.Machine

/-! ### Flits received -/

/-- IDLE_FLIT (R396). -/
def execIdleFlit (port lane errs : Nat) (flit : Flit) (s : State) : Host.Outcome State Fault Refusal :=
  .next (s.flitIn port lane errs flit ftIDLE fun _ s => s)

/-- DATA_FLIT (R398, R403). -/
def execDataFlit (port lane errs : Nat) (flit : Flit) (s : State) : Host.Outcome State Fault Refusal :=
  .next (s.flitIn port lane errs flit ftDATA fun used s => if used then s.rxData port flit else s)

/-- TICK_FLIT (R399): its Halyard symbol is delivered, where the link carries class 0. -/
def execTickFlit (port lane errs : Nat) (flit : Flit) (s : State) : Host.Outcome State Fault Refusal :=
  .next (s.flitIn port lane errs flit ftTICK fun used s =>
    if used && s.tickUp port then s.symArrive (readSym flit.payload) else s)

/-- NAK_FLIT (R403, R405). -/
def execNakFlit (port lane errs : Nat) (flit : Flit) (s : State) : Host.Outcome State Fault Refusal :=
  .next (s.flitIn port lane errs flit ftNAK fun used s => if used then s.rxNak port flit else s)

/-- A CAPS record arrives: the partner's identity stands at once (R411). -/
def State.takeCaps (s : State) (p : Nat) (d : List Word) : State :=
  let w := (wordAt d 4).toNat
  let s := s.setPort p { s.port p with peerCaps := d }
  s.wr (Reg.OPT_PARTNER (pw p)) (packF [(Fld.OPT_PARTNER_KIND, bits w 63 62), (Fld.OPT_PARTNER_ID, bits w 47 16),
    (Fld.OPT_PARTNER_PORT, bits w 15 8)])

/-- The answer to the oldest timestamped flit of port `p` has come (R412): the round trip, from the stamps of its send and of this receipt,
less the partner's turnaround, is one of 64. -/
def State.tripDone (s : State) (p rx tx : Nat) : State :=
  let x := s.port p
  match x.asks with
  | [] => s
  | t :: r =>
    if x.stamps.length < 64 then
      s.setPort p { x with asks := r, stamps := x.stamps ++ [s.time - t - (tx + 2 ^ 64 - rx) % 2 ^ 64] }
    else s.setPort p { x with asks := r }

/-- TRAIN_FLIT (R406, R411, R412): lanes or timestamps, kept for the step of training that uses them; CAPS, taken in step 6. -/
def execTrainFlit (port lane errs : Nat) (flit : Flit) (body : TrainBody) (s : State) : Host.Outcome State Fault Refusal :=
  .next (s.flitIn port lane errs flit ftTRAIN fun _ s =>
    if s.portState port = optUp then s
    else
      let x := s.port port
      match body with
      | .lock => s
      | .lanes m sp => s.setPort port { x with peerMap := (m.filter fun l => decide (l < 18)).take 16, peerSpares := sp }
      | .caps => if s.portState port = optNegotiate then s.takeCaps port (bytesToWords 7 (flit.payload.take 56)) else s
      | .stamped => s.setPort port { x with toAnswer := x.toAnswer ++ [s.time] }
      | .answer rx tx => s.tripDone port rx tx)

/-- CAL_FLIT (R415): its control field is taken and the rest discarded. -/
def execCalFlit (port lane errs : Nat) (flit : Flit) (s : State) : Host.Outcome State Fault Refusal :=
  .next (s.flitIn port lane errs flit ftCAL fun _ s => s)

/-- REMAP_FLIT (R409): a change of this end's transmit lanes is scheduled. -/
def execRemapFlit (port lane errs : Nat) (flit : Flit) (logical : Nat) (spare : Option Nat) (period : Nat) (s : State) :
    Host.Outcome State Fault Refusal :=
  .next (s.flitIn port lane errs flit ftREMAP fun used s =>
    if used && s.portState port == optUp then
      s.setPort port { s.port port with remaps := (s.port port).remaps ++ [Remap.mk false logical spare period] }
    else s)

/-! ### The transmitter -/

/-- Logical lane `k` of port `p` sends its slot, on the physical lane that carries it. -/
def State.slotSend (s : State) (p k : Nat) : State :=
  match s.txLaneOf p k with
  | some l => s.sendSlot p l
  | none => s

/-- Lane 0 answers the partner's oldest timestamped flit with the times of its arrival and of this one (R412). -/
def State.sendAnswer (s : State) (p : Nat) : State :=
  match (s.port p).toAnswer with
  | [] => s.flitOpen p 0 ftTRAIN 0
  | t :: r => (s.setPort p { s.port p with toAnswer := r }).flitOpen p 0 ftTRAIN 0 [t, s.time]

/-- Lane 1 carries one of this end's 64 timestamped flits (R412). -/
def State.sendAsk (s : State) (p : Nat) : State :=
  let x := s.port p
  if x.asked < 64 then (s.setPort p { x with asked := x.asked + 1, asks := x.asks ++ [s.time] }).flitOpen p 1 ftTRAIN 0 [s.time]
  else s.flitOpen p 1 ftTRAIN 0

/-- A period of the delay measurement (R412): TRAIN flits on every lane, timestamped on lanes 0 and 1 (which lanes carry the times: DESIGN
CHOICE, log entry 70). -/
def State.sendTimed (s : State) (p : Nat) : State :=
  ((List.range 16).map (· + 2)).foldl (fun (s : State) l => s.flitOpen p l ftTRAIN 0) ((s.sendAnswer p).sendAsk p)

/-- FLIT_TRANSMIT (R397): one codeword period of port `port`. A spare carries IDLE flits, in whose place a burst puts CAL flits (R410,
R415). -/
def execFlitTransmit (port : Nat) (s : State) : Host.Outcome State Fault Refusal :=
  .next (
    let st := s.portState port
    if s.working (capPort port) = false then s
    else if st = optUp ∨ st = optCal then
      let s := s.setPort port { s.port port with period := (s.port port).period + 1 }
      let w := s.fld (Reg.OPT_STATUS (pw port)) Fld.OPT_STATUS_TX_WIDTH
      let s := (List.range w).foldl (fun (s : State) k => s.slotSend port k) s
      ((List.range 18).filter fun l => s.txRole port l == roleSpare).foldl
        (fun (s : State) l => s.flitOpen port l (if s.calibrating port then ftCAL else ftIDLE) (s.port port).txSeq) s
    else if st = optNegotiate then
      let d := wordsToBytes (s.capsWords port)
      (List.range 18).foldl (fun (s : State) l => s.flitSend port l ftTRAIN 0 (flitBytes d)) s
    else if st = optDelay then s.sendTimed port
    else if optAlign ≤ st ∧ st ≤ optDelay then
      (List.range 18).foldl (fun (s : State) l => s.flitOpen port l ftTRAIN 0) s
    else s)

/-- NAK_RESEND (R403): 2 µs after the last NAK, while the expected sequence number has not come. -/
def execNakResend (port : Nat) (s : State) : Host.Outcome State Fault Refusal :=
  .next (
    if s.working (capPort port) && s.traffic port && (s.port port).rxLost then
      let s := s.timeTo ((s.port port).nakAt + 2000)
      s.setPort port { s.port port with nakDue := true, nakAt := s.time }
    else s)

/-- REPLAY_TIMEOUT (R403): the oldest unacknowledged flit has waited 4 µs. -/
def execReplayTimeout (port : Nat) (s : State) : Host.Outcome State Fault Refusal :=
  .next (
    match (s.port port).replay with
    | [] => s
    | e :: _ => if s.working (capPort port) && s.traffic port then (s.timeTo (e.sentAt + 4000)).replayFrom port 0 else s)

/-! ### Light (R388, R391) -/

/-- Fibre and wavelength of physical lane `l` of either direction. -/
def laneFibre (l : Nat) : Nat := l / 6
def laneWave (l : Nat) : Nat := l % 6

/-- Centre of wavelength `k` in nm. -/
def waveNm (k : Nat) : Nat := 1271 + 20 * k

/-- The lanes that ride wavelength `k`: one on each fibre. -/
def waveLanes (k : Nat) : List Nat := (List.range 18).filter fun l => laneWave l == k

/-- Reading of input `i` at wavelength `k`, in units of 0.125 dBm. -/
def State.laser (s : State) (p i k : Nat) : Nat :=
  bits (s.rd (if i = 0 then Reg.OPT_LASER0 (pw p) else Reg.OPT_LASER1 (pw p))).toNat (8 * k + 7) (8 * k)

/-- The twelve readings of port `p` are taken. -/
def State.setLasers (s : State) (p : Nat) (l : List Nat) : State :=
  let v (i : Nat) : Word := BitVec.ofNat 64 ((List.range 6).foldl (fun n k => n + min 255 (l.getD (6 * i + k) 0) * 2 ^ (8 * k)) 0)
  (s.wr (Reg.OPT_LASER0 (pw p)) (v 0)).wr (Reg.OPT_LASER1 (pw p)) (v 1)

/-- A reading of input `i` is below 13.0 dBm. -/
def State.laserLow (s : State) (p i : Nat) : Bool := (List.range 6).any fun k => decide (s.laser p i k < 104)

/-- LASER_LOW of an input. -/
def State.laserEvent (s : State) (p : Nat) : State :=
  s.event16 (Reg.OPT_EVENT (pw p)) Fld.OPT_EVENT_LASER_LOW (Reg.OPT_CNT_LASER_LOW (pw p)) 0

/-- Wavelength `k` is usable: both inputs at 13.0 dBm, or one dark and the other at 15.0 dBm. -/
def State.usable (s : State) (p k : Nat) : Bool :=
  let a := s.laser p 0 k
  let b := s.laser p 1 k
  (decide (104 ≤ a) && decide (104 ≤ b)) || (decide (a < 104) && decide (120 ≤ b)) || (decide (b < 104) && decide (120 ≤ a))

def State.anyUsable (s : State) (p : Nat) : Bool := (List.range 6).any fun k => s.usable p k

/-- Some reading of input `i` was at 13.0 dBm or more in `old` and is below it now. -/
def State.laserFell (s old : State) (p i : Nat) : Bool := (List.range 6).any fun k => decide (104 ≤ old.laser p i k) && decide (s.laser p i k < 104)

/-- The lanes of every wavelength that is not usable. -/
def State.darkLanes (s : State) (p : Nat) : List Nat := ((List.range 6).filter fun k => !s.usable p k).flatMap waveLanes

/-! ### Training -/

/-- Lanes that qualify (R407): no uncorrectable codeword and at most 5,700 symbols corrected in 2^20 codewords. -/
def qualifies (e : Nat × Nat) : Bool := e.1 == 0 && decide (e.2 ≤ 5700)

/-- The measurement of QUALIFY: uncorrectable codewords and corrected symbols of each lane. -/
def State.measure (s : State) (p : Nat) (m : List (Nat × Nat)) : State :=
  (List.range 18).foldl (fun (s : State) l =>
    let e := m.getD l (1, 0)
    let w := Reg.laneWin p l
    ((s.bump48 (Reg.OPT_L_CW w) (2 ^ 20)).bump48 (Reg.OPT_L_UNCORR w) e.1).bump48 (Reg.OPT_L_CORR w) e.2) s

/-- Receive roles and width: the first `w` qualified lanes carry the logical lanes. -/
def State.setRxRoles (s : State) (p : Nat) (q : List Nat) (w : Nat) : State :=
  let s := (List.range 18).foldl (fun (s : State) l => s.setRx p l roleNone laneFailed) s
  let s := (q.take w).zipIdx.foldl (fun (s : State) e => s.setRx p e.1 e.2 laneInUse) s
  let s := (q.drop w).foldl (fun (s : State) l => s.setRx p l roleSpare laneSpare) s
  s.setFld (Reg.OPT_STATUS (pw p)) Fld.OPT_STATUS_RX_WIDTH w

/-- Transmit roles and width, as the partner's receiver asks. -/
def State.setTxRoles (s : State) (p : Nat) (m sp : List Nat) : State :=
  let s := (List.range 18).foldl (fun (s : State) l => s.setTx p l roleNone) s
  let s := m.zipIdx.foldl (fun (s : State) e => s.setTx p e.1 e.2) s
  let s := (sp.filter fun l => decide (l < 18) && !m.contains l).foldl (fun (s : State) l => s.setTx p l roleSpare) s
  s.setFld (Reg.OPT_STATUS (pw p)) Fld.OPT_STATUS_TX_WIDTH m.length

/-- Both directions at a width of at most `n`, by the lanes that qualified and the partner's map. -/
def State.setRoles (s : State) (p n : Nat) : State :=
  let x := s.port p
  (s.setRxRoles p x.qualified (min n x.qualified.length)).setTxRoles p (x.peerMap.take n) (x.peerMap.drop n ++ x.peerSpares)

/-- MAP (R407, R417). -/
def State.stepMap (s : State) (p : Nat) : State :=
  let x := s.port p
  let n := if s.mgmtOnly p then 4 else 16
  if x.peerMap = [] then s
  else if min n x.qualified.length < s.minWidth p then s.trainFail p
  else (s.setRoles p n).setOpt p optNegotiate

/-- The highest minor of major 1 that a word of four version entries lists. -/
def minorOf1 (w : Nat) : Option Nat :=
  match ([0, 1, 2, 3].map fun i => bits w (16 * i + 15) (16 * i)).filter fun e => bits e 15 8 == 1 with
  | [] => none
  | l => some (l.foldl (fun m e => max m (bits e 7 0)) 0)

/-- NEGOTIATE (R411, R417): versions and features are agreed, credits taken, or the port is INCOMPATIBLE. -/
def State.stepNegotiate (s : State) (p : Nat) : State :=
  let x := s.port p
  let d := x.peerCaps
  if d = [] then s
  else match minorOf1 (wordAt d 0).toNat, minorOf1 (wordAt d 1).toNat with
    | some _, some _ =>
      let mgmt := s.mgmtOnly p || bit (wordAt d 4).toNat 48
      let s := if mgmt then s.setRoles p 4 else s
      let ft := bits (wordAt d 2).toNat 2 0
      let narrow := s.fld (Reg.OPT_STATUS (pw p)) Fld.OPT_STATUS_RX_WIDTH < 16 ∨ s.fld (Reg.OPT_STATUS (pw p)) Fld.OPT_STATUS_TX_WIDTH < 16
      if narrow ∧ mgmt = false ∧ bit ft 1 = false then s.trainFail p
      else
        let s := s.wr (Reg.OPT_NEG (pw p)) (packF [(Fld.OPT_NEG_HWS_MAJOR, 1), (Fld.OPT_NEG_HLY_MAJOR, 1), (Fld.OPT_NEG_FEATURES, ft)])
        let c := (wordAt d 5).toNat
        (s.setPort p { x with crInit := [0, 1, 2, 3, 4].map fun i => bits c (12 * i + 11) (12 * i) }).setOpt p optDelay
    | _, _ =>
      let s := s.event16 (Reg.OPT_EVENT (pw p)) Fld.OPT_EVENT_INCOMPATIBLE (Reg.OPT_CNT_LASER_LOW (pw p)) 16
      (s.linkClear p).setOpt p optIncompatible

/-- A number takes its place in a rising list. -/
def insertUp (a : Nat) : List Nat → List Nat
  | [] => [a]
  | b :: r => if a ≤ b then a :: b :: r else b :: insertUp a r

/-- The median of 64 numbers lies from the 32nd to the 33rd; which value between them is not stated, so that it is free. -/
def State.median (s : State) (l : List Nat) : Nat × State :=
  let m := l.foldl (fun acc a => insertUp a acc) []
  let lo := m.getD 31 0
  let hi := m.getD 32 0
  if lo = hi then (lo, s)
  else
    let w := s.free 8
    (lo + w.1.toNat % (hi - lo + 1), w.2)

/-- A number of ps in ns, to the nearest; which neighbour stands for a half is not stated, so that it is free. -/
def State.psToNs (s : State) (x : Int) : Int × State :=
  let q := x / 1000
  let r := x % 1000
  if r < 500 then (q, s)
  else if 500 < r then (q + 1, s)
  else
    let w := s.free 9
    (q + (w.1.toNat % 2 : Nat), w.2)

/-- DELAY (R412): round trip and asymmetry; then the long burst begins. -/
def State.stepDelay (s : State) (p : Nat) : State :=
  let x := s.port p
  if x.stamps.length < 64 then s
  else
    let a := s.median x.stamps
    let b := a.2.psToNs (sext 32 (wordAt x.peerCaps 6).toNat)
    let s := b.2
    let asym := b.1 + sext 8 (s.fld (Reg.OPT_DELAY (pw p)) Fld.OPT_DELAY_ADJ)
    let s := s.setFlds (Reg.OPT_DELAY (pw p)) [(Fld.OPT_DELAY_RTT, a.1), (Fld.OPT_DELAY_ASYM, unsig 16 asym)]
    (s.setFld (Reg.OPT_CAL (pw p)) Fld.OPT_CAL_NEXT_LONG 0).calStart p |>.setOpt p optCal

def noWindow (_ : Nat) : Nat × Nat := (0, 0)

/-- What a lane has counted since its window began, modulo 2^48: corrected symbols and uncorrectable codewords. -/
def State.laneSince (s : State) (p l : Nat) : Nat × Nat :=
  let w := Reg.laneWin p l
  let a := sGet noWindow (s.port p).window l
  (((s.rd (Reg.OPT_L_CORR w)).toNat + 2 ^ 48 - a.1) % 2 ^ 48, ((s.rd (Reg.OPT_L_UNCORR w)).toNat + 2 ^ 48 - a.2) % 2 ^ 48)

/-- A new window begins on every lane. -/
def State.windowBegin (s : State) (p : Nat) : State :=
  (List.range 18).foldl (fun (s : State) l =>
    let x := s.port p
    let w := Reg.laneWin p l
    s.setPort p { x with window := sSet noWindow x.window l ((s.rd (Reg.OPT_L_CORR w)).toNat, (s.rd (Reg.OPT_L_UNCORR w)).toNat) }) s

/-- Twice the delay out, towards the partner, and twice the delay in, in ns (R412). -/
def State.delayOut2 (s : State) (p : Nat) : Int :=
  (s.fld (Reg.OPT_DELAY (pw p)) Fld.OPT_DELAY_RTT : Int) + sext 16 (s.fld (Reg.OPT_DELAY (pw p)) Fld.OPT_DELAY_ASYM)
def State.delayIn2 (s : State) (p : Nat) : Int :=
  (s.fld (Reg.OPT_DELAY (pw p)) Fld.OPT_DELAY_RTT : Int) - sext 16 (s.fld (Reg.OPT_DELAY (pw p)) Fld.OPT_DELAY_ASYM)

/-- CAL (R406, R409, R416): the long burst has run, traffic flows, and the first window of every lane begins. -/
def State.stepUp (s : State) (p : Nat) : State :=
  ((((s.calEnd p).setOpt p optUp).windowBegin p).widthService p).slipUpdate.chooseServe.flushHeld

/-- The scramblers of port `p` are synchronised (R393); the register of each lane at that moment is not stated, so that it is free, but
not 0, from which no sequence runs. -/
def State.scramSync (s : State) (p : Nat) : State :=
  (List.range 18).foldl (fun (s : State) l =>
    let w := s.free 62
    let x := w.2.port p
    w.2.setPort p { x with scram := sSet noScram x.scram l (1 + w.1.toNat % (2 ^ 31 - 1)) }) s

/-- TRAINING_STEP_DONE (R406): the step that port `port` is in ends. `lasers` are the twelve readings of LIGHT, `lanes` the
uncorrectable codewords and corrected symbols of the 18 lanes in QUALIFY; a lane of a wavelength that is not usable does not qualify (R391). -/
def execTrainingStepDone (port : Nat) (lasers : List Nat) (lanes : List (Nat × Nat)) (s : State) : Host.Outcome State Fault Refusal :=
  .next (
    let st := s.portState port
    if s.working (capPort port) = false then s
    else if st = optLight then
      let s := s.setLasers port lasers
      let s := if s.laserLow port 0 then s.laserEvent port else s
      let s := if s.laserLow port 1 then s.laserEvent port else s
      if s.anyUsable port then
        ((List.range 18).foldl (fun (s : State) l => s.setRx port l roleNone laneTraining) s).setOpt port optAcquire
      else s
    else if st = optAcquire then (s.scramSync port).setOpt port optAlign
    else if st = optAlign then s.setOpt port optQualify
    else if st = optQualify then
      let s := s.measure port lanes
      (s.setPort port { s.port port with
        qualified := (List.range 18).filter fun l => qualifies (lanes.getD l (1, 0)) && s.usable port (laneWave l) }).setOpt port optMap
    else if st = optMap then s.stepMap port
    else if st = optNegotiate then s.stepNegotiate port
    else if st = optDelay then s.stepDelay port
    else if st = optCal then s.stepUp port
    else s)

/-- TRAINING_STEP_TIMEOUT (R406): the step overruns its limit. A port without a usable wavelength stays in LIGHT, and one whose
partner is silent in ACQUIRE. -/
def execTrainingStepTimeout (port : Nat) (silent : Bool) (s : State) : Host.Outcome State Fault Refusal :=
  .next (
    let st := s.portState port
    if s.working (capPort port) = false ∨ st < optLight ∨ optCal < st then s
    else if (st = optLight ∧ s.anyUsable port = false) ∨ (st = optAcquire ∧ silent) then s
    else s.trainFail port)

/-- TRAINING_RETRY (R406): the wait of 10 ms ends, and training begins again. -/
def execTrainingRetry (port : Nat) (s : State) : Host.Outcome State Fault Refusal :=
  .next (
    if s.working (capPort port) && (s.port port).waiting then (s.timeTo ((s.port port).waitAt + 10000000)).trainBegin port else s)

/-! ### Lanes lost in operation (R409) -/

/-- A change of the receive lanes is announced: it is scheduled 64 periods ahead and a REMAP flit is due. -/
def State.remapAnnounce (s : State) (p logical : Nat) (spare : Option Nat) : State :=
  let x := s.port p
  let r : Remap := ⟨true, logical, spare, x.rxPeriod + 64⟩
  s.setPort p { x with remaps := x.remaps ++ [r], remapDue := x.remapDue ++ [r] }

/-- Spares that no scheduled change has taken, lowest first. -/
def State.freeSpares (s : State) (p : Nat) : List Nat :=
  (List.range 18).filter fun l => s.rxLaneState p l == laneSpare && !(s.port p).remaps.any fun r => r.rx && r.spare == some l

/-- Logical lane `k` of port `p` is degraded. -/
def State.degrade (s : State) (p k : Nat) : State :=
  let x := s.port p
  if s.portState p ≠ optUp ∨ x.remaps.any (fun r => r.rx && r.lane == k) then s
  else match s.freeSpares p with
    | l :: _ =>
      if s.feature p 0 then
        (s.event (Reg.OPT_EVENT (pw p)) Fld.OPT_EVENT_LANE_SPARE (Reg.OPT_CNT_LANE_SPARE (pw p))).remapAnnounce p k (some l)
      else s.linkDown p
    | [] =>
      let falls := (x.remaps.filter fun (r : Remap) => r.rx && r.spare.isNone).length
      let w := s.fld (Reg.OPT_STATUS (pw p)) Fld.OPT_STATUS_RX_WIDTH - falls
      if s.feature p 1 ∧ s.minWidth p < w then
        (s.event (Reg.OPT_EVENT (pw p)) Fld.OPT_EVENT_WIDTH_DOWN (Reg.OPT_CNT_WIDTH_DOWN (pw p))).remapAnnounce p k none
      else s.linkDown p

/-- Logical lanes of port `p` are degraded, in ascending order. -/
def State.degradeAll (s : State) (p : Nat) (bad : Nat → Bool) : State :=
  ((List.range 16).filter fun k =>
    match s.rxLaneOf p k with
    | some l => bad l
    | none => false).foldl (fun (s : State) k => s.degrade p k) s

/-- LANE_WINDOW_END (R409): lanes with more than 57,000 symbols corrected or 4 codewords uncorrectable are degraded. -/
def execLaneWindowEnd (port : Nat) (s : State) : Host.Outcome State Fault Refusal :=
  .next (
    if s.working (capPort port) && s.portState port == optUp then
      let bad (l : Nat) : Bool :=
        let e := s.laneSince port l
        decide (57000 < e.1) || decide (4 ≤ e.2)
      (s.windowBegin port).degradeAll port bad
    else s)

/-- Spares among the lanes fail (DEDUCED, log entry 70). -/
def State.spareFail (s : State) (p : Nat) (lanes : List Nat) : State :=
  (lanes.filter fun l => s.rxLaneState p l == laneSpare).foldl (fun (s : State) l => s.setRx p l roleNone laneFailed) s

/-- LANE_SIGNAL_LOSS (R409): physical lanes in use lose signal and are treated as degraded. -/
def execLaneSignalLoss (port : Nat) (lanes : List Nat) (s : State) : Host.Outcome State Fault Refusal :=
  .next (if s.working (capPort port) && s.portState port == optUp then s.degradeAll port fun l => lanes.contains l else s)

/-- Logical lanes above `k` move down by one, and scheduled changes with them. -/
def State.narrowRx (s : State) (p k : Nat) : State :=
  let s := (List.range 18).foldl (fun (s : State) l =>
    let r := s.rxRole p l
    if r = k then s.setRx p l roleNone laneFailed
    else if k < r ∧ r < 16 then s.setRx p l (r - 1) laneInUse
    else s) s
  s.setFld (Reg.OPT_STATUS (pw p)) Fld.OPT_STATUS_RX_WIDTH (s.fld (Reg.OPT_STATUS (pw p)) Fld.OPT_STATUS_RX_WIDTH - 1)

def State.narrowTx (s : State) (p k : Nat) : State :=
  let s := (List.range 18).foldl (fun (s : State) l =>
    let r := s.txRole p l
    if r = k then s.setTx p l roleNone
    else if k < r ∧ r < 16 then s.setTx p l (r - 1)
    else s) s
  s.setFld (Reg.OPT_STATUS (pw p)) Fld.OPT_STATUS_TX_WIDTH (s.fld (Reg.OPT_STATUS (pw p)) Fld.OPT_STATUS_TX_WIDTH - 1)

/-- A spare takes over logical lane `k`; the lane that carried it is FAILED, or no longer in use. -/
def State.spareRx (s : State) (p k l : Nat) : State :=
  let s := match s.rxLaneOf p k with
    | some o => s.setRx p o roleNone laneFailed
    | none => s
  s.setRx p l k laneInUse

def State.spareTx (s : State) (p k l : Nat) : State :=
  let s := match s.txLaneOf p k with
    | some o => s.setTx p o roleNone
    | none => s
  s.setTx p l k

/-- LASER_INPUT_CHANGE (R391): new readings. Every input with a reading that falls below 13.0 dBm sets LASER_LOW. Without any usable
wavelength the link goes down and the port stays in LIGHT; otherwise the lanes of a wavelength that is not usable lose signal (Table OPT-8),
a spare among them fails, and those in use are degraded. -/
def execLaserInputChange (port : Nat) (lasers : List Nat) (s : State) : Host.Outcome State Fault Refusal :=
  .next (
    if s.working (capPort port) = false then s
    else
      let t := s.setLasers port lasers
      let u := if t.laserFell s port 0 then t.laserEvent port else t
      let u := if t.laserFell s port 1 then u.laserEvent port else u
      let st := u.portState port
      if u.anyUsable port = false ∧ optAcquire ≤ st ∧ st ≤ optUp then u.linkDown port
      else if st = optUp then
        let dark := u.darkLanes port
        (u.spareFail port dark).degradeAll port fun l => dark.contains l
      else u)

/-- REMAP_TAKE_EFFECT (R409): the first scheduled change of a direction of port `port` whose codeword period comes next, or has come. -/
def execRemapTakeEffect (port : Nat) (rx : Bool) (s : State) : Host.Outcome State Fault Refusal :=
  .next (
    let x := s.port port
    match x.remaps.find? fun (r : Remap) => r.rx == rx && decide (r.period ≤ 1 + (if rx then x.rxPeriod else x.period)) with
    | none => s
    | some r =>
      if s.portState port ≠ optUp then s
      else
        let rest := listTake r x.remaps
        match r.spare with
        | some l =>
          let s := s.setPort port { x with remaps := rest }
          if l < 18 then (if rx then s.spareRx port r.lane l else s.spareTx port r.lane l) else s
        | none =>
          let down (q : Remap) : Remap := if q.rx = rx ∧ r.lane < q.lane then { q with lane := q.lane - 1 } else q
          let s := s.setPort port { x with remaps := rest.map down }
          (if rx then s.narrowRx port r.lane else s.narrowTx port r.lane).widthService port)

/-! ### Calibration (R414 to R416) -/

/-- CAL_DUE (R414, R416): PERIOD_MS after the last burst a burst falls due on a link that is up. -/
def execCalDue (port : Nat) (s : State) : Host.Outcome State Fault Refusal :=
  .next (
    let x := s.port port
    if s.working (capPort port) && s.portState port == optUp && !x.calDue && !s.calibrating port then
      let s := s.timeTo (x.calAt + 1000000 * s.fld (Reg.OPT_CAL (pw port)) Fld.OPT_CAL_PERIOD_MS)
      (s.setPort port { s.port port with calDue := true }).calIdle
    else s)

/-- CAL_BURST_END (R415). -/
def execCalBurstEnd (port : Nat) (s : State) : Host.Outcome State Fault Refusal :=
  .next (if s.calibrating port && s.portState port == optUp then (s.calEnd port).slipUpdate else s)

/-! ### Control -/

/-- OPTICAL_ENGINE_FAIL (R408, R561): the port is MAPPED_OUT and Bowline asks for service; the loss is recorded (R497). -/
def execOpticalEngineFail (port : Nat) (s : State) : Host.Outcome State Fault Refusal :=
  .next (
    if s.working (capPort port) then
      let s := (s.linkDown port).setOpt port optMappedOut
      let s := ((s.capClear (capPort port)).service Fld.RAS_SERVICE_REQUEST_PORT_ENGINE).addLoss lossPort port
      s.slipUpdate.chooseServe.flushHeld
    else s)

/-- A write of OPT_Pp_CTRL (R407, R411, R417): a change of MGMT_ONLY or ENABLE, and RETRAIN, take the link down; a port that is
INCOMPATIBLE does not train again for a change of MGMT_ONLY. -/
def State.writePortCtrl (s : State) (p : Nat) (v : Word) : State :=
  let a := Reg.OPT_CTRL (pw p)
  let old := s.rd a
  let m := getF v Fld.OPT_CTRL_MIN_WIDTH
  let new := packF [(Fld.OPT_CTRL_MIN_WIDTH, if 4 ≤ m ∧ m ≤ 16 then m else getF old Fld.OPT_CTRL_MIN_WIDTH),
    (Fld.OPT_CTRL_MGMT_ONLY, getF v Fld.OPT_CTRL_MGMT_ONLY), (Fld.OPT_CTRL_ENABLE, getF v Fld.OPT_CTRL_ENABLE)]
  let s := s.wr a new
  if getF v Fld.OPT_CTRL_RETRAIN = 1 ∨ (getF old Fld.OPT_CTRL_MGMT_ONLY ≠ getF new Fld.OPT_CTRL_MGMT_ONLY ∧ s.portState p ≠ optIncompatible) ∨
      getF old Fld.OPT_CTRL_ENABLE ≠ getF new Fld.OPT_CTRL_ENABLE then
    s.linkDown p
  else s

/-- Agents that may write a port's registers (R418), and the port takes writes. -/
def State.mayWritePort (s : State) (agent : Agent) (p : Nat) : Bool := (s.ctx agent).priv && s.working (capPort p)

/-- RETRAIN (R411): OPT_Pp_CTRL is written with RETRAIN = 1 and its other fields as they are. -/
def execRetrain (agent : Agent) (port : Nat) (s : State) : Host.Outcome State Fault Refusal :=
  .next (
    if s.mayWritePort agent port then s.writePortCtrl port (setF (s.rd (Reg.OPT_CTRL (pw port))) Fld.OPT_CTRL_RETRAIN 1) else s)

/-- MGMT_ONLY (R417): OPT_Pp_CTRL is written with MGMT_ONLY = `on` and its other fields as they are. -/
def execMgmtOnly (agent : Agent) (port : Nat) (on : Bool) (s : State) : Host.Outcome State Fault Refusal :=
  .next (
    if s.mayWritePort agent port then
      s.writePortCtrl port (setF (s.rd (Reg.OPT_CTRL (pw port))) Fld.OPT_CTRL_MGMT_ONLY (if on then 1 else 0))
    else s)

end Sys2Proof.Machine
end

