-- ==== Sys2Proof/Machine/RseNum.lean ====
section
/-! DEFINITION. Arithmetic of the Resident Solve Engine: FX128 rounding (R293), FP64 operations that round their exact value
once (R303), and magnitudes rounded upward (R302). -/

namespace Sys2Proof.Machine

/-- Integer part of the square root. -/
def natSqrt (n : Nat) : Nat :=
  (List.range (Nat.log2 n / 2 + 1)).foldr (fun b r => if (r + 2 ^ b) * (r + 2 ^ b) ≤ n then r + 2 ^ b else r) 0

/-! ### FX128 -/

/-- rne_int(p / q), q not 0. -/
def rneRat (p : Int) (q : Nat) : Int :=
  let f := p / (q : Int)
  let r := 2 * (p % (q : Int))
  if r < q then f else if r > q then f + 1 else if f % 2 = 0 then f else f + 1

/-- rne_int(p × 2^k / q). -/
def rneScaled (p : Int) (q : Nat) (k : Int) : Int :=
  if 0 ≤ k then rneRat (p * 2 ^ k.toNat) q else rneRat p (q * 2 ^ (-k).toNat)

/-- fx(v, F) of a finite value. -/
def fx (v : Num) (F : Int) : Int :=
  match v with
  | .fin m e => rneScaled m 1 (e + F)
  | _ => 0

/-- The term of a product for a destination with point `fd`. -/
def fxTerm (nx fx ny fy fd : Int) : Int := rneScaled (nx * ny) 1 (fd - fx - fy)

/-- fx(s / d, F) for s = ns × 2^-fs and d = nd × 2^-fd; d is not 0. -/
def fxQuot (ns fs nd fd F : Int) : Int := rneScaled (if nd < 0 then -ns else ns) nd.natAbs (F + fd - fs)

/-- rne_int of the square root of n × 2^k. -/
def rneSqrt (n : Nat) (k : Int) : Int :=
  let p := if 0 ≤ k then n * 2 ^ k.toNat else n
  let q := if 0 ≤ k then 1 else 2 ^ (-k).toNat
  let r := natSqrt (p / q)
  let m := q * ((2 * r + 1) * (2 * r + 1))
  if 4 * p < m then r else if 4 * p > m then r + 1 else if r % 2 = 0 then r else r + 1

/-- fx(sqrt(s), F) for s = n × 2^-fs. -/
def fxRoot (n : Nat) (fs F : Int) : Int := rneSqrt n (2 * F - fs)

/-- The exact value N × 2^-F. -/
def fxVal (n F : Int) : Num := Num.ofInt n (-F)

/-- ilog2 of a value; 1,024 where it is not finite, none for 0 (R296). -/
def logOf : Num → Option Int
  | .fin m e => some (ilog2 m.natAbs e)
  | .zero _ => none
  | _ => some 1024

/-- The greater of two logarithms. -/
def logMax (a b : Option Int) : Option Int :=
  match a, b with
  | none, b => b
  | a, none => a
  | some x, some y => some (max x y)

/-- ilog2(max |v|) + 1, or −1,073 where every value is 0 (R296). -/
def expOf (l : List Num) : Int :=
  match l.foldl (fun a v => logMax a (logOf v)) none with
  | some k => k + 1
  | none => -1073

/-! ### FP64 -/

/-- An FP64 code, and its value. -/
def rne64Code (x : Num) : Nat := (convertNum fmtFP64 rmRNE false 0 x).1
def rne64 (x : Num) : Num := decodeNum fmtFP64 (rne64Code x)

def Num.finite : Num → Bool
  | .nan _ => false
  | .inf _ => false
  | _ => true

def numSum (l : List Num) : Num := l.foldl (fun a x => (numAdd a x).1) (.zero false)
def numProd (x y : Num) : Num := (numMul x y).1

/-- The magnitude. -/
def Num.mag : Num → Num
  | .fin m e => .fin m.natAbs e
  | .zero _ => .zero false
  | .inf _ => .inf false
  | x => x

/-- a < b as real numbers; false where one is a NaN. -/
def Num.lt (a b : Num) : Bool :=
  match (numAdd b a.negate).1 with
  | .fin m _ => decide (0 < m)
  | .inf n => !n
  | _ => false

/-- a ≤ b as real numbers; false where one is a NaN. -/
def Num.le (a b : Num) : Bool := !a.isNan && !b.isNan && !b.lt a

/-- A magnitude m × 2^e / q as a value that rounds to FP64 as the exact one does: 66 significant bits and a sticky bit. -/
def stickyDiv (m : Nat) (e : Int) (q : Nat) : Num :=
  let k := Nat.log2 q + 67
  let d := m * 2 ^ k / q
  Num.ofInt (2 * d + (if m * 2 ^ k % q = 0 then 0 else 1) : Nat) (e - k - 1)

/-- Quotient, rounded once to FP64 (R303). -/
def div64 (x y : Num) : Num :=
  match x, y with
  | .nan _, _ => .nan false
  | _, .nan _ => .nan false
  | .inf _, .inf _ => .nan false
  | .zero _, .zero _ => .nan false
  | .inf a, y => .inf (a != y.neg)
  | x, .inf b => .zero (x.neg != b)
  | .zero a, y => .zero (a != y.neg)
  | x, .zero b => .inf (x.neg != b)
  | .fin m e, .fin n f =>
    let z := rne64 (stickyDiv m.natAbs (e - f) n.natAbs)
    if (decide (m < 0)) != decide (n < 0) then z.negate else z

/-- Square root of m × 2^e / q, rounded once to FP64. -/
def rootRat64 (m : Nat) (e : Int) (q : Nat) : Num :=
  let k : Nat := Nat.log2 q + 140
  let k := if (e - k) % 2 = 0 then k else k + 1
  let d := m * 2 ^ k / q
  let r := natSqrt d
  rne64 (Num.ofInt (2 * r + (if r * r = d ∧ m * 2 ^ k % q = 0 then 0 else 1) : Nat) ((e - k) / 2 - 1))

/-- Square root of a value that is not negative. -/
def sqrt64 (x : Num) : Num :=
  match x with
  | .fin m e => if m < 0 then .nan false else rootRat64 m.natAbs e 1
  | .inf true => .nan false
  | x => x

/-- rne64 of the exact sqrt(a / b) (R305); 0 when b is 0. -/
def ratioRoot (a b : Num) : Num :=
  match a, b with
  | _, .zero _ => .zero false
  | .fin m e, .fin n f => rootRat64 m.natAbs (e - f) n.natAbs
  | a, b => sqrt64 (div64 a b)

def mul64 (x y : Num) : Num := rne64 (numProd x y)

/-- dot(u, v) (R303). -/
def dot64 (u v : List Num) : Num := rne64 (numSum ((u.zip v).map fun p => numProd p.1 p.2))

/-- fma64(α, u, v) (R303). -/
def fma64 (a : Num) (u v : List Num) : List Num := (u.zip v).map fun p => rne64 (numAdd (numProd a p.1) p.2).1

/-- The greatest magnitude of a list; a NaN where there is one. -/
def maxMag (l : List Num) : Num := l.foldl (fun a x => if a.isNan then a else if x.isNan then x else if a.lt x.mag then x.mag else a) (.zero false)

/-! ### Magnitudes rounded upward: m × 2^e in FP64, none where it is not finite -/

abbrev Mag := Option (Nat × Int)

/-- The least FP64 magnitude that is not below m × 2^e. -/
def magUp (m : Nat) (e : Int) : Mag :=
  if m = 0 then some (0, 0)
  else
    let g := max (ilog2 m e - 52) (-1074)
    let t := roundGrid m e g rmRTZ 0
    let c := if t.inexact then t.trunc + 1 else t.trunc
    if ilog2 c g ≥ 1024 then none else some (c, g)

def magAdd (a b : Mag) : Mag :=
  match a, b with
  | some (m, e), some (n, f) =>
    let g := min e f
    magUp (m * 2 ^ (e - g).toNat + n * 2 ^ (f - g).toNat) g
  | _, _ => none

def magMul (a b : Mag) : Mag :=
  match a, b with
  | some (m, e), some (n, f) => magUp (m * n) (e + f)
  | _, _ => none

/-- Quotient by n × 2^f; n is not 0. -/
def magDiv (a : Mag) (n : Nat) (f : Int) : Mag :=
  match a with
  | some (m, e) =>
    let k := Nat.log2 n + 67
    magUp (m * 2 ^ k / n + (if m * 2 ^ k % n = 0 then 0 else 1)) (e - f - k)
  | none => none

/-- The exact magnitude N × 2^-F. -/
def magFx (n F : Int) : Mag := some (n.natAbs, -F)

/-- The magnitude of a finite value. -/
def magNum : Num → Mag
  | .fin m e => some (m.natAbs, e)
  | .zero _ => some (0, 0)
  | _ => none

def Mag.num : Mag → Num
  | some (m, e) => Num.ofInt m e
  | none => .inf false

end Sys2Proof.Machine
end

