-- ==== Sys2Proof/Machine/RseOps.lean ====
section
/-! DEFINITION. The structure of a resident system (R290 to R292) and its arithmetic: range analysis (R296), FACTOR (R293 to
R298) and SOLVE (R302), over plain lists. -/

namespace Sys2Proof.Machine

/-! ### Ordering and symbolic factor -/

/-- Entries of A as given: row, column and position in COLIDX. -/
def csrEntries (rowptr colidx : List Nat) : List (Nat × Nat × Nat) :=
  (List.range (rowptr.length - 1)).flatMap fun i =>
    (List.range (rowptr.getD (i + 1) 0 - rowptr.getD i 0)).map fun k =>
      (i, colidx.getD (rowptr.getD i 0 + k) 0, rowptr.getD i 0 + k)

/-- Neighbours of vertex `v` in the graph of A + Aᵀ without self-loops, ascending. -/
def neighbours (es : List (Nat × Nat × Nat)) (n v : Nat) : List Nat :=
  (List.range n).filter fun w => w != v && es.any fun e => (e.1 == v && e.2.1 == w) || (e.1 == w && e.2.1 == v)

/-- `v` inserted into a list ascending by degree, ties to the lower index. -/
def byDegree (deg : Nat → Nat) (v : Nat) : List Nat → List Nat
  | [] => [v]
  | w :: r => if deg v < deg w ∨ (deg v = deg w ∧ v < w) then v :: w :: r else w :: byDegree deg v r

def sortDegree (deg : Nat → Nat) (l : List Nat) : List Nat := l.foldr (byDegree deg) []

/-- Breadth-first search (R290, steps 2 to 4): visited vertices, newest first, and those whose neighbours are still to be
visited, in order. -/
def bfs (nb : Nat → List Nat) (n : Nat) : List Nat → List Nat → Nat → List Nat
  | vis, _, 0 => vis
  | vis, v :: r, k + 1 =>
    let new := sortDegree (fun w => (nb w).length) ((nb v).filter fun w => !vis.contains w)
    bfs nb n (new.reverse ++ vis) (r ++ new) k
  | vis, [], k + 1 =>
    match sortDegree (fun w => (nb w).length) ((List.range n).filter fun w => !vis.contains w) with
    | [] => vis
    | v :: _ => bfs nb n (v :: vis) [v] k

/-- Reverse Cuthill–McKee (R290): PERM[v] is the place of v in the reversed visiting order. -/
def rcm (es : List (Nat × Nat × Nat)) (n : Nat) : List Nat :=
  let o := bfs (neighbours es n) n [] [] (2 * n + 1)
  (List.range n).map fun v => o.idxOf v

/-- Bits of a mask above bit `k`. -/
def above (m k : Nat) : Nat := m / 2 ^ (k + 1) * 2 ^ (k + 1)

/-- Elimination of column `k` from the rows below it: their patterns take in the pattern of row `k`. -/
def elimRows (k rk : Nat) (rows : List Nat) : List Nat :=
  (List.range rows.length).map fun i =>
    let r := rows.getD i 0
    if k < i ∧ bit r k then r ||| above rk k else r

/-- The filled pattern of the ordered system (R291), a mask of columns for each row; a Cholesky system is filled as the
symmetric one, of which its lower triangle is read. -/
def fillPattern (es : List (Nat × Nat × Nat)) (perm : List Nat) (n : Nat) (chol : Bool) : List Nat :=
  let rows := es.foldl (fun rows e =>
    let i := perm.getD e.1 0
    let j := perm.getD e.2.1 0
    let rows := rows.set i (rows.getD i 0 ||| 2 ^ j)
    if chol then rows.set j (rows.getD j 0 ||| 2 ^ i) else rows) ((List.range n).map fun i => 2 ^ i)
  (List.range n).foldl (fun rows k => elimRows k (rows.getD k 0) rows) rows

/-- Entry (i, j) lies in the factor. -/
def inFill (fill : List Nat) (i j : Nat) : Bool := bit (fill.getD i 0) j

/-- Places of the factor's stored values, in an order that respects the dependencies: column by column, its pivot first. -/
def factorPlaces (fill : List Nat) (chol : Bool) : List (Nat × Nat) :=
  let n := fill.length
  (List.range n).flatMap fun k =>
    (k, k) ::
      ((if chol then [] else ((List.range n).filter fun j => decide (k < j) && inFill fill k j).map fun j => (k, j)) ++
        ((List.range n).filter fun i => decide (k < i) && inFill fill i k).map fun i => (i, k))

/-- Rows below the diagonal in the pattern of column `j` (R291). -/
def colPattern (fill : List Nat) (chol : Bool) (j : Nat) : List Nat :=
  (List.range fill.length).filter fun i => decide (j < i) && (inFill fill i j || (!chol && inFill fill j i))

/-- First columns of the supernodes (R291). -/
def supernodes (fill : List Nat) (chol : Bool) : List Nat :=
  ((List.range fill.length).foldl (fun (l : List Nat) j =>
    match l with
    | [] => [j]
    | s :: r =>
      if j - s < 128 ∧ colPattern fill chol j = (colPattern fill chol (j - 1)).filter (· != j) then s :: r else j :: s :: r)
    []).reverse

/-- Supernode of column `j`; the block of (i, j) is that of its lesser index. -/
def snOf (sn : List Nat) (j : Nat) : Nat := (sn.filter fun s => decide (s ≤ j)).length - 1

/-- The structure digest (R292). -/
def structDigest (n nnz kind order : Nat) (rowptr colidx perm : List Nat) : List Byte :=
  sha384 ([0x55, 0x4D, 0x41, 0x52, 0x53, 0x45, 0x30, 0x31] ++ natLE 8 n ++ natLE 8 nnz ++ natLE 1 kind ++ natLE 1 order ++
    List.replicate 38 0 ++ rowptr.flatMap (natLE 8) ++ colidx.flatMap (natLE 4) ++
    (if order = 1 then perm.flatMap (natLE 4) else []))

/-! ### Values of the ordered system -/

/-- The values of the ordered system, by place. A Cholesky place is in the lower triangle. -/
def ordered (x : RseSlot) (chol : Bool) : List ((Nat × Nat) × Num) :=
  (csrEntries x.rowptr x.colidx).map fun e =>
    let i := x.perm.getD e.1 0
    let j := x.perm.getD e.2.1 0
    (if chol then (max i j, min i j) else (i, j), decodeNum fmtFP64 (x.num.vals.getD e.2.2 0))

/-- a(i, j); 0 where A has no entry. -/
def aAt (l : List ((Nat × Nat) × Num)) (i j : Nat) : Num := (l.lookup (i, j)).getD (.zero false)

/-- e_in of each block (R296). -/
def einOf (sn : List Nat) (l : List ((Nat × Nat) × Num)) : List Int :=
  (List.range sn.length).map fun b => expOf ((l.filter fun e => snOf sn (min e.1.1 e.1.2) == b).map fun e => e.2)

/-! ### Trial factor (R296), in FP64 -/

/-- 2^(e_in − PIV_EXP). -/
def tinyNum (ein : Int) (piv : Nat) : Num := .fin 1 (ein - piv)

/-- The exact sum that a stored value of the trial starts from (R294): a(i, j) minus the products of earlier values. -/
def trialSum (fill : List Nat) (chol : Bool) (a : List ((Nat × Nat) × Num)) (done : List ((Nat × Nat) × Num)) (i j : Nat) : Num :=
  (List.range (min i j)).foldl (fun s k =>
    let p := if chol then (j, k) else (k, j)
    if inFill fill i k && inFill fill p.1 p.2 then (numAdd s (numProd (aAt done i k) (aAt done p.1 p.2)).negate).1 else s) (aAt a i j)

/-- One stored value of the trial, rne64 of its exact formula. -/
def trialValue (fill : List Nat) (chol : Bool) (tau : Num) (a done : List ((Nat × Nat) × Num)) (i j : Nat) : Num :=
  let s := trialSum fill chol a done i j
  if i = j then
    let p :=
      if chol then (if s.lt tau then tau else s)
      else if s.mag.lt tau then (if s.lt (.zero false) then tau.negate else tau) else s
    if chol then sqrt64 p else rne64 p
  else if j < i then div64 s (aAt done j j)
  else rne64 s

def trialFactor (x : RseSlot) (chol : Bool) (ein : List Int) (a : List ((Nat × Nat) × Num)) : List ((Nat × Nat) × Num) :=
  (factorPlaces x.fill chol).foldl (fun done p =>
    done ++ [(p, trialValue x.fill chol (tinyNum (ein.getD (snOf x.sn (min p.1 p.2)) 0) x.piv) a done p.1 p.2)]) []

/-- Range analysis (R296): e_in and e_b of each block. -/
def analyse (x : RseSlot) (chol : Bool) : List Int × List Int :=
  let a := ordered x chol
  let ein := einOf x.sn a
  let t := trialFactor x chol ein a
  let efac := einOf x.sn t
  (ein, (ein.zip efac).map fun p => max p.1 p.2)

/-! ### FACTOR (R293 to R295, R298) -/

/-- F_b. -/
def pointOf (eb : List Int) (b : Nat) : Int := 119 - eb.getD b 0

/-- A stored value: its integer and what a perturbation added; or it does not fit (R298); or it depends on one that does not. -/
inductive FxCell where
  | ok (n delta : Int)
  | big
  | dep
  deriving DecidableEq, Repr

/-- A result for storage (R298). -/
def FxCell.store (n delta : Int) : FxCell := if n.natAbs < 2 ^ 127 then .ok n delta else .big

def FxCell.val : FxCell → Option Int
  | .ok n _ => some n
  | _ => none

/-- The integer stored at a place, if there is one. -/
def cellAt (l : List ((Nat × Nat) × FxCell)) (i j : Nat) : Option Int := (l.lookup (i, j)).bind FxCell.val

/-- The exact sum of terms that a stored value starts from (R293, R294). -/
def fxSum (x : RseSlot) (chol : Bool) (a : List ((Nat × Nat) × Num)) (eb : List Int) (done : List ((Nat × Nat) × FxCell)) (i j : Nat) :
    Option Int :=
  let F := pointOf eb (snOf x.sn (min i j))
  (List.range (min i j)).foldl (fun s k =>
    let p := if chol then (j, k) else (k, j)
    let fk := pointOf eb (snOf x.sn k)
    if inFill x.fill i k && inFill x.fill p.1 p.2 then
      match s, cellAt done i k, cellAt done p.1 p.2 with
      | some s, some l, some u => some (s - fxTerm l fk u fk F)
      | _, _, _ => none
    else s) (some (fx (aAt a i j) F))

/-- One stored value of the factor (R294, R295). -/
def fxValue (x : RseSlot) (chol : Bool) (a : List ((Nat × Nat) × Num)) (ein eb : List Int) (done : List ((Nat × Nat) × FxCell))
    (i j : Nat) : FxCell :=
  let b := snOf x.sn (min i j)
  let F := pointOf eb b
  match fxSum x chol a eb done i j with
  | none => .dep
  | some s =>
    if i = j then
      let d := ein.getD b 0 - x.piv + F
      let tau : Int := if 0 ≤ d then 2 ^ d.toNat else 1
      let p := if chol then (if s < tau then tau else s) else if (s.natAbs : Int) < tau then (if 0 ≤ s then tau else -tau) else s
      .store (if chol then fxRoot p.toNat F F else p) (p - s)
    else if j < i then
      match cellAt done j j with
      | some u => if u = 0 then .dep else .store (fxQuot s F u F F) 0
      | none => .dep
    else .store s 0

def fxFactor (x : RseSlot) (chol : Bool) (a : List ((Nat × Nat) × Num)) (ein eb : List Int) : List ((Nat × Nat) × FxCell) :=
  (factorPlaces x.fill chol).foldl (fun done p => done ++ [(p, fxValue x chol a ein eb done p.1 p.2)]) []

/-- Blocks in which a value did not fit. -/
def overBlocks (sn : List Nat) (l : List ((Nat × Nat) × FxCell)) : List Nat :=
  (List.range sn.length).filter fun b => l.any fun c => decide (c.2 = .big) && snOf sn (min c.1.1 c.1.2) == b

/-- FACTOR with up to `k` growth restarts (R298): the exponents, the restarts taken, and the stored values, none for
RANGE_FAIL. -/
def growFactor (x : RseSlot) (chol : Bool) (a : List ((Nat × Nat) × Num)) (ein : List Int) :
    List Int → Nat → List Int × Nat × Option (List ((Nat × Nat) × (Int × Int)))
  | eb, k =>
    let t := fxFactor x chol a ein eb
    let o := overBlocks x.sn t
    if o = [] then
      (eb, 0, some (t.filterMap fun c => match c.2 with
        | .ok n d => some (c.1, (n, d))
        | _ => none))
    else match k with
      | 0 => (eb, 0, none)
      | k + 1 =>
        let eb' := (List.range eb.length).map fun b => if o.contains b then eb.getD b 0 + 16 else eb.getD b 0
        let r := growFactor x chol a ein eb' k
        (r.1, r.2.1 + 1, r.2.2)

/-! ### SOLVE (R302) -/

/-- The stored integer at a place of a held factor; 0 where there is none. -/
def heldAt (x : RseSlot) (i j : Nat) : Int := ((x.num.cells.lookup (i, j)).getD (0, 0)).1

/-- The point of the block that holds a place. -/
def heldPoint (x : RseSlot) (i j : Nat) : Int := pointOf x.num.eb (snOf x.sn (min i j))

/-- Magnitude at a place. -/
def heldMag (x : RseSlot) (i j : Nat) : Mag := magFx (heldAt x i j) (heldPoint x i j)

/-- U(i, j), which for Cholesky is L(j, i): the place that holds it. -/
def upper (chol : Bool) (i j : Nat) : Nat × Nat := if chol then (j, i) else (i, j)

/-- Range pass of the forward solve, row by row. -/
def magForward (x : RseSlot) (chol : Bool) (b : List Num) : List Mag :=
  (List.range b.length).foldl (fun y i =>
    let s := (List.range i).foldl (fun s j =>
      if inFill x.fill i j then magAdd s (magMul (heldMag x i j) (y.getD j none)) else s) (magNum (b.getD i (.zero false)))
    y ++ [if chol then magDiv s (heldAt x i i).natAbs (-(heldPoint x i i)) else s]) []

/-- Range pass of the backward solve, last row first; the list holds the rows done, lowest first. -/
def magBackward (x : RseSlot) (chol : Bool) (y : List Mag) : List Mag :=
  let n := y.length
  (List.range n).foldr (fun i z =>
    let s := (List.range (n - 1 - i)).foldl (fun s d =>
      let p := upper chol i (i + 1 + d)
      if inFill x.fill p.1 p.2 then magAdd s (magMul (heldMag x p.1 p.2) (z.getD d none)) else s) (y.getD i none)
    magDiv s (heldAt x i i).natAbs (-(heldPoint x i i)) :: z) []

/-- Points of the segments of a vector from its bounds; none where a bound is not finite. -/
def segPoints (sn : List Nat) (l : List Mag) : Option (List Int) :=
  if l.any fun m => m.isNone then none
  else some ((List.range sn.length).map fun b =>
    119 - expOf (((List.range l.length).filter fun i => snOf sn i == b).map fun i => (l.getD i none).num))

/-- Forward solve in FX128; `fy` are the points of the segments. -/
def fxForward (x : RseSlot) (chol : Bool) (b : List Num) (fy : List Int) : List Int :=
  (List.range b.length).foldl (fun y i =>
    let F := fy.getD (snOf x.sn i) 0
    let s := (List.range i).foldl (fun s j =>
      if inFill x.fill i j then s - fxTerm (heldAt x i j) (heldPoint x i j) (y.getD j 0) (fy.getD (snOf x.sn j) 0) F else s)
      (fx (b.getD i (.zero false)) F)
    y ++ [if chol then fxQuot s F (heldAt x i i) (heldPoint x i i) F else s]) []

/-- Backward solve in FX128; the list holds the rows done, lowest first. -/
def fxBackward (x : RseSlot) (chol : Bool) (y fy fz : List Int) : List Int :=
  let n := y.length
  (List.range n).foldr (fun i z =>
    let F := fz.getD (snOf x.sn i) 0
    let s := (List.range (n - 1 - i)).foldl (fun s d =>
      let p := upper chol i (i + 1 + d)
      if inFill x.fill p.1 p.2 then
        s - fxTerm (heldAt x p.1 p.2) (heldPoint x p.1 p.2) (z.getD d 0) (fz.getD (snOf x.sn (i + 1 + d)) 0) F
      else s) (rneScaled (y.getD i 0) 1 (F - fy.getD (snOf x.sn i) 0))
    fxQuot s F (heldAt x i i) (heldPoint x i i) F :: z) []

/-- solve(b) (R302): the FP64 codes of x in the original numbering; none for RANGE_FAIL. -/
def rseSolve (x : RseSlot) (chol : Bool) (b : List Num) : Option (List Nat) :=
  let n := b.length
  let bo := (List.range n).map fun k => b.getD (x.perm.idxOf k) (.zero false)
  let my := magForward x chol bo
  match segPoints x.sn my, segPoints x.sn (magBackward x chol my) with
  | some fy, some fz =>
    let z := fxBackward x chol (fxForward x chol bo fy) fy fz
    some ((List.range n).map fun i =>
      let k := x.perm.getD i 0
      rne64Code (fxVal (z.getD k 0) (fz.getD (snOf x.sn k) 0)))
  | _, _ => none

/-! ### REFINE and ITER (R303 to R305), on values -/

/-- The whole of A as given: a Cholesky slot's upper part mirrors its lower part. -/
def wholeA (x : RseSlot) (chol : Bool) : List (Nat × Nat × Num) :=
  (csrEntries x.rowptr x.colidx).flatMap fun e =>
    let v := decodeNum fmtFP64 (x.num.vals.getD e.2.2 0)
    if chol && e.1 != e.2.1 then [(e.1, e.2.1, v), (e.2.1, e.1, v)] else [(e.1, e.2.1, v)]

/-- The exact terms of row `i` of a product with A. -/
def rowTerms (a : List (Nat × Nat × Num)) (v : List Num) (i : Nat) : List Num :=
  (a.filter fun e => e.1 == i).map fun e => numProd e.2.2 (v.getD e.2.1 (.zero false))

def spmv (a : List (Nat × Nat × Num)) (v : List Num) : List Num :=
  (List.range v.length).map fun i => rne64 (numSum (rowTerms a v i))

def resid (a : List (Nat × Nat × Num)) (b v : List Num) : List Num :=
  (List.range v.length).map fun i => rne64 (numSum (b.getD i (.zero false) :: (rowTerms a v i).map Num.negate))

/-- omega(x, r) (R303). -/
def omega64 (a : List (Nat × Nat × Num)) (b v r : List Num) : Num :=
  let absA := a.map fun e => (e.1, e.2.1, e.2.2.mag)
  let rows := (List.range v.length).map fun i => rne64 (numSum (rowTerms absA (v.map Num.mag) i))
  let d := rne64 (numAdd (maxMag rows) (maxMag b)).1
  if d.isZero then .zero false else div64 (maxMag r) d

/-- Outcome of REFINE: status, corrections, ω and x; no x where the first solve fails. -/
structure IterOut where
  status : Nat
  count  : Nat
  metric : Num
  x      : List Num

/-- One value from codes. -/
def nums (l : List Nat) : List Num := l.map (decodeNum fmtFP64)

/-- The loop of R304 from correction `it`, with `k` corrections left: status OK 0x00, NOT_CONVERGED 0x09, RANGE_FAIL 0x0F. -/
def refineLoop (x : RseSlot) (chol : Bool) (a : List (Nat × Nat × Num)) (b : List Num) (tol : Num) : Nat → Nat → List Num → IterOut
  | it, k, v =>
    let r := resid a b v
    let w := omega64 a b v r
    if w.le tol then ⟨0x00, it, w, v⟩
    else match k with
      | 0 => ⟨0x09, it, w, v⟩
      | k + 1 =>
        match rseSolve x chol r with
        | none => ⟨0x0F, it, .zero false, v⟩
        | some c => refineLoop x chol a b tol (it + 1) k (fma64 (.fin 1 0) (nums c) v)

/-- prec(v) (R305); none for RANGE_FAIL. -/
def prec (x : RseSlot) (chol : Bool) (a : List (Nat × Nat × Num)) (p : Nat) (v : List Num) : Option (List Num) :=
  if p = 1 then
    some ((List.range v.length).map fun i =>
      let d := ((a.find? fun e => e.1 == i && e.2.1 == i).map fun e => e.2.2).getD (.zero false)
      if d.isZero then v.getD i (.zero false) else div64 (v.getD i (.zero false)) d)
  else if p = 2 then (rseSolve x chol v).map nums
  else some v

/-- conv(r); none where a product of it is not finite. -/
def convTest (tol : Num) (b r : List Num) : Option Bool :=
  let rr := dot64 r r
  let bb := dot64 b b
  if rr.finite && bb.finite then some (rr.le (numProd (numProd tol tol) bb)) else none

/-- A scalar quotient; none for a division by zero or a result that is not finite. -/
def scal (x y : Num) : Option Num :=
  let q := div64 x y
  if y.isZero || !q.finite then none else some q

/-- A scalar that is finite. -/
def fin? (x : Num) : Option Num := if x.finite then some x else none

/-- Vectors and scalar of an iteration: x, r, p, the third vector (z of CG, rh of BiCGStab) and rho. -/
structure IterSt where
  x   : List Num
  r   : List Num
  p   : List Num
  z   : List Num
  rho : Num

/-- Result of one iteration: goes on, breaks down with the last x, or a solve fails. -/
inductive IterStep where
  | go (s : IterSt)
  | broken (s : IterSt)
  | range (s : IterSt)

/-- One iteration of CG (R305). -/
def cgStep (x : RseSlot) (chol : Bool) (a : List (Nat × Nat × Num)) (pc : Nat) (s : IterSt) : IterStep :=
  let q := spmv a s.p
  match (fin? (dot64 s.p q)).bind (scal s.rho) with
  | none => .broken s
  | some al =>
    let s := { s with x := fma64 al s.p s.x, r := fma64 al.negate q s.r }
    match prec x chol a pc s.r with
    | none => .range s
    | some z =>
      let s := { s with z := z }
      match fin? (dot64 s.r z) with
      | none => .broken s
      | some rho1 =>
        match scal rho1 s.rho with
        | none => .broken s
        | some be => .go { s with p := fma64 be s.p z, rho := rho1 }

/-- One iteration of BiCGStab (R305). -/
def biStep (x : RseSlot) (chol : Bool) (a : List (Nat × Nat × Num)) (pc : Nat) (s : IterSt) : IterStep :=
  match prec x chol a pc s.p with
  | none => .range s
  | some ph =>
    let v := spmv a ph
    match (fin? (dot64 s.z v)).bind (scal s.rho) with
    | none => .broken s
    | some al =>
      let u := fma64 al.negate v s.r
      match prec x chol a pc u with
      | none => .range s
      | some sh =>
        let t := spmv a sh
        match fin? (dot64 t u), fin? (dot64 t t) with
        | some tu, some tt =>
          match scal tu tt with
          | none => .broken s
          | some om =>
            let s := { s with x := fma64 om sh (fma64 al ph s.x), r := fma64 om.negate t u }
            match fin? (dot64 s.z s.r) with
            | none => .broken s
            | some rho1 =>
              match scal rho1 s.rho, scal al om with
              | some g, some h =>
                match fin? (mul64 g h) with
                | none => .broken s
                | some be => .go { s with p := fma64 be (fma64 om.negate v s.p) s.r, rho := rho1 }
              | _, _ => .broken s
        | _, _ => .broken s

/-- METRIC of ITER. -/
def iterMetric (b r : List Num) : Num := ratioRoot (dot64 r r) (dot64 b b)

/-- The loop of R305 after `it` iterations, with `k` left: OK 0x00, NOT_CONVERGED 0x09, BREAKDOWN 0x0A, RANGE_FAIL 0x0F. -/
def iterLoop (step : IterSt → IterStep) (b : List Num) (tol : Num) : Nat → Nat → IterSt → IterOut
  | it, k, s =>
    match convTest tol b s.r with
    | none => ⟨0x0A, it, iterMetric b s.r, s.x⟩
    | some true => ⟨0x00, it, iterMetric b s.r, s.x⟩
    | some false =>
      match k with
      | 0 => ⟨0x09, it, iterMetric b s.r, s.x⟩
      | k + 1 =>
        match step s with
        | .go s => iterLoop step b tol (it + 1) k s
        | .broken s => ⟨0x0A, it, iterMetric b s.r, s.x⟩
        | .range s => ⟨0x0F, it, .zero false, s.x⟩

/-- ITER from x (R305): METHOD 0 is CG, 1 BiCGStab. -/
def rseIter (x : RseSlot) (chol : Bool) (bicg : Bool) (pc maxit : Nat) (tol : Num) (b v : List Num) : IterOut :=
  let a := wholeA x chol
  let r := resid a b v
  if bicg then
    match fin? (dot64 r r) with
    | none => ⟨0x0A, 0, iterMetric b r, v⟩
    | some rho => iterLoop (biStep x chol a pc) b tol 0 maxit ⟨v, r, r, r, rho⟩
  else
    match prec x chol a pc r with
    | none => ⟨0x0F, 0, .zero false, v⟩
    | some z =>
      match fin? (dot64 r z) with
      | none => ⟨0x0A, 0, iterMetric b r, v⟩
      | some rho => iterLoop (cgStep x chol a pc) b tol 0 maxit ⟨v, r, z, z, rho⟩

end Sys2Proof.Machine
end

