-- ==== Sys2Proof/Machine/Rse.lean ====
section
/-! DEFINITION. The Resident Solve Engine: submission (R268, R281, R282), its commands (R280, R284 to R308), completion (R287,
R288), loss (R310) and zeroing (R311). -/

namespace Sys2Proof.Machine

/-- Completion status (Table RSE-6). -/
def rsOK : Nat := 0x00
def rsInvalid : Nat := 0x01
def rsSlotState : Nat := 0x02
def rsTranslation : Nat := 0x03
def rsNoSpace : Nat := 0x04
def rsLimit : Nat := 0x05
def rsValue : Nat := 0x06
def rsStructure : Nat := 0x07
def rsSignature : Nat := 0x08
def rsPoison : Nat := 0x0B
def rsAborted : Nat := 0x0C
def rsSmall : Nat := 0x0D
def rsCorrupt : Nat := 0x0E
def rsRange : Nat := 0x0F

/-- FLAGS of a record (Table RSE-5). -/
def rfExceeded : Nat := 0x01
def rfReanalysed : Nat := 0x02
def rfPerturbed : Nat := 0x04
def rfWarm : Nat := 0x08
def rfConverged : Nat := 0x10
def rfGrowth : Nat := 0x20
def rfStale : Nat := 0x40

/-! ### Slots (R280) -/

def noSlot (_ : Nat) : RseSlot := RseSlot.reset
def State.slot (s : State) (k : Nat) : RseSlot := sGet noSlot s.rse.slots k

def State.setSlot (s : State) (k : Nat) (x : RseSlot) : State :=
  { s with rse := { s.rse with slots := sSet noSlot s.rse.slots k x } }

/-- STATE of slot `k`: 0 EMPTY, 1 ANALYSED, 2 FACTORED, 3 STALE. -/
def State.slotState (s : State) (k : Nat) : Nat := s.fld (Reg.RSE_SLOT_STATE (Reg.slotWin k)) Fld.RSE_SLOT_STATE_STATE
def State.setSlotState (s : State) (k v : Nat) : State := s.setFld (Reg.RSE_SLOT_STATE (Reg.slotWin k)) Fld.RSE_SLOT_STATE_STATE v
def State.slotChol (s : State) (k : Nat) : Bool := s.flag (Reg.RSE_SLOT_STATE (Reg.slotWin k)) Fld.RSE_SLOT_STATE_KIND
def State.slotN (s : State) (k : Nat) : Nat := s.fld (Reg.RSE_SLOT_STATE (Reg.slotWin k)) Fld.RSE_SLOT_STATE_N
def State.slotNnz (s : State) (k : Nat) : Nat := s.fld (Reg.RSE_SLOT_INFO (Reg.slotWin k)) Fld.RSE_SLOT_INFO_NNZ
def State.slotNnzF (s : State) (k : Nat) : Nat := s.fld (Reg.RSE_SLOT_SIZE (Reg.slotWin k)) Fld.RSE_SLOT_SIZE_NNZF

/-- The digest of slot `k` (R292). -/
def State.slotDigest (s : State) (k : Nat) : List Byte :=
  (List.range 6).flatMap fun i => natLE 8 (s.rd (Reg.RSE_SLOT_DIGEST (Reg.slotWin k) i)).toNat

/-- Slot `k` becomes EMPTY; its granules are free. -/
def State.emptySlot (s : State) (k : Nat) : State := (s.setSlot k RseSlot.reset).dropRegs (Reg.slotWin k) (Reg.slotWin k + 0x80)

def State.emptySlots (s : State) : State := (List.range 8).foldl State.emptySlot s

/-- Granules of 2 MiB that no slot holds (R278). -/
def State.freeGranules (s : State) : Nat :=
  512 * s.fld Reg.RSE_REGION Fld.RSE_REGION_SIZE -
    ((List.range 8).map fun k => s.fld (Reg.RSE_SLOT_SIZE (Reg.slotWin k)) Fld.RSE_SLOT_SIZE_GRANULES).sum

/-! ### Queue (R281) -/

/-- OCCUPANCY, BUSY and RUN_SEQ follow the queue: its first command is the running one. -/
def State.rseStatus (s : State) : State :=
  s.setFlds Reg.RSE_STATUS [(Fld.RSE_STATUS_OCCUPANCY, s.rse.queue.length), (Fld.RSE_STATUS_BUSY, if s.rse.queue = [] then 0 else 1),
    (Fld.RSE_STATUS_RUN_SEQ, (s.rse.queue.head?.map RseCmd.seq).getD 0)]

/-- Status codes of R268 beside ACCEPTED, in the order of judgement; `tier` says that the descriptor lies in a working tier. -/
def State.submitRefusal (s : State) (pa : Nat) : Nat :=
  if s.working capRse = false then 2
  else if pa % 64 ≠ 0 then 3
  else if s.inTier pa = false ∨ s.reserved pa then 4
  else if s.flag Reg.HOST_PARTITION Fld.HOST_PARTITION_VALID = false then 5
  else if s.rse.queue.length ≥ 64 ∨ s.flag Reg.RSE_STATUS Fld.RSE_STATUS_ZEROING then 1
  else 0

/-- A command is accepted (R281); the number it is given. -/
def State.rseAccept (s : State) (pa tag : Nat) : State × Nat :=
  let r := s.readDesc 4 pa
  let s := r.st
  let q := s.fld Reg.RSE_SEQ Fld.RSE_SEQ_NEXT
  let s := s.setFld Reg.RSE_SEQ Fld.RSE_SEQ_NEXT (if q = 0xFFFFFFFF then 1 else q + 1)
  ({ s with rse := { s.rse with queue := s.rse.queue ++ [RseCmd.mk q (tag % 65536) (bytesToWords 8 r.data) (decide (r.stat ≠ MemStat.ok))] } }.rseStatus, q)

/-- RSE_SUBMIT (R59, R281, R282): the next entry of the P-die's queue submits its command. -/
def execRseSubmit (s : State) : Host.Outcome State Fault Refusal :=
  .next (s.talqLaunch 4 actRse fun s e =>
    let c := s.submitRefusal e.desc
    if c = 0 then (s.rseAccept e.desc e.tag).1
    else
      let s := s.event Reg.RSE_EVENT Fld.RSE_EVENT_ARMED_REFUSED Reg.RSE_CNT_ARMED_REFUSED
      if s.flag Reg.RSE_CTRL Fld.RSE_CTRL_EVQ_EN then
        (s.postHost (s.fld Reg.RSE_CTRL Fld.RSE_CTRL_EVQ) 0x13 c 0xFFFF s.step (BitVec.ofNat 64 e.desc) (BitVec.ofNat 64 e.tag)).1
      else s)

/-- RSE_SUBMIT_INSN (R268): RSE.SUBMIT of a hart, with the outcome of the translation of rs1 as a load. -/
def execRseSubmitInsn (hart : Nat) (word : BitVec 32) (xlat : HartXlat) (s : State) : Host.Outcome State Fault Refusal :=
  .next (s.svareot hart word 4 true (s.xctrl hart Fld.HOST_XCTRL_RSE_U) (iF7 word == 0) fun s =>
    match xlat with
    | .fault g => s.hartTrap hart (if g then exLoadGuest else exLoadPage) (s.xreg hart (iRs1 word)) none
    | .ok pa =>
      let c := s.submitRefusal pa
      let x := if c = 0 then s.rseAccept pa ((s.xreg hart (iRs2 word)).toNat % 65536) else (s, 0)
      let s := if c = 1 then x.1.bump32 Reg.HOST_CNT_RSE_FULL 1 else x.1
      (s.setXreg hart (iRd word) (BitVec.ofNat 64 (2 ^ 32 * x.2 + c))).retire hart)

/-! ### Arrays (R284) -/

/-- Status of a failed access. -/
def rseStat : MemStat → Nat
  | .ok => rsOK
  | .poison => rsPoison
  | .absent => rsTranslation

/-- `n` bytes from a device address, or the status that ends the command. -/
def State.rseRead (s : State) (da n : Nat) : State × (Nat ⊕ List Byte) :=
  let r := s.devRead 4 (s.fld Reg.RSE_PTBASE Fld.RSE_PTBASE_ROOT) (s.fld Reg.HOST_PARTITION Fld.HOST_PARTITION_PARTITION) da n (n / 4096 + 2)
  (r.1, match r.2 with
    | .inl e => .inl (rseStat e)
    | .inr b => .inr b)

/-- Bytes to a device address; a status other than OK ends the command. -/
def State.rsePut (s : State) (da : Nat) (bs : List Byte) : State × Nat :=
  let r := s.devWrite 4 (s.fld Reg.RSE_PTBASE Fld.RSE_PTBASE_ROOT) (s.fld Reg.HOST_PARTITION Fld.HOST_PARTITION_PARTITION) da bs
    (bs.length / 4096 + 2)
  (r.1, rseStat r.2)

/-- Elements of `w` bytes. -/
def elemsOf (w : Nat) (b : List Byte) (n : Nat) : List Nat := (List.range n).map fun i => leNat ((b.drop (w * i)).take w)

/-- An array of `n` elements of `w` bytes. -/
def State.rseArray (s : State) (da w n : Nat) : State × (Nat ⊕ List Nat) :=
  let r := s.rseRead da (w * n)
  (r.1, match r.2 with
    | .inl e => .inl e
    | .inr b => .inr (elemsOf w b n))

/-! ### Completion -/

/-- What a command leaves in its record (Table RSE-5). -/
structure RseRes where
  status : Nat
  flags  : Nat := 0
  count  : Nat := 0
  index  : Nat := 2 ^ 64 - 1
  metric : Nat := 0
  bytes  : Nat := 0

/-- A command that ends with a status and nothing more. -/
def rseFail (st : Nat) : RseRes := { status := st }

/-- A value that fails (Table RSE-5): its array and position. -/
def rseBad (array pos : Nat) : RseRes := { status := rsValue, count := array, index := pos }

/-- CPL of a descriptor. -/
def RseCmd.cpl (c : RseCmd) : Nat := (wordAt c.words 1).toNat % 2 ^ 48
def RseCmd.w0 (c : RseCmd) : Nat := (wordAt c.words 0).toNat
def RseCmd.args (c : RseCmd) : Nat := c.w0 % 2 ^ 32
def RseCmd.w (c : RseCmd) (i : Nat) : Nat := (wordAt c.words i).toNat
def RseCmd.slot (c : RseCmd) : Nat := bits c.w0 51 49
def RseCmd.cmd (c : RseCmd) : Nat := bits c.w0 55 52

def State.cplFault (s : State) : State := s.event Reg.RSE_EVENT Fld.RSE_EVENT_CPL_FAULT Reg.RSE_CNT_CPL_FAULT

/-- The record is written at CPL (R287), or cannot be (R288). -/
def State.rseRecord (s : State) (c : RseCmd) (r : RseRes) : State :=
  let y := s.free 5
  let s := y.2
  if c.poison ∨ c.cpl % 64 ≠ 0 then s.cplFault
  else
    let b := wordsToBytes [BitVec.ofNat 64 (2 ^ 63 + 2 ^ 48 * r.status + 2 ^ 32 * c.tag + c.seq), BitVec.ofNat 64 r.flags,
      BitVec.ofNat 64 r.count, BitVec.ofNat 64 r.index, BitVec.ofNat 64 r.metric, BitVec.ofNat 64 r.bytes, y.1, BitVec.ofNat 64 s.step]
    let w := s.rsePut c.cpl b
    if w.2 = rsOK then w.1 else w.1.cplFault

/-- The semaphore action (R287, R288). -/
def State.rseSem (s : State) (c : RseCmd) : State :=
  let n := bits c.w0 42 33
  if c.poison ∨ bit c.w0 48 = false then s
  else if s.present (capTdie (n / 256)) = false ∨
      s.semOwned n (s.flag Reg.HOST_PARTITION Fld.HOST_PARTITION_VALID) (s.fld Reg.HOST_PARTITION Fld.HOST_PARTITION_PARTITION) = false ∨
      sGet noMark s.tc.semPoison n then s.cplFault
  else s.semInc n 1

/-- The queue entry (R287). -/
def State.rseEntry (s : State) (c : RseCmd) (r : RseRes) : State :=
  if c.poison ∨ bit c.w0 47 = false then s
  else (s.postHost (bits c.w0 46 43) 0x12 r.status 0xFFFF s.step (BitVec.ofNat 64 (2 ^ 32 * c.seq + c.tag))
    (BitVec.ofNat 64 c.cpl)).1

/-- A command completes (R287): record, semaphore, queue entry; it leaves the queue, and with it empty the RSE signals
step-done (R48). -/
def State.rseComplete (s : State) (c : RseCmd) (r : RseRes) : State :=
  let s := ((s.rseRecord c r).rseSem c).rseEntry c r
  let s := { s with rse := { s.rse with queue := s.rse.queue.drop 1 } }.rseStatus
  let s := s.setFld Reg.RSE_SEQ Fld.RSE_SEQ_LAST_DONE c.seq
  let s := s.bump64 Reg.RSE_CNT_CMD 1
  if s.rse.queue = [] then s.unitDone Fld.HLY_DONE_U_RSE else s

/-! ### Descriptor checks (R286) -/

/-- Two ranges of bytes share one. -/
def overlap (a b : Nat × Nat) : Bool := decide (a.1 < b.1 + b.2) && decide (b.1 < a.1 + a.2) && a.2 != 0 && b.2 != 0

/-- Bytes from one headed vector to the next: each begins on a multiple of 64 (log entry 16). -/
def vecStride (n : Nat) : Nat := (64 + 8 * n + 63) / 64 * 64

/-- TOL is neither negative nor other than finite. -/
def tolOk (v : Nat) : Bool :=
  let x := decodeNum fmtFP64 v
  x.finite && (x.isZero || !x.neg)

/-- The ranges a command reads and writes, given n and nnz of its slot. -/
def RseCmd.reads (c : RseCmd) (n nnz : Nat) : List (Nat × Nat) :=
  match c.cmd with
  | 1 => [(c.w 4, 8 * (c.w 2 + 1)), (c.w 5, 4 * c.w 3), (c.w 6, 8 * c.w 3)] ++ (if bit c.args 2 then [(c.w 7, 4 * c.w 2)] else [])
  | 2 => if bit c.args 0 then [(c.w 4, 8 * nnz)] else [(c.w 3, 4 * c.w 2), (c.w 4, 8 * c.w 2)]
  | 3 => if bit c.args 0 then [(c.w 2, 256)] else []
  | 4 => [(c.w 3, 8 * n * c.w 2)]
  | 7 => []
  | _ => [(c.w 2, 8 * n)]

/-- The guess that a REFINE or an ITER reads in the place that it writes (Table RSE-4). -/
def RseCmd.guesses (c : RseCmd) (n : Nat) : List (Nat × Nat) :=
  if (c.cmd = 5 ∧ bit c.args 4) ∨ (c.cmd = 6 ∧ bit c.args 3) then [(c.w 3, 64 + 8 * n)] else []

def RseCmd.writes (c : RseCmd) (n : Nat) : List (Nat × Nat) :=
  (c.cpl, 64) ::
    match c.cmd with
    | 1 => if !bit c.args 2 && c.w 7 != 0 then [(c.w 7, 4 * c.w 2)] else []
    | 3 => if bit c.args 1 then [(c.w 2, c.w 3)] else []
    | 4 => [(c.w 4, vecStride n * c.w 2)]
    | 5 => [(c.w 3, 64 + 8 * n)]
    | 6 => [(c.w 3, 64 + 8 * n)]
    | _ => []

/-- Words that a command does not use are 0, its arguments are in range, and its arrays are aligned (R285, R286). -/
def RseCmd.fieldsOk (c : RseCmd) : Bool :=
  let z (l : List Nat) : Bool := l.all fun i => c.w i == 0
  let da (l : List Nat) : Bool := l.all fun i => decide (c.w i < 2 ^ 48)
  let al (k : Nat) (l : List Nat) : Bool := l.all fun i => c.w i % k == 0
  match c.cmd with
  | 1 =>
    decide (bits c.args 1 0 < 2) && bits c.args 7 3 == 0 && decide (20 ≤ bits c.args 15 8) && decide (bits c.args 15 8 ≤ 110) &&
      bits c.args 31 16 == 0 && da [4, 5, 6, 7] && al 8 [4, 6] && al 4 [5, 7]
  | 2 =>
    decide (c.args < 2) && z [5, 6, 7] && da [3, 4] && al 8 [4] &&
      (if c.args = 1 then z [2, 3] else decide (1 ≤ c.w 2) && decide (c.w 2 ≤ 2 ^ 32) && al 4 [3])
  | 3 =>
    decide (c.args < 8) && c.args % 4 != 3 && z [4, 5, 6, 7] && da [2] && al 64 [2] &&
      (if c.args % 4 = 0 then z [2, 3] else if c.args % 4 = 1 then z [3] else true)
  | 4 => c.args == 0 && decide (1 ≤ c.w 2) && decide (c.w 2 ≤ 64) && z [5, 6, 7] && da [3, 4] && al 8 [3] && al 64 [4]
  | 5 =>
    decide (1 ≤ bits c.args 3 0) && bits c.args 31 5 == 0 && z [5, 6, 7] && da [2, 3] && al 8 [2] && al 64 [3] && tolOk (c.w 4)
  | 6 =>
    bits c.args 2 1 != 3 && bits c.args 15 4 == 0 && bits c.args 31 16 != 0 && z [5, 6, 7] && da [2, 3] && al 8 [2] && al 64 [3] &&
      tolOk (c.w 4)
  | 7 => c.args == 0 && z [2, 3, 4, 5, 6, 7]
  | _ => false

/-- R286. -/
def State.rseValid (s : State) (c : RseCmd) : Bool :=
  let n := s.slotN c.slot
  bits c.w0 63 56 == 1 && !bit c.w0 32 && decide (c.w 1 < 2 ^ 48) && c.cpl % 64 == 0 && c.fieldsOk &&
    ((c.guesses n).all fun r => !overlap (c.cpl, 64) r) && (c.writes n).all fun w => (c.reads n (s.slotNnz c.slot)).all fun r => !overlap w r

/-- States in which a command runs (Table RSE-4). -/
def State.rseStateOk (s : State) (c : RseCmd) : Bool :=
  let x := s.slotState c.slot
  match c.cmd with
  | 1 => x == 0
  | 2 => x != 0
  | 3 => x != 0
  | 4 => decide (2 ≤ x)
  | 5 => decide (2 ≤ x)
  | 6 => if bits c.args 2 1 = 2 then decide (2 ≤ x) else x != 0
  | _ => true

/-- The command at the front of the queue runs if its CMD is `cmd`; one whose CMD is reserved, or whose descriptor came
poisoned, ends on any run (log entry 17). -/
def State.rseRun (s : State) (cmd : Nat) (k : State → RseCmd → State × RseRes) : State :=
  if s.working capRse = false then s
  else match s.rse.queue with
    | [] => s
    | c :: _ =>
      if c.poison then s.rseComplete c (rseFail rsPoison)
      else if c.cmd = 0 ∨ 8 ≤ c.cmd then s.rseComplete c (rseFail rsInvalid)
      else if c.cmd ≠ cmd then s
      else if s.rseValid c = false then s.rseComplete c (rseFail rsInvalid)
      else if s.rseStateOk c = false then s.rseComplete c (rseFail rsSlotState)
      else
        let x := k s c
        x.1.rseComplete c x.2

/-! ### SETUP (R289 to R292, R296, R297) -/

/-- First position at which a test fails. -/
def firstBad (l : List Nat) (ok : Nat → Nat → Bool) : Option Nat :=
  ((List.range l.length).find? fun i => !ok i (l.getD i 0))

/-- A check of R289 that fails: the array and its position. -/
def setupBad (n nnz : Nat) (chol given : Bool) (rowptr colidx vals perm : List Nat) : Option (Nat × Nat) :=
  match firstBad rowptr fun i v =>
      (if i = 0 then v == 0 else decide (rowptr.getD (i - 1) 0 ≤ v)) && (i != n || v == nnz) with
  | some i => some (0, i)
  | none =>
    let es := csrEntries rowptr colidx
    match es.find? fun e =>
        decide (n ≤ e.2.1) || (chol && decide (e.1 < e.2.1)) ||
          (decide (rowptr.getD e.1 0 < e.2.2) && decide (e.2.1 ≤ colidx.getD (e.2.2 - 1) 0)) with
    | some e => some (1, e.2.2)
    | none =>
      match firstBad vals fun _ v => (decodeNum fmtFP64 v).finite with
      | some i => some (2, i)
      | none =>
        match if given then firstBad perm fun i v => decide (v < n) && !(perm.take i).contains v else none with
        | some i => some (3, i)
        | none => none

/-- The slot that SETUP makes. -/
def setupSlot (piv : Nat) (chol : Bool) (rowptr colidx vals perm : List Nat) : RseSlot :=
  let es := csrEntries rowptr colidx
  let n := rowptr.length - 1
  let fill := fillPattern es perm n chol
  let x : RseSlot := ⟨piv, rowptr, colidx, perm, fill, supernodes fill chol, ⟨vals, [], [], []⟩⟩
  let r := analyse x chol
  { x with num := ⟨vals, r.1, r.2, []⟩ }

/-- nnzF of a filled pattern (Table RSE-1). -/
def nnzFOf (fill : List Nat) (chol : Bool) : Nat := (factorPlaces fill chol).length

def State.setupRun (s : State) (c : RseCmd) : State × RseRes :=
  let n := c.w 2
  let nnz := c.w 3
  let chol := bit c.args 0
  let given := bit c.args 2
  if n = 0 ∨ 2 ^ 28 < n ∨ nnz = 0 ∨ 2 ^ 32 < nnz then (s, rseFail rsLimit)
  else
    let a := s.rseArray (c.w 4) 8 (n + 1)
    match a.2 with
    | .inl e => (a.1, rseFail e)
    | .inr rowptr =>
    let b := a.1.rseArray (c.w 5) 4 nnz
    match b.2 with
    | .inl e => (b.1, rseFail e)
    | .inr colidx =>
    let d := b.1.rseArray (c.w 6) 8 nnz
    match d.2 with
    | .inl e => (d.1, rseFail e)
    | .inr vals =>
    let f := if given then d.1.rseArray (c.w 7) 4 n else (d.1, .inr [])
    match f.2 with
    | .inl e => (f.1, rseFail e)
    | .inr p =>
    let s := f.1
    match setupBad n nnz chol given rowptr colidx vals p with
    | some (arr, i) => (s, rseBad arr i)
    | none =>
      let perm := if given then p else rcm (csrEntries rowptr colidx) n
      let x := setupSlot (bits c.args 15 8) chol rowptr colidx vals perm
      let nnzF := nnzFOf x.fill chol
      let foot := (48 * n + 12 * nnz + 20 * nnzF + 128 * x.sn.length + (2 ^ 21 - 1)) / 2 ^ 21
      if 2 ^ 32 < nnzF then (s, rseFail rsLimit)
      else if s.freeGranules < foot then (s, rseFail rsNoSpace)
      else
        let w := if !given && c.w 7 != 0 then s.rsePut (c.w 7) (perm.flatMap (natLE 4)) else (s, rsOK)
        if w.2 ≠ rsOK then (w.1, rseFail w.2)
        else
          let k := Reg.slotWin c.slot
          let s := w.1.setSlot c.slot x
          let s := s.wr (Reg.RSE_SLOT_STATE k) (packF [(Fld.RSE_SLOT_STATE_STATE, 1), (Fld.RSE_SLOT_STATE_KIND, if chol then 1 else 0),
            (Fld.RSE_SLOT_STATE_ORDER, if given then 1 else 0), (Fld.RSE_SLOT_STATE_N, n)])
          let s := s.wr (Reg.RSE_SLOT_SIZE k) (packF [(Fld.RSE_SLOT_SIZE_GRANULES, foot), (Fld.RSE_SLOT_SIZE_NNZF, nnzF)])
          let s := s.wr (Reg.RSE_SLOT_INFO k) (packF [(Fld.RSE_SLOT_INFO_NNZ, nnz), (Fld.RSE_SLOT_INFO_SUPERNODES, x.sn.length)])
          let dg := structDigest n nnz (if chol then 1 else 0) (if given then 1 else 0) rowptr colidx perm
          let s := (List.range 6).foldl (fun s i => s.wr (Reg.RSE_SLOT_DIGEST k i) (BitVec.ofNat 64 (leNat ((dg.drop (8 * i)).take 8)))) s
          (s, { status := rsOK, count := x.sn.length, bytes := 2 ^ 21 * foot })

/-- SETUP. -/
def execSetup (s : State) : Host.Outcome State Fault Refusal := .next (s.rseRun 1 State.setupRun)

/-! ### UPDATE (R299) -/

/-- Block of nonzero `i` of a slot. -/
def blockOfNz (x : RseSlot) (i : Nat) : Nat :=
  match (csrEntries x.rowptr x.colidx).find? fun e => e.2.2 == i with
  | some e => snOf x.sn (min (x.perm.getD e.1 0) (x.perm.getD e.2.1 0))
  | none => 0

/-- |v| ≥ 2^e_in of the block of nonzero `i`. -/
def outOfRange (x : RseSlot) (p : Nat × Nat) : Bool :=
  match decodeNum fmtFP64 p.2 with
  | .fin m e => !magLt m.natAbs e 1 (x.num.ein.getD (blockOfNz x p.1) 0)
  | _ => false

def State.updateRun (s : State) (c : RseCmd) : State × RseRes :=
  let full := bit c.args 0
  let nnz := s.slotNnz c.slot
  let n := if full then nnz else c.w 2
  let a := if full then (s, .inr (List.range nnz)) else s.rseArray (c.w 3) 4 n
  match a.2 with
  | .inl e => (a.1, rseFail e)
  | .inr idx =>
  let b := a.1.rseArray (c.w 4) 8 n
  match b.2 with
  | .inl e => (b.1, rseFail e)
  | .inr vals =>
  let s := b.1
  match firstBad vals fun _ v => (decodeNum fmtFP64 v).finite with
  | some i => (s, rseBad 2 i)
  | none =>
  match firstBad idx fun _ v => decide (v < nnz) with
  | some i => (s, rseBad 4 i)
  | none =>
    let x := s.slot c.slot
    let l := idx.zip vals
    let far := l.filter (outOfRange x)
    let s := s.setSlot c.slot { x with num := { x.num with vals := l.foldl (fun v p => v.set p.1 p.2) x.num.vals } }
    let s := if s.slotState c.slot = 2 then s.setSlotState c.slot 3 else s
    match far with
    | [] => (s, { status := rsOK })
    | p :: _ =>
      let s := s.setFld (Reg.RSE_SLOT_STATE (Reg.slotWin c.slot)) Fld.RSE_SLOT_STATE_RANGE_PENDING 1
      let s := s.event Reg.RSE_EVENT Fld.RSE_EVENT_RANGE_EXCEEDED Reg.RSE_CNT_RANGE_EXCEEDED
      (s, { status := rsOK, flags := rfExceeded, count := far.length, index := p.1 })

/-- UPDATE. -/
def execUpdate (s : State) : Host.Outcome State Fault Refusal := .next (s.rseRun 2 State.updateRun)

/-! ### FACTOR (R293 to R298, R307) -/

/-- What a slot image holds, as numbers: each list after its length. -/
def RseImage.numbers (x : RseImage) : List Int :=
  ([x.vals.length, x.ein.length, x.eb.length, x.cells.length].map Int.ofNat) ++ x.vals.map Int.ofNat ++ x.ein ++ x.eb ++
    x.cells.flatMap fun c => [(c.1.1 : Int), c.1.2, c.2.1, c.2.2]

/-- Groups of four numbers as cells. -/
def imageCells : List Int → List ((Nat × Nat) × (Int × Int))
  | a :: b :: c :: d :: r => ((a.toNat, b.toNat), (c, d)) :: imageCells r
  | _ => []

/-- The content that numbers stand for; none where their lengths are not those they state. -/
def imageOfNumbers (l : List Int) : Option RseImage :=
  let n (i : Nat) : Nat := (l.getD i 0).toNat
  let r := l.drop 4
  if r.length = n 0 + n 1 + n 2 + 4 * n 3 then
    some ⟨(r.take (n 0)).map Int.toNat, (r.drop (n 0)).take (n 1), (r.drop (n 0 + n 1)).take (n 2), imageCells (r.drop (n 0 + n 1 + n 2))⟩
  else none

/-- A byte of an image under the key of its place, which is its own inverse (log entry 45). -/
def imageMix (b : List Byte) : List Byte := b.zipIdx.map fun p => p.1 ^^^ Config.imageKey p.2

/-- The body of a slot image: every number in 32 bytes, and what follows them. -/
def imageBody (x : RseImage) : List Byte :=
  let b := x.numbers.flatMap fun i => natLE 32 (unsig 256 i)
  imageMix (b ++ List.replicate (Config.imagePad b.length) 0)

/-- What the body of a slot image holds; none where it is none. -/
def imageRead (body : List Byte) : Option RseImage :=
  let b := imageMix body
  let num (i : Nat) : Int := sext 256 (leNat ((b.drop (32 * i)).take 32))
  let n := 4 + (num 0).toNat + (num 1).toNat + (num 2).toNat + 4 * (num 3).toNat
  if 32 * n ≤ b.length then imageOfNumbers ((List.range n).map num) else none

/-- The header and body of a slot image (R307). -/
def State.slotImage (s : State) (k : Nat) : List Byte :=
  let body := imageBody (s.slot k).num
  let w := [0x01#64, s.rd Reg.ID_NUMERICS_SIG] ++ bytesToWords 6 (s.slotDigest k) ++
    [BitVec.ofNat 64 (s.slotN k), BitVec.ofNat 64 (s.slotNnz k), BitVec.ofNat 64 (s.slotNnzF k), BitVec.ofNat 64 (256 + body.length),
      BitVec.ofNat 64 (crc32c body)]
  wordsToBytes (w ++ List.replicate 19 0) ++ body

/-- Import: an image is read into a slot. One whose CPL lies in the image is INVALID as soon as the header gives its size (R286). -/
def State.importRead (s : State) (c : RseCmd) : State × RseRes :=
  let h := s.rseArray (c.w 2) 8 32
  match h.2 with
  | .inl e => (h.1, rseFail e)
  | .inr hw =>
    let w (i : Nat) : Nat := hw.getD i 0
    if w 0 ≠ 1 ∨ (hw.drop 13).any (· != 0) ∨ w 11 < 256 ∨ 2 ^ 48 ≤ w 11 ∨ 2 ^ 32 ≤ w 12 then (h.1, rseFail rsCorrupt)
    else if overlap (c.cpl, 64) (c.w 2, w 11) then (h.1, rseFail rsInvalid)
    else
      let b := h.1.rseRead (c.w 2 + 256) (w 11 - 256)
      match b.2 with
      | .inl e => (b.1, rseFail e)
      | .inr body =>
        let s := b.1
        let mism := s.event Reg.RSE_EVENT Fld.RSE_EVENT_MISMATCH Reg.RSE_CNT_MISMATCH
        if crc32c body ≠ w 12 then (s, rseFail rsCorrupt)
        else if ((hw.drop 2).take 6).flatMap (natLE 8) ≠ s.slotDigest c.slot then (mism, rseFail rsStructure)
        else if w 1 ≠ (s.rd Reg.ID_NUMERICS_SIG).toNat then (mism, rseFail rsSignature)
        else if w 8 ≠ s.slotN c.slot ∨ w 9 ≠ s.slotNnz c.slot ∨ w 10 ≠ s.slotNnzF c.slot then (s, rseFail rsCorrupt)
        else
          match imageRead body with
          | none => (s, rseFail rsCorrupt)
          | some im =>
            let s := s.setSlot c.slot { s.slot c.slot with num := im }
            (s.setFlds (Reg.RSE_SLOT_STATE (Reg.slotWin c.slot))
              [(Fld.RSE_SLOT_STATE_STATE, 2), (Fld.RSE_SLOT_STATE_RANGE_PENDING, 0)], { status := rsOK })

/-- The FACTOR analyses at its start (R297). -/
def State.reanalyses (s : State) (c : RseCmd) : Bool :=
  s.flag (Reg.RSE_SLOT_STATE (Reg.slotWin c.slot)) Fld.RSE_SLOT_STATE_RANGE_PENDING || bit c.args 2

/-- FACTOR with IMPORT. What an analysis at its start finds, the image replaces, and a failed import leaves the slot as it was (R284,
R307). -/
def State.importRun (s : State) (c : RseCmd) : State × RseRes :=
  if s.reanalyses c then
    let r := (s.bump32 Reg.RSE_CNT_REANALYSE 1).importRead c
    (r.1, { r.2 with flags := rfReanalysed })
  else s.importRead c

/-- Perturbed pivots of a factor, as places in the order of columns. -/
def perturbed (l : List ((Nat × Nat) × (Int × Int))) : List Nat := (l.filter fun e => e.2.2 != 0).map fun e => e.1.1

/-- The factor of the current values (R294 to R298). -/
def State.factorise (s : State) (c : RseCmd) : State × RseRes :=
  let k := c.slot
  let chol := s.slotChol k
  let re := s.reanalyses c
  let x := s.slot k
  let an := analyse x chol
  let x := if re then { x with num := { x.num with ein := an.1, eb := an.2 } } else x
  let s := if re then
      (s.bump32 Reg.RSE_CNT_REANALYSE 1).setFld (Reg.RSE_SLOT_STATE (Reg.slotWin k)) Fld.RSE_SLOT_STATE_RANGE_PENDING 0
    else s
  let g := growFactor x chol (ordered x chol) x.num.ein x.num.eb 4
  let s := (List.range g.2.1).foldl (fun s _ => s.event Reg.RSE_EVENT Fld.RSE_EVENT_GROWTH Reg.RSE_CNT_GROWTH) s
  let fl := (if re then rfReanalysed else 0) + (if g.2.1 = 0 then 0 else rfGrowth)
  match g.2.2 with
  | none => ((s.setSlot k { x with num := { x.num with eb := g.1, cells := [] } }).setSlotState k 1, { status := rsRange, flags := fl })
  | some cells =>
    let s := (s.setSlot k { x with num := { x.num with eb := g.1, cells := cells } }).setSlotState k 2
    let p := perturbed cells
    let s := if p = [] then s else s.bump32 Reg.RSE_CNT_PERTURBED 1
    (s, { status := rsOK, flags := fl + (if p = [] then 0 else rfPerturbed), count := p.length,
          index := match p with
            | [] => 2 ^ 64 - 1
            | j :: _ => x.perm.idxOf j })

/-- Slot `k` as it stands in another state: its numbers and its STATE register (R284). -/
def State.slotBack (s t : State) (k : Nat) : State :=
  (s.setSlot k (t.slot k)).wr (Reg.RSE_SLOT_STATE (Reg.slotWin k)) (t.rd (Reg.RSE_SLOT_STATE (Reg.slotWin k)))

def State.factorRun (s : State) (c : RseCmd) : State × RseRes :=
  if bit c.args 0 then s.importRun c
  else
    let f := s.factorise c
    if f.2.status ≠ rsOK ∨ bit c.args 1 = false then f
    else
      let t := f.1
      let im := t.slotImage c.slot
      if c.w 3 < im.length then (t, { f.2 with status := rsSmall, bytes := im.length })
      else
        let w := t.rsePut (c.w 2) im
        if w.2 ≠ rsOK then (w.1.slotBack s c.slot, { f.2 with status := w.2, bytes := im.length })
        else
          let t := w.1
          ({ t with rse := { t.rse with images := t.rse.images ++ [(imageBody (t.slot c.slot).num, (t.slot c.slot).num)] } },
            { f.2 with bytes := im.length })

/-- FACTOR. -/
def execFactor (s : State) : Host.Outcome State Fault Refusal := .next (s.rseRun 3 State.factorRun)

/-! ### SOLVE, REFINE and ITER -/

/-- A headed vector of slot `k` (R306). -/
def State.headed (s : State) (k : Nat) (x : List Nat) : List Byte :=
  natLE 8 (2 ^ 56 + s.slotN k) ++ s.slotDigest k ++ natLE 8 0 ++ x.flatMap (natLE 8)

/-- A right-hand side: its codes, or what ends the command. -/
def State.rhs (s : State) (da n : Nat) : State × (RseRes ⊕ List Nat) :=
  let a := s.rseArray da 8 n
  match a.2 with
  | .inl e => (a.1, .inl (rseFail e))
  | .inr v =>
    match firstBad v fun _ v => (decodeNum fmtFP64 v).finite with
    | some i => (a.1, .inl (rseBad 5 i))
    | none => (a.1, .inr v)

/-- FLAGS.STALE of a command that uses a held factor (R302). -/
def State.staleFlag (s : State) (k : Nat) : Nat := if s.slotState k = 3 then rfStale else 0

/-- Right-hand sides `j` onwards of a SOLVE, each solved and written in turn. -/
def State.solveFrom (s : State) (c : RseCmd) (b : List Nat) (j : Nat) : Nat → State × RseRes
  | 0 => (s, { status := rsOK, flags := s.staleFlag c.slot })
  | m + 1 =>
    let n := s.slotN c.slot
    match rseSolve (s.slot c.slot) (s.slotChol c.slot) (nums ((b.drop (n * j)).take n)) with
    | none => (s, { status := rsRange, flags := s.staleFlag c.slot })
    | some x =>
      let w := s.rsePut (c.w 4 + vecStride n * j) (s.headed c.slot x)
      if w.2 ≠ rsOK then (w.1, { rseFail w.2 with flags := s.staleFlag c.slot }) else w.1.solveFrom c b (j + 1) m

def State.solveRun (s : State) (c : RseCmd) : State × RseRes :=
  let b := s.rhs (c.w 3) (s.slotN c.slot * c.w 2)
  match b.2 with
  | .inl r => (b.1, r)
  | .inr v => b.1.solveFrom c v 0 (c.w 2)

/-- SOLVE. -/
def execSolve (s : State) : Host.Outcome State Fault Refusal := .next (s.rseRun 4 State.solveRun)

/-- The guess of a REFINE or ITER (R306): none where its header does not pass. -/
def State.guess (s : State) (k da : Nat) : State × (Nat ⊕ Option (List Nat)) :=
  let n := s.slotN k
  let h := s.rseArray da 8 8
  match h.2 with
  | .inl e => (h.1, .inl e)
  | .inr w =>
    let s := h.1
    if w.getD 0 0 ≠ 2 ^ 56 + n ∨ w.getD 7 0 ≠ 0 ∨ ((w.drop 1).take 6).flatMap (natLE 8) ≠ s.slotDigest k then
      (s.event Reg.RSE_EVENT Fld.RSE_EVENT_WARM_REJECT Reg.RSE_CNT_WARM_REJECT, .inr none)
    else
      let v := s.rseArray (da + 64) 8 n
      (v.1, match v.2 with
        | .inl e => .inl e
        | .inr l => .inr (some l))

/-- x of a REFINE or ITER is written, and the record made. -/
def State.iterOut (s : State) (c : RseCmd) (o : IterOut) (flags : Nat) : State × RseRes :=
  let w := s.rsePut (c.w 3) (s.headed c.slot (o.x.map rne64Code))
  if w.2 ≠ rsOK then (w.1, { rseFail w.2 with flags := flags })
  else (w.1, { status := o.status, flags := flags + (if o.status = rsOK then rfConverged else 0), count := o.count,
               metric := rne64Code o.metric })

/-- The right-hand side and the guess of a REFINE or ITER; `start` goes on from them. -/
def State.iterRun (s : State) (c : RseCmd) (use : Bool) (start : State → List Nat → Option (List Nat) → Nat → State × RseRes) :
    State × RseRes :=
  let b := s.rhs (c.w 2) (s.slotN c.slot)
  match b.2 with
  | .inl r => (b.1, r)
  | .inr bv =>
    if use = false then start b.1 bv none 0
    else
      let g := b.1.guess c.slot (c.w 3)
      match g.2 with
      | .inl e => (g.1, rseFail e)
      | .inr none => start g.1 bv none rfWarm
      | .inr (some x) => start g.1 bv (some x) 0

def State.refineRun (s : State) (c : RseCmd) : State × RseRes :=
  s.iterRun c (bit c.args 4) fun s b g fl =>
    let x := s.slot c.slot
    let chol := s.slotChol c.slot
    let fl := fl + s.staleFlag c.slot
    match (match g with
      | some v => some v
      | none => rseSolve x chol (nums b)) with
    | none => (s, { status := rsRange, flags := fl })
    | some v => s.iterOut c (refineLoop x chol (wholeA x chol) (nums b) (decodeNum fmtFP64 (c.w 4)) 0 (bits c.args 3 0) (nums v)) fl

/-- REFINE. -/
def execRefine (s : State) : Host.Outcome State Fault Refusal := .next (s.rseRun 5 State.refineRun)

def State.iterCmdRun (s : State) (c : RseCmd) : State × RseRes :=
  s.iterRun c (bit c.args 3) fun s b g fl =>
    let fl := fl + (if bits c.args 2 1 = 2 then s.staleFlag c.slot else 0)
    let v := g.getD (List.replicate (s.slotN c.slot) 0)
    s.iterOut c (rseIter (s.slot c.slot) (s.slotChol c.slot) (bit c.args 0) (bits c.args 2 1) (bits c.args 31 16)
      (decodeNum fmtFP64 (c.w 4)) (nums b) (nums v)) fl

/-- ITER. -/
def execIter (s : State) : Host.Outcome State Fault Refusal := .next (s.rseRun 6 State.iterCmdRun)

/-- RELEASE (R278): the slot's granules are free and it is EMPTY. -/
def execRseRelease (s : State) : Host.Outcome State Fault Refusal :=
  .next (s.rseRun 7 fun s c => (s.emptySlot c.slot, { status := rsOK }))

/-! ### Loss, partition change and zeroing -/

/-- Every queued command completes with ABORTED (R311). -/
def State.rseAbort (s : State) : List RseCmd → State
  | [] => s
  | c :: r => ((s.rseComplete c (rseFail rsAborted)).bump32 Reg.RSE_CNT_ABORTED 1).rseAbort r

/-- The end of the RSE's work for the old partition (R311). -/
def State.rsePartition (s : State) : State :=
  if s.working capRse = false then s
  else ((s.rseAbort s.rse.queue).emptySlots).setFld Reg.RSE_STATUS Fld.RSE_STATUS_ZEROING 1

/-- Every line of the region reserved for the RSE is written with zeros (R311). -/
def State.zeroRegion (s : State) : State :=
  let lo := 2 ^ 30 * s.fld Reg.RSE_REGION Fld.RSE_REGION_BASE
  let hi := lo + 2 ^ 30 * s.fld Reg.RSE_REGION Fld.RSE_REGION_SIZE
  { s with mem := { s.mem with data := sDrop lo hi s.mem.data, poison := sDrop lo hi s.mem.poison, errs := sDrop lo hi s.mem.errs } }

/-- RSE_ZEROING_DONE (R311): the region holds zeros, and submissions are taken again. -/
def execRseZeroingDone (s : State) : Host.Outcome State Fault Refusal :=
  .next (if s.flag Reg.RSE_STATUS Fld.RSE_STATUS_ZEROING then s.zeroRegion.setFld Reg.RSE_STATUS Fld.RSE_STATUS_ZEROING 0 else s)

/-- RSE_LOST (R310): no command that waits writes a record; the slots are lost. -/
def execRseLost (s : State) : Host.Outcome State Fault Refusal :=
  .next (
    if s.working capRse = false then s
    else
      let q := (s.rse.queue.head?.map RseCmd.seq).getD (s.fld Reg.RSE_SEQ Fld.RSE_SEQ_NEXT)
      let s := s.capClear capRse
      let s := { s with rse := { s.rse with queue := [] } }.rseStatus
      let s := s.emptySlots.maskForce Reg.HLY_DONE_MASK_U Fld.HLY_DONE_U_RSE.lo
      (s.postHost (s.fld Reg.RSE_CTRL Fld.RSE_CTRL_EVQ) 0x14 0 0xFFFF s.step (BitVec.ofNat 64 q) 0).1)

end Sys2Proof.Machine
end

