-- ==== Sys2Proof/Machine/ResetOps.lean ====
section
/-! DEFINITION. What a reset keeps (R452 to R457, R474), the fields that the configuration image loads (R430, R437), the
power domains (R21, R459) and what each release step brings up (R461, R598, R599). -/

namespace Sys2Proof.Machine

/-! ### Resets -/

def srcSBPOR : Nat := 0
def srcPWROK : Nat := 1
def srcPIN : Nat := 2
def srcWDOG : Nat := 3
def srcLANYARD : Nat := 4
def srcTHERM : Nat := 5
def srcFABRIC : Nat := 6
def srcHOST : Nat := 7
def srcFATAL : Nat := 8

/-- Registers that a warm reset keeps: the reset block, the counters of CFG and BWL, BWL_FRESET_CTR, the log block and the RAS
block (R453, R446, R506, R565). -/
def warmReg (a : Nat) : Bool :=
  within 0xF00002000000 0xF00002FFFFFF a || within Reg.BWL_FRESET_CTR Reg.BWL_CNT_RATE a ||
    within Reg.CFG_CNT_COPY_INVALID Reg.CFG_CNT_FABRIC_TIMEOUT a || within Reg.BWL_LOG_STATUS 0xF0000FFFFFFF a

/-- What a reset leaves of memory: the capacity tier where it is preserved (R454), nothing else. -/
def MemSt.afterReset (m : MemSt) (keep : Bool) : MemSt :=
  if keep then { MemSt.reset with
    data := m.data.filter fun e => inCapWindow e.1
    poison := m.poison.filter fun e => inCapWindow e.1
    errs := m.errs.filter fun e => inCapWindow e.1
    capMap := m.capMap }
  else MemSt.reset

/-- The whole package but the standby domain is reset (R452, R453, R474); `keep`: the capacity tier is preserved. -/
def State.warm (s : State) (keep : Bool) : State :=
  { State.reset with
    regs := s.regs.filter fun e => warmReg e.1
    logRing := s.logRing, logNext := s.logNext
    mem := s.mem.afterReset keep
    nvm := s.nvm, fuse := s.fuse
    pcieOut := s.pcieOut
    bwl := { BwlSt.reset with smbOut := s.bwl.smbOut, smbSeen := s.bwl.smbSeen, smbAck := s.bwl.smbAck }
    pwr := { PwrSt.reset with junction := s.pwr.junction, volt := s.pwr.volt, amp := s.pwr.amp, power := s.pwr.power, boardHot := s.pwr.boardHot }
    ports := { PortsSt.reset with sent := s.ports.sent }
    rst := { RstSt.reset with
      vsb := s.rst.vsb, pwrOk := s.rst.pwrOk, resetN := s.rst.resetN, vinFault := s.rst.vinFault
      testWrites := s.rst.testWrites || !keep, freset := s.rst.freset, tapIr := s.rst.tapIr, tapOut := s.rst.tapOut }
    freeCtr := s.freeCtr, pending := s.pending }

/-- The sources in the order in which RST_LAST takes the first of them (R457). -/
def resetOrder : List Nat := [srcSBPOR, srcPWROK, srcTHERM, srcFATAL, srcPIN, srcWDOG, srcFABRIC, srcLANYARD, srcHOST]

/-- The fate of write-combining entries before a reset (R333): flushed, or lost under PWROK, THERM and FATAL. -/
def State.wcBeforeReset (s : State) (srcs : List Nat) : State :=
  if srcs.contains srcPWROK || srcs.contains srcTHERM || srcs.contains srcFATAL then
    { s with mem := { s.mem with wc := [] } }
  else s.wcFlushAll

/-- The sources that reset the device in one cycle, in the order of R457. -/
def resetSources (srcs : List Nat) : List Nat := resetOrder.filter fun k => srcs.contains k && k != srcSBPOR

/-- Every source sets its RST_CAUSE bit and counts (R457). -/
def State.resetCauses (s : State) (srcs : List Nat) : State :=
  (resetSources srcs).foldl (fun s k => s.event Reg.RST_CAUSE ⟨k, k⟩ (Reg.RST_CNT_SBPOR + 8 * k)) s

/-- What a reset does beyond its causes: RST_LAST, the domains, and the hold after THERM (R453, R454, R456, R457). -/
def State.resetEffect (s : State) (srcs : List Nat) : State :=
  let l := resetSources srcs
  let hold := s.rst.thermHold || l.contains srcTHERM
  let s := s.wcBeforeReset l
  let s := s.setFld Reg.RST_LAST Fld.RST_LAST_SOURCE (l.headD 0)
  let s := s.warm (!l.contains srcPWROK)
  let s := s.setFlds Reg.RST_STATUS [(Fld.RST_STATUS_START, 0), (Fld.RST_STATUS_STEP, 0)]
  let s := ((s.wr Reg.RST_PWR0 0).wr Reg.RST_PWR1 (BitVec.ofNat 64 (2 ^ 56))).wr Reg.RST_PWR2 0
  let s := s.setFld Reg.HLY_STATUS Fld.HLY_STATUS_CLK_SRC (s.fld Reg.RST_STRAP Fld.RST_STRAP_CLK_MODE)
  { s with rst := { s.rst with thermHold := hold } }

/-- A reset from the given sources, taken in one cycle (R452, R457): their cause bits and counters, RST_LAST, and the reset. -/
def State.takeReset (s : State) (srcs : List Nat) : State := (s.resetCauses srcs).resetEffect srcs

/-- Pins that are low under the sources `srcs` (R450): PWR_OK under PWROK, RESET_N under PIN. -/
def State.pinsFall (s : State) (srcs : List Nat) : State :=
  { s with rst := { s.rst with pwrOk := s.rst.pwrOk && !srcs.contains srcPWROK, resetN := s.rst.resetN && !srcs.contains srcPIN } }

/-- A reset from `src` and from the other sources of the same cycle (R457), with the pins that it takes. -/
def State.takeAll (s : State) (src : Nat) (also : List Nat) : State := (s.pinsFall (src :: also)).takeReset (src :: also)

/-- Standby power-on (R447, R474): everything but the flash, the fuses and the board's pins. -/
def State.powerOn (s : State) (vsb : Bool) : State :=
  { State.reset with
    nvm := s.nvm, fuse := s.fuse
    rst := { RstSt.reset with vsb := vsb, pwrOk := vsb && s.rst.pwrOk, resetN := s.rst.resetN }
    pcieOut := s.pcieOut, ports := { PortsSt.reset with sent := s.ports.sent }
    freeCtr := s.freeCtr, pending := s.pending }

/-! ### Power domains -/

/-- The unit of a domain is present (Table RST-4). -/
def State.domainPresent (s : State) (n : Nat) : Bool :=
  if n < 120 then
    s.present (capTdie (n / 30)) && (if within 23 25 (n % 30) then s.present (capStack (3 * (n / 30) + n % 30 - 23)) else true)
  else if n < 140 then
    if within 121 128 n then s.present (capCluster (n - 121))
    else if n = 129 then (List.range 4).any fun i => s.present (capService i)
    else if n = 131 then s.present capRse
    else if within 132 134 n then (List.range 4).any fun i => s.present (capChan (4 * (n - 132) + i))
    else if n = 135 then s.present capPcie
    else if n = 136 then s.present capCkp
    else true
  else if n < 164 then
    let f := (n - 140) / 12
    let k := (n - 140) % 12
    s.present (capFdie f) && (if k < 8 then s.present (capPort (4 * f + k % 4)) else true)
  else false

/-- A domain is powered or not: its bit of RST_PWR0 to RST_PWR2. -/
def State.setPower (s : State) (n : Nat) (on : Bool) : State :=
  s.setFld (Reg.RST_PWR0 + 8 * (n / 64)) ⟨n % 64, n % 64⟩ (if on then 1 else 0)

/-- Belay mode (R466). -/
def State.belay (s : State) : Bool := s.flag Reg.RST_STATUS Fld.RST_STATUS_BELAY

def State.bootSrc (s : State) : Nat := s.fld Reg.RST_STRAP Fld.RST_STRAP_BOOT_SRC

/-- The release order (R460, R467). -/
def State.releaseOrder (s : State) : List Nat :=
  if s.belay then [1, 2, 3, 6] else if s.bootSrc = 2 then [1, 2, 3, 6, 4, 5, 7] else [1, 2, 3, 4, 5, 6, 7]

/-- Domains released with step `k` (Table RST-4, R460, R467), ascending. -/
def State.stepDomains (s : State) (k : Nat) : List Nat :=
  let dies (l : List Nat) : List Nat := (List.range 4).flatMap fun d => l.map fun x => 30 * d + x
  if k = 3 then (if s.belay then [138] else [130, 138, 139])
  else if k = 4 then
    dies ([21, 22, 23, 24, 25, 26, 27] ++ (if s.bootSrc = 2 then [28, 29] else [29])) ++ [132, 133, 134, 137]
  else if k = 5 then dies (List.range 21)
  else if k = 6 then
    if s.belay then [140, 144, 148, 150, 151]
    else (if s.bootSrc = 2 then [] else dies [28]) ++ (List.range 24).map (140 + ·)
  else if k = 7 then [121, 122, 123, 124, 125, 126, 127, 128, 129, 131, 135, 136]
  else []

/-- Losses of a kind that the record holds for this part. -/
def State.lost (s : State) (kind i : Nat) : Bool := s.losses.contains (kind, i)

/-- The loss record maps the unit of domain `n` out from the start onwards (R22, R73, R318, R327): a strand, a stack, or every channel
present of a DDR5 group. -/
def State.domainLost (s : State) (n : Nat) : Bool :=
  if n < 120 then
    let k := n % 30
    if k < 21 then s.lost lossStrand (32 * (n / 30) + k)
    else within 23 25 k && s.lost lossStack (3 * (n / 30) + k - 23)
  else within 132 134 n && (List.range 4).all fun i => !s.present (capChan (4 * (n - 132) + i)) || s.lost lossChannel (4 * (n - 132) + i)

/-- Domains of units that are present and not mapped out are released (R22, R459). -/
def State.powerUp (s : State) (l : List Nat) : State :=
  (l.filter fun n => s.domainPresent n && !s.domainLost n).foldl (fun s n => s.setPower n true) s

/-! ### The configuration in use -/

/-- Words of a record that the image leaves out (Table CFG-4). -/
def cfgDefault (key : Nat) : List Word :=
  if key = rtIDENTITY then [0, 0xFFFF]
  else if key = rtTICK then [1, 0x000186A0000F4240, 0xC350, 0, 0x271000000000, 16]
  else if key = rtMEMORY then [0x0064000018011801]
  else if key = rtFABRIC then [0x000007D003E84001]
  else if key = rtPOWER then [0x50000]
  else if key = rtSECURITY then [1]
  else if 0x200 ≤ key then [0x6400080100]
  else []

/-- Word `i` of a record of the configuration in use. -/
def State.cfgW (s : State) (key i : Nat) : Nat :=
  let l := match (s.bwl.image.getD []).lookup key with
    | some l => l
    | none => cfgDefault key
  (wordAt l i).toNat

/-- The package cap (R19, R430): 0, or more than the variant's envelope, selects the envelope (Table SCO-1). -/
def State.envelope (s : State) : Nat :=
  let p := s.fld Reg.ID_DEVICE Fld.ID_DEVICE_PART
  if p = 0x4600 then 2050 else if p = 0x4400 then 1150 else 2100

def State.setCap (s : State) (w : Nat) : State :=
  s.setFld Reg.BWL_GOV Fld.BWL_GOV_CAP_W (if w = 0 then s.envelope else min w s.envelope)

/-- Telemetry settings take word 0 of a TELEMETRY record (R498). -/
def State.setTelemetry (s : State) (w : Nat) : State :=
  let s := s.setFlds Reg.BWL_TLM_STATUS [(Fld.BWL_TLM_STATUS_DEST, bits w 31 16), (Fld.BWL_TLM_STATUS_RATE_HZ, bits w 9 0)]
  { s with bwl := { s.bwl with streams := bits w 63 32 } }

/-- Fields of the standby domain. -/
def State.loadStandby (s : State) : State :=
  let s := s.setCap (bits (s.cfgW rtPOWER 0) 11 0)
  let s := s.setFld Reg.RAS_COOL Fld.RAS_COOL_THRESH (bits (s.cfgW rtPOWER 0) 23 16)
  s.setTelemetry (s.cfgW rtTELEMETRY 0)

/-- Fields of the Halyard domain (Table CFG-4, R431): the TICK record is the set of the first tick, with generation 0. -/
def State.loadHalyard (s : State) : State :=
  let t := tickOf (s.cfgW rtTICK)
  let s := s.wr Reg.HLY_PERIOD (BitVec.ofNat 64 t.period)
  let s := s.wr Reg.HLY_MARK12 (packF [(Fld.HLY_MARK12_MARK1, t.mark1), (Fld.HLY_MARK12_MARK2, t.mark2)])
  let s := s.wr Reg.HLY_MARK3 (packF [(Fld.HLY_MARK3_MARK3, t.mark3), (Fld.HLY_MARK3_EN, t.markEn)])
  let s := s.wr Reg.HLY_GUARD_QUIET (packF [(Fld.HLY_GUARD_QUIET_GUARD, t.guard), (Fld.HLY_GUARD_QUIET_QUIET, t.quiet)])
  let s := s.wr Reg.HLY_SLIP_CFG (packF [(Fld.HLY_SLIP_CFG_QUANTUM, t.quantum), (Fld.HLY_SLIP_CFG_MAX_SLIPS, t.maxSlips)])
  let s := { s with hly := { s.hly with active := t, stagedPeriod := t.period } }
  s.writeHlyCtrl (packF [(Fld.HLY_CTRL_ENABLE, bits (s.cfgW rtTICK 0) 0 0), (Fld.HLY_CTRL_LOCAL, bits (s.cfgW rtTICK 0) 1 1)])

/-- Fields of the memory controllers. -/
def State.loadMemory (s : State) : State :=
  let w := s.cfgW rtMEMORY 0
  let s := s.wr Reg.MEMF_SCRUB (packF [(Fld.MEMF_SCRUB_ENABLE, bits w 0 0), (Fld.MEMF_SCRUB_PERIOD_H, bits w 15 8)])
  let s := s.wr Reg.MEMC_SCRUB (packF [(Fld.MEMC_SCRUB_ENABLE, bits w 16 16), (Fld.MEMC_SCRUB_PERIOD_H, bits w 31 24)])
  s.setFld Reg.MEMC_WC_CTRL Fld.MEMC_WC_CTRL_AGE_US (bits w 57 48)

/-- Fields of the Hawser endpoint. -/
def State.loadFabric (s : State) : State :=
  let w := s.cfgW rtFABRIC 0
  let n := bits (s.cfgW rtIDENTITY 1) 15 0
  let s := if n = 0xFFFF then s else s.wr Reg.HWS_NODE (packF [(Fld.HWS_NODE_VALID, 1), (Fld.HWS_NODE_NODE, n)])
  let s := s.wr Reg.HWS_CTRL (packF [(Fld.HWS_CTRL_ENABLE, bits w 0 0), (Fld.HWS_CTRL_HOT_THRESH, bits w 15 8)])
  let s := s.wr Reg.HWS_TIMEOUT (packF [(Fld.HWS_TIMEOUT_REQ_US, bits w 27 16), (Fld.HWS_TIMEOUT_LEASE_US, bits w 44 32),
    (Fld.HWS_TIMEOUT_HOME_LEASE_US, bits w 60 48)])
  s.wr Reg.HWS_TOB (packF [(Fld.HWS_TOB_BASE, bits (s.cfgW rtFABRIC 1) 47 21), (Fld.HWS_TOB_UNITS, bits (s.cfgW rtFABRIC 2) 7 0)])

/-- OPT_Pp_CTRL as the configuration has it; `mgmt`: management-only operation (R443, R467). -/
def State.cfgPortCtrl (s : State) (mgmt : Bool) (p : Nat) : Word :=
  let w := s.cfgW (0x200 + p) 0
  packF [(Fld.OPT_CTRL_MIN_WIDTH, bits w 20 16), (Fld.OPT_CTRL_MGMT_ONLY, if mgmt then 1 else 0),
    (Fld.OPT_CTRL_ENABLE, if mgmt then 1 else bits w 8 8)]

/-- The other fields of port `p`. -/
def State.loadDelay (s : State) (p : Nat) : State :=
  let w := s.cfgW (0x200 + p) 0
  (s.setFld (Reg.OPT_DELAY (pw p)) Fld.OPT_DELAY_ADJ (bits w 31 24)).setFld (Reg.OPT_CAL (pw p)) Fld.OPT_CAL_PERIOD_MS (bits w 41 32)

/-- Fields of a port whose engine runs: a change retrains it (R444, R445). -/
def State.loadPort (s : State) (mgmt : Bool) (p : Nat) : State := (s.loadDelay p).writePortCtrl p (s.cfgPortCtrl mgmt p)

def State.loadPorts (s : State) (mgmt : Bool) : State :=
  ((List.range 8).filter fun p => s.working (capPort p)).foldl (fun s p => s.loadPort mgmt p) s

/-- The ports that step 6 brings up: those present of the F-dies in service; in Belay mode port 0. -/
def State.startPorts (s : State) : List Nat :=
  (if s.belay then [0] else List.range 8).filter fun p => s.present (capPort p) && s.working (capFdie (p / 4))

/-- Fields of the ports before they are released (R12, R437). -/
def State.loadOptics (s : State) (mgmt : Bool) : State :=
  s.startPorts.foldl (fun s p => (s.loadDelay p).wr (Reg.OPT_CTRL (pw p)) (s.cfgPortCtrl mgmt p)) s

/-- Fields of the host block. -/
def State.loadHost (s : State) : State :=
  let w := s.cfgW rtSECURITY 0
  let s := s.wr Reg.HOST_MGMT (packF [(Fld.HOST_MGMT_EN, bits w 3 0)])
  s.wr Reg.HOST_XCTRL (packF [(Fld.HOST_XCTRL_TICK_U, bits w 8 8), (Fld.HOST_XCTRL_FACC_U, bits w 9 9),
    (Fld.HOST_XCTRL_RSE_U, bits w 10 10)])

/-- RSE_REGION (R277; 0 with the RSE absent, R309) and HOST_FT_CACHE, which depend on the memory that works. -/
def State.loadRegions (s : State) : State :=
  let b := if s.present capRse then s.cfgW rtMEMORY 1 else 0
  let n := if s.present capRse then bits (s.cfgW rtMEMORY 2) 11 0 else 0
  let fits := decide (capBase ≤ b) && decide (b + 2 ^ 30 * n ≤ capBase + s.capSize)
  let s := s.wr Reg.RSE_REGION (packF [(Fld.RSE_REGION_BASE, b / 2 ^ 30), (Fld.RSE_REGION_SIZE, if fits then n else 0)])
  let s := if n = 0 ∨ fits then s else s.logCode 3 0
  (List.range 24).foldl (fun s i => s.putFtCache i (BitVec.ofNat 64 (s.cfgW rtMEMORY (3 + i)))) s

/-! ### Step 2: fuse sense -/

def slotMask (l : List (List Byte)) : Nat := (List.range 4).foldl (fun m k => if l.getD k [] = [] then m else m + 2 ^ k) 0

/-- What the fuses show in CFG_KEYS and BWL_FUSE. -/
def State.showKeys (s : State) : State :=
  let s := s.wr Reg.CFG_KEYS (packF [(Fld.CFG_KEYS_PROGRAMMED, slotMask s.fuse.cfgKeys), (Fld.CFG_KEYS_REVOKED, s.fuse.cfgRevoke),
    (Fld.CFG_KEYS_SIGN_REQUIRED, if s.fuse.signReq then 1 else 0)])
  s.wr Reg.BWL_FUSE (packF [(Fld.BWL_FUSE_FW_PROGRAMMED, slotMask s.fuse.fwKeys), (Fld.BWL_FUSE_FW_REVOKED, s.fuse.fwRevoke),
    (Fld.BWL_FUSE_ROLLBACK, s.fuse.rollback)])

/-- Step 2 is ready: ID_CAPS, the serial number, the keys and the spare strands are latched (Table RST-5), and ROM reads the
failed-start count (R463). -/
def State.fuseSense (s : State) : State :=
  let s := s.wr Reg.ID_CAPS s.fuse.caps
  let s := s.setFld Reg.ID_DEVICE Fld.ID_DEVICE_PART s.fuse.part
  let s := s.wr Reg.ID_SERIAL (BitVec.ofNat 64 s.fuse.serial)
  let s := ((List.range 4).filter fun d => s.present (capTdie d)).foldl (fun s d =>
    s.setFld (Reg.TC_SPARE (Reg.dieBlk d)) Fld.TC_SPARE_SPARE_PHYS (s.fuse.spares.getD d 0)) s
  let s := s.showKeys
  { s with rst := { s.rst with failed := max (s.fld Reg.RST_FAILSTART Fld.RST_FAILSTART_COUNT) s.boot.fails } }

/-! ### Step 4: memory -/

/-- Lanes of channel `h` of stack `k` that fail training (R317, R318): 0 to 71, and the spares 72 and 73. -/
def foundLanes (f : Found) (k h : Nat) : List Nat :=
  ((f.lanes.filter fun e => e.1 == k && e.2.1 == h).flatMap fun e => e.2.2.filter fun l => decide (l < 74)).eraseDups

/-- What replaces the lanes that fail, in order: each takes the lowest-numbered spare that works and is not in use (R318). -/
def laneSpares (bad : List Nat) : List (Nat × Nat) :=
  (bad.filter fun l => decide (l < 72)).zip ([72, 73].filter fun l => !bad.contains l)

/-- SPARED of a stack: two bits for each channel, its spare lanes in use. -/
def sparedWord (f : Found) (k : Nat) : Nat := (List.range 16).foldl (fun w h => w + 4 ^ h * (laneSpares (foundLanes f k h)).length) 0

/-- Stacks after training and test (R318). -/
def State.stackReady (s : State) (f : Found) (k : Nat) : State :=
  let a := Reg.stackWin k
  let s := s.wr (Reg.MEMF_ST_LANES a) (BitVec.ofNat 64 (sparedWord f k))
  if f.stackFail.contains k || s.lost lossStack k || (List.range 16).any fun h => decide (2 < (foundLanes f k h).length) then
    ((s.setFld (Reg.MEMF_ST_STATUS a) Fld.MEMF_ST_STATUS_STATE 3).service Fld.RAS_SERVICE_REQUEST_STACK).setPower
      (30 * (k / 3) + 23 + k % 3) false
  else (s.setFld (Reg.MEMF_ST_STATUS a) Fld.MEMF_ST_STATUS_STATE 2).capSet (capStack k)

/-- The DIMMs of a channel. -/
def foundSlots (f : Found) (c : Nat) : List (Option Dimm) := (f.dimms.lookup c).getD []
def foundHeld (f : Found) (c : Nat) : List Dimm := (foundSlots f c).filterMap id

/-- The combination that a channel holds (R325): DIMMs per channel, type, capacity, ranks and width, where its DIMMs agree. -/
def foundCombo (f : Found) (c : Nat) : Option (Nat × Nat × Nat × Nat × Nat) :=
  match foundHeld f c with
  | [] => none
  | d :: r =>
    if r.all fun e => e.type == d.type && e.size == d.size && e.ranks == d.ranks && e.width == d.width then
      some (r.length + 1, d.type, d.size, d.ranks, d.width)
    else none

/-- The rules of Table MEM-2 that a channel can break by itself. -/
def foundPopOk (f : Found) (c : Nat) : Bool :=
  (foundSlots f c).head? != some none && (foundCombo f c).isSome && decide ((foundHeld f c).length ≤ 2) &&
    (foundHeld f c).all fun d => within 16 256 d.size && (d.width == 4 || d.width == 8) && (d.type == 1 || d.type == 2)

/-- The reference configuration (R325): held by the most channels, then by the lowest-numbered. -/
def foundReference (f : Found) (l : List Nat) : Option (Nat × Nat × Nat × Nat × Nat) :=
  let count (x : Nat × Nat × Nat × Nat × Nat) : Nat := (l.filter fun c => foundCombo f c == some x).length
  (l.filterMap (foundCombo f)).foldl (fun best x =>
    match best with
    | none => some x
    | some b => if count b < count x then some x else some b) none

def dimmWord (d : Option Dimm) : Word :=
  match d with
  | none => 0
  | some d => packF [(Fld.MEMC_CH_DIMM_SIZE_GIB, d.size), (Fld.MEMC_CH_DIMM_RANKS, d.ranks), (Fld.MEMC_CH_DIMM_WIDTH, d.width),
      (Fld.MEMC_CH_DIMM_TYPE, d.type), (Fld.MEMC_CH_DIMM_MAX_MTS, d.mts)]

/-- Table MEM-3. -/
def baseRate (dpc type : Nat) : Nat :=
  if type = 2 then (if dpc = 1 then 8800 else 6400) else (if dpc = 1 then 6400 else 5600)

/-- A channel after training and test (R325, R327). -/
def State.chanReady (s : State) (f : Found) (ref : Option (Nat × Nat × Nat × Nat × Nat)) (c : Nat) : State :=
  let a := Reg.chanWin c
  let s := (s.wr (Reg.MEMC_CH_DIMM a 0) (dimmWord ((foundSlots f c).getD 0 none))).wr (Reg.MEMC_CH_DIMM a 1) (dimmWord ((foundSlots f c).getD 1 none))
  let put (s : State) (x : Nat) : State := s.setFld (Reg.MEMC_CH_STATUS a) Fld.MEMC_CH_STATUS_STATE x
  if (foundHeld f c).isEmpty then put s 1
  else if foundPopOk f c = false ∨ foundCombo f c ≠ ref then
    ((put s 5).logCode 4 c).service Fld.RAS_SERVICE_REQUEST_CHANNEL
  else if f.chanFail.contains c || s.lost lossChannel c then
    (put s 3).service Fld.RAS_SERVICE_REQUEST_CHANNEL
  else (put s 2).capSet (capChan c)

/-- A DDR5 group none of whose channels works is powered down (R22). -/
def State.groupReady (s : State) (g : Nat) : State :=
  if (List.range 4).any fun i => s.working (capChan (4 * g + i)) then s else s.setPower (132 + g) false

def maskOf (l : List Nat) : Nat := l.foldl (fun m i => m + 2 ^ i) 0

/-- MEMF_MAP and MEMC_MAP (R314, R326, R327). -/
def State.setMaps (s : State) (f : Found) (ref : Option (Nat × Nat × Nat × Nat × Nat)) : State :=
  let st := (List.range 12).filter fun k => s.working (capStack k)
  let ch := (List.range 12).filter fun c => s.working (capChan c)
  let s := s.wr Reg.MEMF_MAP (packF [(Fld.MEMF_MAP_WORKING, maskOf st), (Fld.MEMF_MAP_W, st.length),
    (Fld.MEMF_MAP_SIZE_GIB, 128 * st.length)])
  let r := ref.getD (0, 0, 0, 0, 0)
  let lim := bits (s.cfgW rtMEMORY 0) 45 32
  let rates := (ch.flatMap (foundHeld f)).map Dimm.mts
  let rate := (if lim = 0 then rates else lim :: rates).foldl min (baseRate r.1 r.2.1)
  s.wr Reg.MEMC_MAP (packF [(Fld.MEMC_MAP_WORKING, maskOf ch), (Fld.MEMC_MAP_W, ch.length), (Fld.MEMC_MAP_DPC, r.1),
    (Fld.MEMC_MAP_TYPE, r.2.1), (Fld.MEMC_MAP_SIZE_GIB, r.1 * r.2.2.1 * ch.length),
    (Fld.MEMC_MAP_SPEED, if ch.isEmpty then 0 else rate)])

/-- Where a byte of the capacity window lies after its channels have changed (R316): none where its channel is gone. -/
def rekey (old new : List Nat) (a : Nat) : Option Nat :=
  let x := past capBase a
  let w := max 1 old.length
  let c := old.getD (x / 4096 % w) 0
  if new.contains c then some (capBase + 4096 * (x / 4096 / w * new.length + new.idxOf c) + x % 4096) else none

def rekeyList {α : Type} (old new : List Nat) (l : List (Nat × α)) : List (Nat × α) :=
  l.foldl (fun m e => match rekey old new e.1 with
    | some a => sPut m a e.2
    | none => m) []

/-- The preserved contents of the capacity tier, laid out over the channels of this start (R314, R454). -/
def State.relayCap (s : State) : State :=
  let new := s.chanList
  let m := s.mem
  if m.capMap = new then s
  else { s with mem := { m with
    data := rekeyList m.capMap new m.data, poison := rekeyList m.capMap new m.poison, errs := rekeyList m.capMap new m.errs
    capMap := new } }

/-- A line that the memory test reads as uncorrectable (R455): counted, captured and stored as poisoned. -/
def State.sickLine (s : State) (e : Nat × Nat) : State :=
  match (s.place e.1).unit with
  | some u => (s.ueRead u (e.1 / 64 * 64) e.2).setPoison (e.1 / 64 * 64) true
  | none => s

/-- Step 4 is ready (Table RST-5). -/
def State.memoryReady (s : State) (f : Found) : State :=
  let s := ((List.range 12).filter fun k => s.present (capStack k)).foldl (fun s k => s.stackReady f k) s
  let ch := (List.range 12).filter fun c => s.present (capChan c)
  let ref := foundReference f ch
  let s := ch.foldl (fun s c => s.chanReady f ref c) s
  let s := (List.range 3).foldl State.groupReady s
  let s := (s.setMaps f ref).relayCap
  let s := f.sick.foldl State.sickLine s
  let s := (List.range 28).foldl (fun s u =>
    { s with mem := { s.mem with scrubAt := sSet noPlace s.mem.scrubAt u s.time } }) s
  s.loadRegions

/-! ### Step 5: strands -/

/-- Physical strands of a die that are failed (R73): by the test, or by the loss record. -/
def State.failedStrands (s : State) (f : Found) (d : Nat) : List Nat :=
  (List.range 21).filter fun p => f.strandFail.contains (d, p) || s.lost lossStrand (32 * d + p)

/-- The eight cores of physical strand `p` of die `d` become those of logical strand `l`. -/
def State.strandOn (s : State) (d p l : Nat) : State :=
  (List.range 8).foldl (fun s i =>
    (s.setFld (Reg.TC_MAP (Reg.coreWin d (8 * p + i))) Fld.TC_MAP_LCORE (160 * d + 8 * l + i)).setCoreState
      (Reg.coreWin d (8 * p + i)) coreIdle) s

/-- Physical strand `p` of die `d` carries no logical one: its cores are OFFLINE and it is powered down. -/
def State.strandOff (s : State) (d p : Nat) : State :=
  ((List.range 8).foldl (fun s i =>
    (s.setFld (Reg.TC_MAP (Reg.coreWin d (8 * p + i))) Fld.TC_MAP_LCORE 0x3FF).setCoreState
      (Reg.coreWin d (8 * p + i)) coreOffline) s).setPower (30 * d + p) false

/-- The physical strand of logical strand `l`, `0x1F` for none: `sp` is the spare, `bad` the failed strands. -/
def strandPlace (sp : Nat) (bad : List Nat) (l : Nat) : Nat :=
  let base := (List.range 21).filter (· != sp)
  let first := if bad.contains sp then none else (bad.filter (· != sp)).head?
  let p := base.getD l 0x1F
  if some p = first then sp else if bad.contains p then 0x1F else p

/-- The strand the spare replaces, if it replaces one. -/
def State.spareShown (s : State) (blk sp : Nat) (bad : List Nat) : State :=
  match if bad.contains sp then none else (bad.filter (· != sp)).head? with
  | some p => s.setFlds (Reg.TC_SPARE blk)
      [(Fld.TC_SPARE_SPARE_USED, 1), (Fld.TC_SPARE_SPARE_FOR, ((List.range 21).filter (· != sp)).idxOf p)]
  | none => s

/-- The strands of die `d` take their places. -/
def State.strandsPlaced (s : State) (d : Nat) (place : Nat → Nat) (up : List Nat) : State :=
  (List.range 21).foldl (fun s p =>
    match up.find? fun l => place l == p with
    | some l => s.strandOn d p l
    | none => s.strandOff d p) s

/-- The strands of a die after the test (R72 to R74): the map, the spare, the cores and ID_STRANDS_EFF (R599). -/
def State.dieReady (s : State) (f : Found) (d : Nat) : State :=
  let blk := Reg.dieBlk d
  let sp := s.fld (Reg.TC_SPARE blk) Fld.TC_SPARE_SPARE_PHYS
  let bad := s.failedStrands f d
  let place := strandPlace sp bad
  let map (lo n : Nat) : Nat := (List.range n).foldl (fun m i => m + place (lo + i) * 2 ^ (5 * i)) 0
  let s := (s.wr (Reg.TC_STRAND_MAP0 blk) (BitVec.ofNat 64 (map 0 12))).wr (Reg.TC_STRAND_MAP1 blk) (BitVec.ofNat 64 (map 12 8))
  let s := s.spareShown blk sp bad
  let up := (List.range 20).filter fun l => place l != 0x1F
  let s := if up.length < 20 then s.service Fld.RAS_SERVICE_REQUEST_STRAND else s
  let s := s.setFld (if d < 2 then Reg.ID_STRANDS_EFF01 else Reg.ID_STRANDS_EFF23) ⟨32 * (d % 2) + 19, 32 * (d % 2)⟩ (maskOf up)
  s.strandsPlaced d place up

/-- Step 5 is ready. -/
def State.strandsReady (s : State) (f : Found) : State :=
  ((List.range 4).filter fun d => s.working (capTdie d)).foldl (fun s d => s.dieReady f d) s

/-- Every core of the strands released enters SCRUBBING (R120). -/
def State.scrubAll (s : State) : State :=
  ((List.range 4).filter fun d => s.working (capTdie d)).foldl (fun s d =>
    (List.range 168).foldl (fun s p => s.setCoreState (Reg.coreWin d p) coreScrubbing) s) s

/-! ### Step 6: F-dies and optics -/

/-- The domains of port `p`: its electrical block and its optical engine. -/
def portDomain (p : Nat) : Nat := 140 + 12 * (p / 4) + p % 4

/-- A port after the start-up test of its optical engine (R408, R598): it trains, or is mapped out and powered down (R22). -/
def State.engineReady (s : State) (f : Found) (p : Nat) : State :=
  if f.engineFail.contains p then
    let s := ((s.setOpt p optMappedOut).service Fld.RAS_SERVICE_REQUEST_PORT_ENGINE).addLoss lossPort p
    (s.setPower (portDomain p) false).setPower (portDomain p + 4) false
  else (s.capSet (capPort p)).trainBegin p

/-- The configuration fields of the F-dies (R12, R437), loaded as they are released. In Belay mode, and while the configuration is
fetched over the fabric, every port runs management-only. -/
def State.loadFdies (s : State) : State :=
  (if s.present (capFdie 0) then s.loadFabric else s).loadOptics (s.belay || s.bwl.fabric)

/-- Step 6 is ready. -/
def State.opticsReady (s : State) (f : Found) : State := s.startPorts.foldl (fun s p => s.engineReady f p) s

/-! ### Step 7: host -/

/-- Step 7 is released: units are ready at once, the RSE zeroes its region (R311), and hart 64 starts. -/
def State.hostReady (s : State) : State :=
  let s := (List.range 8).foldl (fun s k => s.capSet (capCluster k)) s
  let s := (List.range 4).foldl (fun s i => s.capSet (capService i)) s
  let s := ((s.capSet capRse).capSet capPcie).capSet capCkp
  let s := s.loadHost
  let s := if s.working capRse then s.setFld Reg.RSE_STATUS Fld.RSE_STATUS_ZEROING 1 else s
  if s.working (capService 0) then s.hartStart 64 else s

end Sys2Proof.Machine
end

