-- ==== Sys2Proof/Machine/Governor.lean ====
section
/-! DEFINITION. Sensors, the power governor and the thermal levels (R500 to R503) and the cooling margin (R563). Temperatures are
in 1/16 °C. -/

namespace Sys2Proof.Machine

/-- 125, 105, 100, 95 and 90 °C. -/
def degTHERM : Int := 2000
def degHot : Int := 1680
def degCool : Int := 1600
def degStackHot : Int := 1520
def degStackCool : Int := 1440

/-- The highest level (R501). -/
def govTop : Nat := 23

/-! ### Samples (R500) -/

/-- A stack runs at half rate from 95 °C until it reads below 90 °C (R502). -/
def stackHotNext (hot : Bool) (t : Int) : Bool := decide (degStackHot ≤ t) || (hot && decide (degStackCool ≤ t))

/-- A stack's reading is shown, and its rate follows it. -/
def State.stackSample (s : State) (k : Nat) (t : Int) : State :=
  if s.present (capStack k) = false then s
  else
    let s := s.setFld (Reg.MEMF_ST_TEMP (Reg.stackWin k)) Fld.MEMF_ST_TEMP_TEMP (BitVec.ofInt 16 t).toNat
    let h := stackHotNext (bit s.pwr.stackHot k) t
    { s with pwr := { s.pwr with stackHot := if h then s.pwr.stackHot ||| 2 ^ k else s.pwr.stackHot &&& (2 ^ 12 - 1 - 2 ^ k) } }

/-- The stack readings, stack `k` on. -/
def State.stackSamples (s : State) (k : Nat) : List Int → State
  | [] => s
  | t :: r => (s.stackSample k t).stackSamples (k + 1) r

/-- Sum of the input power of the last 1 ms, in µW, and the number of samples it covers. -/
def PwrSt.sum (p : PwrSt) : Nat := p.power.sum

/-- POWER_W: the mean input power of the last 1 ms, in W. -/
def PwrSt.watts (p : PwrSt) : Nat := if p.power = [] then 0 else p.sum / (1000000 * p.power.length)

/-- A THERM reset waits for its fatal record, and that for the flash (R441, R497). -/
def State.thermWaits (s : State) : Bool :=
  s.bwl.nvmWait.any fun j => match j with
    | .fatal _ _ (some k) => k == srcTHERM
    | _ => false

/-- SENSOR_SAMPLE (R500, R502): junctions of every die, stacks and the 48 V input are read. At 125 °C at a junction the device
resets under THERM (R452), after its fatal record (R496); `nvmOk` tells whether the flash took the record. -/
def execSensorSample (junction : List (List Int)) (stackT : List Int) (volt amp : Nat) (nvmOk : Bool) (s : State) :
    Host.Outcome State Fault Refusal :=
  let s := { s with pwr := { s.pwr with junction := junction, volt := volt, amp := amp, power := ((volt * amp) :: s.pwr.power).take 100 } }
  let s := s.stackSamples 0 stackT
  let s := s.setFlds Reg.BWL_GOV [(Fld.BWL_GOV_POWER_W, s.pwr.watts), (Fld.BWL_GOV_STACK_HOT, if s.pwr.stackHot = 0 then 0 else 1)]
  .next (
    if s.rst.thermHold = false ∧ junction.any fun l => l.any fun t => decide (degTHERM ≤ t) then
      if s.nvmBusy then
        if s.thermWaits then s
        else
          let s := s.resetCauses [srcTHERM]
          s.nvmLater (.fatal nvmOk (s.fatalNew (2 ^ srcTHERM)) (some srcTHERM))
      else ((s.resetCauses [srcTHERM]).fatalWrite nvmOk (2 ^ srcTHERM)).resetEffect [srcTHERM]
    else s)

/-! ### Comparisons (R501, R502) -/

/-- The cap in force; before configuration, the envelope. -/
def State.cap (s : State) : Nat :=
  let c := s.fld Reg.BWL_GOV Fld.BWL_GOV_CAP_W
  if c = 0 then s.envelope else c

/-- The package level and the counts of comparisons move. -/
def State.govCompare (s : State) : State :=
  let p := s.pwr
  let l := s.fld Reg.BWL_GOV Fld.BWL_GOV_LEVEL
  let lim := s.cap * (1000000 * p.power.length)
  if p.power = [] then s
  else if lim < p.sum then
    let unmet := if l = govTop then p.unmet + 1 else 0
    let s := { s with pwr := { p with below := 0, unmet := unmet } }
    let s := s.setFld Reg.BWL_GOV Fld.BWL_GOV_LEVEL (min govTop (l + 1))
    if unmet = 100 then s.event Reg.BWL_EVENT Fld.BWL_EVENT_CAP_UNMET (Reg.BWL_CNT 6) else s
  else if p.sum * 100 < lim * 97 then
    if 10 ≤ p.below + 1 then
      { s with pwr := { p with below := 0, unmet := 0 } }.setFld Reg.BWL_GOV Fld.BWL_GOV_LEVEL (l - 1)
    else { s with pwr := { p with below := p.below + 1, unmet := 0 } }
  else { s with pwr := { p with below := 0, unmet := 0 } }

/-- The thermal level of a die after a comparison. -/
def thermNext (level : Nat) (junction : List Int) : Nat :=
  if junction.any fun t => decide (degHot ≤ t) then min govTop (level + 1)
  else if junction.all fun t => decide (t < degCool) then level - 1
  else level

/-- Bits of DIE_HOT. -/
def hotBits : Nat → List Nat → Nat
  | _, [] => 0
  | d, l :: r => (if l = 0 then 0 else 2 ^ d) + hotBits (d + 1) r

/-- The thermal levels move. THERM_THROTTLE is set while one is above 0 (R502): each comparison that finds it clear sets it, and every
setting is counted (R9, R559). -/
def State.thermCompare (s : State) : State :=
  let th := (List.range 7).map fun d => thermNext (s.pwr.thermal[d]?.getD 0) (s.pwr.junction[d]?.getD [])
  let s := { s with pwr := { s.pwr with thermal := th } }
  let s := s.setFld Reg.BWL_GOV Fld.BWL_GOV_DIE_HOT (hotBits 0 th)
  if th.any (fun l => decide (0 < l)) = false ∨ s.flag Reg.BWL_EVENT Fld.BWL_EVENT_THERM_THROTTLE then s
  else s.event Reg.BWL_EVENT Fld.BWL_EVENT_THERM_THROTTLE (Reg.BWL_CNT 7)

/-- PROCHOT_N as the package drives it: low while a thermal level is above 0 (R502). -/
def State.prochotLow (s : State) : Bool := s.pwr.thermal.any fun l => decide (0 < l)

/-- The level that a die runs at: the greatest of L, its thermal level and, while the board holds PROCHOT_N low, 16. -/
def State.dieLevel (s : State) (d : Nat) : Nat :=
  max (max (s.fld Reg.BWL_GOV Fld.BWL_GOV_LEVEL) (s.pwr.thermal[d]?.getD 0))
    (if s.flag Reg.BWL_GOV Fld.BWL_GOV_PROCHOT_IN then 16 else 0)

/-! ### PROCHOT_N (R503, and the corner case of chapter 20) -/

def State.setBoardHot (s : State) (x : Bool) : State := { s with pwr := { s.pwr with boardHot := x } }

/-- The board's hold of PROCHOT_N takes effect once the package does not drive the pin itself. -/
def State.prochotSeen (s : State) : State :=
  if s.pwr.boardHot = false ∨ s.prochotLow ∨ s.flag Reg.BWL_GOV Fld.BWL_GOV_PROCHOT_IN then s
  else (s.setFld Reg.BWL_GOV Fld.BWL_GOV_PROCHOT_IN 1).event Reg.BWL_EVENT Fld.BWL_EVENT_PROCHOT_IN (Reg.BWL_CNT 8)

/-- PROCHOT_IN: the board has held PROCHOT_N low for 20 µs. -/
def execProchotIn (s : State) : Host.Outcome State Fault Refusal := .next (s.setBoardHot true).prochotSeen

/-- PROCHOT_N_RELEASE: the board lets PROCHOT_N go. -/
def execProchotNRelease (s : State) : Host.Outcome State Fault Refusal :=
  .next ((s.setBoardHot false).setFld Reg.BWL_GOV Fld.BWL_GOV_PROCHOT_IN 0)

/-- GOVERNOR_COMPARE (R501, R502); a comparison that lets PROCHOT_N go shows a hold of the board (log entry 57). -/
def execGovernorCompare (s : State) : Host.Outcome State Fault Refusal := .next s.govCompare.thermCompare.prochotSeen

/-! ### Cooling (R563) -/

/-- A service cause is cleared; ANY follows the causes that remain. -/
def State.serviceClear (s : State) (f : Field) : State :=
  let s := s.setFlds Reg.RAS_SERVICE_REQUEST [(f, 0), (Fld.RAS_SERVICE_REQUEST_ANY, 0)]
  if s.rd Reg.RAS_SERVICE_REQUEST = 0 then s else s.setFld Reg.RAS_SERVICE_REQUEST Fld.RAS_SERVICE_REQUEST_ANY 1

/-- COOLING_CHECK (R563): the margin, 105 °C less the hottest junction averaged over the last second, has stayed for 60 s below
COOL_MARGIN_C, or at or above COOL_MARGIN_C + 2 °C; `margin` is its value now. -/
def execCoolingCheck (margin : Int) (s : State) : Host.Outcome State Fault Refusal :=
  let t : Int := s.fld Reg.RAS_COOL Fld.RAS_COOL_THRESH
  let s := s.setFlds Reg.RAS_COOL [(Fld.RAS_COOL_MARGIN, (BitVec.ofInt 16 margin).toNat),
    (Fld.RAS_COOL_BELOW, if margin < t * 16 then 1 else 0)]
  let set := s.flag Reg.RAS_SERVICE_REQUEST Fld.RAS_SERVICE_REQUEST_COOLING
  .next (
    if margin < t * 16 then
      if set then s
      else (s.service Fld.RAS_SERVICE_REQUEST_COOLING).event Reg.RAS_EVENT Fld.RAS_EVENT_COOLING Reg.RAS_CNT_COOLING
    else if (t + 2) * 16 ≤ margin ∧ set then s.serviceClear Fld.RAS_SERVICE_REQUEST_COOLING
    else s)

end Sys2Proof.Machine
end

