-- ==== Sys2Proof/Machine/LySession.lean ====
section
/-! DEFINITION. Lanyard packets and sessions (R484 to R487): header words, the port to a peer, DATA and CLOSE sent. -/

namespace Sys2Proof.Machine

/-! ### Packets (R484) -/

def lyHello1 : Nat := 1
def lyHello2 : Nat := 2
def lyHello3 : Nat := 3
def lyData : Nat := 4
def lyClose : Nat := 5
def lyFreset : Nat := 6

/-- Fields of a Lanyard payload. -/
def lySession (p : Packet) : Nat := leNat (p.payload.take 4)
def lyKind (p : Packet) : Nat := leNat ((p.payload.drop 4).take 1)
def lyMajor (p : Packet) : Nat := leNat ((p.payload.drop 5).take 1)
def lyCounter (p : Packet) : Nat := leNat ((p.payload.drop 8).take 8)
def lyBody (p : Packet) : List Byte := p.payload.drop 16

/-- Words 0 and 1 of a payload, as bytes. -/
def lyHead (session kind counter : Nat) : List Byte := natLE 4 session ++ natLE 1 kind ++ natLE 1 1 ++ natLE 2 0 ++ natLE 8 counter

/-- The ASCII text of a list of codes, as bytes. -/
def ascii (l : List Nat) : List Byte := l.map fun c => BitVec.ofNat 8 c

/-- UMARA-LY-N, UMARA-LY-P, UMARA-LY-1 KEYS, UMARA-FRESET and UMARA-AT. -/
def textUmara : List Nat := [0x55, 0x4D, 0x41, 0x52, 0x41, 0x2D]
def textNode : List Byte := ascii (textUmara ++ [0x4C, 0x59, 0x2D, 0x4E])
def textPeer : List Byte := ascii (textUmara ++ [0x4C, 0x59, 0x2D, 0x50])
def textKeys : List Byte := ascii (textUmara ++ [0x4C, 0x59, 0x2D, 0x31, 0x20, 0x4B, 0x45, 0x59, 0x53])
def textFreset : List Byte := ascii (textUmara ++ [0x46, 0x52, 0x45, 0x53, 0x45, 0x54])
def textAttest : List Byte := ascii (textUmara ++ [0x41, 0x54])

/-- The port of a Lanyard packet to a node: while the node has a number, port A or B of its route (R343) with its link up; before
that, the port by which the peer was heard (R443). Class 1 also uses ports in management-only operation (R417). -/
def State.lyPort (s : State) (dst port : Nat) : Option Nat :=
  let up (p : Nat) : Bool := s.working (capPort p) && s.working (capFdie 0) && s.portState p == optUp
  if s.flag Reg.HWS_NODE Fld.HWS_NODE_VALID then
    let r := Reg.HWS_ROUTE dst
    let a := s.fld r Fld.HWS_ROUTE_PORT_A
    let b := s.fld r Fld.HWS_ROUTE_PORT_B
    if s.routeValid dst = false then none
    else if up a then some a
    else if s.flag r Fld.HWS_ROUTE_B_VALID ∧ up b then some b
    else none
  else if up port then some port
  else none

/-- A Lanyard packet is sent; with no port to take it, it is lost. The payload follows from header words 0 and 1, which GCM
authenticates. AGENT is Bowline's and LEN the payload's length; the fields that no rule gives class 1 are free. -/
def State.lySend (s : State) (dst port len : Nat) (payload : List Byte → List Byte) : State :=
  match s.lyPort dst port with
  | none => s
  | some q =>
    let a := s.free 10
    let b := a.2.free 10
    let c := b.2.free 10
    let s := c.2
    let w0 := s.hdr0 ptLANYARD 1 (a.1.toNat % 8) dst
    let w1 := hdr1 b.1.toNat 0x0F00 len 0 0 false 0
    s.emit q (mkPacket w0 w1 c.1 (s.hdr3 (a.1.toNat / 8)) (payload (wordsToBytes [w0, w1])))

/-- A CLOSE with its reason (R486): 1 INCOMPATIBLE, 2 AUTH_FAIL, 3 BUSY, 4 EXPIRED. -/
def State.lyCloseSend (s : State) (dst port session reason : Nat) : State :=
  s.lySend dst port 17 fun _ => lyHead session lyClose 0 ++ natLE 1 reason

/-! ### Free keys -/

/-- A free number from 1 to `n` − 1. -/
def freeBelow (x y z a b c : Word) (n : Nat) : Nat :=
  1 + (x.toNat + 2 ^ 64 * y.toNat + 2 ^ 128 * z.toNat + 2 ^ 192 * a.toNat + 2 ^ 256 * b.toNat + 2 ^ 320 * c.toNat) % (n - 1)

/-- Free bits of 384, as a scalar of the curve. -/
def State.freeScalar (s : State) : Nat × State :=
  let a := s.free 11
  let b := a.2.free 11
  let c := b.2.free 11
  let d := c.2.free 11
  let e := d.2.free 11
  let f := e.2.free 11
  (freeBelow a.1 b.1 c.1 d.1 e.1 f.1 p384N, f.2)

/-- 32 free bytes. -/
def State.freeNonce (s : State) : List Byte × State :=
  let a := s.free 12
  let b := a.2.free 12
  let c := b.2.free 12
  let d := c.2.free 12
  (wordsToBytes [a.1, b.1, c.1, d.1], d.2)

/-! ### Sessions -/

/-- The sessions change; BWL_STATUS counts those that are open. -/
def State.setSessions (s : State) (l : List Session) : State :=
  let s := { s with bwl := { s.bwl with sessions := l } }
  s.setFld Reg.BWL_STATUS Fld.BWL_STATUS_SESSIONS (l.filter Session.up).length

def State.sessionOf (s : State) (id : Nat) : Option Session := s.bwl.sessions.find? fun x => x.id == id

def State.setSession (s : State) (x : Session) : State :=
  s.setSessions (s.bwl.sessions.map fun y => if y.id = x.id then x else y)

def State.dropSession (s : State) (id : Nat) : State := s.setSessions (s.bwl.sessions.filter fun x => x.id != id)

/-- A session is closed by the node (R485). -/
def State.expire (s : State) (x : Session) : State := (s.lyCloseSend x.peer x.port x.id 4).dropSession x.id

/-- A plaintext is sent on an open session (R484, R487): encrypted under the key of its direction and the next COUNTER. A session
that reaches COUNTER 2^48 is closed (R485). -/
def State.sessionSend (s : State) (x : Session) (plain : List Byte) : State :=
  let h := lyHead x.id lyData x.tx
  let s := s.lySend x.peer x.port (32 + plain.length) fun hdr =>
    h ++ gcmSeal x.txKey (x.txSalt ++ natLE 8 x.tx) (hdr ++ h) plain
  let x := { x with tx := x.tx + 1, last := s.time }
  if 2 ^ 48 ≤ x.tx then s.expire x else s.setSession x

end Sys2Proof.Machine
end

