-- ==== Sys2Proof/Machine/Telemetry.lean ====
section
/-! DEFINITION. Telemetry records (R498, R499): what a record holds, how it is sent, and the queue of a tick domain. -/

namespace Sys2Proof.Machine

/-- A register as the sampler of telemetry reads it. -/
def State.sample (s : State) (a : Nat) : Word := s.regView .bowline a

def State.samples (s : State) (l : List Nat) : List Word := l.map s.sample

/-- The sum of a counter over the cores of a T-die. -/
def State.dieSum (s : State) (d o : Nat) : Word := (List.range 168).foldl (fun x p => x + s.sample (Reg.coreWin d p + o)) 0

/-- Registers at `a`, `a` + 8, …, `n` of them. -/
def regRun (a n : Nat) : List Nat := (List.range n).map fun i => a + 8 * i

/-- Registers of stream `st` whose content is registers (Table BWL-9), in the order of their tables. -/
def streamRegs (st : Nat) : List Nat :=
  match st with
  | 2 => [Reg.HLY_STEP, Reg.HLY_SLIPS, Reg.HLY_OFFSET] ++ regRun Reg.HLY_CNT_SLIPS 12
  | 4 => (List.range 12).flatMap (fun k => regRun (Reg.stackWin k + 0x100) 11)
    ++ (List.range 12).flatMap fun c => regRun (Reg.chanWin c + 0x100) 15
  | 5 => (List.range 14).flatMap fun l => regRun (Reg.MEMF_LINK l) 4
  | 6 => (List.range 8).flatMap fun p => Reg.OPT_STATUS (Reg.portWin p) :: regRun (Reg.portWin p + 0x100) 12
  | 7 => regRun Reg.HWS_CNT_TX_REQ 28
  | 8 => [Reg.RAS_SERVICE_REQUEST, Reg.RAS_COOL, Reg.RAS_EVENT] ++ (List.range 7).flatMap (fun d => regRun (Reg.RAS_D_CNT_CE d) 4) ++ regRun Reg.RAS_CNT_SERVICE 11
  | 9 => regRun Reg.RSE_CNT_CMD 14
  | _ => []

/-- Content of stream `st` in record `tseq`. -/
def State.streamWords (s : State) (tseq st : Nat) : List Word :=
  if st < 2 then Config.telemetryWords st tseq s.pwr (s.samples (Reg.BWL_GOV :: (List.range 12).map fun k => Reg.MEMF_ST_TEMP (Reg.stackWin k)))
  else if st = 3 then
    (List.range 4).flatMap fun d => [0x200, 0x210, 0x218, 0x220, 0x228, 0x448, 0x648, 0x890].map (s.dieSum d)
  else s.samples (streamRegs st)

/-- A block: its word with the stream's bit number and the block's length in words, and its content. -/
def State.streamBlock (s : State) (tseq st : Nat) : List Word :=
  let b := s.streamWords tseq st
  BitVec.ofNat 64 (65536 * (b.length % 65536) + st) :: b

/-- The record that is formed now. -/
def State.tlmRecord (s : State) (tseq : Nat) : List Word :=
  [BitVec.ofNat 64 (2 ^ 32 * tseq + s.bwl.streams), s.sample Reg.HLY_TIMEBASE, BitVec.ofNat 64 s.step]
    ++ ((List.range 10).filter (bit s.bwl.streams)).flatMap (s.streamBlock tseq)

/-- A record is dropped. -/
def State.tlmDrop (s : State) : State := s.event Reg.BWL_EVENT Fld.BWL_EVENT_TLM_DROP (Reg.BWL_CNT 5)

/-- The most recently opened session whose peer is DEST. -/
def State.tlmSession (s : State) : Option Session :=
  let d := s.fld Reg.BWL_TLM_STATUS Fld.BWL_TLM_STATUS_DEST
  (s.bwl.sessions.filter fun x => x.up && x.peer == d).foldl (fun b x =>
    match b with
    | some y => if y.since ≤ x.since then some x else b
    | none => some x) none

/-- Words of a record that one DATA message carries: 27 words of arguments less the part word. -/
def tlmPart : Nat := 26

/-- Part `i` of a record, the last one flagged. -/
def tlmPlain (r : List Word) (i : Nat) (last : Bool) : List Byte :=
  let b := wordsToBytes ((r.drop (tlmPart * i)).take tlmPart)
  natLE 8 (2 ^ 16 * (b.length + 8) + 0x8000) ++ natLE 8 (i % 65536 + (if last then 2 ^ 16 else 0)) ++ b

/-- A record is sent, in parts, or dropped for want of a session. -/
def State.tlmSend (s : State) (r : List Word) : State :=
  match s.tlmSession with
  | none => s.tlmDrop
  | some x =>
    let n := (r.length + tlmPart - 1) / tlmPart
    (List.range n).foldl (fun s i =>
      match s.sessionOf x.id with
      | some y => s.sessionSend y (tlmPlain r i (decide (i + 1 = n)))
      | none => s) s

/-- Records that wait are sent, the oldest first. -/
def State.tlmFlush (s : State) : State :=
  s.bwl.tlmWait.foldl State.tlmSend { s with bwl := { s.bwl with tlmWait := [] } }

/-- TELEMETRY_RECORD (R498, R499): a record is formed and takes its TSEQ. Outside a tick domain, and in the quiet band, it is
sent; in a domain it waits for the quiet band, in a queue of 64. -/
def execTelemetryRecord (s : State) : Host.Outcome State Fault Refusal :=
  .next (
    if s.fld Reg.BWL_TLM_STATUS Fld.BWL_TLM_STATUS_RATE_HZ = 0 then s
    else
      let n := s.fld Reg.BWL_TLM_STATUS Fld.BWL_TLM_STATUS_TSEQ
      let r := s.tlmRecord n
      let s := s.setFld Reg.BWL_TLM_STATUS Fld.BWL_TLM_STATUS_TSEQ ((n + 1) % 2 ^ 32)
      if s.inDomain = false ∨ s.hly.quiet then s.tlmFlush.tlmSend r
      else if 64 ≤ s.bwl.tlmWait.length then s.tlmDrop
      else { s with bwl := { s.bwl with tlmWait := s.bwl.tlmWait ++ [r] } })

end Sys2Proof.Machine
end

