-- ==== Sys2Proof/Machine/Halyard.lean ====
section
/-! DEFINITION. Halyard's commands: the exchange of time (R36 to R40), tick symbols (R33, R51 to R55), the moments of a tick
(R41, R46, R49, R52, R53, R63) and the writes of its registers (R42, R44, R48, R60, R62). -/

namespace Sys2Proof.Machine

/-! ### Symbols received -/

/-- The first symbol `y` of type `type` among those that wait. -/
def symFirst (type : Nat) (y : TickSymbol) (l : List (Nat × TickSymbol × Nat)) : Option (Nat × TickSymbol × Nat) :=
  l.find? fun e => e.1 == type && e.2.1 == y

/-- A symbol that was waiting on a port is taken. -/
def State.takeSym (s : State) (type : Nat) (y : TickSymbol) : State :=
  { s with ports := { s.ports with rxSym := match symFirst type y s.ports.rxSym with
      | some e => listTake e s.ports.rxSym
      | none => s.ports.rxSym } }

/-- TIMEBASE at which a symbol arrived (R400): the stamp of the flit that brought it, or the present time. -/
def State.symTime (s : State) (type : Nat) (y : TickSymbol) : Nat :=
  match symFirst type y s.ports.rxSym with
  | some e => e.2.2
  | none => s.time

/-- A symbol that R33 accepts. -/
def State.symOk (s : State) (y : TickSymbol) : Bool :=
  y.verMajor == 1 && y.domain == s.fld Reg.HLY_DOMAIN Fld.HLY_DOMAIN_DOMAIN && s.flag Reg.HLY_DOMAIN Fld.HLY_DOMAIN_VALID

/-- A symbol arrives (R33): ignored and counted, without effect while Halyard is disabled, or handled by `k`. -/
def State.symbol (s : State) (type : Nat) (y : TickSymbol) (k : State → State) : State :=
  let s := s.takeSym type y
  if s.symOk y = false then s.event Reg.HLY_EVENT Fld.HLY_EVENT_SYM_UNKNOWN Reg.HLY_CNT_SYM_UNKNOWN
  else if s.flag Reg.HLY_CTRL Fld.HLY_CTRL_ENABLE = false then s
  else k s

/-- A tick symbol of the master reaches a member: relayed and handled once (R52, R399). -/
def State.tickSymbol (s : State) (type : Nat) (y : TickSymbol) (k : State → State) : State :=
  s.symbol type y fun s =>
    if s.isMaster || s.hly.seen.contains (type, y) then s
    else k ({ s with hly := { s.hly with seen := s.hly.seen ++ [(type, y)] } }.sendChildren type y)

/-! ### Exchange with the parent -/

/-- A child that takes part in the exchange (R36). -/
def State.exchanging (s : State) : Bool :=
  s.flag Reg.HLY_CTRL Fld.HLY_CTRL_ENABLE && s.inDomain && !s.isMaster

/-- The alternate master becomes master (R40); its TIMEBASE is no longer disciplined (R36). -/
def State.takeOver (s : State) : State :=
  let s := s.event Reg.HLY_EVENT Fld.HLY_EVENT_MASTER_TAKEOVER Reg.HLY_CNT_MASTER_TAKEOVER
  let s := (s.setFld Reg.HLY_STATUS Fld.HLY_STATUS_ROLE 1).wr Reg.HLY_OFFSET 0
  let s := s.setFld Reg.HLY_TREE Fld.HLY_TREE_LEVEL 0
  ({ s with hly := { s.hly with
      takeover := decide (s.hly.children.length < s.hly.lastChildren), awaiting := false, missed := 0, rate := 0,
      slewRem := 0 } }.slipUpdate).leadUpdate

/-- The parent is lost (R39): the node attaches to its alternate parent. -/
def State.parentLost (s : State) : State :=
  if s.hly.useAlt then s
  else
    let s := { s with hly := { s.hly with useAlt := true, missed := 0 } }
    s.event Reg.HLY_EVENT Fld.HLY_EVENT_PARENT_SWITCH Reg.HLY_CNT_PARENT_SWITCH

/-- TIME_REQ goes to the parent, and SLIP_STATE after it (R36, R51). -/
def State.sendReqTime (s : State) : State :=
  let n := (s.hly.seq + 1) % 65536
  let s := { s with hly := { s.hly with seq := n, t1 := s.time, awaiting := true } }
  (s.send s.parent symTimeReq { s.mkSym with seq := n, timeA := s.time }).sendSlip

/-- TIME_EXCHANGE (R36, R39, R40): an exchange is due, 125,000 ns after the last; one that had no answer is counted as
missed. -/
def execTimeExchange (s : State) : Host.Outcome State Fault Refusal :=
  .next (
    if s.exchanging = false then s
    else
      let s := if s.hly.t1 = 0 then s else s.timeTo (s.hly.t1 + 125000)
      let m := if s.hly.awaiting then s.hly.missed + 1 else 0
      let s := { s with hly := { s.hly with missed := m } }
      if m < 4 then s.sendReqTime
      else if s.fld Reg.HLY_STATUS Fld.HLY_STATUS_ROLE = 2 ∧ s.member then s.takeOver
      else s.parentLost.sendReqTime)

/-- Node `n` attaches (R30, R39), unless 64 children are attached; the symbol held for the tick goes to it. -/
def State.attach (s : State) (n : Nat) : State :=
  if s.hly.children.any fun c => c.node == n then
    { s with hly := { s.hly with children := s.hly.children.map fun c => if c.node = n then { c with heard := s.time } else c } }
  else if 64 ≤ s.hly.children.length then s
  else
    let l := s.hly.children ++ [⟨n, false, 0, s.time⟩]
    let s := { s with hly := { s.hly with
      children := l, takeover := s.hly.takeover && decide (l.length < s.hly.lastChildren) } }
    let s := s.setFld Reg.HLY_TREE Fld.HLY_TREE_CHILDREN l.length
    let s := match s.hly.latest with
      | some (t, y) => s.send n t y
      | none => s
    s.slipUpdate.leadUpdate

/-- TIME_REQ (R30, R36): a child attaches or is refused, and an attached child is answered with the time at which its request
arrived (R400). -/
def execTimeReq (src : Nat) (sym : TickSymbol) (s : State) : Host.Outcome State Fault Refusal :=
  .next (
    let t2 := s.symTime symTimeReq sym
    s.symbol symTimeReq sym fun s =>
      let s := s.attach src
      if s.hly.children.any fun c => c.node == src then
        s.send src symTimeResp
          { s.mkSym with seq := sym.seq, level := s.fld Reg.HLY_TREE Fld.HLY_TREE_LEVEL, timeA := t2, timeB := s.time }
      else s)

/-- asym of R36: the ASYM of the port that leads to the tick parent (R413). -/
def State.parentAsym (s : State) : Int :=
  match s.tickPort s.parent with
  | some p => sext 16 (s.fld (Reg.OPT_DELAY (Reg.portWin p)) Fld.OPT_DELAY_ASYM)
  | none => 0

/-- Half of a number of ns; which neighbour stands for a half is not stated, so that it is a free value (log entry 13). -/
def State.half (s : State) (x : Int) : Int × State :=
  if x % 2 = 0 then (x / 2, s)
  else
    let w := s.free 3
    (x / 2 + (w.1.toNat % 2 : Nat), w.2)

/-- TIMEBASE is stepped by d / 2 ns (R35, R36). -/
def State.stepTime (s : State) (d : Int) : State :=
  let x : Int := (65536 * s.time + s.hly.frac : Nat) + 32768 * d
  let s := s.wr Reg.HLY_TIMEBASE (wordOfInt (x / 65536))
  { s with hly := { s.hly with frac := (x % 65536).toNat, t1 := (s.hly.t1 + d / 2).toNat } }

/-- The lock judgement of R36 on twice theta. An exchange that is missed gives no theta and leaves the run of consecutive exchanges
as it stands (DESIGN CHOICE, log entry 61). -/
def State.lockJudge (s : State) (d : Int) : State :=
  let n := if d.natAbs ≤ 10 then s.hly.lockRun + 1 else 0
  let s := { s with hly := { s.hly with lockRun := n } }
  if d.natAbs > 20 then
    if s.flag Reg.HLY_STATUS Fld.HLY_STATUS_LOCKED then
      (s.setFld Reg.HLY_STATUS Fld.HLY_STATUS_LOCKED 0).event Reg.HLY_EVENT Fld.HLY_EVENT_TB_UNLOCKED Reg.HLY_CNT_TB_UNLOCK
    else s
  else if 8 ≤ n then s.setFld Reg.HLY_STATUS Fld.HLY_STATUS_LOCKED 1
  else s

/-- TIME_RESP (R30, R36): the answer to the last TIME_REQ sets the level and disciplines TIMEBASE. Other answers are
ignored. -/
def execTimeResp (src : Nat) (sym : TickSymbol) (s : State) : Host.Outcome State Fault Refusal :=
  .next (
    let t4 : Int := s.symTime symTimeResp sym
    s.symbol symTimeResp sym fun s =>
    if !s.exchanging || src != s.parent || !s.hly.awaiting || sym.seq != s.hly.seq then s
    else
      let t1 : Int := s.hly.t1
      let t2 : Int := sym.timeA
      let t3 : Int := sym.timeB
      let a := s.parentAsym
      let d := (t2 - t1) - (t4 - t3) - a
      let s := { s with hly := { s.hly with awaiting := false, missed := 0 } }
      let s := s.setFld Reg.HLY_TREE Fld.HLY_TREE_LEVEL (min 3 (sym.level + 1))
      let th := s.half d
      let s := th.2.wr Reg.HLY_OFFSET (wordOfInt th.1)
      let hl := s.half ((t4 - t1) - (t3 - t2) - a)
      let s := { hl.2 with hly := { hl.2.hly with hopLat := hl.1 } }
      let s :=
        if s.hlyState = hlyJoining ∧ d.natAbs > 2000 then s.stepTime d
        else { s with hly := { s.hly with rate := max (-100) (min 100 (4 * d)) } }
      s.lockJudge d)

/-! ### Slip state and tick symbols -/

/-- SLIP_STATE (R51): the report of an attached child. -/
def execSlipState (src : Nat) (sym : TickSymbol) (s : State) : Host.Outcome State Fault Refusal :=
  .next (s.symbol symSlipState sym fun s =>
    let upd (c : Child) : Child := if c.node = src then { c with pending := sym.pending, latency := sym.timeB % 2 ^ 20 } else c
    ({ s with hly := { s.hly with children := s.hly.children.map upd } }.slipUpdate).leadUpdate)

/-- A symbol of the tick that the node is in. -/
def State.ofTick (s : State) (y : TickSymbol) : Bool := s.ticking && y.step == s.step

/-- Slips granted up to `n` are counted (R54). -/
def State.slipsTo (s : State) (n : Nat) : State :=
  let old := s.fld Reg.HLY_SLIPS Fld.HLY_SLIPS_CURRENT
  if old < n then (s.setFld Reg.HLY_SLIPS Fld.HLY_SLIPS_CURRENT n).bump32 Reg.HLY_CNT_SLIPS (n - old) else s

/-- A hold for a missing TICK_FINAL ends where the tick end moves beyond the present. -/
def State.unholdLate (s : State) : State :=
  if s.hly.lateHold && decide (s.time < s.tickEnd) then
    { s.setHlyState hlyRunning with hly := { s.hly with lateHold := false } }
  else s

/-- TICK_EXTEND (R52, R53): the tick end moves, and the slips are counted. -/
def execTickExtend (sym : TickSymbol) (s : State) : Host.Outcome State Fault Refusal :=
  .next (s.tickSymbol symTickExtend sym fun s =>
    if s.hlyState = hlyJoining then { s with hly := { s.hly with latest := some (symTickExtend, sym) } }
    else if s.ofTick sym then
      let s := { s with hly := { s.hly with latest := some (symTickExtend, sym) } }
      ((s.wr Reg.HLY_TICK_END (BitVec.ofNat 64 sym.timeA)).slipsTo sym.slips).unholdLate
    else s)

/-- A TICK_FINAL of another generation than the node's active one is an event (R45). -/
def State.genCheck (s : State) (y : TickSymbol) : State :=
  if y.gen = s.hly.active.gen then s
  else s.event Reg.HLY_EVENT Fld.HLY_EVENT_PARAM_MISMATCH Reg.HLY_CNT_PARAM_MISMATCH

/-- The final end of the tick is held (R40, R53) with the slips it tells of (R54), and a cut that does not hold yet is abandoned
(R512). -/
def State.takeFinal (s : State) (y : TickSymbol) : State :=
  let s := s.slipsTo y.slips
  let s := if s.time < s.tickEnd then s.cutAbandon crNotHeld else s
  let s := s.wr Reg.HLY_TICK_END (BitVec.ofNat 64 y.timeA)
  { s with hly := { s.hly with
    final := some (y.step, y.timeA, y.timeB), latest := some (symTickFinal, y), lastChildren := y.children } }

/-- TICK_FINAL (R41, R45, R53): fixes the end of the tick; on a locked joining node, the moment of its joining. -/
def execTickFinal (sym : TickSymbol) (s : State) : Host.Outcome State Fault Refusal :=
  .next (s.tickSymbol symTickFinal sym fun s =>
    let s := s.genCheck sym
    if s.hlyState = hlyJoining then
      let s := { s with hly := { s.hly with latest := some (symTickFinal, sym), lastChildren := sym.children } }
      if s.flag Reg.HLY_STATUS Fld.HLY_STATUS_LOCKED && s.hly.final.isNone then
        { s with hly := { s.hly with final := some (sym.step, sym.timeA, sym.timeB) } }
      else s
    else if s.ofTick sym then s.takeFinal sym
    else s)

/-- TICK_FAULT (R55): the node counts the slips it tells of (R54) and holds at TIME_A. -/
def execTickFault (sym : TickSymbol) (s : State) : Host.Outcome State Fault Refusal :=
  .next (s.tickSymbol symTickFault sym fun s =>
    if s.ofTick sym && s.hlyState != hlyHoldFault then (s.slipsTo sym.slips).holdFault sym.timeA else s)

/-! ### Moments -/

/-- Entries of a TALQ whose moment has passed are dropped as PAST (R41, R60). -/
def State.dropPast (s : State) : State :=
  let past (e : TalqEntry) : Bool := s.passed e.step (s.launchMoment e)
  let n := (s.hly.talq.filter past).length
  let s := { s with hly := { s.hly with talq := s.hly.talq.filter fun e => !past e } }
  let s := (List.range 7).foldl State.talqOcc s
  (List.range n).foldl (fun s _ => s.event Reg.HLY_EVENT Fld.HLY_EVENT_TALQ_PAST Reg.HLY_CNT_PAST) s

/-- JOIN_COMPLETE (R41, R103, R527): at the end time of the held TICK_FINAL the node becomes a member of the next step. -/
def execJoinComplete (s : State) : Host.Outcome State Fault Refusal :=
  .next (
    match s.hly.final with
    | none => s
    | some (st, a, b) =>
      if s.hlyState ≠ hlyJoining then s
      else
        let s := (s.timeTo a).tickApply st
        let s := (s.setHlyState hlyRunning).beginTick (nextStep st) (max a s.time) (some b)
        s.dropPast.twaitsJudge.hartsJudge)

/-- GUARD_POINT (R49, R64): late units are copied, and the slip state is pending from here on while any is late or a forced
calibration slip is due. -/
def execGuardPoint (s : State) : Host.Outcome State Fault Refusal :=
  .next (
    if !s.ticking || s.hly.guardDone then s
    else
      let s := s.timeTo s.guardPoint
      let s := doneWords.foldl (fun s e => s.wr e.2.2 (s.lateWord e.1 e.2.1)) s
      let f := s.calDue
      let s := { s with hly := { s.hly with guardDone := true, forced := f } }
      let s := if !f.isEmpty then
          (s.setFld Reg.HLY_SLIPS Fld.HLY_SLIPS_FORCED 1).event Reg.HLY_EVENT Fld.HLY_EVENT_FORCED_SLIP Reg.HLY_CNT_FORCED
        else s
      s.slipUpdate)

/-- The master grants a slip (R52). -/
def State.grantSlip (s : State) : State :=
  let e := s.tickEnd + s.hly.active.quantum
  let s := s.wr Reg.HLY_TICK_END (BitVec.ofNat 64 e)
  let s := s.slipsTo (s.fld Reg.HLY_SLIPS Fld.HLY_SLIPS_CURRENT + 1)
  let y := { s.mkSym with timeA := e }
  ({ s with hly := { s.hly with latest := some (symTickExtend, y) } }.sendChildren symTickExtend y).unholdLate

/-- The master faults the tick (R52, R55). -/
def State.faultTick (s : State) : State :=
  let e := s.tickEnd
  (s.sendChildren symTickFault { s.mkSym with timeA := e }).holdFault e

/-- The master decides on ticks that run and on one it holds as a new master (R40). -/
def State.deciding (s : State) : Bool :=
  s.isMaster && s.hly.final.isNone && (s.launching || (s.hlyState == hlyHoldFinal && s.hly.lateHold))

/-- DECISION_POINT (R52, R510): at E − L the master ends the tick, extends it or faults it; with its own cut launched it sends
no symbol once nothing is pending. -/
def execDecisionPoint (s : State) : Host.Outcome State Fault Refusal :=
  .next (
    if s.deciding = false then s
    else
      let s := s.timeTo (s.tickEnd - s.lead)
      if s.aggPending = false then if s.cutLaunched then s else s.sendFinal s.tickEnd
      else if s.fld Reg.HLY_SLIPS Fld.HLY_SLIPS_CURRENT < s.hly.active.maxSlips then s.grantSlip
      else s.faultTick)

/-- TICK_END (R46, R48, R53): the tick ends at the TIME_A of its TICK_FINAL, and the next begins. -/
def execTickEnd (s : State) : Host.Outcome State Fault Refusal :=
  .next (
    match s.hly.final with
    | none => s
    | some (st, a, b) => if s.ticking && st == s.step then s.endTick a b else s)

/-- BOUNDARY_HOLD (R53, R510): E is reached without a TICK_FINAL. A node whose cut has launched begins its hold; another
member holds with LATE_FINAL. -/
def execBoundaryHold (s : State) : Host.Outcome State Fault Refusal :=
  .next (
    if !s.launching || s.hly.final.isSome then s
    else if s.cutArmed then ((s.timeTo s.tickEnd).setHlyState hlyHoldFinal).cutHoldBegin
    else if s.isMaster then s
    else
      let s := (s.timeTo s.tickEnd).setHlyState hlyHoldFinal
      { s with hly := { s.hly with lateHold := true } }.event Reg.HLY_EVENT Fld.HLY_EVENT_LATE_FINAL Reg.HLY_CNT_LATE_FINAL)

/-- QUIET_BAND_START (R63, R64, R331): the quiet band begins; bursts that are due begin or are deferred, every
write-combining entry is flushed, and the telemetry records that wait are sent (R499). -/
def execQuietBandStart (s : State) : Host.Outcome State Fault Refusal :=
  .next (
    if !s.ticking || s.hly.quiet then s
    else
      let s := s.timeTo s.quietStart
      { s with hly := { s.hly with quiet := true } }.calQuiet.wcFlushAll.tlmFlush)

/-! ### Register writes -/

/-- Agents that may write Halyard's registers (R44): Bowline, the management context, and the host of the partition. -/
def State.mayWriteHly (s : State) (agent : Agent) : Bool := (s.ctx agent).serves

/-- HLY_CTRL (R32, R42). -/
def execHlyCtrl (agent : Agent) (value : Word) (s : State) : Host.Outcome State Fault Refusal :=
  .next (if s.mayWriteHly agent then s.writeHlyCtrl value else s)

/-- HLY_PARAM (R43, R44). -/
def execHlyParam (agent : Agent) (value : Word) (s : State) : Host.Outcome State Fault Refusal :=
  .next (if s.mayWriteHly agent then s.commitParams value else s)

/-- HLY_HOST_DONE (R48). -/
def execHlyHostDone (agent : Agent) (value : Word) (s : State) : Host.Outcome State Fault Refusal :=
  .next (if s.mayWriteHly agent && getF value Fld.HLY_HOST_DONE_DONE == 1 then s.unitDone Fld.HLY_DONE_U_HOST else s)

/-- HLY_TALQ_ARM1 (R60): the entry of the agent's ARM0 and this word is committed, and its result kept for the agent. The
window of an absent die takes no write (R25). -/
def execHlyTalqArm1 (agent : Agent) (queue : Nat) (value : Word) (s : State) : Host.Outcome State Fault Refusal :=
  .next (
    if s.mayWriteHly agent = false ∨ s.talqUp queue = false then s
    else
      let k := armKey queue agent
      let r := s.arm queue (sGet noArm s.hly.arm0 k) value
      let old := sGet noArmInfo s.hly.armInfo k
      { r.1 with hly := { r.1.hly with
        armInfo := sSet noArmInfo r.1.hly.armInfo k (r.2, bits value.toNat 63 48, old.2.2) } })

/-- HLY_TALQ_CANCEL (R62). -/
def execHlyTalqCancel (agent : Agent) (queue : Nat) (value : Word) (s : State) : Host.Outcome State Fault Refusal :=
  .next (
    if s.mayWriteHly agent = false ∨ s.talqUp queue = false then s
    else
      let k := armKey queue agent
      let r := s.talqCancel queue (bits value.toNat 15 0)
      let old := sGet noArmInfo s.hly.armInfo k
      { r.1 with hly := { r.1.hly with armInfo := sSet noArmInfo r.1.hly.armInfo k (old.1, old.2.1, r.2) } })

/-! ### Launches -/

/-- HOST_EVENT (R273): a launched entry writes one entry to a host event queue. -/
def State.hostEvent (s : State) (e : TalqEntry) : State :=
  let r := s.readDesc 4 e.desc
  let d := bytesToWords 8 r.data
  let ok := s.inTier e.desc && decide (r.stat = .ok) && bits (wordAt d 0).toNat 63 56 == 1 && bits (wordAt d 0).toNat 47 0 == 0 &&
    (d.drop 3).all (· == 0)
  if ok then
    (r.st.postHost e.target 0x10 (bits (wordAt d 0).toNat 55 48) 0xFFFF e.step (wordAt d 1) (wordAt d 2)).1
  else
    let s := r.st.event Reg.HOST_EVENT Fld.HOST_EVENT_EVDESC_INVALID Reg.HOST_CNT_EVDESC_INVALID
    (s.postHost e.target 0x11 0 0xFFFF e.step (BitVec.ofNat 64 e.desc) 0).1

def execHostEvent (s : State) : Host.Outcome State Fault Refusal := .next (s.talqLaunch 4 actEvent State.hostEvent)

/-- F-die `f` still owes a completion or a refresh of this step (R379): a request of the step on one of its ports, one of the step
that the egress holds, or a put or refresh of its TALQ. -/
def State.fdieOwes (s : State) (f : Nat) : Bool :=
  (s.hws.reqs.any fun r => r.sport / 4 == f && r.step16 == s.step % 65536) ||
    (s.hws.held.any fun r => ((s.reqPort r.tc r.dst r.off).map (· / 4)) == some f && r.step16 == s.step % 65536) ||
    (s.hws.puts.any fun p => p.f == f) || (s.hws.refresh.any fun r => r.f == f) ||
    (s.hly.talq.any fun e => e.queue == 5 + f && e.action == actRefresh && e.step == s.step)

/-- FDIE_DONE (R379): at or after the guard point, with every request and refresh of the step complete, the F-die signals
step-done. In the cycle of the guard point it counts as given before it (R49). -/
def execFdieDone (f : Nat) (s : State) : Host.Outcome State Fault Refusal :=
  .next (
    if 1 < f ∨ s.working (capFdie f) = false ∨ (s.hly.guardDone || s.ticking && decide (s.guardPoint ≤ s.time)) = false ∨
        s.fdieOwes f then s
    else s.unitDone (if f = 0 then Fld.HLY_DONE_U_FDIE0 else Fld.HLY_DONE_U_FDIE1))

end Sys2Proof.Machine
end

