-- ==== Sys2Proof/Machine/Jtag.lean ====
section
/-! DEFINITION. The test access port (R583 to R585). -/

namespace Sys2Proof.Machine

/-- Opcodes of Table PKG-11. -/
def tapEXTEST : Nat := 0
def tapSAMPLE : Nat := 1
def tapIDCODE : Nat := 2
def tapHIGHZ : Nat := 3
def tapCLAMP : Nat := 4
def tapBYPASS : Nat := 255

/-- IDCODE (R584): stepping A1, the order number, 0x5E3 and 1. -/
def tapId (part : Nat) : BitVec 32 := BitVec.ofNat 32 (2 ^ 28 + 2 ^ 12 * part + 0x5E3 * 2 + 1)

/-- An instruction becomes the current one of a port that has power (R583); `out` is what it captures for shifting, where the spec
says. -/
def State.tap (s : State) (ir : Nat) (out : Option (BitVec 32)) : State :=
  if s.rst.vsb = false then s else { s with rst := { s.rst with tapIr := ir, tapOut := out } }

/-- EXTEST, HIGHZ and CLAMP are accepted only while RESET_N is low; otherwise their update loads BYPASS (R585). -/
def State.tapGuarded (s : State) (ir : Nat) : State := s.tap (if s.rst.resetN then tapBYPASS else ir) none

def execExtest (s : State) : Host.Outcome State Fault Refusal := .next (s.tapGuarded tapEXTEST)

def execHighz (s : State) : Host.Outcome State Fault Refusal := .next (s.tapGuarded tapHIGHZ)

def execClamp (s : State) : Host.Outcome State Fault Refusal := .next (s.tapGuarded tapCLAMP)

def execSamplePreload (s : State) : Host.Outcome State Fault Refusal := .next (s.tap tapSAMPLE none)

def execIdcode (s : State) : Host.Outcome State Fault Refusal := .next (s.tap tapIDCODE (some (tapId s.fuse.part)))

def execBypass (s : State) : Host.Outcome State Fault Refusal := .next (s.tap tapBYPASS none)

end Sys2Proof.Machine
end

