-- ==== Sys2Proof/Machine/LyOps.lean ====
section
/-! DEFINITION. The life of a Lanyard command (R488 to R490, R493): its arrival, its answer, the mailbox. -/

namespace Sys2Proof.Machine

/-! ### Answers (R489, R493) -/

def lyOK : Nat := 0
def lyUNKNOWN : Nat := 1
def lyBAD_ARGS : Nat := 2
def lyNOT_PERMITTED : Nat := 3
def lySTATE : Nat := 4
def lyBUSY : Nat := 5
def lyRATE : Nat := 6
def lyNOT_READY : Nat := 7
def lyFAILED : Nat := 8
def lyIN_PROGRESS : Nat := 9

/-- A response plaintext (R489). -/
def lyResponse (req status : Nat) (data : List Byte) : List Byte :=
  natLE 8 (2 ^ 32 * req + 2 ^ 16 * (data.length % 65536) + 2 ^ 8 * status) ++ data

/-- A response is written over the mailbox's data registers and announced (R493). -/
def State.mailboxShow (s : State) (r : List Byte) : State :=
  let ws := bytesToWords 32 (r ++ List.replicate ((8 - r.length % 8) % 8) 0#8)
  let s := (List.range ws.length).foldl (fun s i => s.wr (Reg.BWL_MBX_DATA i) (wordAt ws i)) s
  let s := s.setFlds Reg.BWL_MBX_STATUS [(Fld.BWL_MBX_STATUS_BUSY, 0), (Fld.BWL_MBX_STATUS_DONE, 1)]
  s.interrupt (s.fld Reg.BWL_MBX_CTRL Fld.BWL_MBX_CTRL_VECTOR)

/-- A response goes back the way its command came. -/
def State.lyReply (s : State) (via : Option Nat) (r : List Byte) : State :=
  match via with
  | none => s.mailboxShow r
  | some id =>
    match s.sessionOf id with
    | some x => s.sessionSend x r
    | none => s

/-- A response is kept against its REQ_ID: the last 16 of a session, the last of the mailbox. -/
def State.lyKeep (s : State) (via : Option Nat) (req : Nat) (r : List Byte) : State :=
  match via with
  | none => { s with bwl := { s.bwl with mbxLast := some (req, r) } }
  | some id =>
    match s.sessionOf id with
    | some x =>
      let l := x.resp.filter (fun e => e.1 != req) ++ [(req, r)]
      s.setSession { x with resp := l.drop (l.length - 16) }
    | none => s

/-- A command has been answered (R479). -/
def State.lySetAnswered (s : State) : State := { s with bwl := { s.bwl with answered := true } }

/-- A command ends. BUSY is not stored; one that was answered IN_PROGRESS leaves its response for the repeat. -/
def State.lyAnswer (s : State) (c : LyCmd) (status : Nat) (data : List Byte) : State :=
  let r := lyResponse c.req status data
  let s := if status = lyBUSY then s else s.lyKeep c.via c.req r
  if c.told then s else (s.lyReply c.via r).lySetAnswered

/-! ### Arrival -/

/-- The CMD codes of Table BWL-5, and those that Belay mode serves. -/
def lyCodes : List Nat :=
  [0x01, 0x02, 0x03, 0x04, 0x10, 0x11, 0x12, 0x13, 0x20, 0x21, 0x22, 0x23, 0x30, 0x31, 0x40, 0x50, 0x60, 0x61, 0x62, 0x63,
   0x70, 0x71, 0x72, 0x78, 0x79, 0x7A, 0x7B, 0x80, 0x81, 0x82]

def lyBelayCodes : List Nat :=
  [0x01, 0x04, 0x60, 0x61, 0x62, 0x63, 0x70, 0x71, 0x72, 0x78, 0x79, 0x7A, 0x7B, 0x80, 0x81, 0x82]

/-- The answer to a command that is not executed: UNKNOWN_CMD, or in Belay mode NOT_PERMITTED (R490). -/
def State.lyRefusal (s : State) (cmd : Nat) : Option Nat :=
  if s.belay then if lyBelayCodes.contains cmd then none else some lyNOT_PERMITTED
  else if lyCodes.contains cmd then none
  else some lyUNKNOWN

/-- Commands at the front that are not executed are answered, in the order of arrival. -/
def State.lyDrain (s : State) : List LyCmd → State
  | [] => { s with bwl := { s.bwl with cmds := [] } }
  | c :: r =>
    match s.lyRefusal c.cmd with
    | some st => (s.lyAnswer c st []).lyDrain r
    | none => { s with bwl := { s.bwl with cmds := c :: r } }

/-- A copy of the command waits or runs. -/
def State.lyUnder (s : State) (via : Option Nat) (req : Nat) : Bool :=
  (s.bwl.cmds ++ s.bwl.running).any fun c => c.via == via && c.req == req

/-- The response kept for a REQ_ID. -/
def State.lyKept (s : State) (via : Option Nat) (req : Nat) : Option (List Byte) :=
  match via with
  | none => (s.bwl.mbxLast.filter fun e => e.1 == req).map fun e => e.2
  | some id => (s.sessionOf id).bind fun x => x.resp.lookup req

/-- A command plaintext arrives (R489): a repeat receives the stored response, or IN_PROGRESS while the first copy waits or runs;
any other joins the commands. -/
def State.lyArrive (s : State) (via : Option Nat) (plain : List Byte) : State :=
  let w0 := leNat (plain.take 8)
  let req := bits w0 63 32
  match s.lyKept via req with
  | some r => s.lyReply via r
  | none =>
    if s.lyUnder via req then s.lyReply via (lyResponse req lyIN_PROGRESS [])
    else
      let n := bits w0 31 16
      s.lyDrain (s.bwl.cmds ++ [LyCmd.mk via req (bits w0 15 0) n ((plain.drop 8).take n) 0 false])

/-- Lanyard is served: the firmware runs, or ROM in Belay mode. -/
def State.lyServed (s : State) : Bool := s.belay || s.fld Reg.BWL_STATUS Fld.BWL_STATUS_MODE == 1

/-- GO (R493): the command plaintext of the mailbox arrives, unless one is executing. -/
def State.mailboxGo (s : State) : State :=
  if s.flag Reg.BWL_MBX_STATUS Fld.BWL_MBX_STATUS_BUSY ∨ s.lyServed = false then s
  else
    let b := wordsToBytes ((List.range 32).map fun i => s.rd (Reg.BWL_MBX_DATA i))
    (s.setFlds Reg.BWL_MBX_STATUS [(Fld.BWL_MBX_STATUS_BUSY, 1), (Fld.BWL_MBX_STATUS_DONE, 0)]).lyArrive none b

/-- The command at the front of the queue, where its CMD is `cmd`, and the state without it. -/
def State.lyFront (s : State) (cmd : Nat) : Option (LyCmd × State) :=
  match s.bwl.cmds with
  | [] => none
  | c :: r => if c.cmd = cmd ∧ s.lyServed then some (c, { s with bwl := { s.bwl with cmds := r } }) else none

/-- The command at the front is executed, if it is `cmd`: `f` gives its effect, status and data. -/
def State.lyRun (s : State) (cmd : Nat) (f : State → LyCmd → State × Nat × List Byte) : State :=
  match s.lyFront cmd with
  | none => s
  | some (c, t) =>
    let x := f t c
    let u := x.1.lyAnswer c x.2.1 x.2.2
    u.lyDrain u.bwl.cmds

/-- Word W`i` of the arguments (Table BWL-5). -/
def LyCmd.w (c : LyCmd) (i : Nat) : Nat := leNat ((c.args.drop (8 * (i - 1))).take 8)

/-- ARG_LEN is `n`, and that many bytes came. -/
def LyCmd.has (c : LyCmd) (n : Nat) : Bool := c.len == n && c.args.length == n

/-- A command with arguments of `n` bytes; BAD_ARGS otherwise. -/
def lyArgs (n : Nat) (f : State → LyCmd → State × Nat × List Byte) (s : State) (c : LyCmd) : State × Nat × List Byte :=
  if c.has n then f s c else (s, lyBAD_ARGS, [])

end Sys2Proof.Machine
end

