-- ==== Sys2Proof/Machine/Matrix.lean ====
section
/-! DEFINITION. The matrix engine and the canonical dot product (R151 to R178). -/

namespace Sys2Proof.Machine

/-! ### Fields -/

/-- The register named by bits [36:32]. -/
def fR4 (r : Rest) : Nat := bits r.toNat 36 32

structure MmaOps where
  a     : Nat
  b     : Nat
  p     : Nat
  k     : Nat
  fa    : Nat
  fb    : Nat
  kb    : Nat
  l     : Nat
  vlast : Nat
  hx    : Bool

/-- The operand words and fields of an MMA (Tables MME-2 and MME-4). -/
def State.mmaOps (s : State) (c : Nat) (r : Rest) : MmaOps :=
  let w := s.win c
  let x := r.toNat
  { a := (s.sreg w (fSD r)).toNat, b := (s.sreg w (fSA r)).toNat, p := (s.sreg w (fSB r)).toNat,
    k := (s.sreg w (fR4 r)).toNat, fa := bits x 31 28, fb := bits x 27 24, kb := bits x 23 16 + 1, l := bits x 15 8 + 1,
    vlast := bits x 7 3 + 1, hx := bit x 2 }

def MmaOps.m (o : MmaOps) : Nat := bits o.a 48 42 + 1
def MmaOps.n (o : MmaOps) : Nat := bits o.b 48 42 + 1
def MmaOps.saAddr (o : MmaOps) : Nat := bits o.a 41 21
def MmaOps.aAddr (o : MmaOps) : Nat := bits o.a 20 0
def MmaOps.sbAddr (o : MmaOps) : Nat := bits o.b 41 21
def MmaOps.bAddr (o : MmaOps) : Nat := bits o.b 20 0
def MmaOps.pAddr (o : MmaOps) : Nat := bits o.p 20 0
def MmaOps.kBase (o : MmaOps) : Nat := bits o.k 31 0
def MmaOps.mBase (o : MmaOps) : Nat := bits o.k 47 32
def MmaOps.nBase (o : MmaOps) : Nat := bits o.k 63 48
/-- 16-bit formats. -/
def MmaOps.wide (o : MmaOps) : Bool := o.fa == fmtBF16 || o.fa == fmtFP16
/-- The instruction begins a span (R156). -/
def MmaOps.begins (o : MmaOps) : Bool := o.kBase % o.l == 0

/-- Short formats of Table MME-3. -/
def shortFmt (f : Nat) : Bool := decide (4 ≤ f) && decide (f ≤ 9)

/-- Formats and reserved bits of an MMA word (R154, R155). -/
def mmaLegal (r : Rest) : Bool :=
  let fa := bits r.toNat 31 28
  let fb := bits r.toNat 27 24
  bits r.toNat 1 0 == 0 && ((shortFmt fa && shortFmt fb) || ((fa == fmtBF16 || fa == fmtFP16) && fa == fb))

/-- Bytes that the present elements of `rows` rows of `kb` blocks take up (R153, R156). -/
def arrayBytes (f rows kb vlast : Nat) : Nat := rows * kb * fmtBlock f - fmtBlock f + (vlast * fmtBits f + 7) / 8

/-- Ranges that an MMA only reads: A, B and their scales. -/
def MmaOps.reads (o : MmaOps) : List Range :=
  [(o.aAddr, o.m * o.kb * fmtBlock o.fa), (o.bAddr, o.n * o.kb * fmtBlock o.fb)] ++
    if o.wide then [] else [(o.saAddr, o.m * o.kb), (o.sbAddr, o.n * o.kb)]

def MmaOps.pRange (o : MmaOps) : Range := (o.pAddr, o.m * o.n * 4)

def matrixFault (detail : Nat) : Option IssueFault := some ⟨fcEngine, srcMatrix, detail, 0⟩

/-- The checks of R159, in their order. -/
def MmaOps.check (o : MmaOps) : Option IssueFault :=
  if o.a / 2 ^ 49 ≠ 0 ∨ o.b / 2 ^ 49 ≠ 0 ∨ o.p / 2 ^ 21 ≠ 0 ∨ (o.wide ∧ (o.saAddr ≠ 0 ∨ o.sbAddr ≠ 0)) then matrixFault 1
  else if o.aAddr % 64 ≠ 0 ∨ o.bAddr % 64 ≠ 0 ∨ o.pAddr % 64 ≠ 0 ∨ o.saAddr % 8 ≠ 0 ∨ o.sbAddr % 8 ≠ 0 then matrixFault 2
  else if o.kBase % o.l + o.kb > o.l then matrixFault 3
  else if o.kBase + o.kb - 1 ≥ 0xFFFFFFFE then matrixFault 4
  else match boundsFault (o.reads ++ [o.pRange]) with
    | some f => some f
    | none => if o.reads.any o.pRange.meets then matrixFault 5 else none

/-! ### The canonical procedure (R161 to R166) -/

/-- A value with the flags raised on its way, the flags of its last rounding alone, and the least kind of invalid event (0
none). -/
structure Canon where
  code  : Nat
  flags : Nat
  last  : Nat
  kind  : Nat

def nan32 : Nat := 0x7FC00000

/-- block_short (R162), on the values of the present elements and the two scale codes. -/
def blockShort (a b : List Num) (xa xb : Nat) : Canon :=
  let scaleNan := xa == 0xFF || xb == 0xFF
  let ab := a.zip b
  let snan := a.any Num.isSnan || b.any Num.isSnan
  let nanblock := scaleNan || a.any Num.isNan || b.any Num.isNan
  let prods := ab.map fun p => numMul p.1 p.2
  let bad := !scaleNan && prods.any fun p => p.2 != 0
  let pos := !scaleNan && prods.any fun p => p.1 == .inf false
  let neg := !scaleNan && prods.any fun p => p.1 == .inf true
  let opposite := !nanblock && pos && neg
  let fl := if snan || bad || opposite then flNV else 0
  let kind := if snan then 1 else if bad then 2 else if opposite then 3 else 0
  if nanblock then ⟨nan32, fl, 0, kind⟩
  else if bad || opposite then ⟨nan32, fl, 0, kind⟩
  else if pos then ⟨0x7F800000, fl, 0, kind⟩
  else if neg then ⟨0xFF800000, fl, 0, kind⟩
  else
    let t := prods.foldl (fun acc p => (numAdd acc p.1).1) (.zero true)
    let c := rne32 (t.scale ((xa : Int) + xb - 254))
    ⟨c.1, c.2 ||| fl, c.2, kind⟩

/-- prod16 (R163): an FP32 code and its flags. -/
def prod16 (a b : Num) : Nat × Nat :=
  let p := numMul a b
  let c := rne32 p.1
  (c.1, c.2 ||| p.2)

/-- One level of the pairwise tree of R163: values, all flags, the flags of the last addition, and whether an addition was
invalid. -/
def treeLevel : List Nat → List Nat × Nat × Nat × Bool
  | x :: y :: r =>
    let s := add32 x y
    let t := treeLevel r
    (s.1 :: t.1, s.2 ||| t.2.1, s.2, s.2 &&& flNV != 0 || t.2.2.2)
  | l => (l, 0, 0, false)

/-- The levels of the tree down to one value. -/
def treeAll : Nat → List Nat × Nat × Nat × Bool → List Nat × Nat × Nat × Bool
  | 0, t => t
  | k + 1, t =>
    let u := treeLevel t.1
    treeAll k (u.1, t.2.1 ||| u.2.1, u.2.2.1, t.2.2.2 || u.2.2.2)

/-- block16 (R163), on the values of the present elements; absent positions enter as −0. -/
def block16 (a b : List Num) : Canon :=
  let snan := a.any Num.isSnan || b.any Num.isSnan
  let q := (a.zip b).map fun p => prod16 p.1 p.2
  let q' := q.map (·.1) ++ List.replicate (32 - q.length) 0x80000000
  let fl := q.foldl (fun f p => f ||| p.2) 0
  let t := treeAll 5 (q', fl, 0, false)
  let zi := fl &&& flNV != 0
  let kind := if snan then 1 else if zi then 2 else if t.2.2.2 then 3 else 0
  ⟨t.1.headD nan32, t.2.1 ||| (if snan then flNV else 0), t.2.2.1, kind⟩

/-- The least of two event coordinates (k, m, n, kind), compared in that order (R173). -/
def excLess (a b : Nat × Nat × Nat × Nat) : Bool :=
  decide (a.1 < b.1) || (a.1 == b.1 && (decide (a.2.1 < b.2.1) || (a.2.1 == b.2.1 &&
    (decide (a.2.2.1 < b.2.2.1) || (a.2.2.1 == b.2.2.1 && decide (a.2.2.2 < b.2.2.2))))))

def excMin (a b : Option (Nat × Nat × Nat × Nat)) : Option (Nat × Nat × Nat × Nat) :=
  match a, b with
  | none, b => b
  | a, none => a
  | some x, some y => if excLess y x then some y else some x

/-- An output element: its code, the flags on its way, the flags of the rounding that gave it, and its least event by
(k, kind). -/
structure Elem where
  code  : Nat
  flags : Nat
  last  : Nat
  event : Option (Nat × Nat)

/-- The least of two events of one element. -/
def evMin (a b : Option (Nat × Nat)) : Option (Nat × Nat) :=
  match a, b with
  | none, b => b
  | a, none => a
  | some x, some y => if y.1 < x.1 ∨ (y.1 = x.1 ∧ y.2 < x.2) then some y else some x

/-- The event of a block value at global index `k`. -/
def Canon.event (x : Canon) (k : Nat) : Option (Nat × Nat) := if x.kind = 0 then none else some (k, x.kind)

/-- One more block of a span (R164): the first block of a span enters without an addition. -/
def spanAdd (r : Option Elem) (k : Nat) (x : Canon) : Option Elem :=
  match r with
  | none => some ⟨x.code, x.flags, x.last, x.event k⟩
  | some e =>
    let t := add32 e.code x.code
    let ev := evMin (x.event k) (if t.2 &&& flNV ≠ 0 then some (k, 4) else none)
    some ⟨t.1, (e.flags ||| x.flags) ||| t.2, t.2, evMin e.event ev⟩

/-- The present elements of block `j` of a row that begins at `addr`. -/
def State.blockVals (s : State) (c f addr j v : Nat) : List Num :=
  let b := s.tsBytes c (addr + j * fmtBlock f) (fmtBlock f)
  (List.range v).map fun i => decodeNum f (blockElem (fmtBits f) b i)

/-- The value of block `j` of the instruction for output element (m, n). -/
def State.blockVal (s : State) (c : Nat) (o : MmaOps) (m n j : Nat) : Canon :=
  let v := if j + 1 = o.kb then o.vlast else 32
  let a := s.blockVals c o.fa (o.aAddr + m * o.kb * fmtBlock o.fa) j v
  let b := s.blockVals c o.fb (o.bAddr + n * o.kb * fmtBlock o.fb) j v
  if o.wide then block16 a b
  else blockShort a b (s.tsNat c (o.saAddr + m * o.kb + j) 1) (s.tsNat c (o.sbAddr + n * o.kb + j) 1)

/-- Output element (m, n) of an MMA (R156, R164). -/
def State.mmaElem (s : State) (c : Nat) (o : MmaOps) (m n : Nat) : Elem :=
  let start : Option Elem :=
    if o.begins then none else some ⟨s.tsNat c (o.pAddr + (m * o.n + n) * 4) 4, 0, 0, none⟩
  ((List.range o.kb).foldl (fun r j => spanAdd r (o.kBase + j) (s.blockVal c o m n j)) start).getD ⟨0, 0, 0, none⟩

/-- Every element of an M × N tile, row by row. -/
def tileElems (m n : Nat) (f : Nat → Nat → Elem) : List (Nat × Nat × Elem) :=
  (List.range m).flatMap fun i => (List.range n).map fun j => (i, j, f i j)

/-- The elements of a tile as bytes of width `w`. -/
def tileBytes (w : Nat) (l : List (Nat × Nat × Elem)) : List Byte := l.flatMap fun e => natLE w e.2.2.code

/-- Flags, exception record, histogram and counters after an instruction that wrote elements of format `f` (R171 to
R174). -/
def State.matrixRecord (s : State) (c : Nat) (k : Nat) (f : Nat) (hx : Bool) (l : List (Nat × Nat × Elem)) : State :=
  let w := s.win c
  let fl := l.foldl (fun a e => a ||| e.2.2.flags) 0
  let new := l.foldl (fun a e => excMin a (e.2.2.event.map fun v =>
    (v.1, (bits k 47 32 + e.1) % 65536, (bits k 63 48 + e.2.1) % 65536, v.2))) none
  let cur := if s.flag (Reg.ME_EXC_INFO w) Fld.ME_EXC_INFO_VALID then
      some (s.fld (Reg.ME_EXC w) Fld.ME_EXC_KBLOCK, s.fld (Reg.ME_EXC w) Fld.ME_EXC_M, s.fld (Reg.ME_EXC w) Fld.ME_EXC_N,
        s.fld (Reg.ME_EXC_INFO w) Fld.ME_EXC_INFO_KIND)
    else none
  let s := s.raise (Reg.ME_FLAGS w) fl
  let s := match excMin cur new with
    | none => s
    | some e =>
      (s.wr (Reg.ME_EXC w) (packF [(Fld.ME_EXC_KBLOCK, e.1), (Fld.ME_EXC_M, e.2.1), (Fld.ME_EXC_N, e.2.2.1)])).wr
        (Reg.ME_EXC_INFO w) (packF [(Fld.ME_EXC_INFO_VALID, 1), (Fld.ME_EXC_INFO_KIND, e.2.2.2)])
  let s := if hx then s else s.histAll (Reg.ME_HIST w 0) (l.map fun e => (histWord f (decodeNum f e.2.2.code), e.2.2.last))
  let s := if fl &&& flNV ≠ 0 then s.bump32 (Reg.ME_CNT_NV w) 1 else s
  s.bump64 (Reg.ME_CNT_INSN w) 1

/-- Ranges whose poison an MMA meets: what it reads (R156, R160). -/
def MmaOps.poisonRanges (o : MmaOps) : List Range :=
  [(o.aAddr, arrayBytes o.fa o.m o.kb o.vlast), (o.bAddr, arrayBytes o.fb o.n o.kb o.vlast)] ++
    (if o.wide then [] else [(o.saAddr, o.m * o.kb), (o.sbAddr, o.n * o.kb)]) ++ (if o.begins then [] else [o.pRange])

/-- MMA (R156): accumulates the instruction's blocks of one span into the P tile. -/
def execMma (core : Nat) (rest : Rest) (s : State) : Host.Outcome State Fault Refusal :=
  .next (s.engine core (insnWord 0x10 0x00 rest) (mmaLegal rest) (fun s => (s.mmaOps core rest).check)
    (fun s => (s.mmaOps core rest).pRange :: (s.mmaOps core rest).reads) fun s =>
      let o := s.mmaOps core rest
      match s.tsPoison core o.poisonRanges with
      | some a => s.enginePoison core srcMatrix a (insnWord 0x10 0x00 rest)
      | none =>
        let l := tileElems o.m o.n (s.mmaElem core o)
        ((s.tsWrite core o.pAddr (tileBytes 4 l)).matrixRecord core o.k fmtFP32 o.hx l).advance core)

/-! ### MCOMB -/

structure McombOps where
  x     : Nat
  cw    : Nat
  d     : Nat
  k     : Nat
  fc    : Nat
  fd    : Nat
  cc    : Nat
  cnone : Bool
  hx    : Bool

/-- The operand words and fields of an MCOMB (Tables MME-2 and MME-5). -/
def State.mcombOps (s : State) (c : Nat) (r : Rest) : McombOps :=
  let w := s.win c
  let x := r.toNat
  { x := (s.sreg w (fSD r)).toNat, cw := if bit x 20 then 0 else (s.sreg w (fSA r)).toNat, d := (s.sreg w (fSB r)).toNat,
    k := (s.sreg w (fR4 r)).toNat, fc := bits x 31 28, fd := bits x 27 24, cc := bits x 23 21, cnone := bit x 20,
    hx := bit x 19 }

def McombOps.m (o : McombOps) : Nat := 1 + bits o.x 39 33
def McombOps.n (o : McombOps) : Nat := 1 + bits o.x 46 40
def McombOps.g (o : McombOps) : Nat := 1 + bits o.x 32 21
def McombOps.xAddr (o : McombOps) : Nat := bits o.x 20 0
def McombOps.cAddr (o : McombOps) : Nat := bits o.cw 20 0
def McombOps.dAddr (o : McombOps) : Nat := bits o.d 20 0
/-- T of R153. -/
def McombOps.tile (o : McombOps) : Nat := 64 * ((63 + 4 * (o.m * o.n)) / 64)

def fmt123 (f : Nat) : Bool := decide (1 ≤ f) && decide (f ≤ 3)

/-- Formats, CC and reserved bits of an MCOMB word (R154, R155). -/
def mcombLegal (r : Rest) : Bool :=
  let x := r.toNat
  let cnone := bit x 20
  bits x 18 0 == 0 && fmt123 (bits x 27 24) && bits x 22 21 != 2 &&
    (if cnone then bits x 31 28 == 0 && fSA r == 0 else fmt123 (bits x 31 28))

def McombOps.cRange (o : McombOps) : List Range := if o.cnone then [] else [(o.cAddr, o.m * o.n * (fmtBits o.fc / 8))]
def McombOps.reads (o : McombOps) : List Range := (o.xAddr, o.g * o.tile) :: o.cRange
def McombOps.dRange (o : McombOps) : Range := (o.dAddr, o.m * o.n * (fmtBits o.fd / 8))

/-- The checks of R159, in their order. -/
def McombOps.check (o : McombOps) : Option IssueFault :=
  if o.x / 2 ^ 47 ≠ 0 ∨ o.cw / 2 ^ 21 ≠ 0 ∨ o.d / 2 ^ 21 ≠ 0 then matrixFault 1
  else if o.xAddr % 64 ≠ 0 ∨ o.cAddr % 64 ≠ 0 ∨ o.dAddr % 64 ≠ 0 then matrixFault 2
  else match boundsFault (o.reads ++ [o.dRange]) with
    | some f => some f
    | none => if o.reads.any o.dRange.meets then matrixFault 5 else none

/-- The span tree (R165) on a list: value, all flags, the flags of the last addition. -/
def spanTree : Nat → List Nat → Nat × Nat × Nat
  | 0, l => (l.headD 0, 0, 0)
  | k + 1, l =>
    if l.length ≤ 1 then (l.headD 0, 0, 0)
    else
      let h := 2 ^ Nat.log2 (l.length - 1)
      let a := spanTree k (l.take h)
      let b := spanTree k (l.drop h)
      let t := add32 a.1 b.1
      (t.1, (a.2.1 ||| b.2.1) ||| t.2, t.2)

/-- Coordinates k of the events of an MCOMB (Table MME-9). -/
def kSpan : Nat := 0xFFFFFFFE
def kC : Nat := 0xFFFFFFFF

/-- Output element (m, n) of an MCOMB (R157, R166). -/
def State.mcombElem (s : State) (c : Nat) (o : McombOps) (m n : Nat) : Elem :=
  let i := m * o.n + n
  let t := spanTree 13 ((List.range o.g).map fun g => s.tsNat c (o.xAddr + g * o.tile + i * 4) 4)
  let ev := if t.2.1 &&& flNV ≠ 0 then some (kSpan, 5) else none
  let e : Elem :=
    if o.cnone then ⟨t.1, t.2.1, t.2.2, ev⟩
    else
      let cb := fmtBits o.fc / 8
      let cn := decodeNum o.fc (s.tsNat c (o.cAddr + i * cb) cb)
      let c32 := rne32 cn
      let a := add32 c32.1 t.1
      let ev6 := if c32.2 &&& flNV ≠ 0 then some (kC, 6) else none
      let ev7 := if a.2 &&& flNV ≠ 0 then some (kC, 7) else none
      ⟨a.1, (t.2.1 ||| c32.2) ||| a.2, a.2, evMin ev (evMin ev6 ev7)⟩
  if o.fd = fmtFP32 then e
  else
    let d := convertNum o.fd (s.ccMode o.cc) (bit o.cc 2) 0 (decodeNum fmtFP32 e.code)
    ⟨d.1, e.flags ||| d.2, d.2, e.event⟩

/-- The combination `o` carried out: a poisoned source stops it, else its tile is written and recorded. -/
def State.mcombRun (s : State) (core : Nat) (rest : Rest) (o : McombOps) : State :=
  match s.tsPoison core o.reads with
  | some a => s.enginePoison core srcMatrix a (insnWord 0x10 0x01 rest)
  | none =>
    let l := tileElems o.m o.n (s.mcombElem core o)
    ((s.tsWrite core o.dAddr (tileBytes (fmtBits o.fd / 8) l)).matrixRecord core o.k o.fd o.hx l).advance core

/-- MCOMB (R157, R166): combines span-sum tiles by the span tree, adds C, converts and stores D. -/
def execMcomb (core : Nat) (rest : Rest) (s : State) : Host.Outcome State Fault Refusal :=
  .next (s.engine core (insnWord 0x10 0x01 rest) (mcombLegal rest) (fun s => (s.mcombOps core rest).check)
    (fun s => (s.mcombOps core rest).dRange :: (s.mcombOps core rest).reads) fun s => s.mcombRun core rest (s.mcombOps core rest))

/-! ### MREC and ME_CTRL -/

/-- Reserved bits of an MREC-like word (Table MME-6): RR must be 0 when NOSTORE is 1. -/
def recLegal (r : Rest) : Bool :=
  bits r.toNat 46 32 == 0 && bits r.toNat 29 0 == 0 && (!bit r.toNat 30 || fSD r == 0)

/-- The checks on the R word. -/
def recCheck (source : Nat) (store : Bool) (v : Nat) : Option IssueFault :=
  if store = false then none
  else if v / 2 ^ 21 ≠ 0 then some ⟨fcEngine, source, 1, 0⟩
  else if v % 64 ≠ 0 then some ⟨fcEngine, source, 2, 0⟩
  else boundsFault [(v, 384)]

/-- The flags, the exception record and the histogram of the matrix engine are cleared. -/
def State.meClearFlags (s : State) (w : Nat) : State := s.wr (Reg.ME_FLAGS w) 0
def State.meClearExc (s : State) (w : Nat) : State := (s.wr (Reg.ME_EXC w) 0).wr (Reg.ME_EXC_INFO w) 0
def State.meClearHist (s : State) (w : Nat) : State := s.histClear (Reg.ME_HIST w 0)

/-- MREC (R175): stores the record at R_ADDR unless NOSTORE, then clears it with CLEAR. -/
def execMrec (core : Nat) (rest : Rest) (s : State) : Host.Outcome State Fault Refusal :=
  .next (
    let store := !bit rest.toNat 30
    let addr (s : State) : Nat := (s.sreg (s.win core) (fSD rest)).toNat
    s.engine core (insnWord 0x10 0x02 rest) (recLegal rest) (fun s => recCheck srcMatrix store (addr s))
      (fun s => if store then [(addr s, 384)] else []) fun s =>
        let w := s.win core
        let s := if store then
            s.tsWrite core (addr s) (s.recordBytes (Reg.ME_FLAGS w) (Reg.ME_EXC w) (Reg.ME_EXC_INFO w) (Reg.ME_HIST w 0))
          else s
        let s := if bit rest.toNat 31 then ((s.meClearFlags w).meClearExc w).meClearHist w else s
        (s.bump64 (Reg.ME_CNT_INSN w) 1).advance core)

/-- ME_CLEAR_FLAGS (R171): a write of ME_CTRL.CLEAR_FLAGS. -/
def execMeClearFlags (agent : Agent) (die phys : Nat) (s : State) : Host.Outcome State Fault Refusal :=
  .next (s.engineCtrl agent die phys State.meClearFlags)

/-- ME_CLEAR_EXC (R173): a write of ME_CTRL.CLEAR_EXC. -/
def execMeClearExc (agent : Agent) (die phys : Nat) (s : State) : Host.Outcome State Fault Refusal :=
  .next (s.engineCtrl agent die phys State.meClearExc)

/-- ME_CLEAR_HIST (R174): a write of ME_CTRL.CLEAR_HIST. -/
def execMeClearHist (agent : Agent) (die phys : Nat) (s : State) : Host.Outcome State Fault Refusal :=
  .next (s.engineCtrl agent die phys State.meClearHist)

end Sys2Proof.Machine
end

