-- ==== Sys2Proof/Machine/Pcie.lean ====
section
/-! DEFINITION. The PCIe root port (R593, R554): accesses of harts to its configuration and memory windows, and the reads and
writes of devices. -/

namespace Sys2Proof.Machine

/-! ### Requests to the link -/

def State.pciePut (s : State) (x : PcieOut) : State := { s with pcieOut := s.pcieOut ++ [x] }

/-- Bus, and offset within the root port's function, of an offset of the configuration window. -/
def cfgBus (o : Nat) : Nat := bits o 27 20
def cfgRoot (o : Nat) : Bool := decide (o < 0x1000)

/-- A configuration request for the bus goes down the link: the bus lies in 1 to the subordinate bus number. -/
def State.cfgDown (s : State) (o : Nat) : Bool := decide (1 ≤ cfgBus o) && decide (cfgBus o ≤ s.pcieSub)

/-- An 8-byte write to a PCIe window (R593). Of the root port's own registers the spec gives the subordinate bus number alone,
bits [23:16] of the dword at 0x18; a value above 63 stores 63. -/
def State.pcieWrite (s : State) (a : Nat) (v : Word) : State :=
  if s.writable a = false then s
  else if pcieMemBase ≤ a then s.pciePut ⟨.write, 0x80000000 + (a - pcieMemBase), natLE 8 v.toNat⟩
  else
    let o := a - pcieCfgBase
    if cfgRoot o then if o = 0x18 then { s with pcieSub := min 63 (bits v.toNat 23 16) } else s
    else if s.cfgDown o then s.pciePut ⟨.cfgWrite, o, natLE 8 v.toNat⟩
    else s

/-- An 8-byte read of a PCIe window (R593): what it returns, none where the completion is poisoned, when the far end completes
as `cpl` with `data`. Unsupported Request and Completer Abort give all ones, and so does a configuration read that no port
takes. The subordinate bus number of the root port is read from the state. -/
def State.pcieRead (s : State) (a : Nat) (cpl : PcieCpl) (data : Word) : State × Option Word :=
  let answer : Option Word := match cpl with
    | .ok => some data
    | .refused => some (BitVec.ofNat 64 (2 ^ 64 - 1))
    | .poisoned => none
  if s.readable a = false then (s, some 0)
  else if pcieMemBase ≤ a then (s.pciePut ⟨.read, 0x80000000 + (a - pcieMemBase), []⟩, answer)
  else
    let o := a - pcieCfgBase
    if cfgRoot o then (s, some (if o = 0x18 then setF data ⟨23, 16⟩ s.pcieSub else data))
    else if s.cfgDown o then (s.pciePut ⟨.cfgRead, o, []⟩, answer)
    else (s, some (BitVec.ofNat 64 (2 ^ 64 - 1)))

/-! ### Accesses of harts -/

/-- A load or store of 8 bytes in a PCIe window by a hart that can run; every other kind of access raises an access fault with
reason SIZE (R251). A poisoned completion is a consumption on the P-die, at the line of the window (R554, R555; DEDUCED, log entry 48). -/
def State.pcieAccess (s : State) (h : Nat) (va : Word) (a : Nat) (access : HartAccess) (cpl : PcieCpl) (data : Word) : State :=
  let size := s.accessFault h (accStore access) va hxSize
  if a % 8 ≠ 0 then size
  else match access with
    | .load 8 _ rd =>
      let r := s.pcieRead a cpl data
      match r.2 with
      | some v => (r.1.setXreg h rd v).retire h
      | none => (r.1.poisonUsed 4 (a / 64 * 64)).accessFault h false va hxPoison
    | .store 8 v => (s.pcieWrite a v).retire h
    | _ => size

/-- PCIE_CONFIG_ACCESS (R593): an access of hart `hart` at offset `off` of the configuration window. -/
def execPcieConfigAccess (hart : Nat) (va : Word) (off : Nat) (access : HartAccess) (cpl : PcieCpl) (data : Word) (s : State) :
    Host.Outcome State Fault Refusal :=
  .next (if s.hartReady hart ∧ off < 2 ^ 26 then s.pcieAccess hart va (pcieCfgBase + off) access cpl data else s)

/-- PCIE_MEMORY_ACCESS (R593): an access of hart `hart` at offset `off` of the memory window. -/
def execPcieMemoryAccess (hart : Nat) (va : Word) (off : Nat) (access : HartAccess) (cpl : PcieCpl) (data : Word) (s : State) :
    Host.Outcome State Fault Refusal :=
  .next (if s.hartReady hart ∧ off < 2 ^ 27 then s.pcieAccess hart va (pcieMemBase + off) access cpl data else s)

/-! ### Accesses of devices -/

/-- The root port works and its domain is powered. -/
def State.pcieUp (s : State) : Bool := s.working capPcie && s.powered 135

/-- PCIE_DMA_READ (R554): a device reads `n` bytes of the memory tiers; a poisoned line among them gives a completion with EP
set. -/
def execPcieDmaRead (addr n : Nat) (s : State) : Host.Outcome State Fault Refusal :=
  .next (
    if s.pcieUp = false then s
    else if s.inTier addr = false then s.pciePut ⟨.absent, addr, []⟩
    else
      let r := s.read addr n
      match r.stat with
      | .ok => r.st.pciePut ⟨.done false, addr, r.data⟩
      | .poison => (r.st.poisonUsed 4 r.line).pciePut ⟨.done true, addr, List.replicate n 0#8⟩
      | .absent => r.st.pciePut ⟨.absent, addr, []⟩)

/-- PCIE_DMA_WRITE (R554): a device writes bytes of the memory tiers; with EP set every line that it touches becomes
poisoned. -/
def execPcieDmaWrite (addr : Nat) (data : List Byte) (ep : Bool) (s : State) : Host.Outcome State Fault Refusal :=
  .next (
    if s.pcieUp = false ∨ s.inTier addr = false then s
    else
      let r := s.write addr data
      if ep = false ∨ r.2 = .absent then r.1
      else (linesOf addr data.length).foldl (fun s l => s.setPoison l true) r.1)

end Sys2Proof.Machine
end

