-- ==== Sys2Proof/Machine/Reset.lean ====
section
/-! DEFINITION. Reset and bring-up (R447 to R472), the choice of configuration and firmware (R433 to R445, R477 to R482), the
watchdog, fatal errors (R557) and power domains (R22). -/

namespace Sys2Proof.Machine

/-! ### Power and pins -/

/-- SBPOR (R447). -/
def execSbpor (s : State) : Host.Outcome State Fault Refusal := .next (s.powerOn true)

/-- VSB33_LOW (R580): every domain, the standby domain included, is reset until VSB33 returns. -/
def execVsb33Low (s : State) : Host.Outcome State Fault Refusal := .next (s.powerOn false)

/-- PWROK (R452): PWR_OK has been low for 400 BCLK cycles; `also`: other sources in the same cycle (R457). -/
def execPwrok (also : List Nat) (s : State) : Host.Outcome State Fault Refusal :=
  .next (if s.rst.vsb && s.rst.pwrOk then s.takeAll srcPWROK also else s)

/-- PWR_OK_RISE (R449, R450): ignored until SBPOR has ended. -/
def execPwrOkRise (s : State) : Host.Outcome State Fault Refusal :=
  .next (if s.rst.vsb then { s with rst := { s.rst with pwrOk := true } } else s)

/-- VIN48_OUT_OF_RANGE (R580): while PWR_OK is high, a PWROK reset, and PWR_OK is treated as low. -/
def execVin48OutOfRange (s : State) : Host.Outcome State Fault Refusal :=
  .next (
    if s.rst.vsb && s.rst.pwrOk && !s.rst.vinFault then
      { s with rst := { s.rst with vinFault := true } }.takeReset [srcPWROK]
    else s)

/-- VIN48_RECOVERED (R580). -/
def execVin48Recovered (s : State) : Host.Outcome State Fault Refusal := .next { s with rst := { s.rst with vinFault := false } }

/-- PIN (R452): RESET_N has been low for 400 BCLK cycles. While 3.3 V is out of range the pin is low and nothing is reset (R450). -/
def execPin (also : List Nat) (s : State) : Host.Outcome State Fault Refusal :=
  .next (
    if s.rst.vsb = false then s.pinsFall [srcPIN]
    else if s.rst.resetN then s.takeAll srcPIN also
    else s)

/-- RESET_N_RELEASE (R12, R451, R585): the straps are sampled; a TAP instruction that drives pins gives way to Test-Logic-Reset. -/
def execResetNRelease (bootSrc clkMode sbAddr : Nat) (s : State) : Host.Outcome State Fault Refusal :=
  .next (
    if s.rst.vsb && !s.rst.resetN then
      let s := if s.rst.tapIr = tapEXTEST ∨ s.rst.tapIr = tapHIGHZ ∨ s.rst.tapIr = tapCLAMP then s.tap tapIDCODE (some (tapId s.fuse.part)) else s
      let s := s.wr Reg.RST_STRAP (packF [(Fld.RST_STRAP_BOOT_SRC, bootSrc), (Fld.RST_STRAP_CLK_MODE, clkMode),
        (Fld.RST_STRAP_SB_ADDR, sbAddr), (Fld.RST_STRAP_SMB_ADDR, 0x58 + sbAddr % 8)])
      let s := s.setFld Reg.HLY_STATUS Fld.HLY_STATUS_CLK_SRC clkMode
      { s with rst := { s.rst with resetN := true } }
    else s)

/-- 95 °C in 1/16 °C (R456). -/
def degRestart : Int := 1520

/-- The supplies and RESET_N let the sequence begin (R450). -/
def State.mayBegin (s : State) : Bool := s.rst.vsb && s.rst.pwrOk && s.rst.resetN && !s.rst.vinFault

/-- THERM_RESTART (R456): every die sensor has read below 95 °C for 1 s and the sequence begins, at which THERMTRIP_N is released. -/
def execThermRestart (s : State) : Host.Outcome State Fault Refusal :=
  .next (
    if s.mayBegin && s.pwr.junction.all fun l => l.all fun t => decide (t < degRestart) then
      { s with rst := { s.rst with thermHold := false } }
    else s)

/-- PE_PERST_DEASSERT (R582). -/
def execPePerstDeassert (s : State) : Host.Outcome State Fault Refusal :=
  .next { s with rst := { s.rst with perst := s.rst.perst || s.powered 135 } }

/-! ### Release sequence -/

/-- The sequence may run (R450, R456). -/
def State.mayRun (s : State) : Bool := s.mayBegin && !s.rst.thermHold

/-- The next step of the order. -/
def State.nextStep (s : State) : Option Nat := s.releaseOrder.find? fun k => !s.rst.released.contains k

/-- Every step released is ready, and none has overrun its limit (R461, R462). -/
def State.stepsReady (s : State) : Bool :=
  (s.rst.released.all fun k => s.rst.ready.contains k) && s.fld Reg.RST_STATUS Fld.RST_STATUS_FAIL_STEP == 0

/-- RELEASE_REQUEST (R461): Bowline asks for a step; any but the next one is refused and logged. -/
def execReleaseRequest (step : Nat) (s : State) : Host.Outcome State Fault Refusal :=
  .next (
    if s.fld Reg.BWL_STATUS Fld.BWL_STATUS_MODE = 0 then s
    else if s.nextStep = some step then { s with rst := { s.rst with asked := some step } }
    else s.logCode 5 step)

/-- What the release of step `k` does at once. -/
def State.releaseEffect (s : State) (k : Nat) : State :=
  let s := s.powerUp (s.stepDomains k)
  if k = 1 then
    let s := s.setFlds Reg.RST_STATUS [(Fld.RST_STATUS_FAIL_STEP, 0), (Fld.RST_STATUS_FABRIC_ORDER, if s.bootSrc = 2 then 1 else 0)]
    s.wr Reg.ID_CAPS_EFFECTIVE (BitVec.ofNat 64 (2 ^ capBowline))
  else if k = 3 then
    let s := if s.fld Reg.RST_STRAP Fld.RST_STRAP_CLK_MODE = 3 then s.logCode 2 0 else s
    if s.belay then s else { s with hly := { s.hly with running := true } }.loadHalyard
  else if k = 4 then ((List.range 4).foldl (fun s d => s.capSet (capTdie d)) s).loadMemory
  else if k = 5 then s.scrubAll
  else if k = 6 then
    let s := s.capSet (capFdie 0)
    let s := if s.belay then s else s.capSet (capFdie 1)
    let s := s.loadFdies
    if s.working (capFdie 0) then s else s.service Fld.RAS_SERVICE_REQUEST_FABRIC
  else if k = 7 then s.hostReady
  else s

/-- RELEASE_STEP (R459 to R461): the gap of the next step has elapsed; steps 3 to 7 wait for their request. -/
def execReleaseStep (s : State) : Host.Outcome State Fault Refusal :=
  .next (
    match s.nextStep with
    | none => s
    | some k =>
      if s.mayRun && (s.stepsReady || s.rst.released.isEmpty) && (decide (k < 3) || s.rst.asked == some k) &&
          !(k == 4 && s.bwl.fabric) then
        let s := s.setFld Reg.RST_STATUS Fld.RST_STATUS_STEP k
        let s := { s with rst := { s.rst with
          running := true, asked := none, released := s.rst.released ++ [k]
          ready := if k = 7 then s.rst.ready ++ [k] else s.rst.ready } }
        s.releaseEffect k
      else s)

/-- STEP_READY (R461, Table RST-5): a step that is released meets its condition, with what Bowline found meanwhile. -/
def execStepReady (step : Nat) (found : Found) (s : State) : Host.Outcome State Fault Refusal :=
  .next (
    if s.rst.released.contains step && !s.rst.ready.contains step && s.fld Reg.RST_STATUS Fld.RST_STATUS_FAIL_STEP == 0 then
      let s := { s with rst := { s.rst with ready := s.rst.ready ++ [step] } }
      if step = 2 then s.fuseSense
      else if step = 4 then s.memoryReady found
      else if step = 5 then s.strandsReady found
      else if step = 6 then s.opticsReady found
      else s
    else s)

/-- STEP_TIMEOUT (R462, R497): the step last released overruns its limit; the sequence holds, and a fatal record is written. -/
def execStepTimeout (nvmOk : Bool) (s : State) : Host.Outcome State Fault Refusal :=
  .next (
    match s.rst.released.getLast? with
    | none => s
    | some k =>
      if s.stepsReady = false ∧ s.fld Reg.RST_STATUS Fld.RST_STATUS_FAIL_STEP = 0 then
        let s := s.setFld Reg.RST_STATUS Fld.RST_STATUS_FAIL_STEP k
        (s.event Reg.RST_EVENT Fld.RST_EVENT_STEP_TIMEOUT Reg.RST_CNT_STEP_TIMEOUT).fatalWrite nvmOk 0
      else s)

/-! ### Configuration -/

/-- Belay mode (R466): its cause, and RESULT of the configuration. -/
def State.enterBelay (s : State) (cause result : Nat) : State :=
  let s := s.setFlds Reg.RST_STATUS [(Fld.RST_STATUS_BELAY, 1), (Fld.RST_STATUS_BELAY_CAUSE, cause)]
  let s := s.setFld Reg.BWL_STATUS Fld.BWL_STATUS_MODE 2
  let s := s.setFld Reg.CFG_STATUS Fld.CFG_STATUS_RESULT result
  { s with bwl := { s.bwl with chosen := true, fabric := false } }

/-- Key digests of the peers that the image in use lists; else of the usable configuration key slots (R486). -/
def State.authorised (s : State) : List (List Byte) :=
  let l := (s.bwl.image.getD []).lookup rtSECURITY
  let n := bits (s.cfgW rtSECURITY 0) 19 16
  match l with
  | some w =>
    if n = 0 then (List.range 4).filterMap fun k =>
        let h := s.fuse.cfgKeys.getD k []
        if h = [] ∨ bit s.fuse.cfgRevoke k then none else some h
    else (List.range n).map fun i => wordsToBytes ((w.drop (1 + 6 * i)).take 6)
  | none => (List.range 4).filterMap fun k =>
      let h := s.fuse.cfgKeys.getD k []
      if h = [] ∨ bit s.fuse.cfgRevoke k then none else some h

/-- An image is in use (CFG_STATUS, R437): `m` passed its checks as `c` says. -/
def State.useImage (s : State) (m : List Byte) (c : ImgCheck) (source result : Nat) (fallback : Bool) : State :=
  let s := s.setFlds Reg.CFG_STATUS [(Fld.CFG_STATUS_SEQ, imgSeq m), (Fld.CFG_STATUS_SKIPPED, min 255 c.skipped),
    (Fld.CFG_STATUS_FMT_MINOR, imgNum m 5 1), (Fld.CFG_STATUS_FALLBACK, if fallback then 1 else 0),
    (Fld.CFG_STATUS_SIGNED, if imgSigned m then 1 else 0), (Fld.CFG_STATUS_SOURCE, source), (Fld.CFG_STATUS_RESULT, result)]
  let s := (List.range c.skipped).foldl (fun s _ =>
    s.event Reg.CFG_EVENT Fld.CFG_EVENT_RECORD_SKIPPED Reg.CFG_CNT_SKIPPED) s
  let s := { s with bwl := { s.bwl with chosen := true, fabric := false, image := some c.recs } }
  let s := s.loadStandby
  { s with rst := { s.rst with freset := s.authorised } }

/-- CFG_COPYA or CFG_COPYB reports a copy (R432, R436). -/
def State.showCopy (s : State) (a : Nat) (m : List Byte) (c : ImgCheck) : State :=
  let s := s.wr a (packF [(Fld.CFG_COPYA_SEQ, if imgMagic m then imgSeq m else 0), (Fld.CFG_COPYA_REC_OFFSET, c.off),
    (Fld.CFG_COPYA_REASON, c.reason), (Fld.CFG_COPYA_VALID, if c.reason = 0 then 1 else 0)])
  if c.reason = 0 then s else s.event Reg.CFG_EVENT Fld.CFG_EVENT_COPY_INVALID Reg.CFG_CNT_COPY_INVALID

def State.showCopies (s : State) : State :=
  let ca := s.copyCheck false
  let cb := s.copyCheck true
  (s.showCopy Reg.CFG_COPYA (s.copyBytes false) ca).showCopy Reg.CFG_COPYB (s.copyBytes true) cb

/-- Neither copy is read: reason 14. -/
def State.copiesUnread (s : State) : State :=
  (s.wr Reg.CFG_COPYA (packF [(Fld.CFG_COPYA_REASON, 14)])).wr Reg.CFG_COPYB (packF [(Fld.CFG_COPYB_REASON, 14)])

/-- The choice from the flash (R434, R435), with the RESULT of a choice that succeeds and of one that does not. -/
def State.chooseFlash (s : State) (nvmOk : Bool) (ok none_ : Nat) : State :=
  let ma := s.copyBytes false
  let mb := s.copyBytes true
  let ca := s.copyCheck false
  let cb := s.copyCheck true
  let s := s.showCopies
  match chooseCopy (ca.reason == 0) (cb.reason == 0) (imgSeq ma) (imgSeq mb) with
  | none => (s.enterBelay 3 none_).bootShow
  | some b =>
    let seq := imgSeq (if b then mb else ma)
    let other := imgSeq (if b then ma else mb)
    let r := s.boot
    if 2 ≤ s.rst.failed ∧ r.confKnown ∧ seq ≠ r.confSeq ∧ (if b then ca else cb).reason = 0 ∧ other = r.confSeq then
      let s := s.bootWrite nvmOk { r with rejSeq := seq, rejKnown := true }
      let s := s.event Reg.CFG_EVENT Fld.CFG_EVENT_FALLBACK Reg.CFG_CNT_FALLBACK
      (s.useImage (if b then ma else mb) (if b then ca else cb) (if b then 1 else 2) ok true).bootShow
    else (s.useImage (if b then mb else ma) (if b then cb else ca) (if b then 2 else 1) ok false).bootShow

/-- CFG_NVM reports the flash (R419). -/
def State.showNvm (s : State) : State :=
  let b (x : Bool) : Nat := if x then 1 else 0
  if s.nvm.present then s.wr Reg.CFG_NVM (packF [(Fld.CFG_NVM_SIZE_MIB, s.nvm.sizeMib), (Fld.CFG_NVM_ADDR4, b s.nvm.addr4),
    (Fld.CFG_NVM_QUAD, b s.nvm.quad), (Fld.CFG_NVM_ERASE_64K, b s.nvm.erase64), (Fld.CFG_NVM_ERASE_4K, b s.nvm.erase4)])
  else s

/-- CONFIGURATION_CHOICE (R433): ROM, once fuse sense is ready. `nvmOk`: a boot-state write succeeds. -/
def execConfigurationChoice (nvmOk : Bool) (s : State) : Host.Outcome State Fault Refusal :=
  .next (
    if s.rst.ready.contains 2 && !s.bwl.chosen then
      let s := s.setFlds Reg.RST_STATUS [(Fld.RST_STATUS_BELAY, 0), (Fld.RST_STATUS_BELAY_CAUSE, 0)]
      let s := s.showNvm.bootShow
      let s := { s with rst := { s.rst with freset := s.authorised } }
      if s.bootSrc = 3 then s.copiesUnread.enterBelay 2 4
      else if s.nvmPresent = false then s.copiesUnread.enterBelay 4 2
      else if s.nvmHeaderOk = false then s.copiesUnread.enterBelay 5 3
      else if 4 ≤ s.rst.failed then (s.showCopies.enterBelay 1 0).bootShow
      else if s.bootSrc = 2 then
        let s := s.copiesUnread.bootShow.loadStandby
        { s with bwl := { s.bwl with chosen := true, fabric := true } }
      else s.chooseFlash nvmOk 0 1
    else s)

/-- Fields of a new configuration reach the units that are released already (R444, R445). -/
def State.reload (s : State) : State :=
  let s := if s.rst.released.contains 3 then s.loadHalyard else s
  if s.rst.ready.contains 6 then (if s.working (capFdie 0) then s.loadFabric else s).loadPorts s.belay
  else if s.rst.released.contains 6 then s.loadFdies
  else s

/-- The ports that are UP, ascending. -/
def State.fabricPorts (s : State) : List Nat := (List.range 8).filter fun p => s.working (capPort p) && s.portState p == optUp

/-- Bowline asks the partner of port `p` for an image (R443): it opens a session on the first round, and sends its request on every
round. The rules give the request no code and the session no layout of its own for a node that opens one: the first packet is a HELLO1
of free keys, and the body of the request is free (DESIGN CHOICE, log entry 62). -/
def State.fabricAsk (s : State) (p : Nat) : State :=
  let s :=
    if s.bwl.fabPorts.contains p then s
    else
      let e := s.freeScalar
      let n := e.2.freeNonce
      let s := { n.2 with bwl := { n.2.bwl with fabPorts := n.2.bwl.fabPorts ++ [p] } }
      s.lySend 0 p 153 fun _ => lyHead 0 lyHello1 0 ++ natLE 2 0x0100 ++ natLE 6 0 ++ ecPublic e.1 ++ n.1
  let b := s.freeNonce
  b.2.lySend 0 p 48 fun _ => lyHead 0 lyData 0 ++ b.1

/-- The first image, in ascending port order, of a port that is UP, that passes the checks of R443. -/
def State.fabricImage (s : State) (images : List (Nat × List Byte)) : Option (List Byte) :=
  (s.fabricPorts.filterMap fun p => images.lookup p).find?
    fun m => (cfgCheck s.fuse s.serial true none m).reason == 0

/-- FABRIC_CONFIG_REQUEST (R443, R444): what the partners answer to the request of this round. -/
def execFabricConfigRequest (images : List (Nat × List Byte)) (s : State) : Host.Outcome State Fault Refusal :=
  .next (
    if s.bwl.fabric = false then s
    else
      let s := (s.fabricPorts.foldl State.fabricAsk s)
      match s.fabricImage images with
      | none => s
      | some m => (s.useImage m (cfgCheck s.fuse s.serial true none m) 3 0 false).reload)

/-- FABRIC_CONFIG_TIMEOUT (R445). -/
def execFabricConfigTimeout (nvmOk : Bool) (s : State) : Host.Outcome State Fault Refusal :=
  .next (
    if s.bwl.fabric = false then s
    else
      let s := s.event Reg.CFG_EVENT Fld.CFG_EVENT_FABRIC_TIMEOUT Reg.CFG_CNT_FABRIC_TIMEOUT
      (s.chooseFlash nvmOk 5 5).reload)

/-! ### Firmware -/

/-- The slot that ROM enters (R477), whether it is on trial, and whether ROM took the SLOT_BAD path. -/
def State.chooseFirmware (s : State) (nvmOk : Bool) : State × Option (Nat × Bool × Bool) :=
  if s.bootSrc = 1 then (s, if s.slotValid 1 then some (1, false, false) else none)
  else
    let s := if s.boot.trial then
        (s.bootWrite nvmOk { s.boot with trial := false }).event Reg.BWL_EVENT Fld.BWL_EVENT_FW_FALLBACK (Reg.BWL_CNT 1)
      else s
    let a := s.boot.active
    let t := 1 - a
    let good := s.staging.1 == 2 && fwCheck s.fuse s.staged == 0
    let u := if good && nvmOk then (s.flashErase (fwSlot t) fwArea).flashWrite (fwSlot t) s.staged else s
    if good && nvmOk && u.slotValid t then
      ((u.bootWrite nvmOk { u.boot with trial := true }).flashErase stagingBase 4096, some (t, true, false))
    else
      let s := if s.staging.1 = 2 then
          (u.flashErase stagingBase 4096).event Reg.BWL_EVENT Fld.BWL_EVENT_STAGE_REJECT (Reg.BWL_CNT 2)
        else s
      if s.slotValid a then (s, some (a, false, false))
      else if s.slotValid t then
        ((s.bootWrite nvmOk { s.boot with active := t }).event Reg.BWL_EVENT Fld.BWL_EVENT_SLOT_BAD (Reg.BWL_CNT 3),
          some (t, false, true))
      else (s, none)

/-- FIRMWARE_ENTRY (R463, R477, R478, R562, R596): ROM enters the firmware, and a start begins. -/
def execFirmwareEntry (nvmOk : Bool) (s : State) : Host.Outcome State Fault Refusal :=
  .next (
    if (s.bwl.chosen && !s.belay && s.bwl.fw.isNone) = false then s
    else
      let r := s.chooseFirmware nvmOk
      match r.2 with
      | none => r.1.enterBelay 6 (r.1.fld Reg.CFG_STATUS Fld.CFG_STATUS_RESULT)
      | some (t, trial, bad) =>
        let s := r.1
        let f := fwUse (s.slotBytes t)
        let n := min 15 (s.rst.failed + 1)
        let s := s.setFld Reg.RST_FAILSTART Fld.RST_FAILSTART_COUNT n
        let s := s.bootWrite nvmOk { s.boot with fails := n }
        let s := s.setFld Reg.RST_STATUS Fld.RST_STATUS_START 1
        let s := s.setFlds Reg.BWL_STATUS [(Fld.BWL_STATUS_MODE, 1), (Fld.BWL_STATUS_RUNNING_SLOT, t),
          (Fld.BWL_STATUS_TRIAL, if trial then 1 else 0), (Fld.BWL_STATUS_ACTIVE_SLOT, s.boot.active)]
        let s := s.wr Reg.BWL_FW (packF [(Fld.BWL_FW_SECVER, f.secver), (Fld.BWL_FW_NUMERICS_LEVEL, f.level)])
        let s := s.setFlds Reg.ID_NUMERICS_SIG [(Fld.ID_NUMERICS_SIG_LEVEL, f.level), (Fld.ID_NUMERICS_SIG_DEFAULT_RND, 0)]
        let s := s.setFld Reg.BWL_WDOG Fld.BWL_WDOG_WINDOW_S f.window
        let s := s.wr Reg.RAS_SERVICE_REQUEST 0
        let s := if bad then s.service Fld.RAS_SERVICE_REQUEST_FW_SLOT else s
        { s with bwl := { s.bwl with fw := some f, kickAt := s.time } })

def State.start (s : State) : Nat := s.fld Reg.RST_STATUS Fld.RST_STATUS_START

/-- WATCHDOG_EXPIRY (R478): the confirmation window, or after confirmation a period without a kick. -/
def execWatchdogExpiry (also : List Nat) (s : State) : Host.Outcome State Fault Refusal :=
  .next (
    let due := decide (s.bwl.kickAt + 1000000 * s.fld Reg.BWL_WDOG Fld.BWL_WDOG_PERIOD_MS ≤ s.time)
    if s.start = 1 ∨ (s.start = 2 ∧ due) then s.takeAll srcWDOG also else s)

/-- A write of BWL_WDOG, from the Bowline firmware only (R506): PERIOD_MS within its range, and KICK. -/
def State.writeWdog (s : State) (agent : Agent) (v : Word) : State :=
  if agent = .bowline ∧ s.fld Reg.BWL_STATUS Fld.BWL_STATUS_MODE = 1 then
    let p := getF v Fld.BWL_WDOG_PERIOD_MS
    let s := if within 100 60000 p then s.setFld Reg.BWL_WDOG Fld.BWL_WDOG_PERIOD_MS p else s
    if getF v Fld.BWL_WDOG_KICK = 1 then { s with bwl := { s.bwl with kickAt := s.time } } else s
  else s

/-- WDOG_KICK (R478): a write of BWL_WDOG with KICK = 1. -/
def execWdogKick (agent : Agent) (value : Word) (s : State) : Host.Outcome State Fault Refusal :=
  .next (s.writeWdog agent (setF value Fld.BWL_WDOG_KICK 1))

/-- The fuses blown when a trial is confirmed (R480): ROLLBACK, then the revocations. Of the firmware key slots none is that of the
signer, and one stays programmed and unrevoked; no configuration key slot signs firmware (log entry 22). -/
def FuseSt.confirm (f : FuseSt) (u : FwUse) : FuseSt :=
  let f := if u.advance ∧ f.rollback < u.secver then { f with rollback := min u.secver 64 } else f
  let f := (List.range 4).foldl (fun (f : FuseSt) k =>
    let left := (List.range 4).filter fun j => j != k && f.fwKeys.getD j [] != [] && !bit f.fwRevoke j
    if bit u.revokeFw k ∧ k ≠ u.key ∧ bit f.fwRevoke k = false ∧ left ≠ [] then { f with fwRevoke := f.fwRevoke + 2 ^ k } else f) f
  (List.range 4).foldl (fun (f : FuseSt) k =>
    if bit u.revokeCfg k ∧ bit f.cfgRevoke k = false then { f with cfgRevoke := f.cfgRevoke + 2 ^ k } else f) f

/-- Health is confirmed (R435, R464, R480). -/
def State.confirm (s : State) (nvmOk : Bool) : State :=
  let trial := s.flag Reg.BWL_STATUS Fld.BWL_STATUS_TRIAL
  let s := s.setFld Reg.RST_STATUS Fld.RST_STATUS_START 2
  let s := s.setFld Reg.RST_FAILSTART Fld.RST_FAILSTART_COUNT 0
  let b := s.boot
  let b := { b with fails := 0, confSeq := s.fld Reg.CFG_STATUS Fld.CFG_STATUS_SEQ, confKnown := true }
  let b := if trial then { b with active := s.fld Reg.BWL_STATUS Fld.BWL_STATUS_RUNNING_SLOT, trial := false } else b
  let s := (s.bootWrite nvmOk b).bootShow
  let s := s.setFlds Reg.BWL_STATUS [(Fld.BWL_STATUS_CONFIRMED, 1), (Fld.BWL_STATUS_TRIAL, 0), (Fld.BWL_STATUS_ACTIVE_SLOT, s.boot.active)]
  let s := { s with bwl := { s.bwl with kickAt := s.time } }
  match s.bwl.fw with
  | some u => if trial then { s with fuse := s.fuse.confirm u }.showKeys else s
  | none => s

/-- The wait of R479 is over: on a trial, or with a fallback configuration, a command has been answered. -/
def State.mayConfirm (s : State) : Bool :=
  s.bwl.answered || !(s.flag Reg.BWL_STATUS Fld.BWL_STATUS_TRIAL || s.flag Reg.CFG_STATUS Fld.CFG_STATUS_FALLBACK)

/-- HEALTH_CONFIRM (R464, R479): a keyed write of the Bowline firmware after the release of step 7, while no step has overrun, and on a
trial or a fallback not before it has answered a command. -/
def execHealthConfirm (agent : Agent) (value : Word) (nvmOk : Bool) (s : State) : Host.Outcome State Fault Refusal :=
  .next (
    if agent = .bowline ∧ getF value Fld.BWL_HEALTH_CONFIRM_KEY = 0x5A ∧ getF value Fld.BWL_HEALTH_CONFIRM_CONFIRM = 1 ∧
        s.start = 1 ∧ s.rst.released.contains 7 ∧ s.fld Reg.RST_STATUS Fld.RST_STATUS_FAIL_STEP = 0 ∧
        s.mayConfirm then s.confirm nvmOk
    else s)

/-- OTHER_SLOT_CHECK (R482): the slot that does not run, within 60 s of confirmation. -/
def execOtherSlotCheck (s : State) : Host.Outcome State Fault Refusal :=
  .next (
    let t := 1 - s.fld Reg.BWL_STATUS Fld.BWL_STATUS_RUNNING_SLOT
    if s.start = 2 ∧ s.slotValid t = false ∧ (s.flash (fwSlot t) 4096).any (· != 0xFF) then
      (s.event Reg.BWL_EVENT Fld.BWL_EVENT_SLOT_BAD (Reg.BWL_CNT 3)).service Fld.RAS_SERVICE_REQUEST_FW_SLOT
    else s)

/-- A write of RST_CTRL (R472): ignored without its KEY; RESET takes a HOST reset, with other sources of the same cycle. -/
def State.writeRstCtrl (s : State) (agent : Agent) (v : Word) (also : List Nat) : State :=
  if (s.ctx agent).priv ∧ getF v Fld.RST_CTRL_KEY = 0xA5 ∧ getF v Fld.RST_CTRL_RESET = 1 then s.takeAll srcHOST also else s

/-- RST_CTRL_RESET (R472). -/
def execRstCtrlReset (agent : Agent) (value : Word) (also : List Nat) (s : State) : Host.Outcome State Fault Refusal :=
  .next (s.writeRstCtrl agent value also)

/-- The write of RST_CTRL.BELAY_EXIT by ROM (R468): false where it is ignored. -/
def State.belayExit (s : State) (nvmOk : Bool) : State × Bool :=
  let cause := s.fld Reg.RST_STATUS Fld.RST_STATUS_BELAY_CAUSE
  if s.belay = false ∨ cause = 2 ∨ cause = 4 then (s, false)
  else if cause = 1 then
    let s := s.setFld Reg.RST_FAILSTART Fld.RST_FAILSTART_COUNT 3
    ((s.bootWrite nvmOk { s.boot with fails := 3 }).takeReset [srcLANYARD], true)
  else (s.takeReset [srcLANYARD], true)

/-! ### Fatal errors -/

/-- FATAL_ERROR (R557, R558): causes of one cycle, each a code and a die; `recorded`: the fatal record is written in time. -/
def execFatalError (causes : List (Nat × Nat)) (recorded : Bool) (s : State) : Host.Outcome State Fault Refusal :=
  .next (
    match causes with
    | [] => s
    | c :: r =>
      if s.rst.fatal then s.setFld Reg.RAS_FATAL Fld.RAS_FATAL_MULTI 1
      else
        let low := r.foldl (fun a b => if b.1 < a.1 then b else a) c
        let bow := causes.any fun x => x.1 == 8
        let s := s.wr Reg.RAS_FATAL (packF [(Fld.RAS_FATAL_VALID, 1), (Fld.RAS_FATAL_MULTI, if r = [] then 0 else 1),
          (Fld.RAS_FATAL_NO_RECORD, if bow then 1 else 0), (Fld.RAS_FATAL_DIE, low.2), (Fld.RAS_FATAL_CODE, low.1),
          (Fld.RAS_FATAL_STEP, s.step)])
        let s := s.log Reg.RAS_FATAL 63 0 0
        if bow then s.takeReset [srcFATAL]
        else if recorded && s.nvmBusy then
          { s with rst := { s.rst with fatal := true } }.nvmLater (.fatal true (s.fatalNew (2 ^ srcFATAL)) (some srcFATAL))
        else if recorded then (s.fatalWrite true (2 ^ srcFATAL)).takeReset [srcFATAL]
        else { s with rst := { s.rst with fatal := true } })

/-- FATAL_RECORD_TIMEOUT (R557): 50 ms have passed without the record. -/
def execFatalRecordTimeout (s : State) : Host.Outcome State Fault Refusal :=
  .next (if s.rst.fatal then (s.setFld Reg.RAS_FATAL Fld.RAS_FATAL_NO_RECORD 1).takeReset [srcFATAL] else s)

/-! ### Power domains -/

/-- A core program or a hart runs. -/
def State.anyProgram (s : State) : Bool :=
  ((List.range 4).any fun d => (List.range 168).any fun p => coreBusyState (s.coreState (Reg.coreWin d p))) ||
    (List.range 68).any s.hartUp

/-- A program uses the unit of domain `n` (R22). What use is, is not stated: a strand is used while one of its cores runs a program or
has transfers open, a cluster or the service cores while one of their harts runs, the engines while they have work, an F-die while
one of its links is up, and what every program shares while any program runs (DESIGN CHOICE, log entry 62). -/
def State.domainUsed (s : State) (n : Nat) : Bool :=
  if n < 120 ∧ n % 30 < 21 then
    (List.range 8).any fun i =>
      let p := 8 * (n % 30) + i
      coreBusyState (s.coreState (Reg.coreWin (n / 30) p)) || s.busyProg (s.lcore (n / 30) p)
  else if within 121 128 n then (List.range 8).any fun i => s.hartUp (8 * (n - 121) + i)
  else if n = 129 then (List.range 4).any fun i => s.hartUp (64 + i)
  else if n = 131 then !s.rse.queue.isEmpty
  else if n = 136 then s.ckp.stage != 0
  else if 140 ≤ n then
    let f := (n - 140) / 12
    let k := (n - 140) % 12
    (List.range 4).any fun i => (k ≥ 8 || i == k % 4) && s.portState (4 * f + i) == optUp
  else s.anyProgram

/-- The unit of domain `n` is not mapped out (R22): a strand carries a logical one, and memory, ports and the rest work. -/
def State.domainInUse (s : State) (n : Nat) : Bool :=
  if n < 120 then
    let k := n % 30
    if k < 21 then s.lcore (n / 30) (8 * k) != 0x3FF
    else if within 23 25 k then s.working (capStack (3 * (n / 30) + k - 23))
    else true
  else if within 132 134 n then (List.range 4).any fun i => s.working (capChan (4 * (n - 132) + i))
  else if 140 ≤ n ∧ (n - 140) % 12 < 8 then s.working (capPort (4 * ((n - 140) / 12) + (n - 140) % 4))
  else true

/-- DOMAIN_POWER_DOWN (R22): Bowline powers down the domain of a unit that no program uses. -/
def execDomainPowerDown (domain : Nat) (s : State) : Host.Outcome State Fault Refusal :=
  .next (
    if domain ≠ 120 ∧ s.domainPresent domain ∧ s.powered domain ∧ s.domainUsed domain = false then
      let s := if within 132 134 domain then s.wcFlushAll else s
      let s := s.setPower domain false
      if domain = 135 then { s with rst := { s.rst with perst := false } } else s
    else s)

/-- Core `p` of die `d` in its state after reset (R120). -/
def State.coreFresh (s : State) (d p : Nat) : State :=
  let w := Reg.coreWin d p
  let lc := s.lcore d p
  let s := s.dropRegs w (w + 0x10000)
  let s := s.setFld (Reg.TC_MAP w) Fld.TC_MAP_LCORE lc
  if lc = 0x3FF then s.setCoreState w coreOffline
  else (((s.fidDrop lc).zeroCore lc).setCore lc CoreSt.reset).setCoreState w coreIdle

/-- A TALQ is empty, as after reset. -/
def State.talqFresh (s : State) (q : Nat) : State :=
  { s with hly := { s.hly with talq := s.hly.talq.filter fun e => e.queue != q } }.talqOcc q

/-- The registers of a stack or channel window after reset and training: its state, lanes and DIMMs stand. -/
def State.windowFresh (s : State) (a : Nat) (keep : List Nat) : State :=
  let old := keep.map fun r => (r, s.rd r)
  old.foldl (fun s e => s.wr e.1 e.2) (s.dropRegs a (a + 0x1000))

/-- A strand: its eight cores. -/
def State.strandFresh (s : State) (d k : Nat) : State := (List.range 8).foldl (fun s i => s.coreFresh d (8 * k + i)) s

/-- A fast-tier stack, which holds nothing that a command has written. -/
def State.stackFresh (s : State) (st : Nat) : State :=
  let s := s.windowFresh (Reg.stackWin st) [Reg.MEMF_ST_STATUS (Reg.stackWin st), Reg.MEMF_ST_LANES (Reg.stackWin st)]
  { s with mem := { s.mem with
    data := s.mem.data.filter fun e => decide (s.place e.1 ≠ Place.fast st)
    poison := s.mem.poison.filter fun e => decide (s.place e.1 ≠ Place.fast st)
    errs := s.mem.errs.filter fun e => decide (s.place e.1 ≠ Place.fast st) } }

/-- The control domain of T-die `d`: event queues, semaphores and TALQ. -/
def State.controlFresh (s : State) (d : Nat) : State :=
  let lo := Reg.dieBlk d + 0x1000
  let hi := Reg.dieBlk d + 0x80000
  let s := (s.dropRegs lo hi).talqFresh d
  { s with tc := { s.tc with evqSeq := sDrop lo hi s.tc.evqSeq, semPoison := s.tc.semPoison.filter fun e => e.1 / 256 != d } }

/-- A domain of T-die `d`. -/
def State.tdieFresh (s : State) (d k : Nat) : State :=
  if k < 21 then s.strandFresh d k
  else if within 23 25 k then s.stackFresh (3 * d + k - 23)
  else if k = 21 then s.controlFresh d
  else s

/-- Bulk-core cluster `k`, whose harts wait for their release. -/
def State.clusterFresh (s : State) (k : Nat) : State :=
  let lo := 8 * k
  (List.range 8).foldl (fun s i => s.setHart (lo + i) HartSt.reset) (s.setFld Reg.HOST_HART_RELEASE0 ⟨lo + 7, lo⟩ 0)

/-- The service cluster, of which hart 64 runs at once. -/
def State.serviceFresh (s : State) : State :=
  ((List.range 4).foldl (fun s i => s.setHart (64 + i) HartSt.reset) (s.wr Reg.HOST_HART_RELEASE1 1)).hartStart 64

/-- The Resident Solve Engine, which zeroes its region (R311). -/
def State.rseFresh (s : State) : State :=
  let r := s.rd Reg.RSE_REGION
  let s := (s.dropRegs 0xF00021000000 0xF00022000000).wr Reg.RSE_REGION r
  { s.setFld Reg.RSE_STATUS Fld.RSE_STATUS_ZEROING 1 with rse := { s.rse with queue := [], slots := [] } }

/-- The four capacity channels of a domain. -/
def State.chansFresh (s : State) (k : Nat) : State :=
  (List.range 4).foldl (fun s i =>
    let a := Reg.chanWin (4 * k + i)
    s.windowFresh a [Reg.MEMC_CH_STATUS a, Reg.MEMC_CH_DIMM a 0, Reg.MEMC_CH_DIMM a 1]) s

/-- The Halyard block, with the values that its release loads; the clock source stands. -/
def State.halyardFresh (s : State) : State :=
  let m := s.fld Reg.HLY_STATUS Fld.HLY_STATUS_CLK_SRC
  let q := s.hly.talq.filter fun e => e.queue != 4
  let s := (s.dropRegs 0xF00001000000 0xF00001001000).setFld Reg.HLY_STATUS Fld.HLY_STATUS_CLK_SRC m
  let s := { s with hly := { HlySt.reset with running := true, talq := q } }
  (s.talqOcc 4).loadHalyard

/-- A domain of the P-die. -/
def State.pdieFresh (s : State) (n : Nat) : State :=
  if within 121 128 n then s.clusterFresh (n - 121)
  else if n = 129 then s.serviceFresh
  else if n = 131 then s.rseFresh
  else if within 132 134 n then s.chansFresh (n - 132)
  else if n = 135 then { s with pcieSub := 0 }
  else if n = 136 then { s.dropRegs 0xF00040000000 0xF00041000000 with ckp := { CkpSt.reset with helds := s.ckp.helds } }
  else if n = 139 then s.halyardFresh
  else s

/-- Optical port `p`, with the fields that its release loads. -/
def State.portFresh (s : State) (p : Nat) : State :=
  ((s.dropRegs (Reg.portWin p) (Reg.portWin p + 0x1000)).setPort p PortSt.reset).loadPort false p

/-- A domain of the F-dies. -/
def State.fdieFresh (s : State) (n : Nat) : State :=
  if within 140 143 n ∨ within 152 155 n then s.portFresh (4 * ((n - 140) / 12) + (n - 140) % 12)
  else if n = 148 then ({ s.dropRegs 0xF00030000000 0xF00030900000 with hws := HwsSt.reset }).loadFabric
  else if n = 149 ∨ n = 161 then s.talqFresh (5 + (n - 149) / 12)
  else s

/-- A powered-up unit takes the state defined for it after reset (R22). -/
def State.unitFresh (s : State) (n : Nat) : State :=
  if n < 120 then s.tdieFresh (n / 30) (n % 30) else if n < 140 then s.pdieFresh n else s.fdieFresh n

/-- DOMAIN_POWER_UP (R22): a domain of a unit in service that was powered down. -/
def execDomainPowerUp (domain : Nat) (s : State) : Host.Outcome State Fault Refusal :=
  .next (
    if s.domainPresent domain ∧ s.domainInUse domain ∧ s.powered domain = false ∧ (s.rst.released.any fun k => (s.stepDomains k).contains domain) then
      (s.setPower domain true).unitFresh domain
    else s)

end Sys2Proof.Machine
end

