-- ==== Sys2Proof/Machine/VecOps.lean ====
section
/-! DEFINITION. What the vector instructions share: fields and legality (R183, R184), element views of tile registers (R179),
masks (R181, R182), arithmetic on elements (R189 to R194), seeds (R200) and the records (R207 to R209). -/

namespace Sys2Proof.Machine

/-! ### Fields (Table VEC-3) -/

def vTD (r : Rest) : Nat := bits r.toNat 51 47
def vTA (r : Rest) : Nat := bits r.toNat 46 42
def vTB (r : Rest) : Nat := bits r.toNat 41 37
def vTC (r : Rest) : Nat := bits r.toNat 36 32
def vF (r : Rest) : Nat := bits r.toNat 31 28
def vF2 (r : Rest) : Nat := bits r.toNat 27 24
def vMasked (r : Rest) : Bool := bit r.toNat 23
def vMK (r : Rest) : Nat := bits r.toNat 22 20
def vCC (r : Rest) : Nat := bits r.toNat 19 17
def vSK (r : Rest) : Nat := bits r.toNat 16 12
def vImm (r : Rest) : Nat := bits r.toNat 11 0

/-- A field that an operation may use. -/
inductive VUse where
  | td
  | ta
  | tb
  | tc
  | f
  | f2
  | mask
  | imm
  deriving DecidableEq, Repr

/-- Every field outside `used` is 0 (R183); MK is used only while MASKED is 1. -/
def vFieldsOk (used : List VUse) (r : Rest) : Bool :=
  (used.contains .td || vTD r == 0) && (used.contains .ta || vTA r == 0) && (used.contains .tb || vTB r == 0) &&
    (used.contains .tc || vTC r == 0) && (used.contains .f || vF r == 0) && (used.contains .f2 || vF2 r == 0) &&
    (if used.contains .mask then vMasked r || vMK r == 0 else !vMasked r && vMK r == 0) &&
    (used.contains .imm || vImm r == 0)

/-- CC and SK of an operation that rounds, or does not (R184). -/
def vRoundOk (rounds : Bool) (r : Rest) : Bool :=
  if rounds then (if vCC r % 4 = 2 then vSK r != 0 && vSK r % 4 == 0 else vSK r == 0) else vCC r == 0 && vSK r == 0

/-- Formats of Table VEC-1. -/
def vecView (f : Nat) : Bool := decide (f ≤ 5) || f == 0x9 || f == 0xB || f == 0xC || f == 0xD
def vecFloat (f : Nat) : Bool := decide (f ≤ 3)
def vecInt (f : Nat) : Bool := f == 0xC || f == 0xD
/-- Formats of Table VEC-2, and those whose packed view differs from the 1-byte view (R180). -/
def vecBlock (f : Nat) : Bool := (decide (4 ≤ f) && decide (f ≤ 0xA))
def vecPacked (f : Nat) : Bool := f == 0x6 || f == 0x7 || f == 0x8 || f == 0xA
/-- Slots per row (Table VEC-2). -/
def vecSlots (f : Nat) : Nat := 128 / fmtBlock f

/-- Element width in bytes and columns of a view (Table VEC-1). -/
def vecW (f : Nat) : Nat := fmtBits f / 8
def vecC (f : Nat) : Nat := 128 / vecW f

/-! ### Tile and mask registers -/

def tileKey (c t r b : Nat) : Nat := 2 ^ 17 * c + 4096 * t + r * 128 + b

/-- Element (r, col) of Tt in a view of `w` bytes. -/
def State.tElem (s : State) (c t w r col : Nat) : Nat := leNat (bytesAt s.tc.tiles (tileKey c t r (col * w)) w)

/-- Row `r` of Tt. -/
def State.tRow (s : State) (c t r : Nat) : List Byte := bytesAt s.tc.tiles (tileKey c t r 0) 128

/-- Bytes written to a tile register. -/
def State.tPut (s : State) (c t r b : Nat) (l : List Byte) : State :=
  { s with tc := { s.tc with tiles := putBytes s.tc.tiles (tileKey c t r b) l } }

/-- Mask Mm as a number of 4,096 bits. -/
def State.mask (s : State) (c m : Nat) : Nat := leNat (bytesAt s.tc.masks (2 ^ 12 * c + 512 * m) 512)

def State.setMask (s : State) (c m v : Nat) : State :=
  { s with tc := { s.tc with
      masks := putBytes s.tc.masks (2 ^ 12 * c + 512 * m) (natLE 512 v)
      tilePoison := sDrop (2 ^ 11 * c + 1024 + m * 4) (2 ^ 11 * c + 1024 + m * 4 + 4) s.tc.tilePoison } }

/-- Element (r, col) of a view of `w` bytes is active (R181, R182). -/
def activeIn (masked : Bool) (mask w r col : Nat) : Bool := !masked || bit mask (128 * r + col * w)

def State.active (s : State) (c : Nat) (x : Rest) (w r col : Nat) : Bool :=
  activeIn (vMasked x) (if vMasked x then s.mask c (vMK x) else 0) w r col

/-- Positions of a view of `n` columns, row by row. -/
def positions (n : Nat) : List (Nat × Nat) := (List.range 32).flatMap fun r => (List.range n).map fun c => (r, c)

/-- Some of the rows of registers is poisoned (Table RAS-2): row `r` of tile register `t`, or of mask register `t` − 32. -/
def State.regPoisoned (s : State) (c : Nat) (rows : List (Nat × Nat)) : Bool :=
  rows.any fun x =>
    if x.1 < 32 then sGet noMark s.tc.tilePoison (2 ^ 11 * c + x.1 * 32 + x.2)
    else sGet noMark s.tc.tilePoison (2 ^ 11 * c + 1024 + (x.1 - 32) * 4 + x.2)

/-- Every row of the registers: 32 of a tile register, 4 of a mask register (t = 32 + m). -/
def wholeRows (regs : List Nat) : List (Nat × Nat) := regs.flatMap fun t => (List.range (if t < 32 then 32 else 4)).map fun i => (t, i)

/-- The rows of the mask register that an instruction reads. -/
def maskRows (r : Rest) : List (Nat × Nat) := if vMasked r then wholeRows [32 + vMK r] else []

/-- Rows of view `f` that hold an active element. -/
def State.activeRows (s : State) (c : Nat) (r : Rest) (f : Nat) : List Nat :=
  let m := if vMasked r then s.mask c (vMK r) else 0
  (List.range 32).filter fun i => (List.range (vecC f)).any fun j => activeIn (vMasked r) m (vecW f) i j

/-- The rows that an instruction reads of the operands `regs` in view `f`: a masked-off element reads no operand (R182). -/
def State.operandRows (s : State) (c : Nat) (r : Rest) (f : Nat) (regs : List Nat) : List (Nat × Nat) :=
  regs.flatMap fun t => (s.activeRows c r f).map fun i => (t, i)

/-! ### Results -/

/-- What an instruction computed for one element: its position in the result view, code, flags and events, and the least
kind of invalid event (R208). -/
structure VRes where
  row   : Nat
  col   : Nat
  code  : Nat
  flags : Nat
  kind  : Nat

/-- Results written as elements of `w` bytes. -/
def State.vWrite (s : State) (c td w : Nat) : List VRes → State
  | [] => s
  | e :: r => (s.tPut c td e.row (e.col * w) (natLE w e.code)).vWrite c td w r

/-- A row written whole loses its poison. -/
def State.rowsFresh (s : State) (c td : Nat) (masked : Bool) : State :=
  if masked then s
  else { s with tc := { s.tc with
    tilePoison := sDrop (2 ^ 11 * c + td * 32) (2 ^ 11 * c + td * 32 + 32) s.tc.tilePoison } }

/-- Flags, exception record and counters of an instruction whose VE_SEQ was `seq` (R207, R208). The results stand in the
order of rows and columns. -/
def State.vRecord (s : State) (c seq : Nat) (l : List VRes) : State :=
  let w := s.win c
  let fl := l.foldl (fun a e => a ||| e.flags) 0
  let s := s.raise (Reg.VE_FLAGS w) fl
  let s := match l.find? fun e => e.flags &&& flNV != 0 with
    | none => s
    | some e =>
      let s := s.bump32 (Reg.VE_CNT_NV w) 1
      if s.flag (Reg.VE_EXC_INFO w) Fld.VE_EXC_INFO_VALID then s
      else
        (s.wr (Reg.VE_EXC w) (packF [(Fld.VE_EXC_SEQ, seq), (Fld.VE_EXC_PC, s.pc w), (Fld.VE_EXC_ROW, e.row),
          (Fld.VE_EXC_COL, e.col)])).wr (Reg.VE_EXC_INFO w)
            (packF [(Fld.VE_EXC_INFO_VALID, 1), (Fld.VE_EXC_INFO_KIND, e.kind)])
  s.bump64 (Reg.VE_CNT_INSN w) 1

/-- A vector instruction (R90, R182, R184, R204): legality, operand checks at issue, then its reads, which fault POISON before
anything is written, then `body`, which answers the state and the results that raise flags. -/
def State.vector (s : State) (c cls op : Nat) (r : Rest) (legal : Bool) (check : State → Option IssueFault)
    (foot reads : State → List Range) (rows : State → List (Nat × Nat)) (body : State → State × List VRes) : State :=
  let word := insnWord cls op r
  s.engine c word legal check foot fun s =>
    let w := s.win c
    let seq := s.fld (Reg.VE_SEQ w) Fld.VE_SEQ_COUNT
    let s := s.bump32 (Reg.VE_SEQ w) 1
    if s.regPoisoned c (rows s) then
      (s.bump32 (Reg.RAS_D_CNT_UE (c / 160)) 1).engineFault c srcVector fcPoison 0 word
    else match s.tsPoison c (reads s) with
      | some a => s.enginePoison c srcVector a word
      | none =>
        let x := body s
        (x.1.vRecord c seq x.2).advance c

/-- An operation that touches tile and mask registers alone. -/
def State.vecRegs (s : State) (c cls op : Nat) (r : Rest) (legal : Bool) (rows : State → List (Nat × Nat))
    (body : State → State × List VRes) : State :=
  s.vector c cls op r legal (fun _ => none) (fun _ => []) (fun _ => []) (fun s => maskRows r ++ rows s) body

/-- Elements of the result view `f`, the active ones computed by `g` from their position. -/
def State.vMap (s : State) (c : Nat) (r : Rest) (f : Nat) (g : Nat → Nat → Nat × Nat × Nat) : State × List VRes :=
  let w := vecW f
  let m := if vMasked r then s.mask c (vMK r) else 0
  let l := ((positions (vecC f)).filter fun p => activeIn (vMasked r) m w p.1 p.2).map fun p =>
    let x := g p.1 p.2
    (⟨p.1, p.2, x.1, x.2.1, x.2.2⟩ : VRes)
  ((s.vWrite c (vTD r) w l).rowsFresh c (vTD r) (vMasked r), l)

/-! ### Rounding keys (R196) -/

structure VKey where
  key  : SrKey
  base : Nat

def State.vKey (s : State) (c : Nat) (r : Rest) : VKey :=
  let w := s.win c
  let k := vSK r
  let st := (s.sreg w (k + 2)).toNat
  ⟨⟨(s.sreg w k).toNat + 2 ^ 64 * (s.sreg w (k + 1)).toNat, st / 2 ^ 16, st % 2 ^ 16⟩, (s.sreg w (k + 3)).toNat⟩

/-- The word of element `i` of the instruction (R196). -/
def VKey.word (k : VKey) (i : Nat) : Nat := srWord k.key ((k.base + i) % 2 ^ 64)

/-- Conversion of a value to `f` under the instruction's CC, for element `i`: code, flags, kind. -/
def State.vConvert (s : State) (c : Nat) (r : Rest) (f i kind : Nat) (x : Num) : Nat × Nat × Nat :=
  let w := if vCC r % 4 = 2 then (s.vKey c r).word i else 0
  let y := convertNum f (s.ccMode (vCC r)) (bit (vCC r) 2) w x
  let fl := y.2 ||| (if kind = 0 then 0 else flNV)
  (y.1, fl, if kind ≠ 0 then kind else if y.2 &&& flNV ≠ 0 then 4 else 0)

/-! ### Arithmetic on elements -/

/-- The least kind of an operation: a signalling operand, zero times infinity, opposite infinities (R208). -/
def leastKind (snan zeroInf opposite : Bool) : Nat :=
  if snan then 1 else if zeroInf then 2 else if opposite then 3 else 0

/-- a + b (R189, R190): the exact value and the kind. -/
def exactAdd (a b : Num) : Num × Nat :=
  let s := numAdd a b
  (s.1, leastKind (a.isSnan || b.isSnan) false (s.2 != 0))

/-- a × b. -/
def exactMul (a b : Num) : Num × Nat :=
  let p := numMul a b
  (p.1, leastKind (a.isSnan || b.isSnan) (p.2 != 0) false)

/-- ±(a × b) + c with no rounding between. -/
def exactFma (neg : Bool) (a b c : Num) : Num × Nat :=
  let p := numMul a b
  let q := if neg then p.1.negate else p.1
  let s := numAdd q c
  (s.1, leastKind (a.isSnan || b.isSnan || c.isSnan) (p.2 != 0) (s.2 != 0))

/-- Order on values with −0 below +0 (R192); NaNs excluded. -/
def numLt (a b : Num) : Bool :=
  match a, b with
  | .nan _, _ => false
  | _, .nan _ => false
  | .inf x, .inf y => x && !y
  | .inf x, _ => x
  | _, .inf y => !y
  | .zero x, .zero y => x && !y
  | .zero _, .fin n _ => decide (0 < n)
  | .fin m _, .zero _ => decide (m < 0)
  | .fin m e, .fin n f =>
    let g := min e f
    decide (m * 2 ^ (e - g).toNat < n * 2 ^ (f - g).toNat)

/-- VMIN or VMAX on float codes (R192): code, flags, kind. -/
def floatMinMax (f : Nat) (max : Bool) (a b : Nat) : Nat × Nat × Nat :=
  let x := decodeNum f a
  let y := decodeNum f b
  if x.isNan || y.isNan then
    if x.isSnan || y.isSnan then (canonNan f, flNV, 1) else (canonNan f, 0, 0)
  else if (if max then numLt x y else numLt y x) then (b, 0, 0) else (a, 0, 0)

/-- A comparison of VCMP (R193): the result, flags and kind. −0 equals +0. -/
def cmpHolds (p : Nat) (lt eq : Bool) : Bool :=
  match p with
  | 0 => eq
  | 1 => !eq
  | 2 => lt
  | 3 => lt || eq
  | 4 => !lt && !eq
  | 5 => !lt
  | 6 => false
  | _ => true

def floatCmp (f p a b : Nat) : Bool × Nat × Nat :=
  let x := decodeNum f a
  let y := decodeNum f b
  if x.isNan || y.isNan then
    (p == 1 || p == 6, if x.isSnan || y.isSnan then flNV else 0, if x.isSnan || y.isSnan then 1 else 0)
  else
    let eq := (x.isZero && y.isZero) || (!numLt x y && !numLt y x)
    (cmpHolds p (!eq && numLt x y) eq, 0, 0)

/-- Integer results of `n` bits (R191). -/
def intOp (n : Nat) (g : Int → Int → Int) (a b : Nat) : Nat × Nat × Nat := (unsig n (g (sext n a) (sext n b)), 0, 0)

/-- add_f of R194: FP addition under RNE; code, flags, whether it was invalid. -/
def addF (f x y : Nat) : Nat × Nat :=
  let s := numAdd (decodeNum f x) (decodeNum f y)
  let c := convertNum f rmRNE false 0 s.1
  (c.1, c.2 ||| s.2)

/-- One level of ptree (R194) with an operation on codes and flags. -/
def pLevel (op : Nat → Nat → Nat × Nat) : List Nat → List Nat × Nat
  | x :: y :: r =>
    let a := op x y
    let t := pLevel op r
    (a.1 :: t.1, a.2 ||| t.2)
  | l => (l, 0)

/-- ptree of R194: the value and all flags. -/
def ptree (op : Nat → Nat → Nat × Nat) : Nat → List Nat → Nat × Nat
  | 0, l => (l.headD 0, 0)
  | k + 1, l =>
    let u := pLevel op l
    let t := ptree op k u.1
    (t.1, u.2 ||| t.2)

/-! ### Seeds (R200) -/

/-- Greatest t below 2^n with t × t at most x. -/
def isqrt (x : Nat) : Nat → Nat → Nat
  | 0, t => t
  | n + 1, t => let u := t + 2 ^ n; if u * u ≤ x then isqrt x n u else isqrt x n t

/-- Greatest t below 2^n with t^2048 at most x. -/
def root2048 (x : Nat) : Nat → Nat → Nat
  | 0, t => t
  | n + 1, t => let u := t + 2 ^ n; if u ^ 2048 ≤ x then root2048 x n u else root2048 x n t

/-- The nearest integer to a / b, a tie going to the even one. -/
def divRne (a b : Nat) : Nat :=
  let q := a / b
  let r := a % b
  if 2 * r > b ∨ (2 * r = b ∧ q % 2 = 1) then q + 1 else q

/-- floor(2^n × f) of the significand 1 + f of a magnitude. -/
def fracBits (m n : Nat) : Nat :=
  let d := 2 ^ Nat.log2 m
  (m - d) * 2 ^ n / d

/-- z of RCPS for a finite nonzero value. -/
def rcpSeed (m : Int) (e : Int) : Num :=
  let a := m.natAbs
  let n := 2 * (2 ^ 12 + fracBits a 12) + 1
  let q : Int := divRne (2 ^ 29) n
  .fin (if m < 0 then -q else q) (-16 - ilog2 a e)

/-- z of RSQS for a positive finite value. 2^17 / sqrt(m) is never an integer, so that no tie arises. -/
def rsqSeed (m : Nat) (e : Int) : Num :=
  let k := ilog2 m e
  let n := 2 * (2 ^ 11 + fracBits m 11) + 1
  let odd := k % 2 ≠ 0
  let t := isqrt ((if odd then 2 ^ 45 else 2 ^ 46) / n) 18 0
  let q : Int := ((t + 1) / 2 : Nat)
  .fin q (-16 - (if odd then (k - 1) / 2 else k / 2))

/-- floor of m × 2^e, and floor(2^10 × g) of the rest g. -/
def splitFloor (m e : Int) : Int × Nat :=
  if 0 ≤ e then (m * 2 ^ e.toNat, 0)
  else
    let d : Int := (2 ^ (-e).toNat : Nat)
    (m / d, (1024 * (m % d) / d).toNat)

/-- z of EXP2S for a finite nonzero value. Below 2^−5000 every z converts alike, to +0. -/
def exp2Seed (m e : Int) : Num :=
  let x := splitFloor m e
  let n := 2 * x.2 + 1
  let t := root2048 (2 ^ (16 * 2048 + n)) 18 0
  .fin (((t + 1) / 2 : Nat) : Int) (max x.1 (-5000) - 15)

/-- The seed of an operand: its exact value, or a special value of Table VEC-10, and the kind of its invalid event. -/
def seedNum (op : Nat) (x : Num) : Num × Nat :=
  match x with
  | .nan q => (.nan false, if q then 1 else 0)
  | .inf neg =>
    if op = 3 then (.zero neg, 0)
    else if op = 4 then (if neg then (.nan false, 5) else (.zero false, 0))
    else (if neg then .zero false else .inf false, 0)
  | .zero neg => if op = 5 then (.fin 1 0, 0) else (.inf neg, 0)
  | .fin m e =>
    if op = 3 then (rcpSeed m e, 0)
    else if op = 4 then (if m < 0 then (.nan false, 5) else (rsqSeed m.natAbs e, 0))
    else (exp2Seed m e, 0)

/-- The code, flags and kind of a seed: a normal result raises nothing. -/
def seedResult (f op : Nat) (x : Num) : Nat × Nat × Nat :=
  let z := seedNum op x
  let y := convertNum f rmRNE false 0 z.1
  let normal := match decodeNum f y.1 with
    | .fin .. => histWord f (decodeNum f y.1) != 65
    | _ => false
  (y.1, (if normal then 0 else y.2) ||| (if z.2 = 0 then 0 else flNV), z.2)

/-! ### Stores by rows -/

/-- Bytes written where the list names one, in maximal runs (R201, R321). -/
def State.tsWriteRuns (s : State) (c o : Nat) (run : List Byte) : List (Option Byte) → State
  | [] => if run.isEmpty then s else s.tsWrite c (o - run.length) run
  | some b :: r => s.tsWriteRuns c (o + 1) (run ++ [b]) r
  | none :: r => (if run.isEmpty then s else s.tsWrite c (o - run.length) run).tsWriteRuns c (o + 1) [] r

/-- Rows of `n` bytes at A + r × STR. -/
def rowRanges (a str n : Nat) : List Range := (List.range 32).map fun r => (a + r * str, n)

/-- The checks of an address and a stride (Table VEC-4). -/
def vecCheck (al : Nat) (vals : List Nat) (foot : List Range) : Option IssueFault :=
  if vals.any fun v => decide (v ≥ 2 ^ 21) then some ⟨fcEngine, srcVector, 1, 0⟩
  else if vals.any fun v => v % al != 0 then some ⟨fcEngine, srcVector, 2, 0⟩
  else boundsFault foot

end Sys2Proof.Machine
end

