-- ==== Sys2Proof/Machine/Vector.lean ====
section
/-! DEFINITION. The vector instructions (R185 to R188, R195 to R202, R210). -/

namespace Sys2Proof.Machine

/-! ### Arithmetic (CLASS 0x18) -/

/-- Element (r, col) of Tt in view `f`. -/
def State.vElem (s : State) (c t f r col : Nat) : Nat := s.tElem c t (vecW f) r col

/-- A two-operand operation on the codes of elements, in view F. -/
def State.vBinary (s : State) (c op : Nat) (r : Rest) (legal : Bool) (g : State → Nat → Nat → Nat → Nat × Nat × Nat) : State :=
  s.vecRegs c 0x18 op r (vFieldsOk [.td, .ta, .tb, .f, .mask] r && legal) (·.operandRows c r (vF r) [vTA r, vTB r]) fun s =>
    s.vMap c r (vF r) fun i j => g s (i * vecC (vF r) + j) (s.vElem c (vTA r) (vF r) i j) (s.vElem c (vTB r) (vF r) i j)

/-- VADD, VSUB, VMUL: a float operation that rounds once (R189), or a wrapping integer one (R191). -/
def State.vArith (s : State) (c op : Nat) (r : Rest) (fl : Num → Num → Num × Nat) (int : Int → Int → Int) : State :=
  let f := vF r
  s.vBinary c op r ((vecFloat f && vRoundOk true r) || (vecInt f && vRoundOk false r)) fun s i a b =>
    if vecInt f then intOp (fmtBits f) int a b
    else
      let x := fl (decodeNum f a) (decodeNum f b)
      s.vConvert c r f i x.2 x.1

/-- VADD (R189): a + b. -/
def execVadd (core : Nat) (rest : Rest) (s : State) : Host.Outcome State Fault Refusal :=
  .next (s.vArith core 0x00 rest exactAdd fun a b => a + b)

/-- VSUB (R189): a − b. -/
def execVsub (core : Nat) (rest : Rest) (s : State) : Host.Outcome State Fault Refusal :=
  .next (s.vArith core 0x01 rest (fun a b => exactAdd a b.negate) fun a b => a - b)

/-- VMUL (R189): a × b; for integers the low bits. -/
def execVmul (core : Nat) (rest : Rest) (s : State) : Host.Outcome State Fault Refusal :=
  .next (s.vArith core 0x02 rest exactMul fun a b => a * b)

/-- A fused operation on three float operands. -/
def State.vFused (s : State) (c op : Nat) (r : Rest) (neg : Bool) : State :=
  let f := vF r
  s.vecRegs c 0x18 op r (vFieldsOk [.td, .ta, .tb, .tc, .f, .mask] r && vecFloat f && vRoundOk true r)
    (·.operandRows c r f [vTA r, vTB r, vTC r]) fun s =>
      s.vMap c r f fun i j =>
        let e (t : Nat) : Num := decodeNum f (s.vElem c t f i j)
        let x := exactFma neg (e (vTA r)) (e (vTB r)) (e (vTC r))
        s.vConvert c r f (i * vecC f + j) x.2 x.1

/-- VFMA (R189): a × b + c with one rounding. -/
def execVfma (core : Nat) (rest : Rest) (s : State) : Host.Outcome State Fault Refusal := .next (s.vFused core 0x03 rest false)

/-- VFNMA (R189): −(a × b) + c with one rounding. -/
def execVfnma (core : Nat) (rest : Rest) (s : State) : Host.Outcome State Fault Refusal := .next (s.vFused core 0x04 rest true)

/-- VMIN or VMAX (R191, R192). -/
def State.vMinMax (s : State) (c op : Nat) (r : Rest) (max : Bool) : State :=
  let f := vF r
  s.vBinary c op r ((vecFloat f || vecInt f) && vRoundOk false r) fun _ _ a b =>
    if vecInt f then intOp (fmtBits f) (fun x y => if max then (if x < y then y else x) else (if y < x then y else x)) a b
    else floatMinMax f max a b

/-- VMIN (R192). -/
def execVmin (core : Nat) (rest : Rest) (s : State) : Host.Outcome State Fault Refusal := .next (s.vMinMax core 0x05 rest false)

/-- VMAX (R192). -/
def execVmax (core : Nat) (rest : Rest) (s : State) : Host.Outcome State Fault Refusal := .next (s.vMinMax core 0x06 rest true)

/-- A one-operand operation of CLASS 0x18 on codes. -/
def State.vUnary (s : State) (c op : Nat) (r : Rest) (g : Nat → Nat × Nat × Nat) : State :=
  let f := vF r
  s.vecRegs c 0x18 op r (vFieldsOk [.td, .ta, .f, .mask] r && (vecFloat f || vecInt f) && vRoundOk false r)
    (·.operandRows c r f [vTA r]) fun s =>
    s.vMap c r f fun i j => g (s.vElem c (vTA r) f i j)

/-- |a| on a code: the sign bit cleared, or the wrapping integer magnitude. -/
def absCode (f a : Nat) : Nat :=
  let n := fmtBits f
  if vecInt f then unsig n (sext n a).natAbs else a % 2 ^ (n - 1)

/-- −a on a code: the sign bit inverted, or the wrapping negative. -/
def negCode (f a : Nat) : Nat :=
  let n := fmtBits f
  if vecInt f then unsig n (-(sext n a)) else a ^^^ 2 ^ (n - 1)

/-- VABS (R192). -/
def execVabs (core : Nat) (rest : Rest) (s : State) : Host.Outcome State Fault Refusal :=
  .next (s.vUnary core 0x07 rest fun a => (absCode (vF rest) a, 0, 0))

/-- VNEG (R192). -/
def execVneg (core : Nat) (rest : Rest) (s : State) : Host.Outcome State Fault Refusal :=
  .next (s.vUnary core 0x08 rest fun a => (negCode (vF rest) a, 0, 0))

/-- A bitwise or shift operation on integers (R191); the shift amount is b mod 8w. -/
def State.vLogic (s : State) (c op : Nat) (r : Rest) (g : Nat → Nat → Nat → Nat) : State :=
  let f := vF r
  let n := fmtBits f
  s.vBinary c op r (vecInt f && vRoundOk false r) fun _ _ a b => (g n a b % 2 ^ n, 0, 0)

/-- VAND (R191): a and b. -/
def execVand (core : Nat) (rest : Rest) (s : State) : Host.Outcome State Fault Refusal :=
  .next (s.vLogic core 0x09 rest fun _ a b => a &&& b)

/-- VOR (R191): a or b. -/
def execVor (core : Nat) (rest : Rest) (s : State) : Host.Outcome State Fault Refusal :=
  .next (s.vLogic core 0x0A rest fun _ a b => a ||| b)

/-- VXOR (R191): a xor b. -/
def execVxor (core : Nat) (rest : Rest) (s : State) : Host.Outcome State Fault Refusal :=
  .next (s.vLogic core 0x0B rest fun _ a b => a ^^^ b)

/-- VSLL (R191): a shifted left. -/
def execVsll (core : Nat) (rest : Rest) (s : State) : Host.Outcome State Fault Refusal :=
  .next (s.vLogic core 0x0C rest fun n a b => a <<< (b % n))

/-- VSRL (R191): a shifted right, zeros entering. -/
def execVsrl (core : Nat) (rest : Rest) (s : State) : Host.Outcome State Fault Refusal :=
  .next (s.vLogic core 0x0D rest fun n a b => a >>> (b % n))

/-- VSRA (R191): a shifted right, sign entering. -/
def execVsra (core : Nat) (rest : Rest) (s : State) : Host.Outcome State Fault Refusal :=
  .next (s.vLogic core 0x0E rest fun n a b => unsig n (sext n a / (2 ^ (b % n) : Nat)))

/-- Identity of a reduction (R194): code by operation (0 SUM, 1 MAX, 2 MIN). -/
def redIdentity (f op : Nat) : Nat :=
  let n := fmtBits f
  if vecInt f then (if op = 0 then 0 else if op = 1 then 2 ^ (n - 1) else 2 ^ (n - 1) - 1)
  else if op = 0 then 2 ^ (n - 1)
  else
    let i := (convertNum f rmRNE false 0 (.inf false)).1
    if op = 1 then i + 2 ^ (n - 1) else i

/-- The operation of a reduction on codes. -/
def redOp (f op x y : Nat) : Nat × Nat :=
  let n := fmtBits f
  if vecInt f then
    let a := sext n x
    let b := sext n y
    (if op = 0 then unsig n (a + b) else if op = 1 then unsig n (if a < b then b else a) else unsig n (if b < a then b else a), 0)
  else if op = 0 then addF f x y
  else
    let z := floatMinMax f (op == 1) x y
    (z.1, z.2.1)

/-- A list reduced: the value, its flags, and the least kind: a signalling input, or opposite infinities. -/
def reduce (f op k : Nat) (l : List Nat) : Nat × Nat × Nat :=
  let t := ptree (redOp f op) k l
  let snan := !vecInt f && l.any fun x => (decodeNum f x).isSnan
  let fl := t.2 ||| (if snan then flNV else 0)
  (t.1, fl, if snan then 1 else if fl &&& flNV ≠ 0 then 3 else 0)

/-- Levels of the tree over the columns of a view. -/
def colLevels (f : Nat) : Nat := Nat.log2 (vecC f)

/-- Results of VRED by position: ROW, COL or ALL (R194). -/
def State.vredTable (s : State) (c : Nat) (r : Rest) : List (Nat × Nat × Nat) :=
  let f := vF r
  let op := vImm r % 4
  let m := if vMasked r then s.mask c (vMK r) else 0
  let inp (i j : Nat) : Nat :=
    if activeIn (vMasked r) m (vecW f) i j then s.vElem c (vTA r) f i j else redIdentity f op
  let row (i : Nat) : Nat × Nat × Nat := reduce f op (colLevels f) ((List.range (vecC f)).map fun j => inp i j)
  if vImm r / 4 % 4 = 0 then (List.range 32).map row
  else if vImm r / 4 % 4 = 1 then
    (List.range (vecC f)).map fun j => reduce f op 5 ((List.range 32).map fun i => inp i j)
  else
    let rows := (List.range 32).map row
    let y := reduce f op 5 (rows.map (·.1))
    let fl := rows.foldl (fun a e => a ||| e.2.1) y.2.1
    let kind := if rows.any fun e => e.2.2 == 1 then 1 else if fl &&& flNV ≠ 0 then 3 else 0
    [(y.1, fl, kind)]

/-- VRED (R194): SUM, MAX or MIN of rows, columns or all, by fixed pairwise trees under RNE. -/
def execVred (core : Nat) (rest : Rest) (s : State) : Host.Outcome State Fault Refusal :=
  let f := vF rest
  .next (s.vecRegs core 0x18 0x10 rest
    (vFieldsOk [.td, .ta, .f, .mask, .imm] rest && (decide (f ≤ 1) || vecInt f) && vRoundOk false rest &&
      decide (vImm rest < 16) && vImm rest % 4 != 3 && vImm rest / 4 != 3) (·.operandRows core rest f [vTA rest]) fun s =>
    let t := s.vredTable core rest
    s.vMap core rest f fun i j =>
      if vImm rest / 4 % 4 = 0 then t.getD i (0, 0, 0) else if vImm rest / 4 % 4 = 1 then t.getD j (0, 0, 0) else t.headD (0, 0, 0))

/-! ### Compare, select and move (CLASS 0x19) -/

/-- What VCMP computes: the destination mask with the bytes of each active element replaced, and the results. -/
def State.vcmpBody (s : State) (core : Nat) (rest : Rest) : State × List VRes :=
  let f := vF rest
  let w := vecW f
  let m := if vMasked rest then s.mask core (vMK rest) else 0
  let old := s.mask core (vTD rest)
  let l := ((positions (vecC f)).filter fun p => activeIn (vMasked rest) m w p.1 p.2).map fun p =>
    let a := s.vElem core (vTA rest) f p.1 p.2
    let b := s.vElem core (vTB rest) f p.1 p.2
    let x := if vecFloat f then floatCmp f (vImm rest) a b
      else
        let p := sext (fmtBits f) a
        let q := sext (fmtBits f) b
        (cmpHolds (vImm rest) (decide (p < q)) (decide (p = q)), 0, 0)
    (⟨p.1, p.2, if x.1 then 1 else 0, x.2.1, x.2.2⟩ : VRes)
  let ones (e : VRes) : Nat := (2 ^ w - 1) <<< (128 * e.row + e.col * w)
  let act := l.foldl (fun a e => a ||| ones e) 0
  let set := l.foldl (fun a e => if e.code = 1 then a ||| ones e else a) 0
  (s.setMask core (vTD rest) ((old ^^^ (old &&& act)) ||| set), l)

/-- VCMP (R193): mask TD := predicate IMM[2:0] of (a, b). -/
def execVcmp (core : Nat) (rest : Rest) (s : State) : Host.Outcome State Fault Refusal :=
  let f := vF rest
  .next (s.vecRegs core 0x19 0x00 rest
    (vFieldsOk [.td, .ta, .tb, .f, .mask, .imm] rest && (vecFloat f || f == fmtINT8 || vecInt f) && vRoundOk false rest &&
      decide (vTD rest < 8) && decide (vImm rest < 8)) (·.operandRows core rest f [vTA rest, vTB rest]) fun s => s.vcmpBody core rest)

/-- The rows that VSEL reads: of TA those with an element whose mask bit is 1, of TB those with one whose bit is 0 (R182). -/
def State.vselRows (s : State) (c : Nat) (r : Rest) : List (Nat × Nat) :=
  let has (b : Bool) (i : Nat) : Bool :=
    (List.range (vecC (vF r))).any fun j => activeIn true (s.mask c (vMK r)) (vecW (vF r)) i j == b
  ((List.range 32).filter (has true)).map (fun i => (vTA r, i)) ++ ((List.range 32).filter (has false)).map fun i => (vTB r, i)

/-- VSEL (R186): a where bit MK is 1, else b, for every element. -/
def execVsel (core : Nat) (rest : Rest) (s : State) : Host.Outcome State Fault Refusal :=
  let f := vF rest
  let w := vecW f
  .next (s.vecRegs core 0x19 0x01 rest
    (vFieldsOk [.td, .ta, .tb, .f, .mask] rest && vecView f && vRoundOk false rest && vMasked rest) (·.vselRows core rest) fun s =>
    let m := s.mask core (vMK rest)
    let l := (positions (vecC f)).map fun p =>
      let t := if activeIn true m w p.1 p.2 then vTA rest else vTB rest
      (⟨p.1, p.2, s.vElem core t f p.1 p.2, 0, 0⟩ : VRes)
    ((s.vWrite core (vTD rest) w l).rowsFresh core (vTD rest) false, l))

/-- A movement of CLASS 0x19: each element of the view from its position (R195). -/
def State.vMove (s : State) (c op : Nat) (r : Rest) (legal : Bool) (rows : State → List (Nat × Nat))
    (g : State → Nat → Nat → Nat) : State :=
  s.vecRegs c 0x19 op r (legal && vRoundOk false r) rows fun s => s.vMap c r (vF r) fun i j => (g s i j, 0, 0)

/-- VMOV (R195): bits unchanged. -/
def execVmov (core : Nat) (rest : Rest) (s : State) : Host.Outcome State Fault Refusal :=
  .next (s.vMove core 0x02 rest (vFieldsOk [.td, .ta, .f, .mask] rest && vecView (vF rest))
    (·.operandRows core rest (vF rest) [vTA rest]) fun s i j => s.vElem core (vTA rest) (vF rest) i j)

/-- VSPLAT (R186): the low bits of S register TB. -/
def execVsplat (core : Nat) (rest : Rest) (s : State) : Host.Outcome State Fault Refusal :=
  .next (s.vMove core 0x03 rest (vFieldsOk [.td, .tb, .f, .mask] rest && vecView (vF rest)) (fun _ => []) fun s _ _ =>
    (s.sreg (s.win core) (vTB rest)).toNat % 2 ^ fmtBits (vF rest))

/-- VIOTA (R186): S[TB] + r × C + c, wrapping. -/
def execViota (core : Nat) (rest : Rest) (s : State) : Host.Outcome State Fault Refusal :=
  .next (s.vMove core 0x04 rest (vFieldsOk [.td, .tb, .f, .mask] rest && vecInt (vF rest)) (fun _ => []) fun s i j =>
    ((s.sreg (s.win core) (vTB rest)).toNat + i * vecC (vF rest) + j) % 2 ^ fmtBits (vF rest))

/-- The rows of TA that VROT reads: those that its active elements come from (R182). -/
def State.vrotRows (s : State) (c : Nat) (r : Rest) : List (Nat × Nat) :=
  let k := (s.sreg (s.win c) (vTB r)).toNat
  (s.activeRows c r (vF r)).map fun i => (vTA r, if vImm r = 0 then (i + k) % 32 else i)

/-- VROT (R186): rows (IMM 0) or columns (IMM 1) rotated by S register TB. -/
def execVrot (core : Nat) (rest : Rest) (s : State) : Host.Outcome State Fault Refusal :=
  .next (s.vMove core 0x05 rest
    (vFieldsOk [.td, .ta, .tb, .f, .mask, .imm] rest && vecView (vF rest) && decide (vImm rest < 2)) (·.vrotRows core rest) fun s i j =>
    let k := (s.sreg (s.win core) (vTB rest)).toNat
    let n := vecC (vF rest)
    if vImm rest = 0 then s.vElem core (vTA rest) (vF rest) ((i + k) % 32) j
    else s.vElem core (vTA rest) (vF rest) i ((j + k) % n))

/-- A mask operation of CLASS 0x19: fields name mask registers and MASKED is 0 (R186). -/
def State.vMaskOp (s : State) (c op : Nat) (r : Rest) (used : List VUse) (legal : Bool) (regs : List Nat) (g : State → Nat) : State :=
  s.vecRegs c 0x19 op r (vFieldsOk used r && vRoundOk false r && legal && decide (vTD r < 8)) (fun _ => wholeRows regs) fun s =>
    (s.setMask c (vTD r) (g s % 2 ^ 4096), [])

/-- Two-operand mask operations. -/
def State.vMask2 (s : State) (c op : Nat) (r : Rest) (g : Nat → Nat → Nat) : State :=
  s.vMaskOp c op r [.td, .ta, .tb] (decide (vTA r < 8) && decide (vTB r < 8)) [32 + vTA r, 32 + vTB r] fun s =>
    g (s.mask c (vTA r)) (s.mask c (vTB r))

/-- VMAND (R186): MA and MB. -/
def execVmand (core : Nat) (rest : Rest) (s : State) : Host.Outcome State Fault Refusal :=
  .next (s.vMask2 core 0x08 rest fun a b => a &&& b)

/-- VMOR (R186): MA or MB. -/
def execVmor (core : Nat) (rest : Rest) (s : State) : Host.Outcome State Fault Refusal :=
  .next (s.vMask2 core 0x09 rest fun a b => a ||| b)

/-- VMXOR (R186): MA xor MB. -/
def execVmxor (core : Nat) (rest : Rest) (s : State) : Host.Outcome State Fault Refusal :=
  .next (s.vMask2 core 0x0A rest fun a b => a ^^^ b)

/-- VMANDN (R186): MA and not MB. -/
def execVmandn (core : Nat) (rest : Rest) (s : State) : Host.Outcome State Fault Refusal :=
  .next (s.vMask2 core 0x0B rest fun a b => a ^^^ (a &&& b))

/-- VMSET (R186): all ones if IMM[0] is 1, else all zeros. -/
def execVmset (core : Nat) (rest : Rest) (s : State) : Host.Outcome State Fault Refusal :=
  .next (s.vMaskOp core 0x0C rest [.td, .imm] (decide (vImm rest < 2)) [] fun _ => if vImm rest = 1 then 2 ^ 4096 - 1 else 0)

/-- VMNOT (R186): not MA. -/
def execVmnot (core : Nat) (rest : Rest) (s : State) : Host.Outcome State Fault Refusal :=
  .next (s.vMaskOp core 0x0D rest [.td, .ta] (decide (vTA rest < 8)) [32 + vTA rest] fun s =>
    (2 ^ 4096 - 1) ^^^ s.mask core (vTA rest))

/-! ### Conversion, random and seeds (CLASS 0x1A) -/

/-- H of a VCVT is within its range, and the formats differ (R187, R197). -/
def vcvtLegal (r : Rest) : Bool :=
  let a := vecC (vF r)
  let b := vecC (vF2 r)
  vecView (vF r) && vecView (vF2 r) && vF r != vF2 r && decide (vImm r < (if b < a then a / b else b / a))

/-- What VCVT computes: the elements of half IMM of the wider view, and the results. -/
def State.vcvtBody (s : State) (core : Nat) (rest : Rest) : State × List VRes :=
  let f := vF rest
  let g := vF2 rest
  let cf := vecC f
  let cg := vecC g
  let h := vImm rest
  let w := vecW g
  let m := if vMasked rest then s.mask core (vMK rest) else 0
  let from_ (j : Nat) : Option Nat :=
    if cg ≤ cf then some (j + h * cg) else if h * cf ≤ j ∧ j < (h + 1) * cf then some (j - h * cf) else none
  let l := ((positions cg).filter fun p => activeIn (vMasked rest) m w p.1 p.2).filterMap fun p =>
    match from_ p.2 with
    | none => none
    | some j =>
      let x := decodeNum f (s.vElem core (vTA rest) f p.1 j)
      let y := s.vConvert core rest g (p.1 * cg + p.2) (if x.isSnan then 1 else 0) x
      some (⟨p.1, p.2, y.1, y.2.1, y.2.2⟩ : VRes)
  ((s.vWrite core (vTD rest) w l).rowsFresh core (vTD rest) (vMasked rest || decide (cf < cg)), l)

/-- The rows of TA that VCVT reads: those with an active element of view F2 that half IMM gives a value (R182). -/
def State.vcvtRows (s : State) (c : Nat) (r : Rest) : List (Nat × Nat) :=
  let cf := vecC (vF r)
  let cg := vecC (vF2 r)
  let m := if vMasked r then s.mask c (vMK r) else 0
  ((List.range 32).filter fun i => (List.range cg).any fun j =>
    activeIn (vMasked r) m (vecW (vF2 r)) i j && (decide (cg ≤ cf) || j / cf == vImm r)).map fun i => (vTA r, i)

/-- VCVT (R197): converts from F to F2, widening from half H or narrowing into half H. -/
def execVcvt (core : Nat) (rest : Rest) (s : State) : Host.Outcome State Fault Refusal :=
  .next (s.vecRegs core 0x1A 0x00 rest
    (vFieldsOk [.td, .ta, .f, .f2, .mask, .imm] rest && vRoundOk true rest && vcvtLegal rest) (·.vcvtRows core rest) fun s => s.vcvtBody core rest)

/-- One row of VPACK: scale code, element codes with their flags and kinds. -/
def State.packRow (s : State) (c : Nat) (r : Rest) (row : Nat) : Nat × List VRes :=
  let g := vF2 r
  let v := (List.range 32).map fun i => decodeNum fmtFP32 (s.tElem c (vTA r) 4 row i)
  let z := blockScale g v 0
  match z.1 with
  | none =>
    (0xFF, (List.range 32).map fun i =>
      let x := v.getD i (.zero false)
      (⟨row, i, 0, if x.isSnan then flNV else if x.isInf then z.2 &&& flOF else 0, if x.isSnan then 1 else 0⟩ : VRes))
  | some e =>
    ((e + 127).toNat, (List.range 32).map fun i =>
      let w := if vCC r % 4 = 2 then (s.vKey c r).word (32 * row + i) else 0
      let y := encodeElem g (s.ccMode (vCC r)) w e (v.getD i (.zero false))
      (⟨row, i, y.1, y.2, if y.2 &&& flNV ≠ 0 then 4 else 0⟩ : VRes))

/-- What VPACK computes: slot IMM of each row and its scale, and the results. -/
def State.vpackBody (s : State) (core : Nat) (rest : Rest) : State × List VRes :=
  let g := vF2 rest
  let rows := (List.range 32).map fun r => (r, s.packRow core rest r)
  let s := rows.foldl (fun s e =>
    let s := s.tPut core (vTD rest) e.1 (vImm rest * fmtBlock g) (blockBytes (fmtBits g) (e.2.2.map (·.code)))
    s.tPut core (vTB rest) e.1 (vImm rest) [BitVec.ofNat 8 e.2.1]) s
  (s, rows.flatMap fun e => e.2.2)

/-- VPACK (R198): block-encodes row r of a into slot IMM of row r of d, its scale into byte IMM of row r of TB. -/
def execVpack (core : Nat) (rest : Rest) (s : State) : Host.Outcome State Fault Refusal :=
  let g := vF2 rest
  .next (s.vecRegs core 0x1A 0x01 rest
    (vFieldsOk [.td, .ta, .tb, .f, .f2, .imm] rest && vRoundOk true rest && vF rest == fmtFP32 && vecBlock g &&
      decide (vImm rest < vecSlots g)) (fun _ => wholeRows [vTA rest]) fun s => s.vpackBody core rest)

/-- VUNPACK (R198): element c of slot IMM of row r of a, under the scale in byte IMM of row r of TB, as FP32. -/
def execVunpack (core : Nat) (rest : Rest) (s : State) : Host.Outcome State Fault Refusal :=
  let g := vF2 rest
  .next (s.vecRegs core 0x1A 0x02 rest
    (vFieldsOk [.td, .ta, .tb, .f, .f2, .imm] rest && vRoundOk true rest && vF rest == fmtFP32 && vecBlock g &&
      decide (vImm rest < vecSlots g)) (fun _ => wholeRows [vTA rest, vTB rest]) fun s =>
    s.vMap core rest fmtFP32 fun i j =>
      let b := bytesAt s.tc.tiles (tileKey core (vTA rest) i (vImm rest * fmtBlock g)) (fmtBlock g)
      let x := scaledNum g (blockElem (fmtBits g) b j) (s.tElem core (vTB rest) 1 i (vImm rest))
      s.vConvert core rest fmtFP32 (i * 32 + j) (if x.isSnan then 1 else 0) x)

/-- A seed instruction (R200). -/
def State.vSeed (s : State) (c op : Nat) (r : Rest) : State :=
  let f := vF r
  s.vecRegs c 0x1A op r (vFieldsOk [.td, .ta, .f, .mask] r && decide (f ≤ 1) && vRoundOk false r) (·.operandRows c r f [vTA r]) fun s =>
    s.vMap c r f fun i j => seedResult f op (decodeNum f (s.vElem c (vTA r) f i j))

/-- RCPS (R200). -/
def execRcps (core : Nat) (rest : Rest) (s : State) : Host.Outcome State Fault Refusal := .next (s.vSeed core 0x03 rest)

/-- RSQS (R200). -/
def execRsqs (core : Nat) (rest : Rest) (s : State) : Host.Outcome State Fault Refusal := .next (s.vSeed core 0x04 rest)

/-- EXP2S (R200). -/
def execExp2s (core : Nat) (rest : Rest) (s : State) : Host.Outcome State Fault Refusal := .next (s.vSeed core 0x05 rest)

/-- A word in view FP32: bits(word, 31, 8) × 2^−24 (R199). -/
def uniform32 (w : Nat) : Nat := (rne32 (Num.ofInt (bits w 31 8 : Nat) (-24))).1

/-- VRAND (R199): words of the key block, raw or as uniform FP32 values. -/
def execVrand (core : Nat) (rest : Rest) (s : State) : Host.Outcome State Fault Refusal :=
  let f := vF rest
  .next (s.vecRegs core 0x1A 0x06 rest
    (vFieldsOk [.td, .f, .mask] rest && (f == fmtINT32 || f == fmtFP32) && vCC rest == 0 && vSK rest != 0 && vSK rest % 4 == 0)
    (fun _ => []) fun s =>
    let k := s.vKey core rest
    s.vMap core rest f fun i j =>
      let w := k.word (i * 32 + j)
      (if f = fmtFP32 then uniform32 w else w, 0, 0))

/-! ### Memory and records (CLASS 0x1B) -/

/-- A and STR of CLASS 0x1B (R188). -/
def State.vAddr (s : State) (c : Nat) (r : Rest) : Nat := (s.sreg (s.win c) (vTA r)).toNat
def State.vStr (s : State) (c : Nat) (r : Rest) : Nat := (s.sreg (s.win c) (vTB r)).toNat

/-- Issue of a row-wise instruction whose rows take `n` bytes (R201, R203). -/
def State.vRows (s : State) (c op : Nat) (r : Rest) (legal : Bool) (n : Nat) (reads : State → List Range)
    (rows : State → List (Nat × Nat)) (body : State → State × List VRes) : State :=
  s.vector c 0x1B op r legal (fun s => vecCheck 32 [s.vAddr c r, s.vStr c r] (rowRanges (s.vAddr c r) (s.vStr c r) n))
    (fun s => rowRanges (s.vAddr c r) (s.vStr c r) n) reads (fun s => maskRows r ++ rows s) body

/-- The view in which VLD and VST treat a register: a packed one moves bytes (R180). -/
def memView (f : Nat) : Nat := if vecPacked f then fmtINT8 else f

/-- Formats of VLD and VST, packed ones unmasked (R201). -/
def memLegal (r : Rest) : Bool := vecView (vF r) || (vecPacked (vF r) && !vMasked r)

/-- VLD (R201): row r from A + r × STR into the active elements of view F. -/
def execVld (core : Nat) (rest : Rest) (s : State) : Host.Outcome State Fault Refusal :=
  let f := memView (vF rest)
  let w := vecW f
  .next (s.vRows core 0x00 rest (vFieldsOk [.td, .ta, .tb, .f, .mask] rest && memLegal rest && vRoundOk false rest) 128
    (fun s =>
      if vMasked rest then
        let m := s.mask core (vMK rest)
        ((positions (vecC f)).filter fun p => activeIn true m w p.1 p.2).map fun p =>
          (s.vAddr core rest + p.1 * s.vStr core rest + p.2 * w, w)
      else rowRanges (s.vAddr core rest) (s.vStr core rest) 128) (fun _ => []) fun s =>
    let x := s.vMap core rest f fun i j => (s.tsNat core (s.vAddr core rest + i * s.vStr core rest + j * w) w, 0, 0)
    (x.1, []))

/-- Rows of a store: the bytes of the active elements, none elsewhere; row after row. -/
def State.vStoreRows (s : State) (c a str n : Nat) (act : Nat → Nat → Bool) (w : Nat) (code : Nat → Nat → Nat) : State :=
  (List.range 32).foldl (fun s r =>
    s.tsWriteRuns c (a + r * str) [] ((List.range n).flatMap fun j =>
      if act r j then (natLE w (code r j)).map some else List.replicate w none)) s

/-- What VST does: the rows stored, and counted unless HX or a packed view forbids it. -/
def State.vstBody (s : State) (core : Nat) (rest : Rest) : State × List VRes :=
  let f := memView (vF rest)
  let w := vecW f
  let m := if vMasked rest then s.mask core (vMK rest) else 0
  let act (i j : Nat) : Bool := activeIn (vMasked rest) m w i j
  let code (i j : Nat) : Nat := s.vElem core (vTD rest) f i j
  let s' := s.vStoreRows core (s.vAddr core rest) (s.vStr core rest) (vecC f) act w code
  let counted := ((positions (vecC f)).filter fun p => act p.1 p.2).map fun p => (histWord f (decodeNum f (code p.1 p.2)), 0)
  (if vImm rest = 1 ∨ vecPacked (vF rest) then s' else s'.histAll (Reg.VE_HIST (s.win core) 0) counted, [])

/-- VST (R201): the active elements of row r go to A + r × STR. -/
def execVst (core : Nat) (rest : Rest) (s : State) : Host.Outcome State Fault Refusal :=
  .next (s.vRows core 0x01 rest
    (vFieldsOk [.td, .ta, .tb, .f, .mask, .imm] rest && memLegal rest && vRoundOk false rest && decide (vImm rest < 2)) 128
    (fun _ => []) (·.operandRows core rest (memView (vF rest)) [vTD rest]) fun s => s.vstBody core rest)

/-- What VSTC does: the converted rows stored, and counted unless HX forbids it. -/
def State.vstcBody (s : State) (core : Nat) (rest : Rest) : State × List VRes :=
  let f := vF rest
  let g := vF2 rest
  let n := vecC f
  let m := if vMasked rest then s.mask core (vMK rest) else 0
  let act (i j : Nat) : Bool := activeIn (vMasked rest) m (vecW f) i j
  let l := ((positions n).filter fun p => act p.1 p.2).map fun p =>
    let x := decodeNum f (s.vElem core (vTD rest) f p.1 p.2)
    let y := s.vConvert core rest g (p.1 * n + p.2) (if x.isSnan then 1 else 0) x
    (⟨p.1, p.2, y.1, y.2.1, y.2.2⟩ : VRes)
  let codes := l.map fun e => (e.row * n + e.col, e.code)
  let s' := s.vStoreRows core (s.vAddr core rest) (s.vStr core rest) n act (vecW g) fun i j => sGet (fun _ => 0) codes (i * n + j)
  let counted := l.map fun e => (histWord g (decodeNum g e.code), e.flags)
  (if vImm rest = 1 then s' else s'.histAll (Reg.VE_HIST (s.win core) 0) counted, l)

/-- VSTC (R201): each active element converted from F to F2 goes to A + r × STR + c × w2. -/
def execVstc (core : Nat) (rest : Rest) (s : State) : Host.Outcome State Fault Refusal :=
  let f := vF rest
  let g := vF2 rest
  let n := vecC f
  .next (s.vRows core 0x02 rest
    (vFieldsOk [.td, .ta, .tb, .f, .f2, .mask, .imm] rest && vecView f && vecView g && decide (vecW g ≤ vecW f) &&
      vRoundOk true rest && decide (vImm rest < 2)) (n * vecW g) (fun _ => []) (·.operandRows core rest f [vTD rest]) fun s =>
        s.vstcBody core rest)

/-- VMLD (R202): mask TD := 512 bytes at A. -/
def execVmld (core : Nat) (rest : Rest) (s : State) : Host.Outcome State Fault Refusal :=
  let foot (s : State) : List Range := [(s.vAddr core rest, 512)]
  .next (s.vector core 0x1B 0x03 rest (vFieldsOk [.td, .ta] rest && vRoundOk false rest && decide (vTD rest < 8))
    (fun s => vecCheck 64 [s.vAddr core rest] (foot s)) foot foot (fun _ => []) fun s =>
      (s.setMask core (vTD rest) (s.tsNat core (s.vAddr core rest) 512), []))

/-- VMST (R202): 512 bytes at A := mask TD. -/
def execVmst (core : Nat) (rest : Rest) (s : State) : Host.Outcome State Fault Refusal :=
  let foot (s : State) : List Range := [(s.vAddr core rest, 512)]
  .next (s.vector core 0x1B 0x04 rest (vFieldsOk [.td, .ta] rest && vRoundOk false rest && decide (vTD rest < 8))
    (fun s => vecCheck 64 [s.vAddr core rest] (foot s)) foot (fun _ => []) (fun _ => wholeRows [32 + vTD rest]) fun s =>
      (s.tsWrite core (s.vAddr core rest) (natLE 512 (s.mask core (vTD rest))), []))

/-- The flags, the exception record and the histogram of the vector engine are cleared. -/
def State.veClearFlags (s : State) (w : Nat) : State := s.wr (Reg.VE_FLAGS w) 0
def State.veClearExc (s : State) (w : Nat) : State := (s.wr (Reg.VE_EXC w) 0).wr (Reg.VE_EXC_INFO w) 0
def State.veClearHist (s : State) (w : Nat) : State := s.histClear (Reg.VE_HIST w 0)

/-- What VHREC does: the record stored, and cleared with CLEAR. -/
def State.vhrecBody (s : State) (core : Nat) (rest : Rest) : State × List VRes :=
  let store := !bit (vImm rest) 2
  let w := s.win core
  let s := if store then
      s.tsWrite core (s.vAddr core rest) (s.recordBytes (Reg.VE_FLAGS w) (Reg.VE_EXC w) (Reg.VE_EXC_INFO w) (Reg.VE_HIST w 0))
    else s
  (if bit (vImm rest) 1 then ((s.veClearFlags w).veClearExc w).veClearHist w else s, [])

/-- VHREC (R210): stores the record at A unless NOSTORE, then clears it with CLEAR. -/
def execVhrec (core : Nat) (rest : Rest) (s : State) : Host.Outcome State Fault Refusal :=
  let store := !bit (vImm rest) 2
  let foot (s : State) : List Range := if store then [(s.vAddr core rest, 384)] else []
  .next (s.vector core 0x1B 0x08 rest
    (vFieldsOk [.ta, .imm] rest && vRoundOk false rest && decide (vImm rest < 8) && vImm rest % 2 == 0 && (store || vTA rest == 0))
    (fun s => if store then vecCheck 64 [s.vAddr core rest] (foot s) else none) foot (fun _ => []) (fun _ => []) fun s => s.vhrecBody core rest)

/-- VE_CLEAR_FLAGS (R207): a write of VE_CTRL.CLEAR_FLAGS. -/
def execVeClearFlags (agent : Agent) (die phys : Nat) (s : State) : Host.Outcome State Fault Refusal :=
  .next (s.engineCtrl agent die phys State.veClearFlags)

/-- VE_CLEAR_EXC (R208): a write of VE_CTRL.CLEAR_EXC. -/
def execVeClearExc (agent : Agent) (die phys : Nat) (s : State) : Host.Outcome State Fault Refusal :=
  .next (s.engineCtrl agent die phys State.veClearExc)

/-- VE_CLEAR_HIST (R209): a write of VE_CTRL.CLEAR_HIST. -/
def execVeClearHist (agent : Agent) (die phys : Nat) (s : State) : Host.Outcome State Fault Refusal :=
  .next (s.engineCtrl agent die phys State.veClearHist)

end Sys2Proof.Machine
end

