-- ==== Sys2Proof/Machine/RegWrite.lean ====
section
/-! DEFINITION. A write to control space (R7, R11): by the access codes of the register, under the write rights of its block
(R118, R119, R274, R275, R312, R340, R386, R418, R446, R472, R506, R529, R565), with the effect that its chapter gives it. -/

namespace Sys2Proof.Machine

/-- The state that a command leaves, for a write that is that command. -/
def State.after (s : State) (o : Host.Outcome State Fault Refusal) : State :=
  match o with
  | .next t => t
  | _ => s

/-- A write by access codes alone (Table SCO-4): RW bits take the value, W1C bits written 1 clear, W1S bits written 1 set. -/
def codedWrite (r : RegSpec) (old v : Word) : Word :=
  let rw := BitVec.ofNat 64 r.rw
  let keep := (old &&& ~~~ rw) ||| (v &&& rw)
  (keep &&& ~~~ (v &&& BitVec.ofNat 64 r.w1c)) ||| (v &&& BitVec.ofNat 64 r.w1s)

/-- The register at `a` is written by its access codes; an address that no map lists ignores it (R11, R589). -/
def State.coded (s : State) (a : Nat) (v : Word) : State :=
  match regSpec a with
  | none => s
  | some r => s.wr a (codedWrite r (s.rd a) v)

/-- Bowline, the management context, or the partition context while HOST_PARTITION is valid (R274). -/
def State.mayJoin (s : State) (agent : Agent) : Bool := (s.ctx agent).serves

/-- A write that only Bowline and the management context may make. -/
def State.codedPriv (s : State) (agent : Agent) (a : Nat) (v : Word) : State := if (s.ctx agent).priv then s.coded a v else s

/-- A write that the partition context may make as well. -/
def State.codedJoin (s : State) (agent : Agent) (a : Nat) (v : Word) : State := if s.mayJoin agent then s.coded a v else s

/-- The value with a field kept as it stands in the register unless its new value lies in `lo` to `hi`. -/
def State.keepUnless (s : State) (a : Nat) (f : Field) (lo hi : Nat) (v : Word) : Word :=
  if within lo hi (getF v f) then v else setF v f (s.fld a f)

/-! ### Halyard (R44, R47, R60) -/

def State.writeTalq (s : State) (agent : Agent) (q : Nat) (o : Nat) (v : Word) : State :=
  match o with
  | 0x0 =>
    if s.mayJoin agent then { s with hly := { s.hly with arm0 := sSet noArm s.hly.arm0 (armKey q agent) v } } else s
  | 0x8 => s.after (execHlyTalqArm1 agent q v s)
  | 0x18 => s.after (execHlyTalqCancel agent q v s)
  | _ => s

/-- A write to the done mask waits for the next tick start (R47). -/
def State.writeMask (s : State) (a : Nat) (v : Word) : State :=
  { s with hly := { s.hly with maskNext := s.hly.maskNext.filter (fun e => e.1 != a) ++ [Prod.mk a (s.maskAllowed a v)] } }

/-- A write to Halyard. The marks, the guard and quiet lengths and the slip configuration are staged in the registers themselves, so
that a read gives the staged values (DESIGN CHOICE, log entry 61). -/
def State.writeHly (s : State) (agent : Agent) (a : Nat) (v : Word) : State :=
  if s.mayJoin agent = false then s
  else if a = Reg.HLY_CTRL then s.writeHlyCtrl v
  else if a = Reg.HLY_PERIOD then { s with hly := { s.hly with stagedPeriod := getF v Fld.HLY_PERIOD_PERIOD } }
  else if a = Reg.HLY_PARAM then s.commitParams v
  else if a = Reg.HLY_HOST_DONE then s.after (execHlyHostDone agent v s)
  else if a = Reg.HLY_DONE_MASK_U ∨ (Reg.HLY_DONE_MASK_C 0 ≤ a ∧ a < Reg.HLY_DONE_MASK_C 10) then s.writeMask a v
  else s.coded a v

/-! ### Bowline's blocks (R472, R493, R506) -/

def State.writeMbxCtrl (s : State) (v : Word) : State :=
  let s := s.coded Reg.BWL_MBX_CTRL v
  if getF v Fld.BWL_MBX_CTRL_GO = 1 then s.mailboxGo else s

def State.writeBwl (s : State) (agent : Agent) (a : Nat) (v : Word) (nvmOk : Bool) : State :=
  if a = Reg.BWL_HEALTH_CONFIRM then s.after (execHealthConfirm agent v nvmOk s)
  else if a = Reg.BWL_WDOG then s.writeWdog agent v
  else if a = Reg.BWL_MBX_CTRL then if (s.ctx agent).priv then s.writeMbxCtrl v else s
  else s.codedPriv agent a v

/-! ### T-dies (R100, R115, R118, R119) -/

/-- A write of 1 to the trigger field `f` runs its operation. -/
def State.trigger (s : State) (f : Field) (v : Word) (op : State → Host.Outcome State Fault Refusal) : State :=
  if getF v f = 1 then s.after (op s) else s

def State.writeCore (s : State) (agent : Agent) (d p o : Nat) (v : Word) : State :=
  let w := Reg.coreWin d p
  let a := w + o
  let own (k : State → State) : State := if (s.coreWrite agent d p).isSome then k s else s
  if o = 0x0 then
    (s.trigger Fld.TC_CTRL_STOP v (execStop agent d p)).trigger Fld.TC_CTRL_CLEAR_FAULT v (execClearFault agent d p)
  else if o = 0x18 then s.after (execTcCtx agent d p v s)
  else if o = 0x20 then
    if s.winUp d p && (s.ctx agent).priv &&
        (s.coreState w == coreIdle || s.coreState w == coreFaulted || s.coreState w == coreOffline) then s.coded a v
    else s
  else if o = 0x28 then s.after (execTcDoorbell agent d p v s)
  else if 0x100 ≤ o ∧ o < 0x200 then
    own fun s => if coreBusyState (s.coreState w) ∨ o = 0x100 then s else s.coded a v
  else if o = 0x420 then
    ((s.trigger Fld.ME_CTRL_CLEAR_FLAGS v (execMeClearFlags agent d p)).trigger Fld.ME_CTRL_CLEAR_EXC v
      (execMeClearExc agent d p)).trigger Fld.ME_CTRL_CLEAR_HIST v (execMeClearHist agent d p)
  else if o = 0x620 then
    ((s.trigger Fld.VE_CTRL_CLEAR_FLAGS v (execVeClearFlags agent d p)).trigger Fld.VE_CTRL_CLEAR_EXC v
      (execVeClearExc agent d p)).trigger Fld.VE_CTRL_CLEAR_HIST v (execVeClearHist agent d p)
  else if o = 0x820 then
    ((s.trigger Fld.FID_CTRL_CLEAR_FLAGS v (execFidClearFlags agent d p)).trigger Fld.FID_CTRL_CLEAR_EXC v
      (execFidClearExc agent d p)).trigger Fld.FID_CTRL_CLEAR_HIST v (execFidClearHist agent d p)
  else own fun s => s.coded a v

def State.writeDie (s : State) (agent : Agent) (d o : Nat) (v : Word) : State :=
  if 0x10000 ≤ o ∧ o < 0x10800 then s.after (execTcSemValue agent d ((past 0x10000 o) / 8) v s)
  else if 0x10800 ≤ o ∧ o < 0x11000 then s.after (execTcSemOwner agent d ((past 0x10800 o) / 8) v s)
  else if 0x1000 ≤ o ∧ o < 0x1200 then
    let q := (past 0x1000 o) / 0x40
    match o % 0x40 with
    | 0x0 => s.after (execTcEvqBase agent d q v s)
    | 0x8 => s.after (execTcEvqCtrl agent d q v s)
    | 0x10 => if s.mayWriteEvq agent d q then s.coded (Reg.dieBlk d + o) v else s
    | 0x28 => s.after (execTcEvqOwner agent d q v s)
    | _ => s
  else s.codedPriv agent (Reg.dieBlk d + o) v

def State.writeTdie (s : State) (agent : Agent) (d o : Nat) (v : Word) : State :=
  if o < 0xA80000 then s.writeCore agent d (o / 0x10000) (o % 0x10000) v
  else if 0xF00000 ≤ o ∧ o < 0xF80000 then s.writeDie agent d (past 0xF00000 o) v
  else s.codedPriv agent (0xF00010000000 + 0x1000000 * d + o) v

/-! ### Host, RSE, memory, fabric, ports and checkpoint (R256, R273, R275, R312, R331, R335, R361, R362, R386, R418, R529) -/

def State.writeHost (s : State) (agent : Agent) (a : Nat) (v : Word) : State :=
  let o := past 0xF00020000000 a
  if o = 0x20 ∨ o = 0x28 then s.after (execHostHartRelease agent ((o - 0x20) / 8) v s)
  else if 0x100 ≤ o ∧ o < 0x1C0 then s.after (execHostFtCache agent ((past 0x100 o) / 8) v s)
  else if 0x400 ≤ o ∧ o < 0x800 then
    if s.mayJoin agent then
      match o % 0x40 with
      | 0x0 => s.writeEvqBase a v
      | 0x8 => s.writeEvqCtrl (a - 8) v
      | _ => s.coded a v
    else s
  else if o = 0x30 ∨ o = 0x38 then s.codedJoin agent a v
  else s.codedPriv agent a v

def State.writeMem (s : State) (agent : Agent) (a : Nat) (v : Word) : State :=
  if (s.ctx agent).priv = false then s
  else if a = Reg.MEMF_SCRUB ∨ a = Reg.MEMC_SCRUB then s.coded a (s.keepUnless a Fld.MEMF_SCRUB_PERIOD_H 1 168 v)
  else if a = Reg.MEMC_WC_CTRL then
    let s := s.coded a (s.keepUnless a Fld.MEMC_WC_CTRL_AGE_US 1 1000 v)
    if getF v Fld.MEMC_WC_CTRL_FLUSH = 1 then s.wcFlushAsked else s
  else s.coded a v

/-- The values of HWS_TIMEOUT that R361 and R362 allow. -/
def timeoutOk (v : Word) : Bool :=
  let t := getF v Fld.HWS_TIMEOUT_REQ_US
  let l := getF v Fld.HWS_TIMEOUT_LEASE_US
  let h := getF v Fld.HWS_TIMEOUT_HOME_LEASE_US
  within 10 4000 t && within 500 8000 l && decide (t < l) && (h == 0 || within 500 8000 h)

/-- A route entry is written; SERVE is chosen again, and requests that waited for a port are sent (R343, R377). -/
def State.writeRoute (s : State) (n : Nat) (v : Word) : State := ((s.coded (Reg.HWS_ROUTE n) v).chooseServe).flushHeld

/-- HWS_NODE as Bowline writes it (R342, R386); SERVE is chosen again. -/
def State.writeNode (s : State) (v : Word) : State :=
  ((s.wr Reg.HWS_NODE (packF [(Fld.HWS_NODE_VALID, getF v Fld.HWS_NODE_VALID), (Fld.HWS_NODE_NODE, getF v Fld.HWS_NODE_NODE)])).chooseServe).flushHeld

/-- HWS_PART as Bowline writes it (R384, R386). -/
def State.writePart (s : State) (v : Word) : State :=
  s.setPart (packF [(Fld.HWS_PART_VALID, getF v Fld.HWS_PART_VALID), (Fld.HWS_PART_EPOCH, getF v Fld.HWS_PART_EPOCH),
    (Fld.HWS_PART_PARTITION, getF v Fld.HWS_PART_PARTITION)])

def State.writeHws (s : State) (agent : Agent) (o : Nat) (v : Word) : State :=
  let a := 0xF00030000000 + o
  if o = 0x8 then if agent = .bowline then s.writeNode v else s
  else if o = 0x10 then if agent = .bowline then s.writePart v else s
  else if o = 0x20 then if timeoutOk v then s.codedPriv agent a v else s
  else if 0x1000 ≤ o ∧ o < 0x2000 then
    let w := (past 0x1000 o) / 0x40
    if o % 0x40 = 0 then s.after (execHwsWinCfg agent w v s)
    else if s.flag (Reg.HWS_WIN_CFG (Reg.winWin w)) Fld.HWS_WIN_CFG_VALID then s
    else s.codedJoin agent a v
  else if 0x800000 ≤ o ∧ o < 0x880000 then if (s.ctx agent).priv then s.writeRoute ((past 0x800000 o) / 8) v else s
  else if o = 0x48 ∨ o = 0x50 ∨ o = 0x60 then s.codedJoin agent a v
  else s.codedPriv agent a v

def State.writePort (s : State) (agent : Agent) (p o : Nat) (v : Word) : State :=
  let a := Reg.portWin p + o
  if s.mayWritePort agent p = false then s
  else if o = 0x0 then s.writePortCtrl p v
  else if o = 0x28 then s.coded a (s.keepUnless a Fld.OPT_CAL_PERIOD_MS 10 1000 v)
  else s.coded a v

def State.writeFdie (s : State) (agent : Agent) (f o : Nat) (v : Word) : State :=
  if 0x900000 ≤ o ∧ o < 0x904000 then s.writePort agent (4 * f + (past 0x900000 o) / 0x1000) (o % 0x1000) v
  else if f = 0 then s.writeHws agent o v
  else s

def State.writeCkp (s : State) (agent : Agent) (a : Nat) (v : Word) (man : List Byte) : State :=
  if a = Reg.CKP_RESTORE then s.after (execCkpRestore agent v man s)
  else if a = Reg.CKP_CTRL then
    let s := s.codedJoin agent a v
    if getF v Fld.CKP_CTRL_RELEASE = 1 then s.after (execCkpRelease agent s) else s
  else if a = Reg.CKP_PTBASE then s.codedPriv agent a v
  else s.codedJoin agent a v

/-! ### Every block -/

/-- A write of `v` to control space at `a` by an agent, outside Bowline's block. -/
def State.regOther (s : State) (agent : Agent) (a : Nat) (v : Word) (man : List Byte) : State :=
  if a % 8 ≠ 0 then s
  else if inPcieWindow a then s.pcieWrite a v
  else if 0xF00010000000 ≤ a ∧ a < 0xF00014000000 then
    let d := (past 0xF00010000000 a) / 0x1000000
    if s.writable a then s.writeTdie agent d ((past 0xF00010000000 a) % 0x1000000) v else s
  else if s.writable a = false then s
  else if a < 0xF00001000000 then s
  else if a < 0xF00002000000 then
    let o := past 0xF00001000000 a
    if 0x1000 ≤ o ∧ o < 0x1700 then s.writeTalq agent ((past 0x1000 o) / 0x100) (o % 0x100) v else s.writeHly agent a v
  else if a < 0xF00003000000 then if a = Reg.RST_CTRL then s.writeRstCtrl agent v [] else s.codedPriv agent a v
  else if a < 0xF00004000000 then s
  else if a < 0xF00010000000 then s.codedPriv agent a v
  else if a < 0xF00020000000 then s
  else if a < 0xF00021000000 then s.writeHost agent a v
  else if a < 0xF00022000000 then if a = Reg.RSE_PTBASE then s.codedPriv agent a v else s.codedJoin agent a v
  else if a < 0xF00023000000 then s.writeMem agent a v
  else if 0xF00030000000 ≤ a ∧ a < 0xF00032000000 then
    s.writeFdie agent ((past 0xF00030000000 a) / 0x1000000) ((past 0xF00030000000 a) % 0x1000000) v
  else if 0xF00040000000 ≤ a ∧ a < 0xF00041000000 then s.writeCkp agent a v man
  else s

/-- A write of `v` to control space at `a` by an agent. `man` is the manifest that a restore from PCIe reads, `nvmOk` whether the
flash takes what the write stores there. -/
def State.regWrite (s : State) (agent : Agent) (a : Nat) (v : Word) (man : List Byte) (nvmOk : Bool) : State :=
  if a % 8 = 0 ∧ 0xF00003000000 ≤ a ∧ a < 0xF00004000000 ∧ s.writable a = true then s.writeBwl agent a v nvmOk
  else s.regOther agent a v man

/-- REGISTER_WRITE (R7): an agent writes the register at `addr`. -/
def execRegisterWrite (agent : Agent) (addr : Nat) (value : Word) (man : List Byte) (nvmOk : Bool) (s : State) :
    Host.Outcome State Fault Refusal :=
  .next (s.regWrite agent addr value man nvmOk)

/-- MAILBOX_GO (R493): Bowline or the management context writes 1 to BWL_MBX_CTRL.GO, with the interrupt message of `value`. -/
def execMailboxGo (agent : Agent) (value : Word) (s : State) : Host.Outcome State Fault Refusal :=
  .next (if (s.ctx agent).priv then s.writeMbxCtrl (setF value Fld.BWL_MBX_CTRL_GO 1) else s)

end Sys2Proof.Machine
end

