-- ==== Sys2Proof/Machine/Lanyard.lean ====
section
/-! DEFINITION. Lanyard: session set-up, DATA packets and commands (R485 to R493), with the image transfers that SMBus shares
(R438 to R440, R483). -/

namespace Sys2Proof.Machine

/-! ### Packets -/

/-- A class 1 packet of a kind is taken: checks 1 and 2 of Table HWS-7; the rest is Lanyard's (R351). -/
def State.lyTake (s : State) (p : Packet) : State × Bool :=
  let s := (s.rxTake p).bump64 Reg.HWS_CNT_RX_BYTES (40 + p.payload.length)
  if packetCrcOk p = false then (s.bump32 Reg.HWS_CNT_CRC_DROP 1, false)
  else if pTc p ≠ 1 ∨ pDst p ≠ s.ownNode then (s.bump32 Reg.HWS_CNT_MALFORMED 1, false)
  else (s, true)

/-- A packet of Lanyard's type and the kind, received by the endpoint of F-die 0, has an effect. -/
def State.lyPacket (s : State) (p : Packet) (kind : Nat) (k : State → State) : State :=
  if s.working (capFdie 0) = false ∨ pType p ≠ ptLANYARD ∨ lyKind p ≠ kind then s
  else
    let a := s.lyTake p
    if a.2 then k a.1 else a.1

/-- The first number from `n` on, not 0, that no session bears. -/
def freshId (l : List Session) (n : Nat) : Nat → Nat
  | 0 => n
  | k + 1 => if n = 0 ∨ l.any (fun x => x.id == n) then freshId l ((n + 1) % 2 ^ 32) k else n

/-- Set-up by HELLO1 (R485, R488): HELLO2 with the node's ephemeral key and its signature. -/
def State.hello1 (s : State) (port : Nat) (p : Packet) : State :=
  let b := lyBody p
  let peer := pSrc p
  if ((List.range 4).any fun i => leNat ((b.drop (2 * i + 1)).take 1) == 1) = false then s.lyCloseSend peer port (lySession p) 1
  else if 4 ≤ (s.bwl.sessions.filter Session.up).length then s.lyCloseSend peer port (lySession p) 3
  else
    let e := s.freeScalar
    let n := e.2.freeNonce
    let i := n.2.free 13
    let k := i.2.freeScalar
    let s := k.2
    let id := freshId s.bwl.sessions (i.1.toNat % 2 ^ 32) 8
    let first := natLE 1 1 ++ natLE 1 0 ++ natLE 4 id ++ ecPublic e.1 ++ n.1
    let h := sha384 (b.take 137 ++ first)
    let sig := ecdsaSign s.fuse.identityKey k.1 (textNode ++ h)
    let x : Session :=
      { id := id, peer := peer, port := port, up := false, since := s.time, last := s.time, eph := e.1
        peerEph := (b.drop 8).take 97, hash := h, rxKey := [], txKey := [], rxSalt := [], txSalt := [], seen := [], tx := 0
        resp := [] }
    let s := s.setSessions (s.bwl.sessions ++ [x])
    s.lySend peer port 247 fun _ => lyHead id lyHello2 0 ++ first ++ sig

/-- HELLO1 (R485): a packet received on port `port`. -/
def execHello1 (port : Nat) (p : Packet) (s : State) : Host.Outcome State Fault Refusal :=
  .next (
    if s.lyServed = false then s
    else s.lyPacket p lyHello1 fun s => if lySession p = 0 ∧ 137 ≤ (lyBody p).length then s.hello1 port p else s)

/-- The open session that HELLO3 makes of its set-up (R487), where the peer is authorised and its signature holds (R486). -/
def State.hello3Open (s : State) (x : Session) (b : List Byte) : Option Session :=
  let key := b.take 97
  if s.authorised.contains (sha384 key) = false then none
  else if ecdsaVerify key (textPeer ++ x.hash ++ key) ((b.drop 97).take 96) = false then none
  else match ecShared x.eph x.peerEph with
    | none => none
    | some z =>
      let o := hkdf384 x.hash z textKeys 72
      some { x with
        up := true, since := s.time, last := s.time
        rxKey := o.take 32, txKey := (o.drop 32).take 32, rxSalt := (o.drop 64).take 4, txSalt := (o.drop 68).take 4 }

/-- A HELLO3 taken: the session opens, or it is refused for want of room or of proof. -/
def State.hello3 (s : State) (port : Nat) (p : Packet) : State :=
  match s.bwl.sessions.find? fun x => x.id == lySession p && !x.up && x.peer == pSrc p with
  | none => s
  | some x =>
    if 4 ≤ (s.bwl.sessions.filter Session.up).length then (s.lyCloseSend x.peer port x.id 3).dropSession x.id
    else match s.hello3Open x (lyBody p) with
      | some y => s.setSession y
      | none =>
        let s := (s.lyCloseSend x.peer port x.id 2).dropSession x.id
        s.event Reg.BWL_EVENT Fld.BWL_EVENT_SESSION_FAIL (Reg.BWL_CNT 4)

/-- HELLO3 (R486): the session opens, or is refused with AUTH_FAIL; with four open, with BUSY. -/
def execHello3 (port : Nat) (p : Packet) (s : State) : Host.Outcome State Fault Refusal :=
  .next (if s.lyServed = false then s else s.lyPacket p lyHello3 fun s => s.hello3 port p)

/-- A COUNTER that may be accepted (R487): not accepted before, and within 64 of the highest accepted; before any, within 64 of 0. -/
def counterOk (seen : List Nat) (c : Nat) : Bool :=
  let high := seen.foldl max 0
  !seen.contains c && decide (c ≤ high + 64) && decide (high ≤ c + 64)

/-- The accepted COUNTERs within 64 of the highest. -/
def counterAdd (seen : List Nat) (c : Nat) : List Nat :=
  let l := c :: seen
  l.filter fun x => decide (l.foldl max 0 ≤ x + 64)

/-- The rate limit (R490): whether a DATA packet with a command exceeds 64 in this millisecond. -/
def State.rateOver (s : State) : State × Bool :=
  let ms := s.time / 1000000
  let n := if s.bwl.rateMs = ms then s.bwl.rateCnt else 0
  if 64 ≤ n then (s.bump32 Reg.BWL_CNT_RATE 1, true)
  else ({ s with bwl := { s.bwl with rateMs := ms, rateCnt := n + 1 } }, false)

/-- A DATA packet of an open session (R487, R488, R490). -/
def State.lyDataIn (s : State) (p : Packet) : State :=
  let fail := s.event Reg.BWL_EVENT Fld.BWL_EVENT_SESSION_FAIL (Reg.BWL_CNT 4)
  if lyMajor p ≠ 1 then s
  else match s.bwl.sessions.find? fun x => x.id == lySession p && x.up with
    | none => fail
    | some x =>
      let c := lyCounter p
      let aad := wordsToBytes [p.w0, p.w1] ++ p.payload.take 16
      match gcmOpen x.rxKey (x.rxSalt ++ natLE 8 c) aad (lyBody p) with
      | none => fail
      | some plain =>
        if counterOk x.seen c = false then fail
        else
          let x := { x with seen := counterAdd x.seen c, last := s.time }
          let s := s.setSession x
          if 2 ^ 48 ≤ c then s.expire x
          else if plain.length < 8 then s
          else
            let r := s.rateOver
            let req := bits (leNat (plain.take 8)) 63 32
            if r.2 then r.1.lyReply (some x.id) (lyResponse req lyRATE []) else r.1.lyArrive (some x.id) plain

/-- DATA (R487). -/
def execDataCmd (p : Packet) (s : State) : Host.Outcome State Fault Refusal :=
  .next (if s.lyServed = false then s else s.lyPacket p lyData fun s => s.lyDataIn p)

/-- CLOSE (R486): ignored. -/
def execCloseCmd (p : Packet) (s : State) : Host.Outcome State Fault Refusal :=
  .next (s.lyPacket p lyClose id)

/-- A FABRIC reset request is accepted (R492). -/
def State.fresetOk (s : State) (b : List Byte) : Bool :=
  let key := (b.drop 16).take 97
  leNat (b.take 8) == s.fuse.serial && decide ((s.rd Reg.BWL_FRESET_CTR).toNat < leNat ((b.drop 8).take 8)) &&
    s.rst.freset.contains (sha384 key) && ecdsaVerify key (textFreset ++ b.take 16) ((b.drop 113).take 96)

/-- FRESET (R492). -/
def execFreset (p : Packet) (s : State) : Host.Outcome State Fault Refusal :=
  .next (s.lyPacket p lyFreset fun s =>
    let b := lyBody p
    if s.fresetOk b then (s.wr Reg.BWL_FRESET_CTR (BitVec.ofNat 64 (leNat ((b.drop 8).take 8)))).takeReset [srcFABRIC]
    else s.event Reg.BWL_EVENT Fld.BWL_EVENT_FRESET_REJECT (Reg.BWL_CNT 10))

/-- SESSION_TIMEOUT (R485): a session without DATA for 300 s, or 24 h old, is closed. -/
def execSessionTimeout (session : Nat) (s : State) : Host.Outcome State Fault Refusal :=
  .next (
    match s.sessionOf session with
    | none => s
    | some x => if x.last + 300000000000 ≤ s.time ∨ x.since + 86400000000000 ≤ s.time then s.expire x else s)

/-- The first command under way that came by `via` with REQ_ID `req` is marked as told. -/
def tellCmd (via : Option Nat) (req : Nat) (l : List LyCmd) : List LyCmd :=
  l.map fun c => if c.via == via && c.req == req then { c with told := true } else c

/-- COMMAND_PROGRESS_TIMEOUT (R489): the command with REQ_ID `req` that came by `via`, begun 1 ms ago and not complete, is
answered IN_PROGRESS. -/
def execCommandProgressTimeout (via : Option Nat) (req : Nat) (s : State) : Host.Outcome State Fault Refusal :=
  .next (
    if ((s.bwl.running ++ s.bwl.cmds.take 1).any fun c => c.via == via && c.req == req && !c.told) then
      let s := { s with bwl := { s.bwl with
        running := tellCmd via req s.bwl.running, cmds := tellCmd via req (s.bwl.cmds.take 1) ++ s.bwl.cmds.drop 1 } }
      s.lyReply via (lyResponse req lyIN_PROGRESS [])
    else s)

/-! ### Information and registers -/

/-- GET_INFO: serial number, capabilities, signature, status and the identity public key. -/
def State.infoBytes (s : State) : List Byte :=
  wordsToBytes [s.rd Reg.ID_SERIAL, s.rd Reg.ID_CAPS, s.rd Reg.ID_CAPS_EFFECTIVE, s.rd Reg.ID_NUMERICS_SIG, s.rd Reg.BWL_STATUS,
    s.rd Reg.CFG_STATUS, s.rd Reg.RST_STATUS] ++ ecPublic s.fuse.identityKey ++ List.replicate 7 0#8

def execGetInfo (s : State) : Host.Outcome State Fault Refusal :=
  .next (s.lyRun 0x01 (lyArgs 0 fun s _ => (s, lyOK, s.infoBytes)))

/-- Reads of `n` registers from `a` on as the management context; reads of a PCIe window take their data from `pcie` in order. -/
def State.lyRegs (s : State) (a : Nat) (pcie : List Word) : Nat → State × List Word
  | 0 => (s, [])
  | n + 1 =>
    if inPcieWindow a then
      let r := s.pcieRead a .ok (pcie.headD 0)
      let x := r.1.lyRegs (a + 8) (pcie.drop 1) n
      (x.1, r.2.getD 0 :: x.2)
    else
      let x := s.lyRegs (a + 8) pcie n
      (x.1, s.regView .lanyard a :: x.2)

/-- REG_READ. -/
def execRegRead (pcie : List Word) (s : State) : Host.Outcome State Fault Refusal :=
  .next (s.lyRun 0x02 (lyArgs 16 fun s c =>
    if c.w 1 % 8 ≠ 0 ∨ c.w 1 < ctrlBase ∨ 2 ^ 48 ≤ c.w 1 ∨ within 1 27 (c.w 2) = false then (s, lyBAD_ARGS, [])
    else
      let r := s.lyRegs (c.w 1) pcie (c.w 2)
      (r.1, lyOK, wordsToBytes r.2)))

/-- REG_WRITE: as the management context. `man` is what a restore from PCIe that it starts reads. -/
def execRegWrite (man : List Byte) (s : State) : Host.Outcome State Fault Refusal :=
  .next (s.lyRun 0x03 (lyArgs 16 fun s c =>
    if c.w 1 % 8 ≠ 0 ∨ c.w 1 < ctrlBase ∨ 2 ^ 48 ≤ c.w 1 then (s, lyBAD_ARGS, [])
    else (s.regWrite .lanyard (c.w 1) (BitVec.ofNat 64 (c.w 2)) man true, lyOK, [])))

/-- CLOSE_SESSION (R486, R493): the session closes after the response. -/
def execCloseSession (s : State) : Host.Outcome State Fault Refusal :=
  .next (
    match s.lyFront 0x04 with
    | none => s
    | some (c, t) =>
      let ok := c.has 0 && c.via.isSome
      let t := t.lyAnswer c (if c.via.isNone then lyNOT_PERMITTED else if c.has 0 then lyOK else lyBAD_ARGS) []
      let t := if ok then t.dropSession (c.via.getD 0) else t
      t.lyDrain t.bwl.cmds)

/-! ### Node, partition and domain (R383, R384, R491, R29, R41, R42) -/

/-- ASSIGN or UNASSIGN runs: commands that write the same registers conflict (R489). -/
def State.assigning (s : State) : Bool := s.bwl.running.any fun c => c.cmd == 0x11 || c.cmd == 0x13

/-- SET_NODE. -/
def execSetNode (s : State) : Host.Outcome State Fault Refusal :=
  .next (s.lyRun 0x10 (lyArgs 8 fun s c =>
    let n := bits (c.w 1) 15 0
    if 0xFFFD < n then (s, lyBAD_ARGS, [])
    else if s.assigning then (s, lyBUSY, [])
    else if s.flag Reg.HWS_PART Fld.HWS_PART_VALID then (s, lySTATE, [])
    else ((s.wr Reg.HWS_NODE (packF [(Fld.HWS_NODE_VALID, 1), (Fld.HWS_NODE_NODE, n)])).chooseServe, lyOK, [])))

/-- SET_EPOCH (R384). -/
def execSetEpoch (s : State) : Host.Outcome State Fault Refusal :=
  .next (s.lyRun 0x12 (lyArgs 8 fun s c =>
    if s.assigning then (s, lyBUSY, [])
    else (s.setPart (setF (s.rd Reg.HWS_PART) Fld.HWS_PART_EPOCH (bits (c.w 1) 7 0)), lyOK, [])))

/-- The owner of semaphore `i` of die `d`, written by Bowline. -/
def State.semOwnerSet (s : State) (valid : Nat) (part : Option Nat) (d i : Nat) : State :=
  let a := Reg.TC_SEM_OWNER (Reg.dieBlk d) i
  let v := setF (setF (s.rd a) Fld.TC_SEM_OWNER_VALID valid) Fld.TC_SEM_OWNER_PARTITION
    (part.getD (s.fld a Fld.TC_SEM_OWNER_PARTITION))
  s.after (execTcSemOwner .bowline d i v s)

/-- The owner of event queue `q` of die `d`, written by Bowline. -/
def State.evqOwnerSet (s : State) (valid : Nat) (part : Option Nat) (d q : Nat) : State :=
  let a := Reg.EVQ_OWNER (Reg.dieEvq d q)
  let t := s.setFlds a [(Fld.TC_EVQ_OWNER_VALID, valid),
    (Fld.TC_EVQ_OWNER_PARTITION, part.getD (s.fld a Fld.TC_EVQ_OWNER_PARTITION))]
  s.after (execTcEvqOwner .bowline d q (t.rd a) s)

/-- VALID and PARTITION of a context or owner. -/
def State.allOwners (s : State) (valid : Nat) (part : Option Nat) : State :=
  ((List.range 4).filter fun d => s.working (capTdie d)).foldl (fun s d =>
    (List.range 8).foldl (fun s q => s.evqOwnerSet valid part d q)
      ((List.range 256).foldl (fun s i => s.semOwnerSet valid part d i) s)) s

/-- Steps 1 to 3 of R491: HWS_PART, HOST_PARTITION, and STOP to the cores that run. -/
def State.assignBegin (s : State) (hws host : Word) : State :=
  let s := (s.setPart hws).rsePartition
  let s := s.wr Reg.HOST_PARTITION host
  s.coresUp.foldl State.stopCore s

/-- A root field takes bits [47:12] of a physical offset. -/
def State.putRoot (s : State) (a : Nat) (root : Option Nat) : State :=
  match root with
  | some r => s.wr a (BitVec.ofNat 64 (4096 * (r % 2 ^ 48 / 4096)))
  | none => s

/-- Steps 4 to 6 of R491; no root is written for UNASSIGN. -/
def State.assignWrite (s : State) (valid : Nat) (part : Option Nat) (root ingress put rse : Option Nat) : State :=
  let s := s.coresUp.foldl (fun s c =>
    let w := s.win c
    let s := s.putRoot (Reg.TC_PTBASE w) root
    let v := setF (setF (s.rd (Reg.TC_CTX w)) Fld.TC_CTX_VALID valid) Fld.TC_CTX_PARTITION
      (part.getD (s.fld (Reg.TC_CTX w) Fld.TC_CTX_PARTITION))
    s.writeCtx (c / 160) (8 * s.physStrand (c / 160) (c % 160 / 8) + c % 8) v) s
  let s := (List.range 4).foldl (fun s d => if s.working (capTdie d) then s.putRoot (Reg.TC_EVQ_PTBASE (Reg.dieBlk d)) root else s) s
  let s := s.allOwners valid part
  let s := ((s.putRoot Reg.HWS_INGRESS_PT ingress).putRoot Reg.HWS_PUT_PT put).putRoot Reg.RSE_PTBASE rse
  (List.range 64).foldl (fun s a => s.setFld (Reg.HOST_AP a) Fld.HOST_AP_VALID 0) s

/-- Every working core is IDLE, FAULTED or OFFLINE. -/
def State.coresRest (s : State) : Bool :=
  s.coresUp.all fun c =>
    let st := s.coreState (s.win c)
    st == coreIdle || st == coreFaulted || st == coreOffline

/-- A root table address that ASSIGN takes. -/
def rootOk (x : Nat) : Bool := x % 4096 == 0 && decide (x < 2 ^ 48)

/-- The values of the assignment that a command makes: VALID, partition and roots. -/
def LyCmd.assignWrite (c : LyCmd) (s : State) : State :=
  if c.cmd = 0x11 then s.assignWrite 1 (some (bits (c.w 1) 11 0)) (some (c.w 2)) (some (c.w 3)) (some (c.w 4)) (some (c.w 5))
  else s.assignWrite 0 none none none none none

def State.putRunning (s : State) (l : List LyCmd) : State := { s with bwl := { s.bwl with running := l } }

/-- An assignment under way goes on as far as the cores allow: from stage 1, once every core has stopped, the writes of steps 4 to 6;
from stage 2, once every core has left SCRUBBING, the answer. -/
def State.assignGo (s : State) (c : LyCmd) : State :=
  let rest := s.bwl.running.filter fun x => x != c
  if s.coresRest = false then s
  else
    let s := if c.stage = 1 then c.assignWrite s else s
    let d := { c with stage := 2 }
    if s.coresRest then (s.putRunning rest).lyAnswer d lyOK [] else s.putRunning (rest ++ [d])

/-- ASSIGN and UNASSIGN (R491): the one under way goes on, or the command at the front begins. -/
def State.lyAssign (s : State) (cmd n : Nat) (bad : LyCmd → Bool) (hws host : State → LyCmd → Word) : State :=
  match s.bwl.running.find? fun c => c.cmd == cmd with
  | some c => s.assignGo c
  | none =>
    match s.lyFront cmd with
    | none => s
    | some (c, t) =>
      let no (st : Nat) : State :=
        let u := t.lyAnswer c st []
        u.lyDrain u.bwl.cmds
      if s.assigning then no lyBUSY
      else if c.has n = false then no lyBAD_ARGS
      else if s.flag Reg.HWS_NODE Fld.HWS_NODE_VALID = false ∨ s.flag Reg.HLY_DOMAIN Fld.HLY_DOMAIN_VALID then no lySTATE
      else if bad c then no lyBAD_ARGS
      else
        let d := { c with stage := 1 }
        let u := t.assignBegin (hws t c) (host t c)
        let u := (u.putRunning (u.bwl.running ++ [d])).assignGo d
        u.lyDrain u.bwl.cmds

/-- ASSIGN. -/
def execAssign (s : State) : Host.Outcome State Fault Refusal :=
  .next (s.lyAssign 0x11 40 (fun c => !(rootOk (c.w 2) && rootOk (c.w 3) && rootOk (c.w 4) && rootOk (c.w 5)))
    (fun _ c => packF [(Fld.HWS_PART_VALID, 1), (Fld.HWS_PART_EPOCH, bits (c.w 1) 19 12), (Fld.HWS_PART_PARTITION, bits (c.w 1) 11 0)])
    (fun _ c => packF [(Fld.HOST_PARTITION_VALID, 1), (Fld.HOST_PARTITION_PARTITION, bits (c.w 1) 11 0)]))

/-- UNASSIGN: partition and epoch stay, with VALID 0 throughout. -/
def execUnassign (s : State) : Host.Outcome State Fault Refusal :=
  .next (s.lyAssign 0x13 0 (fun _ => false)
    (fun s _ => setF (s.rd Reg.HWS_PART) Fld.HWS_PART_VALID 0)
    (fun s _ => setF (s.rd Reg.HOST_PARTITION) Fld.HOST_PARTITION_VALID 0))

/-- JOIN (R29, R41): with Halyard disabled, the assignment is written and the node joins once it is enabled (R42). -/
def execJoin (s : State) : Host.Outcome State Fault Refusal :=
  .next (s.lyRun 0x20 (lyArgs 16 fun s c =>
    let d := bits (c.w 1) 11 0
    let role := bits (c.w 1) 17 16
    if role = 3 then (s, lyBAD_ARGS, [])
    else if s.assigning then (s, lyBUSY, [])
    else if s.flag Reg.HWS_PART Fld.HWS_PART_VALID = false ∨ s.fld Reg.HWS_PART Fld.HWS_PART_PARTITION ≠ d ∨
        s.flag Reg.HLY_DOMAIN Fld.HLY_DOMAIN_VALID then (s, lySTATE, [])
    else
      let s := s.wr Reg.HLY_DOMAIN (packF [(Fld.HLY_DOMAIN_PARENT, bits (c.w 2) 15 0), (Fld.HLY_DOMAIN_ALT_PARENT, bits (c.w 2) 31 16),
        (Fld.HLY_DOMAIN_DOMAIN, d), (Fld.HLY_DOMAIN_ROLE, role), (Fld.HLY_DOMAIN_VALID, 1)])
      (if s.flag Reg.HLY_CTRL Fld.HLY_CTRL_ENABLE then s.joinDomain else s, lyOK, [])))

/-- LEAVE (R42). -/
def execLeave (s : State) : Host.Outcome State Fault Refusal :=
  .next (s.lyRun 0x21 (lyArgs 0 fun s _ =>
    (if s.flag Reg.HLY_DOMAIN Fld.HLY_DOMAIN_VALID then s.leaveDomain else s, lyOK, [])))

/-- TICK_PARAMS (R44): the data hold PARAM_ERR; a set that is refused answers FAILED. -/
def execTickParams (s : State) : Host.Outcome State Fault Refusal :=
  .next (s.lyRun 0x22 (lyArgs 48 fun s c =>
    let v (i : Nat) : Word := BitVec.ofNat 64 (c.w i)
    let s := { s with hly := { s.hly with stagedPeriod := getF (v 1) Fld.HLY_PERIOD_PERIOD } }
    let s := (((s.coded Reg.HLY_MARK12 (v 2)).coded Reg.HLY_MARK3 (v 3)).coded Reg.HLY_GUARD_QUIET (v 4)).coded Reg.HLY_SLIP_CFG (v 5)
    let s := s.commitParams (v 6)
    let e := s.fld Reg.HLY_STATUS Fld.HLY_STATUS_PARAM_ERR
    (s, if e = 0 then lyOK else lyFAILED, natLE 8 e)))

/-- RESUME (R56). -/
def execResume (s : State) : Host.Outcome State Fault Refusal :=
  .next (s.lyRun 0x23 (lyArgs 0 fun s _ =>
    if s.hlyState ≠ hlyHoldFault ∨ s.isMaster = false then (s, lySTATE, [])
    else if s.aggPending then (s, lyNOT_READY, [])
    else (s.sendFinal (s.time + s.lead), lyOK, [])))

/-- ROUTE (R343): entries of the route table from a first node on. -/
def execRoute (s : State) : Host.Outcome State Fault Refusal :=
  .next (s.lyRun 0x30 fun s c =>
    let n := bits (c.w 1) 15 0
    let k := bits (c.w 1) 23 16
    if c.len < 8 ∨ within 1 26 k = false ∨ c.has (8 + 8 * k) = false ∨ 65536 < n + k then (s, lyBAD_ARGS, [])
    else ((List.range k).foldl (fun s i => s.writeRoute (n + i) (BitVec.ofNat 64 (c.w (2 + i)))) s, lyOK, []))

/-- SET_CAP (R19). -/
def execSetCap (s : State) : Host.Outcome State Fault Refusal :=
  .next (s.lyRun 0x31 (lyArgs 8 fun s c =>
    let w := bits (c.w 1) 11 0
    if within 1 899 w then (s, lyBAD_ARGS, []) else (s.setCap w, lyOK, [])))

/-- The answer to a journal query (R365): 0 APPLIED with status and old value, 1 NOT_APPLIED, 2 UNKNOWN. -/
def State.journalQuery (s : State) (src sport tag t0 : Nat) : Nat × Nat × List Byte :=
  let lam := 1000 * s.fld Reg.HWS_TIMEOUT Fld.HWS_TIMEOUT_LEASE_US
  let hit (e : ReplayEntry) : Bool :=
    e.src == src && e.sport == sport && e.tag == tag && decide (t0 ≤ e.applied) && decide (e.applied ≤ t0 + lam)
  match (s.hws.cache ++ s.hws.journal).find? hit with
  | some e => (0, e.status, e.old)
  | none =>
    match s.hws.journalLost with
    | some t => if t0 ≤ t + lam then (2, 0, []) else (1, 0, [])
    | none => (1, 0, [])

/-- JOURNAL (R365): the answer, the status and the old value, a word each. -/
def execJournal (s : State) : Host.Outcome State Fault Refusal :=
  .next (s.lyRun 0x40 (lyArgs 16 fun s c =>
    let r := s.journalQuery (bits (c.w 1) 15 0) (bits (c.w 1) 18 16) (bits (c.w 1) 51 32) (c.w 2)
    (s, lyOK, natLE 8 r.1 ++ natLE 8 r.2.1 ++ natLE 8 (leNat r.2.2))))

/-- TELEMETRY (R498). -/
def execTelemetry (s : State) : Host.Outcome State Fault Refusal :=
  .next (s.lyRun 0x50 (lyArgs 8 fun s c =>
    if (CfgRec.mk 0 rtTELEMETRY false 1 8 [BitVec.ofNat 64 (c.w 1)]).inRange = false then (s, lyBAD_ARGS, [])
    else (s.setTelemetry (c.w 1), lyOK, [])))

/-! ### Records (R495, R496) -/

/-- LOG_READ. -/
def execLogRead (s : State) : Host.Outcome State Fault Refusal :=
  .next (s.lyRun 0x60 (lyArgs 16 fun s c =>
    if within 1 6 (c.w 2) = false then (s, lyBAD_ARGS, [])
    else (s, lyOK, ((s.logRing.dropWhile fun e => decide (e.eseq < c.w 1)).take (c.w 2)).flatMap LogEntry.bytes)))

/-- FATAL_READ. -/
def execFatalRead (s : State) : Host.Outcome State Fault Refusal :=
  .next (s.lyRun 0x61 (lyArgs 16 fun s c =>
    if 223 < c.w 1 ∨ 1 < c.w 2 then (s, lyBAD_ARGS, [])
    else (s, lyOK, ((s.fatalBytes (c.w 1)).drop (128 * c.w 2)).take 128)))

/-- The 4 KiB of the current loss record; erased where there is none. -/
def State.lossBytes (s : State) : List Byte :=
  match s.lossRec with
  | some r => r.bytes
  | none => erased 4096

/-- LOSS_READ. -/
def execLossRead (s : State) : Host.Outcome State Fault Refusal :=
  .next (s.lyRun 0x62 (lyArgs 8 fun s c =>
    if 4096 < c.w 1 + 192 then (s, lyBAD_ARGS, []) else (s, lyOK, (s.lossBytes.drop (c.w 1)).take 192)))

/-- Loss entries without those that LOSS_CLEAR names. -/
def lossKeep (w : Nat) (l : List (Nat × Nat)) : List (Nat × Nat) :=
  if w = 2 ^ 64 - 1 then [] else l.filter fun e => e != (bits w 7 0, bits w 23 8)

/-- LOSS_CLEAR: the record is written, once the flash is free (R441); it counts from the next start. `nvmOk`: the flash takes it. -/
def execLossClear (nvmOk : Bool) (s : State) : Host.Outcome State Fault Refusal :=
  .next (if s.nvmBusy then s else s.lyRun 0x63 (lyArgs 8 fun s c =>
    if lossKeep (c.w 1) s.losses = s.losses then (s, lyOK, [])
    else if nvmOk && s.nvmPresent then (s.lossWrite (lossKeep (c.w 1) s.losses), lyOK, [])
    else
      let f := (s.event Reg.BWL_EVENT Fld.BWL_EVENT_NVM_FAIL (Reg.BWL_CNT 11)).free 14
      (f.2, lyFAILED, natLE 8 f.1.toNat)))

/-! ### Configuration images (R438 to R440) -/

/-- A configuration image is being received or written. -/
def State.cfgBusy (s : State) : Bool := s.bwl.cfgBuf.isSome || s.bwl.cfgNew.isSome

def State.putBuf (s : State) (b : Option (List (Nat × List Byte))) : State := { s with bwl := { s.bwl with cfgBuf := b } }

/-- Byte `i` of the received image: of the latest piece that covers it; one that no piece covers is free. -/
def bufByte (l : List (Nat × List Byte)) (i : Nat) : Byte :=
  match l.find? fun e => decide (e.1 ≤ i) && decide (i < e.1 + e.2.length) with
  | some e => e.2.getD (i - e.1) 0
  | none => (Config.freeWord 15 i).setWidth 8

/-- The received image. -/
def bufImage (l : List (Nat × List Byte)) : List Byte := (List.range cfgLen).map (bufByte l)

/-- CFG_BEGIN: an image of 256 KiB. The state and a status. -/
def State.cfgBegin (s : State) (n : Nat) : State × Nat :=
  if n ≠ cfgLen then (s, lyBAD_ARGS) else if s.cfgBusy then (s, lyBUSY) else (s.putBuf (some []), lyOK)

/-- CFG_DATA: a piece of the image. -/
def State.cfgData (s : State) (o : Nat) (b : List Byte) : State × Nat :=
  match s.bwl.cfgBuf with
  | none => (s, if s.bwl.cfgNew.isSome then lyBUSY else lySTATE)
  | some l => if cfgLen < o + b.length then (s, lyBAD_ARGS) else (s.putBuf (some ((o, b) :: l)), lyOK)

/-- Results of CFG_WRITE (Table CFG-9). -/
def cwInProgress : Nat := 1
def cwDone : Nat := 2
def cwInvalid : Nat := 3
def cwSeqNotNewer : Nat := 4
def cwBusy : Nat := 5
def cwNvmError : Nat := 6
def cwVerifyFail : Nat := 7

def State.copyGood (s : State) (b : Bool) : Bool := s.nvmPresent && (s.copyCheck b).reason == 0
def State.copySeq (s : State) (b : Bool) : Nat := imgSeq (s.copyBytes b)

/-- The target of a write (R439): true is copy B. -/
def State.cfgTarget (s : State) : Bool :=
  let a := s.copyGood false
  let b := s.copyGood true
  if a = false ∧ b = false then true
  else if a = false then false
  else if b = false then true
  else if s.flag Reg.CFG_STATUS Fld.CFG_STATUS_FALLBACK then s.fld Reg.CFG_STATUS Fld.CFG_STATUS_SOURCE == 1
  else if newer32 (s.copySeq true) (s.copySeq false) then false
  else true

/-- Offset of the copy that a write in progress replaces. -/
def State.cfgTargetAt (s : State) : Nat := if s.fld Reg.CFG_WRITE Fld.CFG_WRITE_TARGET = 1 then cfgCopyB else cfgCopyA

/-- CFG_COMMIT (R438): the received image is refused, with a result in CFG_WRITE, or accepted: its write begins with
the erase of the sector that holds the target's header (R440). -/
def State.cfgCommit (s : State) (l : List (Nat × List Byte)) : State × Bool :=
  let m := bufImage l
  let c := cfgCheck s.fuse s.serial s.fuse.signReq none m
  let seq := imgSeq m
  let show_ (s : State) (r reason target : Nat) : State :=
    s.wr Reg.CFG_WRITE (packF [(Fld.CFG_WRITE_SEQ, seq), (Fld.CFG_WRITE_REASON, reason), (Fld.CFG_WRITE_TARGET, target),
      (Fld.CFG_WRITE_RESULT, r)])
  let s := s.putBuf none
  let older (b : Bool) : Bool := s.copyGood b && !newer32 seq (s.copySeq b)
  if s.bwl.cfgNew.isSome then
    (s.setFlds Reg.CFG_WRITE [(Fld.CFG_WRITE_SEQ, seq), (Fld.CFG_WRITE_REASON, 0), (Fld.CFG_WRITE_RESULT, cwBusy)], false)
  else if c.reason ≠ 0 then (show_ s cwInvalid c.reason 0, false)
  else if older false ∨ older true ∨ s.rejected = some seq then (show_ s cwSeqNotNewer 0 0, false)
  else
    let s := show_ s cwInProgress 0 (if s.cfgTarget then 1 else 0)
    let s := s.flashErase s.cfgTargetAt 4096
    ({ s with bwl := { s.bwl with cfgNew := some m } }, true)

/-- CFG_WRITE as the data of a response. -/
def State.cfgWriteData (s : State) : List Byte := natLE 8 (s.rd Reg.CFG_WRITE).toNat

/-- CFG_BEGIN. -/
def execCfgBegin (s : State) : Host.Outcome State Fault Refusal :=
  .next (s.lyRun 0x70 (lyArgs 8 fun s c =>
    let r := s.cfgBegin (c.w 1)
    (r.1, r.2, [])))

/-- CFG_DATA: an offset, then up to 192 bytes. -/
def execCfgData (s : State) : Host.Outcome State Fault Refusal :=
  .next (s.lyRun 0x71 fun s c =>
    if c.len < 8 ∨ 200 < c.len ∨ c.has c.len = false then (s, lyBAD_ARGS, [])
    else
      let r := s.cfgData (c.w 1) (c.args.drop 8)
      (r.1, r.2, []))

/-- CFG_COMMIT: the command of an accepted image runs until its write ends. -/
def execCfgCommit (s : State) : Host.Outcome State Fault Refusal :=
  .next (
    match s.lyFront 0x72 with
    | none => s
    | some (c, t) =>
      let u :=
        if c.has 0 = false then t.lyAnswer c lyBAD_ARGS []
        else match t.bwl.cfgBuf with
          | none => t.lyAnswer c (if t.bwl.cfgNew.isSome then lyBUSY else lySTATE) []
          | some l =>
            let r := t.cfgCommit l
            if r.2 then r.1.putRunning (r.1.bwl.running ++ [{ c with stage := 1 }])
            else r.1.lyAnswer c lyFAILED r.1.cfgWriteData
      u.lyDrain u.bwl.cmds)

/-! ### Firmware staging (R483) -/

/-- A configuration write holds the flash: a staging write waits for it (R441). -/
def State.stageWaits (s : State) : Bool := s.nvmBusy

/-- The outcome of a staging command: done, failed with a reason, or turned away with a status. -/
def State.fwFail (s : State) : State × Nat × List Byte :=
  let f := s.free 16
  (f.2, lyFAILED, natLE 8 f.1.toNat)

/-- FW_BEGIN: the header and the sectors that the length needs are erased, and BUILDING is written. -/
def State.fwBegin (s : State) (n : Nat) (ok : Bool) : State × Nat × List Byte :=
  if n = 0 ∨ fwMax < n then (s, lyBAD_ARGS, [])
  else if (ok && s.nvmPresent) = false then s.fwFail
  else ((s.flashErase (stagingBase + 0x1000) (4096 * ((n + 4095) / 4096))).stageHead 1 n, lyOK, [])

/-- FW_DATA: image bytes are programmed. -/
def State.fwData (s : State) (o : Nat) (b : List Byte) (ok : Bool) : State × Nat × List Byte :=
  let g := s.staging
  if g.1 ≠ 1 then (s, lySTATE, [])
  else if g.2 < o + b.length then (s, lyBAD_ARGS, [])
  else if (ok && s.nvmPresent) = false then s.fwFail
  else (s.flashWrite (stagingBase + 0x1000 + o) b, lyOK, [])

/-- FW_COMMIT: the staged image is checked under R476 and marked PENDING, or the reason is answered. -/
def State.fwCommit (s : State) (ok : Bool) : State × Nat × List Byte :=
  let g := s.staging
  if g.1 ≠ 1 then (s, lySTATE, [])
  else
    let r := fwCheck s.fuse s.staged
    if r ≠ 0 then (s, lyFAILED, natLE 8 r)
    else if (ok && s.nvmPresent) = false then s.fwFail
    else (s.stageHead 2 g.2, lyOK, [])

/-- FW_CANCEL: the staging header is erased. -/
def State.fwCancel (s : State) (ok : Bool) : State × Nat × List Byte :=
  if (ok && s.nvmPresent) = false then s.fwFail else (s.flashErase stagingBase 4096, lyOK, [])

/-- A staging command of the SMBus (R504): 0x18 BEGIN with a length, 0x19 DATA with an offset and bytes, 0x1A COMMIT. FW_RESULT then
shows OK, or failed with the reason; one that no rule gives a reason has a free one. -/
def State.smbStage (s : State) (code : Nat) (data : List Byte) (ok : Bool) : State :=
  let r :=
    if code = 0x18 then if data.length = 4 then s.fwBegin (leNat data) ok else (s, lyBAD_ARGS, [])
    else if code = 0x19 then if data.length < 4 ∨ 244 < data.length then (s, lyBAD_ARGS, []) else s.fwData (leNat (data.take 4)) (data.drop 4) ok
    else if data = [] then s.fwCommit ok else (s, lyBAD_ARGS, [])
  if r.2.1 = lyOK then { r.1 with bwl := { r.1.bwl with smbFw := (2, 0) } }
  else if r.2.1 = lyFAILED then { r.1 with bwl := { r.1.bwl with smbFw := (3, leNat r.2.2 % 256) } }
  else
    let f := r.1.free 17
    { f.2 with bwl := { f.2.bwl with smbFw := (3, f.1.toNat % 256) } }

/-- A command of the SMBus that waited for a configuration write runs (R441). -/
def State.smbResume (s : State) : State :=
  match s.bwl.smbHeld with
  | none => s
  | some (c, d, ok) =>
    let s := { s with bwl := { s.bwl with smbHeld := none } }
    if c = 0x20 then (s.belayExit ok).1 else s.smbStage c d ok

/-- A write of the flash that waited is done (R441); a reset that followed it is taken. -/
def State.nvmRun (s : State) : List NvmJob → State
  | [] => s
  | .fatal ok r none :: l => (s.fatalPut ok r).nvmRun l
  | .fatal ok r (some k) :: _ =>
    if k = srcTHERM then (s.fatalPut ok r).resetEffect [k] else (s.fatalPut ok r).takeReset [k]
  | .boot ok r :: l => (s.bootPut ok r).bootShow.nvmRun l
  | .loss k i :: l => (s.putLoss k i).nvmRun l

/-- The flash is free again (R441): the writes that waited are done in turn. -/
def State.nvmFree (s : State) : State := { s with bwl := { s.bwl with nvmWait := [] } }.nvmRun s.bwl.nvmWait

/-- A staging command runs, unless a configuration write holds the flash. -/
def State.fwRun (s : State) (cmd : Nat) (f : State → LyCmd → State × Nat × List Byte) : State :=
  if s.stageWaits then s else s.lyRun cmd f

/-- FW_BEGIN. `nvmOk`: the flash takes what is written. -/
def execFwBegin (nvmOk : Bool) (s : State) : Host.Outcome State Fault Refusal :=
  .next (s.fwRun 0x78 (lyArgs 8 fun s c => s.fwBegin (c.w 1) nvmOk))

/-- FW_DATA: an offset, then up to 192 bytes. -/
def execFwData (nvmOk : Bool) (s : State) : Host.Outcome State Fault Refusal :=
  .next (s.fwRun 0x79 fun s c =>
    if c.len < 8 ∨ 200 < c.len ∨ c.has c.len = false then (s, lyBAD_ARGS, []) else s.fwData (c.w 1) (c.args.drop 8) nvmOk)

/-- FW_COMMIT. -/
def execFwCommit (nvmOk : Bool) (s : State) : Host.Outcome State Fault Refusal :=
  .next (s.fwRun 0x7A (lyArgs 0 fun s _ => s.fwCommit nvmOk))

/-- FW_CANCEL. -/
def execFwCancel (nvmOk : Bool) (s : State) : Host.Outcome State Fault Refusal :=
  .next (s.fwRun 0x7B (lyArgs 0 fun s _ => s.fwCancel nvmOk))

/-- The bytes of an image as the flash reads them back: `flaws` names the offsets that read other than programmed. -/
def withFlaws (m : List Byte) (flaws : List (Nat × Byte)) : List Byte := flaws.foldl (fun l e => l.set e.1 e.2) m

/-- CFG_WRITE_DONE (R440): erase and program succeed where `nvmOk`; the copy then reads back with `flaws`. The command that
committed the image, if one did, receives its final response, and what waited for the flash runs in turn. -/
def execCfgWriteDone (nvmOk : Bool) (flaws : List (Nat × Byte)) (s : State) : Host.Outcome State Fault Refusal :=
  .next (
    match s.bwl.cfgNew with
    | none => s
    | some m =>
      let o := s.cfgTargetAt
      let s := { s with bwl := { s.bwl with cfgNew := none } }
      let fail (s : State) (r : Nat) : State :=
        (s.setFld Reg.CFG_WRITE Fld.CFG_WRITE_RESULT r).event Reg.CFG_EVENT Fld.CFG_EVENT_WRITE_FAIL Reg.CFG_CNT_WRITE_FAIL
      let back := withFlaws m flaws
      let ok := nvmOk && s.nvmPresent
      let good := ok && (cfgCheck s.fuse s.serial s.fuse.signReq none back).reason == 0
      let s :=
        if ok = false then fail (s.flashErase o cfgLen) cwNvmError
        else
          let s := s.flashLoad o back
          if good then s.setFld Reg.CFG_WRITE Fld.CFG_WRITE_RESULT cwDone else fail s cwVerifyFail
      let s :=
        match s.bwl.running.find? fun c => c.cmd == 0x72 with
        | none => s
        | some c => (s.putRunning (s.bwl.running.filter fun x => x != c)).lyAnswer c (if good then lyOK else lyFAILED) s.cfgWriteData
      s.nvmFree.smbResume)

/-! ### Reset and attestation -/

/-- No packet to the peer of a session is left in the node. -/
def State.lySent (s : State) (via : Option Nat) : Bool :=
  match via.bind s.sessionOf with
  | none => true
  | some x => !(s.hws.out.any fun e => pType e.2 == ptLANYARD && pDst e.2 == x.peer)

/-- A command that ends in a reset: it is answered first, and the reset is taken on a later run, once the response has left
(RESET, BELAY_EXIT). `go` is the reset; `ok` gives the status of a command that begins. -/
def State.lyReset (s : State) (cmd : Nat) (st : LyCmd → Nat) (go : State → State) : State :=
  match s.bwl.running.find? fun c => c.cmd == cmd with
  | some c => if s.lySent c.via then go s else s
  | none =>
    match s.lyFront cmd with
    | none => s
    | some (c, t) =>
      let u := t.lyAnswer c (st c) []
      if st c ≠ lyOK then u.lyDrain u.bwl.cmds
      else
        let u := u.putRunning (u.bwl.running ++ [{ c with stage := 1 }])
        if u.lySent c.via then go u else u.lyDrain u.bwl.cmds

/-- RESET (R452): a LANYARD reset after the response. -/
def execResetCmd (s : State) : Host.Outcome State Fault Refusal :=
  .next (s.lyReset 0x80 (fun c => if c.has 8 ∧ bits (c.w 1) 7 0 = 0xA5 then lyOK else lyBAD_ARGS) fun s => s.takeReset [srcLANYARD])

/-- BELAY_EXIT (R468): STATE outside Belay mode, and under a cause for which the write is ignored. -/
def execBelayExit (nvmOk : Bool) (s : State) : Host.Outcome State Fault Refusal :=
  .next (s.lyReset 0x81
    (fun c =>
      let cause := s.fld Reg.RST_STATUS Fld.RST_STATUS_BELAY_CAUSE
      if c.has 0 = false then lyBAD_ARGS else if s.belay = false ∨ cause = 2 ∨ cause = 4 then lySTATE else lyOK)
    fun s => if s.nvmBusy then s else (s.belayExit nvmOk).1)

/-- ATTEST: the challenge, the serial number, ID_NUMERICS_SIG and BWL_FW, signed with the identity key; the number that ECDSA
draws is free. -/
def execAttest (s : State) : Host.Outcome State Fault Refusal :=
  .next (s.lyRun 0x82 (lyArgs 32 fun s c =>
    let k := s.freeScalar
    let m := textAttest ++ c.args.take 32 ++ wordsToBytes [s.rd Reg.ID_SERIAL, s.rd Reg.ID_NUMERICS_SIG, s.rd Reg.BWL_FW]
    (k.2, lyOK, ecdsaSign s.fuse.identityKey k.1 m)))

end Sys2Proof.Machine
end

