-- ==== Sys2Proof/Machine/Scalar.lean ====
section
/-! DEFINITION. Scalar, program-memory, load-immediate and control instructions of the sequencer (R81 to R86). -/

namespace Sys2Proof.Machine

/-- The second operand of a scalar operation: SB in class 0x01, the sign-extended IMM in class 0x02 (R81). -/
def State.operandB (s : State) (w : Nat) (immForm : Bool) (r : Rest) : Word :=
  if immForm then wordOfInt (fSImm r) else s.sreg w (fSB r)

/-- A scalar operation of either form (R81): SD := SA op b. The register form uses no IMM, the immediate form no SB. -/
def State.scalar (s : State) (core op : Nat) (immForm : Bool) (r : Rest) (f : Word → Word → Word) : State :=
  let used := if immForm then [.sd, .sa, .imm] else [.sd, .sa, .sb]
  s.issue core (insnWord (if immForm then 0x02 else 0x01) op r) (fieldsOk used r) fun s =>
    let w := s.win core
    (s.setSreg w (fSD r) (f (s.sreg w (fSA r)) (s.operandB w immForm r))).advance core

/-- Shift amount: the low 6 bits of the second operand (R81). -/
def shamt (b : Word) : Nat := b.toNat % 64

def boolWord (b : Bool) : Word := if b then 1 else 0

/-- ADD: a + b, modulo 2^64 (Table TCR-4). -/
def aluAdd (a b : Word) : Word := a + b

/-- ADD (R81). -/
def execAdd (core : Nat) (immForm : Bool) (rest : Rest) (s : State) : Host.Outcome State Fault Refusal :=
  .next (s.scalar core 0x00 immForm rest aluAdd)

/-- SUB: a − b, modulo 2^64 (Table TCR-4). -/
def aluSub (a b : Word) : Word := a - b

/-- SUB (R81). -/
def execSub (core : Nat) (immForm : Bool) (rest : Rest) (s : State) : Host.Outcome State Fault Refusal :=
  .next (s.scalar core 0x01 immForm rest aluSub)

/-- AND: bitwise and (Table TCR-4). -/
def aluAnd (a b : Word) : Word := a &&& b

/-- AND (R81). -/
def execAnd (core : Nat) (immForm : Bool) (rest : Rest) (s : State) : Host.Outcome State Fault Refusal :=
  .next (s.scalar core 0x02 immForm rest aluAnd)

/-- OR: bitwise or (Table TCR-4). -/
def aluOr (a b : Word) : Word := a ||| b

/-- OR (R81). -/
def execOr (core : Nat) (immForm : Bool) (rest : Rest) (s : State) : Host.Outcome State Fault Refusal :=
  .next (s.scalar core 0x03 immForm rest aluOr)

/-- XOR: bitwise exclusive or (Table TCR-4). -/
def aluXor (a b : Word) : Word := a ^^^ b

/-- XOR (R81). -/
def execXor (core : Nat) (immForm : Bool) (rest : Rest) (s : State) : Host.Outcome State Fault Refusal :=
  .next (s.scalar core 0x04 immForm rest aluXor)

/-- SLL: a shifted left by b (Table TCR-4). -/
def aluSll (a b : Word) : Word := a <<< shamt b

/-- SLL (R81). -/
def execSll (core : Nat) (immForm : Bool) (rest : Rest) (s : State) : Host.Outcome State Fault Refusal :=
  .next (s.scalar core 0x05 immForm rest aluSll)

/-- SRL: a shifted right by b, zeros entering (Table TCR-4). -/
def aluSrl (a b : Word) : Word := a >>> shamt b

/-- SRL (R81). -/
def execSrl (core : Nat) (immForm : Bool) (rest : Rest) (s : State) : Host.Outcome State Fault Refusal :=
  .next (s.scalar core 0x06 immForm rest aluSrl)

/-- SRA: a shifted right by b, sign entering (Table TCR-4). -/
def aluSra (a b : Word) : Word := a.sshiftRight (shamt b)

/-- SRA (R81). -/
def execSra (core : Nat) (immForm : Bool) (rest : Rest) (s : State) : Host.Outcome State Fault Refusal :=
  .next (s.scalar core 0x07 immForm rest aluSra)

/-- MUL: low 64 bits of the product (Table TCR-4). -/
def aluMul (a b : Word) : Word := a * b

/-- MUL (R81). -/
def execMul (core : Nat) (immForm : Bool) (rest : Rest) (s : State) : Host.Outcome State Fault Refusal :=
  .next (s.scalar core 0x08 immForm rest aluMul)

/-- MULHU: high 64 bits of the unsigned product (Table TCR-4). -/
def aluMulhu (a b : Word) : Word := BitVec.ofNat 64 (a.toNat * b.toNat / 2 ^ 64)

/-- MULHU (R81). -/
def execMulhu (core : Nat) (immForm : Bool) (rest : Rest) (s : State) : Host.Outcome State Fault Refusal :=
  .next (s.scalar core 0x09 immForm rest aluMulhu)

/-- DIVU: unsigned quotient; all ones for b = 0 (R82) (Table TCR-4). -/
def aluDivu (a b : Word) : Word := if b = 0 then BitVec.allOnes 64 else BitVec.ofNat 64 (a.toNat / b.toNat)

/-- DIVU (R81). -/
def execDivu (core : Nat) (immForm : Bool) (rest : Rest) (s : State) : Host.Outcome State Fault Refusal :=
  .next (s.scalar core 0x0A immForm rest aluDivu)

/-- REMU: unsigned remainder; a for b = 0 (R82) (Table TCR-4). -/
def aluRemu (a b : Word) : Word := if b = 0 then a else BitVec.ofNat 64 (a.toNat % b.toNat)

/-- REMU (R81). -/
def execRemu (core : Nat) (immForm : Bool) (rest : Rest) (s : State) : Host.Outcome State Fault Refusal :=
  .next (s.scalar core 0x0B immForm rest aluRemu)

/-- MIN: signed minimum (Table TCR-4). -/
def aluMin (a b : Word) : Word := if a.slt b then a else b

/-- MIN (R81). -/
def execMin (core : Nat) (immForm : Bool) (rest : Rest) (s : State) : Host.Outcome State Fault Refusal :=
  .next (s.scalar core 0x0C immForm rest aluMin)

/-- MAX: signed maximum (Table TCR-4). -/
def aluMax (a b : Word) : Word := if a.slt b then b else a

/-- MAX (R81). -/
def execMax (core : Nat) (immForm : Bool) (rest : Rest) (s : State) : Host.Outcome State Fault Refusal :=
  .next (s.scalar core 0x0D immForm rest aluMax)

/-- MINU: unsigned minimum (Table TCR-4). -/
def aluMinu (a b : Word) : Word := if a.ult b then a else b

/-- MINU (R81). -/
def execMinu (core : Nat) (immForm : Bool) (rest : Rest) (s : State) : Host.Outcome State Fault Refusal :=
  .next (s.scalar core 0x0E immForm rest aluMinu)

/-- MAXU: unsigned maximum (Table TCR-4). -/
def aluMaxu (a b : Word) : Word := if a.ult b then b else a

/-- MAXU (R81). -/
def execMaxu (core : Nat) (immForm : Bool) (rest : Rest) (s : State) : Host.Outcome State Fault Refusal :=
  .next (s.scalar core 0x0F immForm rest aluMaxu)

/-- SLT: 1 if a < b signed (Table TCR-4). -/
def aluSlt (a b : Word) : Word := boolWord (a.slt b)

/-- SLT (R81). -/
def execSlt (core : Nat) (immForm : Bool) (rest : Rest) (s : State) : Host.Outcome State Fault Refusal :=
  .next (s.scalar core 0x10 immForm rest aluSlt)

/-- SLTU: 1 if a < b unsigned (Table TCR-4). -/
def aluSltu (a b : Word) : Word := boolWord (a.ult b)

/-- SLTU (R81). -/
def execSltu (core : Nat) (immForm : Bool) (rest : Rest) (s : State) : Host.Outcome State Fault Refusal :=
  .next (s.scalar core 0x11 immForm rest aluSltu)

/-- SEQ: 1 if a = b (Table TCR-4). -/
def aluSeq (a b : Word) : Word := boolWord (a == b)

/-- SEQ (R81). -/
def execSeq (core : Nat) (immForm : Bool) (rest : Rest) (s : State) : Host.Outcome State Fault Refusal :=
  .next (s.scalar core 0x12 immForm rest aluSeq)

/-- Offset of SLOAD and SSTORE: SA + IMM, and whether it lies in program memory on a multiple of 8 (R83). -/
def State.pmOffset (s : State) (w : Nat) (r : Rest) : Word := s.sreg w (fSA r) + wordOfInt (fSImm r)

def pmOk (o : Word) : Bool := o.toNat % 8 == 0 && decide (o.toNat < 262144)

/-- SLOAD (R83): SD := the 8 bytes at SA + IMM; a poisoned word faults POISON precisely (Table RAS-2). -/
def execSload (core : Nat) (rest : Rest) (s : State) : Host.Outcome State Fault Refusal :=
  .next (s.issue core (insnWord 0x03 0x00 rest) (fieldsOk [.sd, .sa, .imm] rest) fun s =>
    let w := s.win core
    let o := s.pmOffset w rest
    if pmOk o = false then s.seqFault core fcPmBounds 0 o (insnWord 0x03 0x00 rest)
    else if s.pmPoisoned core o.toNat then
      (s.bump32 (Reg.RAS_D_CNT_UE (core / 160)) 1).seqFault core fcPoison 0 o (insnWord 0x03 0x00 rest)
    else (s.setSreg w (fSD rest) (s.pmWord core o.toNat)).advance core)

/-- SSTORE (R83): the 8 bytes at SA + IMM := SB. -/
def execSstore (core : Nat) (rest : Rest) (s : State) : Host.Outcome State Fault Refusal :=
  .next (s.issue core (insnWord 0x03 0x01 rest) (fieldsOk [.sa, .sb, .imm] rest) fun s =>
    let w := s.win core
    let o := s.pmOffset w rest
    if pmOk o = false then s.seqFault core fcPmBounds 0 o (insnWord 0x03 0x01 rest)
    else (s.pmStore core o.toNat (s.sreg w (fSB rest))).advance core)

/-- LIL (R84): SD := IMM sign-extended. -/
def execLil (core : Nat) (rest : Rest) (s : State) : Host.Outcome State Fault Refusal :=
  .next (s.issue core (insnWord 0x04 0x00 rest) (fieldsOk [.sd, .imm] rest) fun s =>
    (s.setSreg (s.win core) (fSD rest) (wordOfInt (fSImm rest))).advance core)

/-- LIH (R84): SD bits [63:32] := IMM, bits [31:0] kept. -/
def execLih (core : Nat) (rest : Rest) (s : State) : Host.Outcome State Fault Refusal :=
  .next (s.issue core (insnWord 0x04 0x01 rest) (fieldsOk [.sd, .imm] rest) fun s =>
    let w := s.win core
    let v := BitVec.ofNat 64 (2 ^ 32 * fImm rest + (s.sreg w (fSD rest)).toNat % 2 ^ 32)
    (s.setSreg w (fSD rest) v).advance core)

/-- A conditional branch to PC + 8 × IMM (R85). -/
def State.branch (s : State) (core op : Nat) (r : Rest) (p : Word → Word → Bool) : State :=
  s.issue core (insnWord 0x08 op r) (fieldsOk [.sa, .sb, .imm] r) fun s =>
    let w := s.win core
    if p (s.sreg w (fSA r)) (s.sreg w (fSB r)) then s.jump core (s.pc w + 8 * fSImm r) else s.advance core

/-- BEQ (Table TCR-5). -/
def execBeq (core : Nat) (rest : Rest) (s : State) : Host.Outcome State Fault Refusal :=
  .next (s.branch core 0x00 rest fun a b => a == b)

/-- BNE (Table TCR-5). -/
def execBne (core : Nat) (rest : Rest) (s : State) : Host.Outcome State Fault Refusal :=
  .next (s.branch core 0x01 rest fun a b => a != b)

/-- BLT (Table TCR-5). -/
def execBlt (core : Nat) (rest : Rest) (s : State) : Host.Outcome State Fault Refusal :=
  .next (s.branch core 0x02 rest fun a b => a.slt b)

/-- BGE (Table TCR-5). -/
def execBge (core : Nat) (rest : Rest) (s : State) : Host.Outcome State Fault Refusal :=
  .next (s.branch core 0x03 rest fun a b => !a.slt b)

/-- BLTU (Table TCR-5). -/
def execBltu (core : Nat) (rest : Rest) (s : State) : Host.Outcome State Fault Refusal :=
  .next (s.branch core 0x04 rest fun a b => a.ult b)

/-- BGEU (Table TCR-5). -/
def execBgeu (core : Nat) (rest : Rest) (s : State) : Host.Outcome State Fault Refusal :=
  .next (s.branch core 0x05 rest fun a b => !a.ult b)

/-- JAL (Table TCR-5): SD := PC + 8, PC := PC + 8 × IMM. -/
def execJal (core : Nat) (rest : Rest) (s : State) : Host.Outcome State Fault Refusal :=
  .next (s.issue core (insnWord 0x08 0x08 rest) (fieldsOk [.sd, .imm] rest) fun s =>
    let w := s.win core
    let pc := s.pc w
    (s.setSreg w (fSD rest) (BitVec.ofNat 64 (pc + 8))).jump core (pc + 8 * fSImm rest))

/-- JR (Table TCR-5): PC := SA. -/
def execJr (core : Nat) (rest : Rest) (s : State) : Host.Outcome State Fault Refusal :=
  .next (s.issue core (insnWord 0x08 0x09 rest) (fieldsOk [.sa] rest) fun s =>
    s.jump core (s.sreg (s.win core) (fSA rest)).toNat)

/-- LOOP (R86): repeats the body PC + 8 to PC + 8 × IMM, SA times. An IMM below 1 is illegal, a count of 0 skips the body,
so that flow is that after its last instruction (DEDUCED, log entry 21), a fifth active loop faults LOOP_DEPTH whatever its count
(DESIGN CHOICE, log entry 69). A LOOP that ends an enclosing body goes on to PC + 8 all the same, and the enclosing loop stays active
(DESIGN CHOICE, log entry 69). -/
def execLoop (core : Nat) (rest : Rest) (s : State) : Host.Outcome State Fault Refusal :=
  .next (s.issue core (insnWord 0x08 0x0A rest) (fieldsOk [.sa, .imm] rest && decide (1 ≤ fSImm rest)) fun s =>
    let w := s.win core
    let pc := s.pc w
    let n := (s.sreg w (fSA rest)).toNat
    let loops := (s.core core).loops
    let last := pc + 8 * fImm rest
    if loops.length ≥ 4 then s.seqFault core fcLoopDepth 0 0 (insnWord 0x08 0x0A rest)
    else if n = 0 then
      let x := afterInsn last loops
      (s.setLoops core x.2).goTo core x.1
    else (s.setLoops core (⟨pc + 8, last, n⟩ :: loops)).goTo core (pc + 8))

end Sys2Proof.Machine
end

