-- ==== Sys2Proof/Machine/Smbus.lean ====
section
/-! DEFINITION. The SMBus target (R503 to R505): the commands of Table BWL-10 and the alert. The operand `pecOk` of a transaction
with a write part tells whether its PEC is right; `data` is the block that was written. -/

namespace Sys2Proof.Machine

/-- The target answers from step 1 of a start onwards (R451). -/
def State.smbOn (s : State) : Bool := decide (1 ≤ s.fld Reg.RST_STATUS Fld.RST_STATUS_STEP)

/-- The hottest junction reading; 0 before the first. -/
def State.hottest (s : State) : Int :=
  match s.pwr.junction.flatten with
  | [] => 0
  | t :: r => r.foldl max t

/-- The SMBus status (R505): the data of STATUS. -/
def State.smbStatus (s : State) : List Byte :=
  natLE 4 ((s.rd Reg.RST_STATUS).toNat % 2 ^ 32) ++ natLE 1 (s.fld Reg.RST_LAST Fld.RST_LAST_SOURCE)
    ++ natLE 1 ((s.rd Reg.BWL_STATUS).toNat % 256) ++ natLE 2 (BitVec.ofInt 16 s.hottest).toNat
    ++ natLE 4 (s.fld Reg.BWL_GOV Fld.BWL_GOV_POWER_W) ++ natLE 4 ((s.rd Reg.BWL_EVENT).toNat % 2 ^ 32)

/-- ALERT_N is low (R503): the status has changed since it was last read, and no alert response has released it since. -/
def State.alertLow (s : State) : Bool := s.smbStatus != s.bwl.smbSeen && s.smbStatus != s.bwl.smbAck

/-- A block read returns `d`. -/
def State.smbRead (s : State) (d : List Byte) : State := { s with bwl := { s.bwl with smbOut := d } }

/-- A transaction whose PEC fails (R504). -/
def State.smbPec (s : State) : State := s.event Reg.BWL_EVENT Fld.BWL_EVENT_SMB_PEC (Reg.BWL_CNT 9)

/-- A transaction with a written part: nothing while the target does not answer, and a discarded one whose PEC fails. -/
def State.smb (s : State) (pecOk : Bool) (f : State → State) : State :=
  if s.smbOn = false then s else if pecOk = false then s.smbPec else f s

/-- A command marked Belay only: the target does not acknowledge its byte outside Belay mode. -/
def State.smbBelay (s : State) (pecOk : Bool) (f : State → State) : State :=
  if s.belay = false then s else s.smb pecOk f

/-! ### Reads -/

/-- SMB_STATUS: the status, whose read releases ALERT_N. -/
def execSmbStatus (s : State) : Host.Outcome State Fault Refusal :=
  let d := s.smbStatus
  .next (if s.smbOn = false then s else { s.smbRead d with bwl := { (s.smbRead d).bwl with smbSeen := d } })

/-- SMB_IDENTITY. -/
def execSmbIdentity (s : State) : Host.Outcome State Fault Refusal :=
  .next (
    if s.smbOn = false then s
    else s.smbRead (wordsToBytes [s.rd Reg.ID_SERIAL, s.rd Reg.ID_DEVICE, s.rd Reg.ID_STEPPING, s.rd Reg.ID_NUMERICS_SIG]))

/-- The event-log entry of the lowest ESEQ not below `n`; with none held, four free words. -/
def State.smbEntry (s : State) (n : Nat) : State :=
  match s.logRing.dropWhile fun e => decide (e.eseq < n) with
  | e :: _ => s.smbRead e.bytes
  | [] =>
    let a := s.free 18
    let b := a.2.free 18
    let c := b.2.free 18
    let d := c.2.free 18
    d.2.smbRead (wordsToBytes [a.1, b.1, c.1, d.1])

/-- SMB_LOG: the first entry held from the ESEQ written; the spec states no data where none is held. -/
def execSmbLog (pecOk : Bool) (data : List Byte) (s : State) : Host.Outcome State Fault Refusal :=
  .next (s.smb pecOk fun s => if data.length ≠ 4 then s else s.smbEntry (leNat data))

/-- SMB_FATAL: a record index and a 32-byte chunk number. -/
def execSmbFatal (pecOk : Bool) (data : List Byte) (s : State) : Host.Outcome State Fault Refusal :=
  .next (s.smb pecOk fun s =>
    match data with
    | [i, c] =>
      if 223 < i.toNat ∨ 7 < c.toNat then s else s.smbRead (((s.fatalBytes i.toNat).drop (32 * c.toNat)).take 32)
    | _ => s)

/-! ### Configuration and firmware in Belay mode -/

/-- SMB_CFG_BEGIN: the length of the image. -/
def execSmbCfgBegin (pecOk : Bool) (data : List Byte) (s : State) : Host.Outcome State Fault Refusal :=
  .next (s.smbBelay pecOk fun s =>
    if data.length ≠ 4 ∨ leNat data ≠ cfgLen ∨ s.bwl.cfgBuf.isSome then s else s.putBuf (some []))

/-- SMB_CFG_DATA: an offset of 4 bytes and up to 240 bytes of the image. -/
def execSmbCfgData (pecOk : Bool) (data : List Byte) (s : State) : Host.Outcome State Fault Refusal :=
  .next (s.smbBelay pecOk fun s =>
    if data.length < 4 ∨ 244 < data.length then s else (s.cfgData (leNat (data.take 4)) (data.drop 4)).1)

/-- What is staged of a configuration image is committed, if anything is. -/
def State.smbCommit (s : State) : State :=
  match s.bwl.cfgBuf with
  | none => s
  | some l => (s.cfgCommit l).1

/-- SMB_CFG_COMMIT (R438): CFG_WRITE shows the outcome. -/
def execSmbCfgCommit (pecOk : Bool) (s : State) : Host.Outcome State Fault Refusal :=
  .next (s.smbBelay pecOk fun s => s.smbCommit)

/-- SMB_CFG_RESULT: CFG_WRITE. -/
def execSmbCfgResult (s : State) : Host.Outcome State Fault Refusal :=
  .next (s.smbBelay true fun s => s.smbRead s.cfgWriteData)

/-- A staging command: it waits while a configuration write holds the flash (R441), and FW_RESULT shows it in progress. One that
arrives while another waits has no effect. -/
def State.smbFwCmd (s : State) (pecOk : Bool) (code : Nat) (data : List Byte) (nvmOk : Bool) : State :=
  s.smbBelay pecOk fun s =>
    if s.bwl.smbHeld.isSome then s
    else if s.stageWaits then { s with bwl := { s.bwl with smbHeld := some (code, data, nvmOk), smbFw := (1, 0) } }
    else s.smbStage code data nvmOk

/-- SMB_FW_BEGIN: the length of the image. -/
def execSmbFwBegin (pecOk : Bool) (data : List Byte) (nvmOk : Bool) (s : State) : Host.Outcome State Fault Refusal :=
  .next (s.smbFwCmd pecOk 0x18 data nvmOk)

/-- SMB_FW_DATA: an offset of 4 bytes and up to 240 bytes. -/
def execSmbFwData (pecOk : Bool) (data : List Byte) (nvmOk : Bool) (s : State) : Host.Outcome State Fault Refusal :=
  .next (s.smbFwCmd pecOk 0x19 data nvmOk)

/-- SMB_FW_COMMIT. -/
def execSmbFwCommit (pecOk nvmOk : Bool) (s : State) : Host.Outcome State Fault Refusal :=
  .next (s.smbFwCmd pecOk 0x1A [] nvmOk)

/-- SMB_FW_RESULT: the state and the reason of the last staging command. -/
def execSmbFwResult (s : State) : Host.Outcome State Fault Refusal :=
  .next (s.smbBelay true fun s => s.smbRead (natLE 1 s.bwl.smbFw.1 ++ natLE 1 s.bwl.smbFw.2))

/-! ### Resets and the alert -/

/-- SMB_BELAY_EXIT (R468, R505): a LANYARD reset, where the cause of Belay mode allows it, once a
configuration write has ended (R441). -/
def execSmbBelayExit (pecOk nvmOk : Bool) (s : State) : Host.Outcome State Fault Refusal :=
  .next (s.smbBelay pecOk fun s =>
    if s.nvmBusy = false then (s.belayExit nvmOk).1
    else if s.bwl.smbHeld.isSome then s
    else { s with bwl := { s.bwl with smbHeld := some (0x20, [], nvmOk) } })

/-- SMB_RESET: the byte 0xA5 resets the device under LANYARD. -/
def execSmbReset (pecOk : Bool) (data : Byte) (s : State) : Host.Outcome State Fault Refusal :=
  .next (s.smb pecOk fun s => if data = 0xA5 then s.takeReset [srcLANYARD] else s)

/-- SMB_ALERT_RESPONSE (R503): a read of the Alert Response Address releases ALERT_N. -/
def execSmbAlertResponse (s : State) : Host.Outcome State Fault Refusal :=
  .next (
    if s.smbOn = false ∨ s.alertLow = false then s
    else { s with bwl := { s.bwl with smbAck := s.smbStatus } })

end Sys2Proof.Machine
end

