-- ==== Sys2Proof/Machine/Dispatch.lean ====
section
/-! DEFINITION. Which meaning each command has: one arm per constructor of `Instr`. -/

namespace Sys2Proof.Machine

def exec (i : Instr) (s : State) : Host.Outcome State Fault Refusal :=
  match i with
  | .add core immForm rest => Sys2Proof.Machine.execAdd core immForm rest s
  | .sub core immForm rest => Sys2Proof.Machine.execSub core immForm rest s
  | .and core immForm rest => Sys2Proof.Machine.execAnd core immForm rest s
  | .or core immForm rest => Sys2Proof.Machine.execOr core immForm rest s
  | .xor core immForm rest => Sys2Proof.Machine.execXor core immForm rest s
  | .sll core immForm rest => Sys2Proof.Machine.execSll core immForm rest s
  | .srl core immForm rest => Sys2Proof.Machine.execSrl core immForm rest s
  | .sra core immForm rest => Sys2Proof.Machine.execSra core immForm rest s
  | .mul core immForm rest => Sys2Proof.Machine.execMul core immForm rest s
  | .mulhu core immForm rest => Sys2Proof.Machine.execMulhu core immForm rest s
  | .divu core immForm rest => Sys2Proof.Machine.execDivu core immForm rest s
  | .remu core immForm rest => Sys2Proof.Machine.execRemu core immForm rest s
  | .min core immForm rest => Sys2Proof.Machine.execMin core immForm rest s
  | .max core immForm rest => Sys2Proof.Machine.execMax core immForm rest s
  | .minu core immForm rest => Sys2Proof.Machine.execMinu core immForm rest s
  | .maxu core immForm rest => Sys2Proof.Machine.execMaxu core immForm rest s
  | .slt core immForm rest => Sys2Proof.Machine.execSlt core immForm rest s
  | .sltu core immForm rest => Sys2Proof.Machine.execSltu core immForm rest s
  | .seq core immForm rest => Sys2Proof.Machine.execSeq core immForm rest s
  | .sload core rest => Sys2Proof.Machine.execSload core rest s
  | .sstore core rest => Sys2Proof.Machine.execSstore core rest s
  | .lil core rest => Sys2Proof.Machine.execLil core rest s
  | .lih core rest => Sys2Proof.Machine.execLih core rest s
  | .beq core rest => Sys2Proof.Machine.execBeq core rest s
  | .bne core rest => Sys2Proof.Machine.execBne core rest s
  | .blt core rest => Sys2Proof.Machine.execBlt core rest s
  | .bge core rest => Sys2Proof.Machine.execBge core rest s
  | .bltu core rest => Sys2Proof.Machine.execBltu core rest s
  | .bgeu core rest => Sys2Proof.Machine.execBgeu core rest s
  | .jal core rest => Sys2Proof.Machine.execJal core rest s
  | .jr core rest => Sys2Proof.Machine.execJr core rest s
  | .loop core rest => Sys2Proof.Machine.execLoop core rest s
  | .halt core rest => Sys2Proof.Machine.execHalt core rest s
  | .twaita core rest => Sys2Proof.Machine.execTwaita core rest s
  | .twaitn core rest => Sys2Proof.Machine.execTwaitn core rest s
  | .twaitMoment core => Sys2Proof.Machine.execTwaitMoment core s
  | .done core rest => Sys2Proof.Machine.execDone core rest s
  | .doneSignal core => Sys2Proof.Machine.execDoneSignal core s
  | .seminc core rest => Sys2Proof.Machine.execSeminc core rest s
  | .semwait core rest => Sys2Proof.Machine.execSemwait core rest s
  | .semread core rest => Sys2Proof.Machine.execSemread core rest s
  | .fence core rest => Sys2Proof.Machine.execFence core rest s
  | .arm core rest => Sys2Proof.Machine.execArm core rest s
  | .readsys core rest => Sys2Proof.Machine.execReadsys core rest s
  | .evpost core rest => Sys2Proof.Machine.execEvpost core rest s
  | .trap core rest => Sys2Proof.Machine.execTrap core rest s
  | .tcDoorbell agent die phys value => Sys2Proof.Machine.execTcDoorbell agent die phys value s
  | .programLoadComplete core => Sys2Proof.Machine.execProgramLoadComplete core s
  | .tcCtx agent die phys value => Sys2Proof.Machine.execTcCtx agent die phys value s
  | .scrubComplete die phys => Sys2Proof.Machine.execScrubComplete die phys s
  | .stop agent die phys => Sys2Proof.Machine.execStop agent die phys s
  | .stopComplete core => Sys2Proof.Machine.execStopComplete core s
  | .clearFault agent die phys => Sys2Proof.Machine.execClearFault agent die phys s
  | .strandLost die strand => Sys2Proof.Machine.execStrandLost die strand s
  | .tcSemValue agent die sem value => Sys2Proof.Machine.execTcSemValue agent die sem value s
  | .tcSemOwner agent die sem value => Sys2Proof.Machine.execTcSemOwner agent die sem value s
  | .tcEvqOwner agent die queue value => Sys2Proof.Machine.execTcEvqOwner agent die queue value s
  | .tcEvqBase agent die queue value => Sys2Proof.Machine.execTcEvqBase agent die queue value s
  | .tcEvqCtrl agent die queue value => Sys2Proof.Machine.execTcEvqCtrl agent die queue value s
  | .mma core rest => Sys2Proof.Machine.execMma core rest s
  | .mcomb core rest => Sys2Proof.Machine.execMcomb core rest s
  | .mrec core rest => Sys2Proof.Machine.execMrec core rest s
  | .meClearFlags agent die phys => Sys2Proof.Machine.execMeClearFlags agent die phys s
  | .meClearExc agent die phys => Sys2Proof.Machine.execMeClearExc agent die phys s
  | .meClearHist agent die phys => Sys2Proof.Machine.execMeClearHist agent die phys s
  | .vadd core rest => Sys2Proof.Machine.execVadd core rest s
  | .vsub core rest => Sys2Proof.Machine.execVsub core rest s
  | .vmul core rest => Sys2Proof.Machine.execVmul core rest s
  | .vfma core rest => Sys2Proof.Machine.execVfma core rest s
  | .vfnma core rest => Sys2Proof.Machine.execVfnma core rest s
  | .vmin core rest => Sys2Proof.Machine.execVmin core rest s
  | .vmax core rest => Sys2Proof.Machine.execVmax core rest s
  | .vabs core rest => Sys2Proof.Machine.execVabs core rest s
  | .vneg core rest => Sys2Proof.Machine.execVneg core rest s
  | .vand core rest => Sys2Proof.Machine.execVand core rest s
  | .vor core rest => Sys2Proof.Machine.execVor core rest s
  | .vxor core rest => Sys2Proof.Machine.execVxor core rest s
  | .vsll core rest => Sys2Proof.Machine.execVsll core rest s
  | .vsrl core rest => Sys2Proof.Machine.execVsrl core rest s
  | .vsra core rest => Sys2Proof.Machine.execVsra core rest s
  | .vred core rest => Sys2Proof.Machine.execVred core rest s
  | .vcmp core rest => Sys2Proof.Machine.execVcmp core rest s
  | .vsel core rest => Sys2Proof.Machine.execVsel core rest s
  | .vmov core rest => Sys2Proof.Machine.execVmov core rest s
  | .vsplat core rest => Sys2Proof.Machine.execVsplat core rest s
  | .viota core rest => Sys2Proof.Machine.execViota core rest s
  | .vrot core rest => Sys2Proof.Machine.execVrot core rest s
  | .vmand core rest => Sys2Proof.Machine.execVmand core rest s
  | .vmor core rest => Sys2Proof.Machine.execVmor core rest s
  | .vmxor core rest => Sys2Proof.Machine.execVmxor core rest s
  | .vmandn core rest => Sys2Proof.Machine.execVmandn core rest s
  | .vmset core rest => Sys2Proof.Machine.execVmset core rest s
  | .vmnot core rest => Sys2Proof.Machine.execVmnot core rest s
  | .vcvt core rest => Sys2Proof.Machine.execVcvt core rest s
  | .vpack core rest => Sys2Proof.Machine.execVpack core rest s
  | .vunpack core rest => Sys2Proof.Machine.execVunpack core rest s
  | .rcps core rest => Sys2Proof.Machine.execRcps core rest s
  | .rsqs core rest => Sys2Proof.Machine.execRsqs core rest s
  | .exp2s core rest => Sys2Proof.Machine.execExp2s core rest s
  | .vrand core rest => Sys2Proof.Machine.execVrand core rest s
  | .vld core rest => Sys2Proof.Machine.execVld core rest s
  | .vst core rest => Sys2Proof.Machine.execVst core rest s
  | .vstc core rest => Sys2Proof.Machine.execVstc core rest s
  | .vmld core rest => Sys2Proof.Machine.execVmld core rest s
  | .vmst core rest => Sys2Proof.Machine.execVmst core rest s
  | .vhrec core rest => Sys2Proof.Machine.execVhrec core rest s
  | .veClearFlags agent die phys => Sys2Proof.Machine.execVeClearFlags agent die phys s
  | .veClearExc agent die phys => Sys2Proof.Machine.execVeClearExc agent die phys s
  | .veClearHist agent die phys => Sys2Proof.Machine.execVeClearHist agent die phys s
  | .fxfer core rest => Sys2Proof.Machine.execFxfer core rest s
  | .fxferComplete core => Sys2Proof.Machine.execFxferComplete core s
  | .armedTransferStart core => Sys2Proof.Machine.execArmedTransferStart core s
  | .frec core rest => Sys2Proof.Machine.execFrec core rest s
  | .fidClearFlags agent die phys => Sys2Proof.Machine.execFidClearFlags agent die phys s
  | .fidClearExc agent die phys => Sys2Proof.Machine.execFidClearExc agent die phys s
  | .fidClearHist agent die phys => Sys2Proof.Machine.execFidClearHist agent die phys s
  | .timeExchange => Sys2Proof.Machine.execTimeExchange s
  | .timeReq src sym => Sys2Proof.Machine.execTimeReq src sym s
  | .timeResp src sym => Sys2Proof.Machine.execTimeResp src sym s
  | .slipState src sym => Sys2Proof.Machine.execSlipState src sym s
  | .tickExtend sym => Sys2Proof.Machine.execTickExtend sym s
  | .tickFinal sym => Sys2Proof.Machine.execTickFinal sym s
  | .tickFault sym => Sys2Proof.Machine.execTickFault sym s
  | .joinComplete => Sys2Proof.Machine.execJoinComplete s
  | .guardPoint => Sys2Proof.Machine.execGuardPoint s
  | .decisionPoint => Sys2Proof.Machine.execDecisionPoint s
  | .tickEnd => Sys2Proof.Machine.execTickEnd s
  | .boundaryHold => Sys2Proof.Machine.execBoundaryHold s
  | .quietBandStart => Sys2Proof.Machine.execQuietBandStart s
  | .hlyCtrl agent value => Sys2Proof.Machine.execHlyCtrl agent value s
  | .hlyParam agent value => Sys2Proof.Machine.execHlyParam agent value s
  | .hlyHostDone agent value => Sys2Proof.Machine.execHlyHostDone agent value s
  | .hlyTalqArm1 agent queue value => Sys2Proof.Machine.execHlyTalqArm1 agent queue value s
  | .hlyTalqCancel agent queue value => Sys2Proof.Machine.execHlyTalqCancel agent queue value s
  | .programStart die => Sys2Proof.Machine.execProgramStart die s
  | .fidTransfer die => Sys2Proof.Machine.execFidTransfer die s
  | .fabricPut f => Sys2Proof.Machine.execFabricPut f s
  | .replicaRefresh f => Sys2Proof.Machine.execReplicaRefresh f s
  | .checkpointCut => Sys2Proof.Machine.execCheckpointCut s
  | .rseSubmit => Sys2Proof.Machine.execRseSubmit s
  | .hostEvent => Sys2Proof.Machine.execHostEvent s
  | .fdieDone f => Sys2Proof.Machine.execFdieDone f s
  | .tickRd hart word => Sys2Proof.Machine.execTickRd hart word s
  | .tickWait hart word => Sys2Proof.Machine.execTickWait hart word s
  | .tickWaitEnd hart => Sys2Proof.Machine.execTickWaitEnd hart s
  | .tickWaitInterrupt hart lvl cause => Sys2Proof.Machine.execTickWaitInterrupt hart lvl cause s
  | .tickDone hart word => Sys2Proof.Machine.execTickDone hart word s
  | .tickDoneDrained hart => Sys2Proof.Machine.execTickDoneDrained hart s
  | .fwait hart word => Sys2Proof.Machine.execFwait hart word s
  | .rseSubmitInsn hart word xlat => Sys2Proof.Machine.execRseSubmitInsn hart word xlat s
  | .faccD hart word xlat => Sys2Proof.Machine.execFaccD hart word xlat s
  | .faccS hart word xlat => Sys2Proof.Machine.execFaccS hart word xlat s
  | .vdot4I8 hart word => Sys2Proof.Machine.execVdot4I8 hart word s
  | .vdot4E4m3 hart word => Sys2Proof.Machine.execVdot4E4m3 hart word s
  | .vdot4E5m2 hart word => Sys2Proof.Machine.execVdot4E5m2 hart word s
  | .vdot2Bf16 hart word => Sys2Proof.Machine.execVdot2Bf16 hart word s
  | .vdot2WS hart word => Sys2Proof.Machine.execVdot2WS hart word s
  | .vfredusum hart word => Sys2Proof.Machine.execVfredusum hart word s
  | .vfwredusum hart word => Sys2Proof.Machine.execVfwredusum hart word s
  | .apertureAccess hart va pa access => Sys2Proof.Machine.execApertureAccess hart va pa access s
  | .hostFtCache agent index value => Sys2Proof.Machine.execHostFtCache agent index value s
  | .hostHartRelease agent index value => Sys2Proof.Machine.execHostHartRelease agent index value s
  | .setup => Sys2Proof.Machine.execSetup s
  | .update => Sys2Proof.Machine.execUpdate s
  | .factor => Sys2Proof.Machine.execFactor s
  | .solve => Sys2Proof.Machine.execSolve s
  | .refine => Sys2Proof.Machine.execRefine s
  | .iter => Sys2Proof.Machine.execIter s
  | .rseRelease => Sys2Proof.Machine.execRseRelease s
  | .rseLost => Sys2Proof.Machine.execRseLost s
  | .rseZeroingDone => Sys2Proof.Machine.execRseZeroingDone s
  | .memoryRead line err => Sys2Proof.Machine.execMemoryRead line err s
  | .memoryWrite addr data err => Sys2Proof.Machine.execMemoryWrite addr data err s
  | .wcAgeExpiry line => Sys2Proof.Machine.execWcAgeExpiry line s
  | .memcWcFlush agent => Sys2Proof.Machine.execMemcWcFlush agent s
  | .dramRefresh unit => Sys2Proof.Machine.execDramRefresh unit s
  | .scrubRead unit err => Sys2Proof.Machine.execScrubRead unit err s
  | .scrubPeriodEnd unit => Sys2Proof.Machine.execScrubPeriodEnd unit s
  | .memoryFail unit => Sys2Proof.Machine.execMemoryFail unit s
  | .rd packet => Sys2Proof.Machine.execRd packet s
  | .wr packet => Sys2Proof.Machine.execWr packet s
  | .atomic packet => Sys2Proof.Machine.execAtomic packet s
  | .acc packet => Sys2Proof.Machine.execAcc packet s
  | .refresh packet => Sys2Proof.Machine.execRefresh packet s
  | .tfence packet => Sys2Proof.Machine.execTfence packet s
  | .cpl p => Sys2Proof.Machine.execCpl p s
  | .rdData p => Sys2Proof.Machine.execRdData p s
  | .atomicData p => Sys2Proof.Machine.execAtomicData p s
  | .releaseCmd packet => Sys2Proof.Machine.execRelease packet s
  | .requestRetry port tag => Sys2Proof.Machine.execRequestRetry port tag s
  | .requestFailure port tag => Sys2Proof.Machine.execRequestFailure port tag s
  | .releaseSend dst => Sys2Proof.Machine.execReleaseSend dst s
  | .replayLeaseExpiry src sport tag => Sys2Proof.Machine.execReplayLeaseExpiry src sport tag s
  | .backoffExpiry agent dst line => Sys2Proof.Machine.execBackoffExpiry agent dst line s
  | .toApplyComplete => Sys2Proof.Machine.execToApplyComplete s
  | .hwsWinCfg agent win value => Sys2Proof.Machine.execHwsWinCfg agent win value s
  | .idleFlit port lane errs flit => Sys2Proof.Machine.execIdleFlit port lane errs flit s
  | .dataFlit port lane errs flit => Sys2Proof.Machine.execDataFlit port lane errs flit s
  | .tickFlit port lane errs flit => Sys2Proof.Machine.execTickFlit port lane errs flit s
  | .nakFlit port lane errs flit => Sys2Proof.Machine.execNakFlit port lane errs flit s
  | .trainFlit port lane errs flit body => Sys2Proof.Machine.execTrainFlit port lane errs flit body s
  | .calFlit port lane errs flit => Sys2Proof.Machine.execCalFlit port lane errs flit s
  | .remapFlit port lane errs flit logical spare period => Sys2Proof.Machine.execRemapFlit port lane errs flit logical spare period s
  | .remapTakeEffect port rx => Sys2Proof.Machine.execRemapTakeEffect port rx s
  | .flitTransmit port => Sys2Proof.Machine.execFlitTransmit port s
  | .nakResend port => Sys2Proof.Machine.execNakResend port s
  | .replayTimeout port => Sys2Proof.Machine.execReplayTimeout port s
  | .trainingStepDone port lasers lanes => Sys2Proof.Machine.execTrainingStepDone port lasers lanes s
  | .trainingStepTimeout port silent => Sys2Proof.Machine.execTrainingStepTimeout port silent s
  | .trainingRetry port => Sys2Proof.Machine.execTrainingRetry port s
  | .laneWindowEnd port => Sys2Proof.Machine.execLaneWindowEnd port s
  | .laneSignalLoss port lanes => Sys2Proof.Machine.execLaneSignalLoss port lanes s
  | .calDue port => Sys2Proof.Machine.execCalDue port s
  | .calBurstEnd port => Sys2Proof.Machine.execCalBurstEnd port s
  | .opticalEngineFail port => Sys2Proof.Machine.execOpticalEngineFail port s
  | .retrain agent port => Sys2Proof.Machine.execRetrain agent port s
  | .mgmtOnly agent port on => Sys2Proof.Machine.execMgmtOnly agent port on s
  | .sbpor => Sys2Proof.Machine.execSbpor s
  | .vsb33Low => Sys2Proof.Machine.execVsb33Low s
  | .pwrok also => Sys2Proof.Machine.execPwrok also s
  | .pwrOkRise => Sys2Proof.Machine.execPwrOkRise s
  | .vin48OutOfRange => Sys2Proof.Machine.execVin48OutOfRange s
  | .pin also => Sys2Proof.Machine.execPin also s
  | .resetNRelease bootSrc clkMode sbAddr => Sys2Proof.Machine.execResetNRelease bootSrc clkMode sbAddr s
  | .thermRestart => Sys2Proof.Machine.execThermRestart s
  | .releaseStep => Sys2Proof.Machine.execReleaseStep s
  | .releaseRequest step => Sys2Proof.Machine.execReleaseRequest step s
  | .stepReady step found => Sys2Proof.Machine.execStepReady step found s
  | .stepTimeout nvmOk => Sys2Proof.Machine.execStepTimeout nvmOk s
  | .configurationChoice nvmOk => Sys2Proof.Machine.execConfigurationChoice nvmOk s
  | .firmwareEntry nvmOk => Sys2Proof.Machine.execFirmwareEntry nvmOk s
  | .watchdogExpiry also => Sys2Proof.Machine.execWatchdogExpiry also s
  | .wdogKick agent value => Sys2Proof.Machine.execWdogKick agent value s
  | .healthConfirm agent value nvmOk => Sys2Proof.Machine.execHealthConfirm agent value nvmOk s
  | .rstCtrlReset agent value also => Sys2Proof.Machine.execRstCtrlReset agent value also s
  | .otherSlotCheck => Sys2Proof.Machine.execOtherSlotCheck s
  | .cfgWriteDone nvmOk flaws => Sys2Proof.Machine.execCfgWriteDone nvmOk flaws s
  | .fabricConfigRequest images => Sys2Proof.Machine.execFabricConfigRequest images s
  | .fabricConfigTimeout nvmOk => Sys2Proof.Machine.execFabricConfigTimeout nvmOk s
  | .hello1 port p => Sys2Proof.Machine.execHello1 port p s
  | .hello3 port p => Sys2Proof.Machine.execHello3 port p s
  | .dataCmd p => Sys2Proof.Machine.execDataCmd p s
  | .closeCmd p => Sys2Proof.Machine.execCloseCmd p s
  | .freset p => Sys2Proof.Machine.execFreset p s
  | .sessionTimeout session => Sys2Proof.Machine.execSessionTimeout session s
  | .commandProgressTimeout via req => Sys2Proof.Machine.execCommandProgressTimeout via req s
  | .getInfo => Sys2Proof.Machine.execGetInfo s
  | .regRead pcie => Sys2Proof.Machine.execRegRead pcie s
  | .regWrite man => Sys2Proof.Machine.execRegWrite man s
  | .closeSession => Sys2Proof.Machine.execCloseSession s
  | .setNode => Sys2Proof.Machine.execSetNode s
  | .assign => Sys2Proof.Machine.execAssign s
  | .setEpoch => Sys2Proof.Machine.execSetEpoch s
  | .unassign => Sys2Proof.Machine.execUnassign s
  | .join => Sys2Proof.Machine.execJoin s
  | .leave => Sys2Proof.Machine.execLeave s
  | .tickParams => Sys2Proof.Machine.execTickParams s
  | .resume => Sys2Proof.Machine.execResume s
  | .route => Sys2Proof.Machine.execRoute s
  | .setCap => Sys2Proof.Machine.execSetCap s
  | .journal => Sys2Proof.Machine.execJournal s
  | .telemetry => Sys2Proof.Machine.execTelemetry s
  | .logRead => Sys2Proof.Machine.execLogRead s
  | .fatalRead => Sys2Proof.Machine.execFatalRead s
  | .lossRead => Sys2Proof.Machine.execLossRead s
  | .lossClear nvmOk => Sys2Proof.Machine.execLossClear nvmOk s
  | .cfgBegin => Sys2Proof.Machine.execCfgBegin s
  | .cfgData => Sys2Proof.Machine.execCfgData s
  | .cfgCommit => Sys2Proof.Machine.execCfgCommit s
  | .fwBegin nvmOk => Sys2Proof.Machine.execFwBegin nvmOk s
  | .fwData nvmOk => Sys2Proof.Machine.execFwData nvmOk s
  | .fwCommit nvmOk => Sys2Proof.Machine.execFwCommit nvmOk s
  | .fwCancel nvmOk => Sys2Proof.Machine.execFwCancel nvmOk s
  | .resetCmd => Sys2Proof.Machine.execResetCmd s
  | .belayExit nvmOk => Sys2Proof.Machine.execBelayExit nvmOk s
  | .attest => Sys2Proof.Machine.execAttest s
  | .mailboxGo agent value => Sys2Proof.Machine.execMailboxGo agent value s
  | .smbStatus => Sys2Proof.Machine.execSmbStatus s
  | .smbIdentity => Sys2Proof.Machine.execSmbIdentity s
  | .smbLog pecOk data => Sys2Proof.Machine.execSmbLog pecOk data s
  | .smbFatal pecOk data => Sys2Proof.Machine.execSmbFatal pecOk data s
  | .smbCfgBegin pecOk data => Sys2Proof.Machine.execSmbCfgBegin pecOk data s
  | .smbCfgData pecOk data => Sys2Proof.Machine.execSmbCfgData pecOk data s
  | .smbCfgCommit pecOk => Sys2Proof.Machine.execSmbCfgCommit pecOk s
  | .smbCfgResult => Sys2Proof.Machine.execSmbCfgResult s
  | .smbFwBegin pecOk data nvmOk => Sys2Proof.Machine.execSmbFwBegin pecOk data nvmOk s
  | .smbFwData pecOk data nvmOk => Sys2Proof.Machine.execSmbFwData pecOk data nvmOk s
  | .smbFwCommit pecOk nvmOk => Sys2Proof.Machine.execSmbFwCommit pecOk nvmOk s
  | .smbFwResult => Sys2Proof.Machine.execSmbFwResult s
  | .smbBelayExit pecOk nvmOk => Sys2Proof.Machine.execSmbBelayExit pecOk nvmOk s
  | .smbReset pecOk data => Sys2Proof.Machine.execSmbReset pecOk data s
  | .smbAlertResponse => Sys2Proof.Machine.execSmbAlertResponse s
  | .telemetryRecord => Sys2Proof.Machine.execTelemetryRecord s
  | .sensorSample junction stackT volt amp nvmOk => Sys2Proof.Machine.execSensorSample junction stackT volt amp nvmOk s
  | .governorCompare => Sys2Proof.Machine.execGovernorCompare s
  | .prochotIn => Sys2Proof.Machine.execProchotIn s
  | .cutDrained => Sys2Proof.Machine.execCutDrained s
  | .shardWritten slot pcieOk => Sys2Proof.Machine.execShardWritten slot pcieOk s
  | .nodeManifestCommit => Sys2Proof.Machine.execNodeManifestCommit s
  | .partitionManifestCommit slot0 slot1 => Sys2Proof.Machine.execPartitionManifestCommit slot0 slot1 s
  | .cutTimeout => Sys2Proof.Machine.execCutTimeout s
  | .gatherTimeout => Sys2Proof.Machine.execGatherTimeout s
  | .cutHoldEnd => Sys2Proof.Machine.execCutHoldEnd s
  | .childSilence child => Sys2Proof.Machine.execChildSilence child s
  | .ckpRestore agent value man => Sys2Proof.Machine.execCkpRestore agent value man s
  | .restoreComplete data => Sys2Proof.Machine.execRestoreComplete data s
  | .ckpRelease agent => Sys2Proof.Machine.execCkpRelease agent s
  | .fatalError causes recorded => Sys2Proof.Machine.execFatalError causes recorded s
  | .fatalRecordTimeout => Sys2Proof.Machine.execFatalRecordTimeout s
  | .coolingCheck margin => Sys2Proof.Machine.execCoolingCheck margin s
  | .domainPowerDown domain => Sys2Proof.Machine.execDomainPowerDown domain s
  | .domainPowerUp domain => Sys2Proof.Machine.execDomainPowerUp domain s
  | .pcieConfigAccess hart va off access cpl data => Sys2Proof.Machine.execPcieConfigAccess hart va off access cpl data s
  | .pcieMemoryAccess hart va off access cpl data => Sys2Proof.Machine.execPcieMemoryAccess hart va off access cpl data s
  | .pcieDmaRead addr n => Sys2Proof.Machine.execPcieDmaRead addr n s
  | .pcieDmaWrite addr data ep => Sys2Proof.Machine.execPcieDmaWrite addr data ep s
  | .extest => Sys2Proof.Machine.execExtest s
  | .samplePreload => Sys2Proof.Machine.execSamplePreload s
  | .idcode => Sys2Proof.Machine.execIdcode s
  | .highz => Sys2Proof.Machine.execHighz s
  | .clamp => Sys2Proof.Machine.execClamp s
  | .bypass => Sys2Proof.Machine.execBypass s
  | .registerWrite agent addr value man nvmOk => Sys2Proof.Machine.execRegisterWrite agent addr value man nvmOk s
  | .laserInputChange port lasers => Sys2Proof.Machine.execLaserInputChange port lasers s
  | .replicaApplyComplete win => Sys2Proof.Machine.execReplicaApplyComplete win s
  | .wcFlushComplete => Sys2Proof.Machine.execWcFlushComplete s
  | .prochotNRelease => Sys2Proof.Machine.execProchotNRelease s
  | .vin48Recovered => Sys2Proof.Machine.execVin48Recovered s
  | .pePerstDeassert => Sys2Proof.Machine.execPePerstDeassert s

end Sys2Proof.Machine
end

