-- ==== Sys2Proof/Machine/Step.lean ====
section
/-! DEFINITION. One step of the block: the command at the front of the queue, or time (R34) when none waits. -/

namespace Sys2Proof.Machine

/-- The block with no command waiting: TIMEBASE advances by one nanosecond of the clock source while Halyard's domain is
out of reset; otherwise nothing changes (log entry 6). -/
def State.idle (s : State) : State := if s.hly.running then s.tickNs else s

/-- One step: the command at the front of the queue takes effect on the state that holds the rest of the queue. -/
def step (s : State) : Host.Outcome State Fault Refusal :=
  match s.pending with
  | [] => .next s.idle
  | c :: r => exec c { s with pending := r }

/-- The state with the command that a word spells put at the front of the queue; unchanged where it spells none. -/
def State.withFetchWord (s : State) (nbits w : Nat) : State :=
  match decodeTableWord nbits w with
  | some c => { s with pending := c :: s.pending }
  | none => s

end Sys2Proof.Machine
end

