-- ==== Sys2Proof/Machine/HartCsr.lean ====
section
/-! DEFINITION. What the control and status registers of a hart that this specification names read and take: mhartid (R245), time,
stimecmp and vstimecmp (R247), the fault CSRs (R271), the interrupt files (R272) and vl (R249), with the trap registers and those of
the vector unit beside them. Numbers, access rules and the layouts of the interrupt files follow the RISC-V documents that R246 and R272
name (PRESUMED, log entry 72). No command of the table carries an instruction of the base architecture; these operations are what one
would carry out. -/

namespace Sys2Proof.Machine

/-! ### Numbers -/

def csrTimecmp : Nat := 0x14D
def csrVsTimecmp : Nat := 0x24D
def csrMxfault : Nat := 0x7C0
def csrSxfault : Nat := 0x5C0
def csrVsxfault : Nat := 0x6C0
def csrMhartid : Nat := 0xF14
def csrTime : Nat := 0xC01

/-- The hart runs with V = 1. -/
def HartMode.virtual : HartMode → Bool
  | .vs => true
  | .vu => true
  | _ => false

/-- While V = 1 an access to an S-level register reaches the register of VS-mode: bits [9:8] of its number are 2 (R271). -/
def csrReached (md : HartMode) (n : Nat) : Nat := if md.virtual && bits n 9 8 == 1 then n + 0x100 else n

/-- The mode may access register `n`: bits [9:8] of the number give the lowest level, 2 for the registers of HS-mode that reach VS. -/
def csrMay (md : HartMode) (n : Nat) : Bool :=
  match bits n 9 8, md with
  | 0, _ => true
  | 1, .u => false
  | 1, .vu => false
  | 1, _ => true
  | 2, .s => true
  | 2, .m => true
  | 3, .m => true
  | _, _ => false

/-! ### Interrupt files (R272) -/

/-- Interrupt file of a register: the M-level file, the S-level file, or the guest file that serves VS-mode. -/
def fileS : Nat := 0
def fileM : Nat := 5

def imsicKey (f h i : Nat) : Nat := 2 ^ 16 * f + 512 * h + i

/-- The lowest identity of file `f` of hart `h` that is pending, enabled and below the threshold; 0 for none. -/
def State.imsicTop (s : State) (f h : Nat) : Nat :=
  let t := sGet noSeq s.host.imsicThreshold (128 * f + h)
  ((List.range 512).find? fun i => decide (0 < i) && sGet noMark s.host.imsic (imsicKey f h i) &&
    sGet noMark s.host.imsicOn (imsicKey f h i) && (t == 0 || decide (i < t))).getD 0

/-- File `f` of hart `h` raises its external interrupt. -/
def State.imsicPending (s : State) (f h : Nat) : Bool :=
  sGet noMark s.host.imsicDelivery (128 * f + h) && s.imsicTop f h != 0

/-- The claim of the top identity: it is no longer pending. -/
def State.imsicClaim (s : State) (f h : Nat) : State :=
  let i := s.imsicTop f h
  if i = 0 then s else { s with host := { s.host with imsic := sSet noMark s.host.imsic (imsicKey f h i) false } }

/-! ### Timers (R247) -/

/-- The comparisons of Sstc against TIMEBASE. -/
def State.sTimer (s : State) (h : Nat) : Bool := decide ((s.hart h).stimecmp.toNat ≤ s.time)
def State.vsTimer (s : State) (h : Nat) : Bool := decide ((s.hart h).vstimecmp.toNat ≤ s.time)

/-! ### Reads and writes -/

/-- Fields of the fault CSRs that a write takes (Table HST-8). -/
def xfaultMask : Word := 0xFF00FFFFFE000000

/-- What register `n` of hart `h` reads. -/
def State.csrRead (s : State) (h n : Nat) : Word :=
  let x := s.hart h
  match csrReached x.mode n with
  | 0x001 => BitVec.ofNat 64 x.fflags
  | 0x002 => BitVec.ofNat 64 x.frm
  | 0x003 => BitVec.ofNat 64 (32 * x.frm + x.fflags)
  | 0x008 => BitVec.ofNat 64 x.vstart
  | 0x105 => x.strap.tvec
  | 0x141 => x.strap.epc
  | 0x142 => x.strap.cause
  | 0x143 => x.strap.tval
  | 0x14D => x.stimecmp
  | 0x15C => BitVec.ofNat 64 (0x10001 * s.imsicTop fileS h)
  | 0x205 => x.vstrap.tvec
  | 0x241 => x.vstrap.epc
  | 0x242 => x.vstrap.cause
  | 0x243 => x.vstrap.tval
  | 0x24D => x.vstimecmp
  | 0x302 => x.medeleg
  | 0x305 => x.mtrap.tvec
  | 0x341 => x.mtrap.epc
  | 0x342 => x.mtrap.cause
  | 0x343 => x.mtrap.tval
  | 0x35C => BitVec.ofNat 64 (0x10001 * s.imsicTop fileM h)
  | 0x5C0 => x.strap.xfault
  | 0x602 => x.hedeleg
  | 0x6C0 => x.vstrap.xfault
  | 0x7C0 => x.mtrap.xfault
  | 0xC01 => BitVec.ofNat 64 s.time
  | 0xC20 => BitVec.ofNat 64 x.vl
  | 0xC21 => x.vtype
  | 0xC22 => BitVec.ofNat 64 (vlenb h)
  | 0xF14 => BitVec.ofNat 64 h
  | _ => 0

/-- A write to register `n` of hart `h`; the read-only ones take nothing. -/
def State.csrWrite (s : State) (h n : Nat) (v : Word) : State :=
  let x := s.hart h
  let put := s.setHart h
  match csrReached x.mode n with
  | 0x001 => put { x with fflags := v.toNat % 32 }
  | 0x002 => put { x with frm := v.toNat % 8 }
  | 0x003 => put { x with frm := bits v.toNat 7 5, fflags := v.toNat % 32 }
  | 0x008 => put { x with vstart := v.toNat % (8 * vlenb h) }
  | 0x105 => put { x with strap := { x.strap with tvec := v } }
  | 0x141 => put { x with strap := { x.strap with epc := v &&& ~~~1#64 } }
  | 0x142 => put { x with strap := { x.strap with cause := v } }
  | 0x143 => put { x with strap := { x.strap with tval := v } }
  | 0x14D => put { x with stimecmp := v }
  | 0x15C => s.imsicClaim fileS h
  | 0x205 => put { x with vstrap := { x.vstrap with tvec := v } }
  | 0x241 => put { x with vstrap := { x.vstrap with epc := v &&& ~~~1#64 } }
  | 0x242 => put { x with vstrap := { x.vstrap with cause := v } }
  | 0x243 => put { x with vstrap := { x.vstrap with tval := v } }
  | 0x24D => put { x with vstimecmp := v }
  | 0x302 => put { x with medeleg := v }
  | 0x305 => put { x with mtrap := { x.mtrap with tvec := v } }
  | 0x341 => put { x with mtrap := { x.mtrap with epc := v &&& ~~~1#64 } }
  | 0x342 => put { x with mtrap := { x.mtrap with cause := v } }
  | 0x343 => put { x with mtrap := { x.mtrap with tval := v } }
  | 0x35C => s.imsicClaim fileM h
  | 0x5C0 => put { x with strap := { x.strap with xfault := v &&& xfaultMask } }
  | 0x602 => put { x with hedeleg := v }
  | 0x6C0 => put { x with vstrap := { x.vstrap with xfault := v &&& xfaultMask } }
  | 0x7C0 => put { x with mtrap := { x.mtrap with xfault := v &&& xfaultMask } }
  | _ => s

/-- An access fault that the privileged specification defines on its own writes 0 to the fault CSR (R271). -/
def State.plainAccessFault (s : State) (h : Nat) (store : Bool) (va : Word) : State :=
  s.hartTrap h (if store then exStoreAccess else exLoadAccess) va (some 0)

/-! ### Returns -/

/-- The return from a trap into level `lvl`: to its exception PC, in the mode before the trap, with the interrupt enable of before. -/
def HartSt.trapReturn (x : HartSt) (lvl : HartLevel) : HartSt :=
  let back (t : TrapRegs) : TrapRegs := { t with ie := t.pie, pie := true, prev := .u }
  match lvl with
  | .m => { x with pc := x.mtrap.epc, mode := x.mtrap.prev, mtrap := back x.mtrap }
  | .s => { x with pc := x.strap.epc, mode := x.strap.prev, strap := back x.strap }
  | .vs => { x with pc := x.vstrap.epc, mode := x.vstrap.prev, vstrap := { back x.vstrap with prev := .vu } }

/-! ### Vector length (R249) -/

/-- VLMAX of a vtype: VLEN × LMUL / SEW. -/
def vlMax (h : Nat) (vtype : Word) : Nat :=
  let l := bits vtype.toNat 2 0
  let e := vlenb h / 2 ^ bits vtype.toNat 5 3
  if l < 4 then 2 ^ l * e else e / 2 ^ (8 - l)

/-- What vsetvli and vsetivli set for an AVL. -/
def State.vset (s : State) (h avl : Nat) (vtype : Word) : State :=
  s.setHart h { s.hart h with vl := min avl (vlMax h vtype), vtype := vtype, vstart := 0 }

end Sys2Proof.Machine
end

