-- ==== Sys2Proof/Safety.lean ====
section
/-! DEFINITION. The words in which the statements are written: when a core issues an instruction, what such an instruction
changes, and what stands unchanged. -/

namespace Sys2Proof.Machine

/-- Core `c` issues `word`: it is in service and RUNNING, and the word at its PC is `word` and not poisoned (R78). -/
abbrev State.issues (s : State) (c : Nat) (word : Word) : Prop :=
  s.coreUp c = true ∧ s.coreState (s.win c) = coreRunning ∧ s.pmPoisoned c (s.pc (s.win c)) = false ∧
    s.pmWord c (s.pc (s.win c)) = word

/-- An offset at which an instruction can stand (R78). -/
abbrev pcFits (pc : Nat) : Prop := pc % 8 = 0 ∧ pc < 262144

/-- Where sequential flow leaves the instruction of core `c`, and the loops then active (R86). -/
def State.flow (s : State) (c : Nat) : Nat × List LoopFrame := afterInsn (s.pc (s.win c)) (s.core c).loops

/-- Every register outside the list holds what it held. -/
def State.sameBut (s t : State) (l : List Nat) : Prop := ∀ a, a ∉ l → t.rd a = s.rd a

/-- From `s` to `t` one instruction of core `c` is done: it is counted, flow goes on at `pc` with the loops `loops`, the core
still runs, and of every other register only those of `l` changed, of every other kind of state nothing. -/
def State.went (s t : State) (c pc : Nat) (loops : List LoopFrame) (l : List Nat) : Prop :=
  let w := s.win c
  t.pc w = pc ∧ t.core c = { s.core c with loops := loops } ∧ (∀ k, k ≠ c → t.core k = s.core k) ∧
    t.rd (Reg.TC_STATUS w) = setF (s.rd (Reg.TC_STATUS w)) Fld.TC_STATUS_LOOP_DEPTH loops.length ∧
    t.rd (Reg.TC_CNT_INSN w) = s.rd (Reg.TC_CNT_INSN w) + 1 ∧
    s.sameBut t (Reg.TC_PC w :: Reg.TC_STATUS w :: Reg.TC_CNT_INSN w :: l) ∧
    t = { s with regs := t.regs, tc := { s.tc with cores := t.tc.cores } }

/-- From `s` to `t` an instruction of core `c` wrote `v` to S register `sd`, S0 standing at 0 (R76), and flow went on at `pc`. -/
def State.wroteAt (s t : State) (c pc : Nat) (loops : List LoopFrame) (sd : Nat) (v : Word) : Prop :=
  s.went t c pc loops [Reg.TC_SREG (s.win c) sd] ∧
    ∀ k, k < 32 → t.sreg (s.win c) k = if k = sd ∧ k ≠ 0 then v else s.sreg (s.win c) k

/-- The same, where flow is sequential. -/
def State.wrote (s t : State) (c sd : Nat) (v : Word) : Prop := s.wroteAt t c (s.flow c).1 (s.flow c).2 sd v

/-- Where core `c` issues the word of class `cls` and operation `op` with the rest `rest`, and that word is legal, the command `i`
completes, in a state of which `P` holds. -/
def State.does (s : State) (c cls op : Nat) (rest : Rest) (legal : Bool) (i : Instr) (P : State → Prop) : Prop :=
  s.issues c (insnWord cls op rest) → legal = true → ∃ t, exec i s = .next t ∧ P t

/-- The state with one more instruction of core `c` counted. -/
def State.counted (s : State) (c : Nat) : State := s.bump64 (Reg.TC_CNT_INSN (s.win c)) 1

/-- The same, where the state after the command is `k` of the state with the instruction counted. -/
def State.gives (s : State) (c cls op : Nat) (rest : Rest) (legal : Bool) (i : Instr) (k : State → State) : Prop :=
  s.issues c (insnWord cls op rest) → legal = true → exec i s = .next (k (s.counted c))

/-- From `s` to `t` an instruction of core `c` is counted and waits, for `x`, with WAIT_KIND `kind`: PC stays, and nothing but the
count, TC_STATUS and what the core waits for changed. -/
def State.waits (s t : State) (c kind : Nat) (x : CoreWait) : Prop :=
  let w := s.win c
  t.coreState w = coreWaiting ∧ t.fld (Reg.TC_STATUS w) Fld.TC_STATUS_WAIT_KIND = kind ∧ t.pc w = s.pc w ∧
    t.core c = { s.core c with wait := x } ∧ (∀ k, k ≠ c → t.core k = s.core k) ∧
    t.rd (Reg.TC_CNT_INSN w) = s.rd (Reg.TC_CNT_INSN w) + 1 ∧ s.sameBut t [Reg.TC_STATUS w, Reg.TC_CNT_INSN w] ∧
    t = { s with regs := t.regs, tc := { s.tc with cores := t.tc.cores } }

/-- The registers of the core of window `w` that a vector instruction may change. -/
def vecRegsOf (w : Nat) : List Nat :=
  [Reg.TC_PC w, Reg.TC_STATUS w, Reg.TC_CNT_INSN w, Reg.VE_SEQ w, Reg.VE_FLAGS w, Reg.VE_EXC w, Reg.VE_EXC_INFO w, Reg.VE_CNT_NV w,
    Reg.VE_CNT_INSN w]

/-- From `s` to `t` a vector instruction of core `c` wrote `g row column` to every active element of view `f` of tile register
`td`: inactive elements, other tile registers, masks and memory stand, flow went on, and only registers of its own changed. -/
def State.mapped (s t : State) (c td f : Nat) (active : Nat → Nat → Bool) (g : Nat → Nat → Nat) : Prop :=
  (∀ i j, i < 32 → j < vecC f →
      t.tElem c td (vecW f) i j = if active i j then g i j % 256 ^ vecW f else s.tElem c td (vecW f) i j) ∧
    (∀ k, k < tileKey c td 0 0 ∨ tileKey c td 0 0 + 4096 ≤ k → byteAt t.tc.tiles k = byteAt s.tc.tiles k) ∧
    t.pc (s.win c) = (s.flow c).1 ∧ t.rd (Reg.TC_CNT_INSN (s.win c)) = s.rd (Reg.TC_CNT_INSN (s.win c)) + 1 ∧
    s.sameBut t (vecRegsOf (s.win c)) ∧
    t = { s with regs := t.regs, tc := { s.tc with
      tiles := t.tc.tiles, tilePoison := t.tc.tilePoison, masks := t.tc.masks, cores := t.tc.cores } } ∧ t.tc.masks = s.tc.masks

/-- The state in which a vector instruction of core `c` reads its operands: it is counted, and VE_SEQ is raised (R208). -/
def State.vecCounted (s : State) (c : Nat) : State := (s.counted c).bump32 (Reg.VE_SEQ (s.win c)) 1

/-- Core `c` carries out an engine instruction: it is issued and legal, its operands pass the checks, no transfer of the core
touches `foot` (R90), and neither the rows `rows` of tile and mask registers nor the ranges `reads` of the tile store are poisoned. -/
abbrev State.carries (s : State) (c cls op : Nat) (rest : Rest) (legal : Bool) (check : Option IssueFault) (foot : List Range)
    (rows : List (Nat × Nat)) (reads : List Range) : Prop :=
  s.issues c (insnWord cls op rest) ∧ legal = true ∧ check = none ∧ s.hazard c foot = false ∧ s.regPoisoned c rows = false ∧
    s.tsPoison c reads = none

/-- The state after a vector instruction of core `c` that did `x`: flags, record and counters (R207, R208), and PC goes on. -/
def State.vecDone (s : State) (c : Nat) (x : State × List VRes) : State :=
  (x.1.vRecord c (s.fld (Reg.VE_SEQ (s.win c)) Fld.VE_SEQ_COUNT) x.2).advance c

/-- Entry `e` is the next of launch queue `q`, its action is `action`, and Halyard launches (R59). -/
abbrev State.launches (s : State) (q action : Nat) (e : TalqEntry) : Prop :=
  s.launching = true ∧ s.talqUp q = true ∧ s.talqNext q = some e ∧ e.action = action

/-- The state at the moment of entry `e` of queue `q`: TIMEBASE has reached it, the entry has left its queue and is counted. -/
def State.talqTaken (s : State) (q : Nat) (e : TalqEntry) : State :=
  let s := s.timeTo (s.launchMoment e)
  let s := { s with hly := { s.hly with talq := talqRemove e s.hly.talq } }.talqOcc q
  s.bump64 (Reg.HLY_TALQ_LAUNCHED (Reg.talqWin q)) 1

/-- Packet `p` of type `type` passes checks 1 to 4 of the ingress (R351). -/
abbrev State.admits (s : State) (type : Nat) (p : Packet) : Prop :=
  s.working (capFdie 0) = true ∧ pType p = type ∧ packetCrcOk p = true ∧ classOk type (pTc p) = true ∧ pDst p = s.ownNode ∧
    s.hwsOn = true ∧ s.flag Reg.HWS_PART Fld.HWS_PART_VALID = true ∧ pPart p = s.fld Reg.HWS_PART Fld.HWS_PART_PARTITION ∧
    pEpoch p = s.fld Reg.HWS_PART Fld.HWS_PART_EPOCH

/-- The state in which an arriving packet is checked: taken from its port, its bytes counted. -/
def State.arrived (s : State) (p : Packet) : State := (s.rxTake p).bump64 Reg.HWS_CNT_RX_BYTES (40 + p.payload.length)

/-- The place of an admitted request on the count of its source and port, and the state in which it is served: counted, its tag
noted, requests that waited for an entry it frees gone on (R358). -/
def State.tagPlace (s : State) (p : Packet) : Nat × State :=
  (((s.arrived p).bump64 Reg.HWS_CNT_RX_REQ 1).tagFirst p).tagSeen (pSrc p) (pSport p) (pTag p)

def State.noted (s : State) (p : Packet) : State := (s.tagPlace p).2

/-- Request `p` of type `type` is served: admitted, of an age that R363 accepts, while a tick runs or is held. -/
abbrev State.serves (s : State) (type : Nat) (p : Packet) : Prop :=
  s.admits type p ∧ s.ageOk p = true ∧ s.ticking = true

/-- Hart `h` executes the Svareot scalar word `w` with funct3 `f3` (R260). -/
abbrev State.hartIssues (s : State) (h : Nat) (w : BitVec 32) (f3 : Nat) : Prop :=
  s.hartReady h = true ∧ iOpcode w = 0x0B ∧ iF3 w = f3

/-- Hart `h` executes an Xumdot word of funct6 `f6` (R270), or an OP-V reduction, by opcode and funct3. -/
abbrev State.hartVector (s : State) (h : Nat) (w : BitVec 32) (opcode f3 f6 : Nat) : Prop :=
  s.hartReady h = true ∧ iOpcode w = opcode ∧ iF3 w = f3 ∧ iF6 w = f6

/-- Lane `l` of port `p` receives: the port trains or is up, and the lane is neither FAILED nor DARK. -/
abbrev State.laneHears (s : State) (p l : Nat) : Prop :=
  s.working (capPort p) = true ∧ l < 18 ∧ optAlign ≤ s.portState p ∧ s.portState p ≤ optUp ∧ s.rxLaneState p l ≠ laneFailed ∧
    s.rxLaneState p l ≠ laneDark

/-- The state in which a codeword of lane `l` is judged: counted, and its turn taken where the lane carries a logical lane in traffic. -/
def State.turned (s : State) (p l : Nat) : State :=
  let t := s.bump48 (Reg.OPT_L_CW (Reg.laneWin p l)) 1
  if decide (s.rxRole p l < 16) && t.traffic p then t.rxTurn p (t.rxRole p l) else t

/-- The state in which flit `f` is handled: its codeword and corrected symbols counted, its control field taken. -/
def State.heard (s : State) (p l errs : Nat) (f : Flit) : State :=
  (((s.turned p l).bump48 (Reg.OPT_L_CORR (Reg.laneWin p l)) errs).takeAck p f).takeCredit p f

/-- Command `c` of code `cmd` stands first of those that Lanyard has to execute, before `r`, and Lanyard is served (R488, R489). -/
abbrev State.lyFirst (s : State) (cmd : Nat) (c : LyCmd) (r : List LyCmd) : Prop :=
  s.bwl.cmds = c :: r ∧ c.cmd = cmd ∧ s.lyServed = true

/-- The state in which the first command is executed: it has left the queue. -/
def State.lyTaken (s : State) (r : List LyCmd) : State := { s with bwl := { s.bwl with cmds := r } }

/-- The state after command `c` is answered with a status and data: commands not to be executed that come next are answered too. -/
def State.lyEnds (s : State) (c : LyCmd) (status : Nat) (data : List Byte) : State :=
  (s.lyAnswer c status data).lyDrain (s.lyAnswer c status data).bwl.cmds

/-- A packet of Lanyard of kind `kind` for this node arrives whole (R351, R485). -/
abbrev State.lyGets (s : State) (kind : Nat) (p : Packet) : Prop :=
  s.working (capFdie 0) = true ∧ pType p = ptLANYARD ∧ lyKind p = kind ∧ packetCrcOk p = true ∧ pTc p = 1 ∧ pDst p = s.ownNode

end Sys2Proof.Machine
end

