-- ==== Sys2Proof/Certificates/Slice0/Obligations.lean ====
section
/-! DEFINITION. The statements about the block: commands and the queue, then each family of commands, then the rules of the whole
machine. A statement about an instruction of a core supposes that the core issues it (Safety.lean); a statement about an
event supposes the state in which the event can happen. -/

open Sys2Proof Sys2Proof.Machine




/-! ### Scalar and control instructions -/

/-- The nineteen scalar operations, in both forms. An issued legal scalar instruction completes: SD receives the result of
Table TCR-4 on SA and the second operand (SB in class 0x01, IMM sign-extended in class 0x02), S0 stands at 0, flow goes on,
and nothing else changes. -/
def Obligations.ScalarOperationsWriteSd : Prop :=
  ∀ (s : State) (core : Nat) (imm : Bool) (rest : Rest),
    let w := s.win core
    let a := s.sreg w (fSA rest)
    let b := if imm then BitVec.ofInt 64 (fSImm rest) else s.sreg w (fSB rest)
    let n := b.toNat % 64
    let runs (op : Nat) (i : Instr) (v : Word) : Prop :=
      pcFits (s.flow core).1 →
        s.does core (if imm then 0x02 else 0x01) op rest (fieldsOk (if imm then [.sd, .sa, .imm] else [.sd, .sa, .sb]) rest) i
          fun t => s.wrote t core (fSD rest) v
    runs 0x00 (.add core imm rest) (a + b) ∧ runs 0x01 (.sub core imm rest) (a - b) ∧
      runs 0x02 (.and core imm rest) (a &&& b) ∧ runs 0x03 (.or core imm rest) (a ||| b) ∧
      runs 0x04 (.xor core imm rest) (a ^^^ b) ∧ runs 0x05 (.sll core imm rest) (a <<< n) ∧
      runs 0x06 (.srl core imm rest) (a >>> n) ∧ runs 0x07 (.sra core imm rest) (a.sshiftRight n) ∧
      runs 0x08 (.mul core imm rest) (a * b) ∧
      runs 0x09 (.mulhu core imm rest) (BitVec.ofNat 64 (a.toNat * b.toNat / 2 ^ 64)) ∧
      runs 0x0A (.divu core imm rest) (if b = 0 then 0xFFFFFFFFFFFFFFFF else BitVec.ofNat 64 (a.toNat / b.toNat)) ∧
      runs 0x0B (.remu core imm rest) (if b = 0 then a else BitVec.ofNat 64 (a.toNat % b.toNat)) ∧
      runs 0x0C (.min core imm rest) (BitVec.ofInt 64 (min a.toInt b.toInt)) ∧
      runs 0x0D (.max core imm rest) (BitVec.ofInt 64 (max a.toInt b.toInt)) ∧
      runs 0x0E (.minu core imm rest) (BitVec.ofNat 64 (min a.toNat b.toNat)) ∧
      runs 0x0F (.maxu core imm rest) (BitVec.ofNat 64 (max a.toNat b.toNat)) ∧
      runs 0x10 (.slt core imm rest) (if a.toInt < b.toInt then 1 else 0) ∧
      runs 0x11 (.sltu core imm rest) (if a.toNat < b.toNat then 1 else 0) ∧
      runs 0x12 (.seq core imm rest) (if a = b then 1 else 0)

/-- SLOAD, LIL and LIH write SD. An issued legal SLOAD of an offset that is a multiple of 8 below 262,144 and not poisoned
sets SD to the program-memory word there; LIL sets SD to IMM sign-extended, LIH its high half to IMM and keeps the low half.
Flow goes on and nothing else changes. -/
def Obligations.LoadsWriteSd : Prop :=
  ∀ (s : State) (core : Nat) (rest : Rest),
    let w := s.win core
    let runs (cls op : Nat) (used : List Use) (i : Instr) (v : Word) : Prop :=
      pcFits (s.flow core).1 → s.does core cls op rest (fieldsOk used rest) i fun t => s.wrote t core (fSD rest) v
    let o := (s.sreg w (fSA rest) + BitVec.ofInt 64 (fSImm rest)).toNat
    (pcFits o → s.pmPoisoned core o = false → runs 0x03 0x00 [.sd, .sa, .imm] (.sload core rest) (s.pmWord core o)) ∧
      runs 0x04 0x00 [.sd, .imm] (.lil core rest) (BitVec.ofInt 64 (fSImm rest)) ∧
      runs 0x04 0x01 [.sd, .imm] (.lih core rest)
        (BitVec.ofNat 64 (2 ^ 32 * fImm rest + (s.sreg w (fSD rest)).toNat % 2 ^ 32))

/-- SSTORE writes one word of program memory. An issued legal SSTORE of an offset that is a multiple of 8 below 262,144
leaves SB in the eight bytes there, free of poison, changes no other byte of any program memory, and goes on; nothing else
changes. Where the spec leaves it open, what is said here is the choice or the reading of the model (log entry 5). -/
def Obligations.SstoreWritesProgramMemory : Prop :=
  ∀ (s : State) (core : Nat) (rest : Rest),
    let w := s.win core
    let o := (s.sreg w (fSA rest) + BitVec.ofInt 64 (fSImm rest)).toNat
    pcFits o → pcFits (s.flow core).1 →
      s.does core 0x03 0x01 rest (fieldsOk [.sa, .sb, .imm] rest) (.sstore core rest) fun t =>
        t.pmWord core o = s.sreg w (fSB rest) ∧ t.pmPoisoned core o = false ∧
          (∀ k, k < 2 ^ 18 * core + o ∨ 2 ^ 18 * core + o + 8 ≤ k → byteAt t.tc.pmem k = byteAt s.tc.pmem k) ∧
          (s.pmStore core o (s.sreg w (fSB rest))).went t core (s.flow core).1 (s.flow core).2 []

/-- Branches and jumps. An issued legal branch goes to PC + 8 × IMM where its condition holds and on in sequence where it
does not; JAL writes PC + 8 to SD and goes to PC + 8 × IMM, JR goes to SA. A taken branch leaves the loops whose bodies hold
the target. The target is taken modulo 2^64 and is one at which an instruction can stand; nothing else changes. Where the
spec leaves it open, what is said here is the choice or the reading of the model (log entries 5 and 7). -/
def Obligations.BranchesGoToTheirTarget : Prop :=
  ∀ (s : State) (core : Nat) (rest : Rest),
    let w := s.win core
    let a := s.sreg w (fSA rest)
    let b := s.sreg w (fSB rest)
    let dest := ((s.pc w + 8 * fSImm rest) % (2 ^ 64 : Nat)).toNat
    let loops (pc : Nat) : List LoopFrame := loopsAt pc (s.core core).loops
    let branch (op : Nat) (i : Instr) (taken : Prop) : Prop :=
      (taken → pcFits dest → s.does core 0x08 op rest (fieldsOk [.sa, .sb, .imm] rest) i fun t => s.went t core dest (loops dest) []) ∧
        (¬ taken → pcFits (s.flow core).1 →
          s.does core 0x08 op rest (fieldsOk [.sa, .sb, .imm] rest) i fun t => s.went t core (s.flow core).1 (s.flow core).2 [])
    branch 0x00 (.beq core rest) (a = b) ∧ branch 0x01 (.bne core rest) (a ≠ b) ∧
      branch 0x02 (.blt core rest) (a.toInt < b.toInt) ∧ branch 0x03 (.bge core rest) (b.toInt ≤ a.toInt) ∧
      branch 0x04 (.bltu core rest) (a.toNat < b.toNat) ∧ branch 0x05 (.bgeu core rest) (b.toNat ≤ a.toNat) ∧
      (pcFits dest → s.does core 0x08 0x08 rest (fieldsOk [.sd, .imm] rest) (.jal core rest) fun t =>
        s.wroteAt t core dest (loops dest) (fSD rest) (BitVec.ofNat 64 (s.pc w + 8))) ∧
      (pcFits a.toNat → s.does core 0x08 0x09 rest (fieldsOk [.sa] rest) (.jr core rest) fun t =>
        s.went t core a.toNat (loops a.toNat) [])

/-- LOOP begins its body, or skips it on a count of 0. An issued legal LOOP with IMM of at least 1 and fewer than four loops
active begins the body PC + 8 to PC + 8 × IMM, to run SA times, at its first instruction; with SA = 0 flow goes on as it
does after the last instruction of the body (log entry 21), and no loop is added. Nothing else changes. Where the spec
leaves it open, what is said here is the choice or the reading of the model (log entries 5, 21 and 69). -/
def Obligations.LoopBeginsItsBody : Prop :=
  ∀ (s : State) (core : Nat) (rest : Rest),
    let w := s.win core
    let n := (s.sreg w (fSA rest)).toNat
    let last := s.pc w + 8 * fImm rest
    let loops := (s.core core).loops
    let legal := fieldsOk [.sa, .imm] rest && decide (1 ≤ fSImm rest)
    loops.length < 4 →
      (n ≠ 0 → pcFits (s.pc w + 8) → s.does core 0x08 0x0A rest legal (.loop core rest) fun t =>
        s.went t core (s.pc w + 8) (⟨s.pc w + 8, last, n⟩ :: loops) []) ∧
      (n = 0 → pcFits (afterInsn last loops).1 → s.does core 0x08 0x0A rest legal (.loop core rest) fun t =>
        s.went t core (afterInsn last loops).1 (afterInsn last loops).2 [])

/-! ### Synchronisation, events and faults of a core -/

/-- HALT, DONE, a busy FENCE, and tick waits block the core. An issued legal HALT or DONE puts the core into WAITING for its
drain, a FENCE does so while selected work is unfinished, and a TWAITA or TWAITN waits for its moment where the node is
JOINING (TWAITN then for the step after the joined one), or where it has ticks and the moment has not passed. PC stays at
the instruction and nothing but the count, TC_STATUS and the wait changes. Where the spec leaves it open, what is said here
is the choice or the reading of the model (log entries 5 and 9). -/
def Obligations.DrainsAndTickWaitsBlock : Prop :=
  ∀ (s : State) (core : Nat) (rest : Rest),
    let s1 := s.counted core
    let tick (op : Nat) (used : List Use) (i : Instr) (st : Nat) (joining : CoreWait) : Prop :=
      (s.hlyState = hlyJoining → s.does core 0x0C op rest (fieldsOk used rest && decide (fImm rest < 4)) i fun t =>
        s.waits t core 1 joining) ∧
      (s.hlyState ≠ hlyIdle → s.hlyState ≠ hlyJoining → s1.passed st (s1.phaseStart (fImm rest % 4)) = false →
        s.does core 0x0C op rest (fieldsOk used rest && decide (fImm rest < 4)) i fun t =>
          s.waits t core 1 (.tick st (fImm rest % 4) (fSD rest) false))
    s.does core 0x08 0x0F rest (fieldsOk [.imm] rest && decide (fImm rest < 2)) (.halt core rest)
        (fun t => s.waits t core 4 (.drain (fImm rest == 1) true)) ∧
      s.does core 0x0C 0x02 rest (fieldsOk [] rest) (.done core rest) (fun t => s.waits t core 4 (.drain true false)) ∧
      (s.fenceBusy core (fImm rest) = true →
        s.does core 0x0C 0x08 rest (fieldsOk [.imm] rest && decide (fImm rest < 32)) (.fence core rest)
          fun t => s.waits t core 4 (.fence (fImm rest))) ∧
      tick 0x00 [.sd, .sa, .imm] (.twaita core rest) ((s.sreg (s.win core) (fSA rest)).toNat % 2 ^ 48)
        (.tick ((s.sreg (s.win core) (fSA rest)).toNat % 2 ^ 48) (fImm rest % 4) (fSD rest) true) ∧
      tick 0x01 [.sd, .imm] (.twaitn core rest) (nextStep s1.step) (.joinNext (fImm rest % 4) (fSD rest))

/-- A tick wait whose moment has passed, and a FENCE with nothing to wait for. An issued legal TWAITA or TWAITN whose moment
has passed sets SD to 1, sets TC_EVENT.TWAIT_LATE, counts it and goes on; a FENCE whose selected work is complete goes on
and changes nothing else. -/
def Obligations.LateTickWaitsGoOn : Prop :=
  ∀ (s : State) (core : Nat) (rest : Rest),
    let w := s.win core
    let s1 := s.counted core
    let late (op : Nat) (used : List Use) (i : Instr) (st : Nat) : Prop :=
      s.hlyState ≠ hlyIdle → s.hlyState ≠ hlyJoining → s1.passed st (s1.phaseStart (fImm rest % 4)) = true →
        s.gives core 0x0C op rest (fieldsOk used rest && decide (fImm rest < 4)) i fun t =>
          ((t.event (Reg.TC_EVENT w) Fld.TC_EVENT_TWAIT_LATE (Reg.TC_CNT_TWAIT_LATE w)).setSreg w (fSD rest) 1).advance core
    late 0x00 [.sd, .sa, .imm] (.twaita core rest) ((s.sreg w (fSA rest)).toNat % 2 ^ 48) ∧
      late 0x01 [.sd, .imm] (.twaitn core rest) (nextStep s1.step) ∧
      (s.fenceBusy core (fImm rest) = false → pcFits (s.flow core).1 →
        s.does core 0x0C 0x08 rest (fieldsOk [.imm] rest && decide (fImm rest < 32)) (.fence core rest)
          fun t => s.went t core (s.flow core).1 (s.flow core).2 [])

/-- The end of a tick wait and of a drain. Where a core waits for a moment of the current step, TWAIT_MOMENT brings TIMEBASE
to the moment, sets SD to 0, or to 2 where the phase is not enabled, and resumes the core. Where a drain finds no transfer
left, DONE_SIGNAL gives step-done if the instruction signals, and resumes the core, or after HALT leaves it IDLE. Where the
spec leaves it open, what is said here is the choice or the reading of the model (log entries 5 and 60). -/
def Obligations.WaitsOfACoreEnd : Prop :=
  ∀ (s : State) (core : Nat),
    s.coreUp core = true → s.coreState (s.win core) = coreWaiting →
      (∀ p sd, s.ticking = true → (s.core core).wait = .tick s.step p sd false →
        let s1 := s.timeTo (s.phaseStart p)
        exec (.twaitMoment core) s =
          .next ((s1.setSreg (s1.win core) sd (if s.hly.active.enabled p then 0 else 2)).resume core)) ∧
      (∀ signal halt, s.busyFid core = false → (s.core core).wait = .drain signal halt →
        let s1 := if signal then s.coreDone core else s
        exec (.doneSignal core) s = .next (if halt then s1.endProgram core else s1.resume core))

/-- SEMREAD, SEMWAIT and SEMINC on a semaphore of the core. On a semaphore that exists, is the partition's and is not
poisoned: SEMREAD sets SD to its value; SEMWAIT with a count of 0 goes on; with no wait before it and enough value it
subtracts and goes on; else it waits behind the earlier waits; SEMINC adds once no program transfer of the core is
outstanding, and holds until then. Where the spec leaves it open, what is said here is the choice or the reading of the
model (log entry 28). -/
def Obligations.SemaphoreInstructions : Prop :=
  ∀ (s : State) (core : Nat) (rest : Rest),
    let w := s.win core
    let n := (s.sreg w (fSA rest) + BitVec.ofInt 64 (fSImm rest)).toNat
    let a := (s.sreg w (fSB rest)).toNat % 2 ^ 32
    let waiting := s.tc.semWaits.any fun (e : Nat × Nat × Nat) => e.1 == n
    let used : List Use := [.sa, .sb, .imm]
    (s.counted core).semFault core n = none →
      s.gives core 0x0C 0x06 rest (fieldsOk [.sd, .sa, .imm] rest) (.semread core rest)
          (fun t => (t.setSreg w (fSD rest) (BitVec.ofNat 64 (t.semVal n))).advance core) ∧
        (a = 0 → s.gives core 0x0C 0x05 rest (fieldsOk used rest) (.semwait core rest) fun t => t.advance core) ∧
        (a ≠ 0 → a ≤ (s.counted core).semVal n → waiting = false →
          s.gives core 0x0C 0x05 rest (fieldsOk used rest) (.semwait core rest)
            fun t => (t.setSem n (t.semVal n - a)).advance core) ∧
        (a ≠ 0 → (s.counted core).semVal n < a ∨ waiting = true →
          s.gives core 0x0C 0x05 rest (fieldsOk used rest) (.semwait core rest) fun t =>
            let u := t.block core 2 (.sem n a)
            { u with tc := { u.tc with semWaits := u.tc.semWaits ++ [(n, core, a)] } }) ∧
        (s.busyProg core = false → s.gives core 0x0C 0x04 rest (fieldsOk used rest) (.seminc core rest)
          fun t => (t.advance core).semInc n a) ∧
        (s.busyProg core = true → s.gives core 0x0C 0x04 rest (fieldsOk used rest) (.seminc core rest)
          fun t => t.block core 4 (.semHold n a))

/-- An increment adds, and saturates at 0xFFFFFFFF. Where no wait is on the semaphore, an increment whose sum fits in 32
bits leaves the sum and changes nothing else; one whose sum does not fit leaves 0xFFFFFFFF, sets SEM_OVF of the die of the
semaphore and adds 1 to TC_CNT_SEM_OVF, which stands at its greatest value. -/
def Obligations.SemaphoreIncrementSaturates : Prop :=
  ∀ (s : State) (n amount : Nat),
    let b := Reg.dieBlk (n / 256)
    n < 1024 → (∀ e ∈ s.tc.semWaits, e.1 ≠ n) →
      (s.semVal n + amount ≤ 0xFFFFFFFF → (s.semInc n amount).semVal n = s.semVal n + amount ∧
        s.sameBut (s.semInc n amount) [semValue n]) ∧
      (0xFFFFFFFF < s.semVal n + amount → (s.semInc n amount).semVal n = 0xFFFFFFFF ∧
        (s.semInc n amount).flag (Reg.TC_DIE_EVENT b) Fld.TC_DIE_EVENT_SEM_OVF = true ∧
        ((s.semInc n amount).rd (Reg.TC_CNT_SEM_OVF b)).toNat = min 0xFFFFFFFF ((s.rd (Reg.TC_CNT_SEM_OVF b)).toNat + 1))

/-- READSYS, ARM and EVPOST write SD. An issued legal READSYS of 0 to 8 sets SD to the system value of Table TCR-7 (value 6,
a count of TCLK cycles, is a free value); ARM commits words SA and SB to the queue of the core's T-die and sets SD to the
result; EVPOST posts a USER event and sets SD to 0, 1 or 2, recording a drop. Each goes on. Where the spec leaves it open,
what is said here is the choice or the reading of the model (log entries 26, 28 and 67). -/
def Obligations.SystemValuesArmAndEvents : Prop :=
  ∀ (s : State) (core : Nat) (rest : Rest),
    let w := s.win core
    let a := s.sreg w (fSA rest)
    let b := s.sreg w (fSB rest)
    let d := core / 160
    let sys (v : State → Word) : Prop :=
      s.gives core 0x0C 0x0C rest (fieldsOk [.sd, .imm] rest && decide (fImm rest ≤ 8)) (.readsys core rest)
        fun t => (t.setSreg w (fSD rest) (v t)).advance core
    (fImm rest = 0 → sys fun _ => BitVec.ofNat 64 core) ∧
      (fImm rest = 1 → sys fun t => BitVec.ofNat 64 (8 * t.physStrand d (core % 160 / 8) + core % 8)) ∧
      (fImm rest = 2 → sys fun _ => BitVec.ofNat 64 d) ∧ (fImm rest = 3 → sys fun t => BitVec.ofNat 64 t.step) ∧
      (fImm rest = 4 → sys fun t => BitVec.ofNat 64 t.phase) ∧ (fImm rest = 5 → sys fun t => BitVec.ofNat 64 t.time) ∧
      (fImm rest = 6 → s.gives core 0x0C 0x0C rest (fieldsOk [.sd, .imm] rest && decide (fImm rest ≤ 8)) (.readsys core rest)
        fun t => ((t.free 2).2.setSreg w (fSD rest) (t.free 2).1).advance core) ∧
      (fImm rest = 7 → sys fun t => BitVec.ofNat 64 (t.ctxPart core)) ∧
      (fImm rest = 8 → sys fun t => BitVec.ofNat 64 (t.core core).desc) ∧
      s.gives core 0x0C 0x0A rest (fieldsOk [.sd, .sa, .sb] rest) (.arm core rest) (fun t =>
        ((t.arm d a b).1.setSreg w (fSD rest) (BitVec.ofNat 64 (t.arm d a b).2)).advance core) ∧
      s.gives core 0x0E 0x00 rest
        (fieldsOk [.sd, .sa, .sb, .imm] rest && (bits (fImm rest) 7 3 == 0 && bits (fImm rest) 31 16 == 0)) (.evpost core rest)
        fun t =>
          let r := t.postCore core (fImm rest % 8) 1 (bits (fImm rest) 15 8) a b
          let u := if r.2 = 0 then r.1
            else r.1.event (Reg.TC_EVENT w) Fld.TC_EVENT_EVPOST_DROP (Reg.TC_CNT_EVPOST_DROP w)
          (u.setSreg w (fSD rest) (BitVec.ofNat 64 r.2)).advance core

/-- What the sequencer faults on, and TRAP. A word at PC that is not legal, or of no instruction, faults ILLEGAL_INSN
uncounted and without effect; SLOAD and SSTORE of an offset out of range or misaligned fault PM_BOUNDS with the offset, a
fifth LOOP LOOP_DEPTH, a tick wait in state IDLE NO_TICK, an operation on a semaphore the core may not use its semaphore
fault, and TRAP faults TRAP with DETAIL IMM[7:0]. Each is precise and names the word and its PC. Where the spec leaves it
open, what is said here is the choice or the reading of the model (log entries 5, 7, 9, 29, 66 and 69). -/
def Obligations.SequencerFaults : Prop :=
  ∀ (s : State) (core : Nat) (rest : Rest),
    let w := s.win core
    let s1 := s.counted core
    let o := s.sreg w (fSA rest) + BitVec.ofInt 64 (fSImm rest)
    let fault (cls op : Nat) (legal : Bool) (i : Instr) (code detail : Nat) (addr : Word) : Prop :=
      s.gives core cls op rest legal i fun t =>
        t.takeFault core ⟨code, srcSeq, false, detail, addr, insnWord cls op rest, t.pc w⟩
    (∀ word legal k, s.coreUp core = true → s.coreState w = coreRunning → s.pmPoisoned core (s.pc w) = false →
        opKnown (s.pmWord core (s.pc w)) = false → s.pmWord core (s.pc w) ≠ word →
        s.issue core word legal k = s.takeFault core ⟨fcIllegal, srcSeq, false, 0, 0, s.pmWord core (s.pc w), s.pc w⟩) ∧
      (∀ cls op legal k, s.issues core (insnWord cls op rest) → legal = false →
        s.issue core (insnWord cls op rest) legal k =
          s.takeFault core ⟨fcIllegal, srcSeq, false, 0, 0, insnWord cls op rest, s.pc w⟩) ∧
      (¬ pcFits o.toNat → fault 0x03 0x00 (fieldsOk [.sd, .sa, .imm] rest) (.sload core rest) fcPmBounds 0 o ∧
        fault 0x03 0x01 (fieldsOk [.sa, .sb, .imm] rest) (.sstore core rest) fcPmBounds 0 o) ∧
      (4 ≤ (s.core core).loops.length →
        fault 0x08 0x0A (fieldsOk [.sa, .imm] rest && decide (1 ≤ fSImm rest)) (.loop core rest) fcLoopDepth 0 0) ∧
      (s1.hlyState = hlyIdle →
        fault 0x0C 0x00 (fieldsOk [.sd, .sa, .imm] rest && decide (fImm rest < 4)) (.twaita core rest) fcNoTick 0 0 ∧
        fault 0x0C 0x01 (fieldsOk [.sd, .imm] rest && decide (fImm rest < 4)) (.twaitn core rest) fcNoTick 0 0) ∧
      (∀ f, s1.semFault core o.toNat = some f →
        fault 0x0C 0x04 (fieldsOk [.sa, .sb, .imm] rest) (.seminc core rest) f 0 o ∧
        fault 0x0C 0x05 (fieldsOk [.sa, .sb, .imm] rest) (.semwait core rest) f 0 o ∧
        fault 0x0C 0x06 (fieldsOk [.sd, .sa, .imm] rest) (.semread core rest) f 0 o) ∧
      fault 0x0E 0x01 (fieldsOk [.imm] rest && decide (fImm rest < 256)) (.trap core rest) fcTrap (fImm rest) 0

/-- What taking a fault records, in its order. A fault of a core in service whose Fid engine holds no instruction of the
program writes TC_FAULT, TC_FAULT_INSN and TC_FAULT_ADDR, puts the core into FAULTED with nothing awaited, posts a FAULT
event to the queue TC_CFG.EVQ, then sets TC_EVENT.FAULT and counts it, and with FAULT_DONE set gives step-done. While the
Fid engine holds instructions of the program, the core waits with the fault instead, and the fault is recorded when they
have completed; of two faults the first stands. Where the spec leaves it open, what is said here is the choice or the
reading of the model (log entries 7, 8, 29 and 66). -/
def Obligations.TakingAFault : Prop :=
  ∀ (s : State) (c : Nat) (f : FaultRec), s.coreUp c = true →
    (s.busyProg c = true → (∀ g, (s.core c).wait ≠ .fault g) →
      let t := s.takeFault c f
      t.coreState (s.win c) = coreWaiting ∧ t.fld (Reg.TC_STATUS (s.win c)) Fld.TC_STATUS_WAIT_KIND = 4 ∧
        (t.core c).wait = .fault f ∧ s.sameBut t [Reg.TC_STATUS (s.win c)]) ∧
    (∀ g, (s.core c).wait = .fault g → (s.busyProg c = false → s.fidProgress c = s.recordFault c g) ∧
      s.takeFault c f = s.takeFault c g) ∧
    (s.busyProg c = false → (∀ g, (s.core c).wait ≠ .fault g) → s.takeFault c f = s.recordFault c f) ∧
    (f.code < 256 → f.source < 8 → f.detail < 256 → f.pc < 2 ^ 18 → ∃ r : State,
      (let w := s.win c
      let x := r.rd (Reg.TC_FAULT w)
      (getF x Fld.TC_FAULT_CODE = f.code ∧ getF x Fld.TC_FAULT_IMPRECISE = (if f.imprecise then 1 else 0) ∧
        getF x Fld.TC_FAULT_SOURCE = f.source ∧ getF x Fld.TC_FAULT_DETAIL = f.detail ∧ getF x Fld.TC_FAULT_PC = f.pc) ∧
        r.rd (Reg.TC_FAULT_INSN w) = f.word ∧ r.rd (Reg.TC_FAULT_ADDR w) = f.addr ∧ r.coreState w = coreFaulted ∧
        r.fld (Reg.TC_STATUS w) Fld.TC_STATUS_WAIT_KIND = 0 ∧ (r.core c).wait = .none ∧
        s.sameBut r [Reg.TC_FAULT w, Reg.TC_FAULT_INSN w, Reg.TC_FAULT_ADDR w, Reg.TC_STATUS w] ∧
        (let p := (r.postCore c (r.coreEvq c) 2 f.code x f.addr).1
        let e := p.event (Reg.TC_EVENT w) Fld.TC_EVENT_FAULT (Reg.TC_CNT_FAULT w)
        s.recordFault c f = if e.flag (Reg.TC_CFG w) Fld.TC_CFG_FAULT_DONE then e.coreDone c else e)))

/-! ### Cores from outside: launches, contexts, stops, strands, and the registers of a T-die -/

/-- An accepted doorbell, and the end of the load. A doorbell of a permitted agent, on an IDLE core with a context and no
doorbell pending, whose descriptor is aligned, readable and valid, puts the core into LOADING with VE_SEQ and FID_SEQ at 0
and reports ACCEPTED. When the load ends, with no image to copy or with the image copied, the program starts: S1 to S4 and
PC are set, the loop stack is empty and the core is RUNNING. Where the spec leaves it open, what is said here is the choice
or the reading of the model (log entries 8, 28 and 67). -/
def Obligations.LaunchesBegin : Prop :=
  (∀ (s s1 : State) (agent : Agent) (die phys c : Nat) (value : Word) (b : List Byte),
    let desc := getF value Fld.TC_DOORBELL_DESC
    s.coreWrite agent die phys = some c → s.flag (Reg.TC_LAUNCH_STATUS (s.win c)) Fld.TC_LAUNCH_STATUS_PENDING = false →
      s.coreState (s.win c) = coreIdle → (s.core c).ctxHeld = none → s.ctxValid c = true → desc % 64 = 0 →
      s.coreRead c desc 64 .read = (s1, some b) → launchValid (bytesToWords 8 b) = true →
      let w := s1.win c
      let u := ((s1.wr (Reg.VE_SEQ w) 0).wr (Reg.FID_SEQ w) 0).setCoreState w coreLoading
      exec (.tcDoorbell agent die phys value) s =
        .next ((u.setCore c { u.core c with loading := some (bytesToWords 8 b), desc := desc }).wr
          (Reg.TC_LAUNCH_STATUS (s.win c)) 0)) ∧
  (∀ (s : State) (c : Nat) (d : List Word), s.coreUp c = true → s.coreState (s.win c) = coreLoading →
      (s.core c).loading = some d →
      (bit (wordAt d 0).toNat 32 = false → exec (.programLoadComplete c) s = .next (s.startProgram c d)) ∧
      (∀ s1, bit (wordAt d 0).toNat 32 = true →
        s.loadImage c (bits (wordAt d 1).toNat 47 0) (bits (wordAt d 2).toNat 63 32) (bits (wordAt d 2).toNat 31 0) 66 = (s1, none) →
        exec (.programLoadComplete c) s = .next (s1.startProgram c d)))

/-- A change of context scrubs a core. A write of TC_CTX by Bowline or the management context that changes an IDLE or
FAULTED core without transfers completes: TC_CTX holds the new context, the core is SCRUBBING with nothing awaited, and only
registers change. The end of the scrubbing of a core completes: the core is IDLE; its program memory, tile store, tile and
mask registers read 0 and none of them is poisoned; its S registers read 0; what belongs to other cores and everything else
stands. The unused spare, which has no such state, becomes IDLE alone. Where the spec leaves it open, what is said here is
the choice or the reading of the model (log entry 49). -/
def Obligations.ContextChangesScrub : Prop :=
  (∀ (s : State) (agent : Agent) (die phys : Nat) (value : Word),
    let w := Reg.coreWin die phys
    let v := packF [(Fld.TC_CTX_VALID, getF value Fld.TC_CTX_VALID), (Fld.TC_CTX_PARTITION, getF value Fld.TC_CTX_PARTITION)]
    s.winUp die phys = true → (s.ctx agent).priv = true → s.coreState w = coreIdle ∨ s.coreState w = coreFaulted →
      s.busyFid (s.lcore die phys) = false → v ≠ s.rd (Reg.TC_CTX w) →
      ∃ t, exec (.tcCtx agent die phys value) s = .next t ∧ t.rd (Reg.TC_CTX w) = v ∧ t.coreState w = coreScrubbing ∧
        t.fld (Reg.TC_STATUS w) Fld.TC_STATUS_WAIT_KIND = 0 ∧ t = { s with regs := t.regs }) ∧
  (∀ (s : State) (die phys : Nat),
    let w := Reg.coreWin die phys
    let c := s.lcore die phys
    s.winUp die phys = true → s.coreState w = coreScrubbing →
      (640 ≤ c → exec (.scrubComplete die phys) s = .next (s.setCoreState w coreIdle)) ∧
      (c < 640 → ∃ t, exec (.scrubComplete die phys) s = .next t ∧ t.coreState w = coreIdle ∧
        (∀ o, o < 2 ^ 18 → byteAt t.tc.pmem (2 ^ 18 * c + o) = 0) ∧
        (∀ i, i < 2 ^ 15 → sGet noMark t.tc.pmPoison (2 ^ 15 * c + i) = false) ∧
        (∀ o, o < tileSize → byteAt t.mem.data (tsAddr c o) = 0 ∧ t.poisoned (tsAddr c o) = false) ∧
        (∀ o, o < 2 ^ 17 → byteAt t.tc.tiles (2 ^ 17 * c + o) = 0) ∧
        (∀ o, o < 2 ^ 12 → byteAt t.tc.masks (2 ^ 12 * c + o) = 0) ∧
        (∀ i, i < 2 ^ 11 → sGet noMark t.tc.tilePoison (2 ^ 11 * c + i) = false) ∧
        (s.win c = w → ∀ n, n < 32 → t.sreg w n = 0) ∧
        (∀ k, k < 2 ^ 18 * c ∨ 2 ^ 18 * (c + 1) ≤ k → byteAt t.tc.pmem k = byteAt s.tc.pmem k) ∧
        (∀ k, k < tsAddr c 0 ∨ tsAddr (c + 1) 0 ≤ k → byteAt t.mem.data k = byteAt s.mem.data k) ∧
        (∀ k, k < 2 ^ 17 * c ∨ 2 ^ 17 * (c + 1) ≤ k → byteAt t.tc.tiles k = byteAt s.tc.tiles k) ∧
        (∀ k, k < 2 ^ 12 * c ∨ 2 ^ 12 * (c + 1) ≤ k → byteAt t.tc.masks k = byteAt s.tc.masks k) ∧
        (∀ a, a < Reg.TC_SREG (s.win c) 0 ∨ Reg.TC_SREG (s.win c) 32 ≤ a → a ≠ Reg.TC_STATUS w → t.rd a = s.rd a) ∧
        t = { s with
          regs := t.regs
          mem := { s.mem with data := t.mem.data, poison := t.mem.poison, errs := t.mem.errs }
          tc := { s.tc with
            pmem := t.tc.pmem, pmPoison := t.tc.pmPoison, tiles := t.tc.tiles, tilePoison := t.tc.tilePoison,
            masks := t.tc.masks } }))

/-- STOP, its completion, and CLEAR_FAULT. STOP of a RUNNING or WAITING core with no fault to be recorded withdraws its
semaphore waits and blocks it until its engines have finished; of a LOADING core it abandons the copy. The stop completes
with the core IDLE and a STOPPED event. CLEAR_FAULT moves a FAULTED core to IDLE and changes nothing else. Where the spec
leaves it open, what is said here is the choice or the reading of the model (log entries 5, 66 and 68). -/
def Obligations.StopsAndClearedFaults : Prop :=
  (∀ (s : State) (agent : Agent) (die phys c : Nat), s.coreWrite agent die phys = some c →
    (s.coreState (s.win c) = coreLoading → exec (.stop agent die phys) s =
      .next (s.setCore c { s.core c with loading := none, stopping := true })) ∧
    (s.coreState (s.win c) = coreRunning ∨ s.coreState (s.win c) = coreWaiting → (∀ g, (s.core c).wait ≠ .fault g) →
      let u : State := { s with tc := { s.tc with semWaits := s.tc.semWaits.filter fun (e : Nat × Nat × Nat) => e.2.1 != c } }
      let b := u.block c 4 .none
      exec (.stop agent die phys) s = .next (b.setCore c { b.core c with stopping := true })) ∧
    (s.coreState (s.win c) = coreFaulted →
      exec (.clearFault agent die phys) s = .next (s.setCoreState (s.win c) coreIdle) ∧
        (s.setCoreState (s.win c) coreIdle).coreState (s.win c) = coreIdle)) ∧
  (∀ (s : State) (c : Nat), s.coreUp c = true → (s.core c).stopping = true → s.busyProg c = false →
    let u := s.endProgram c
    exec (.stopComplete c) s =
      .next (u.postCore c (u.coreEvq c) 3 0 (BitVec.ofNat 64 (u.pc (u.win c))) 0).1)

/-- The loss of a strand. STRAND_LOST of a strand in service takes each of its eight cores out of service with a FAULT
event, clears the strand in the register of effective strands, sets and counts RAS_EVENT.STRAND_LOST and records the loss;
where the spare is used or lost, service is asked for. A contained error of one of its cores is counted against the strand,
and the sixteenth within one second does the same. Where the spec leaves it open, what is said here is the choice or the
reading of the model (log entries 31 and 64). -/
def Obligations.StrandsLeaveService : Prop :=
  ∀ (s : State) (die strand : Nat), die < 4 → strand < 20 → s.strandUp die strand = true →
    let b := Reg.dieBlk die
    let gone := s.flag (Reg.TC_SPARE b) Fld.TC_SPARE_SPARE_USED ||
      s.losses.contains (lossStrand, 32 * die + s.fld (Reg.TC_SPARE b) Fld.TC_SPARE_SPARE_PHYS)
    let cores := (List.range 8).foldl (fun t i => t.loseCore (160 * die + 8 * strand + i)) s
    let e := (cores.strandClear die strand).event Reg.RAS_EVENT Fld.RAS_EVENT_STRAND_LOST Reg.RAS_CNT_STRAND_LOST
    let u := e.addLoss lossStrand (32 * die + s.physStrand die strand)
    exec (.strandLost die strand) s = .next (if gone then u.service Fld.RAS_SERVICE_REQUEST_STRAND else u) ∧
      (∀ core, core / 8 = 20 * die + strand →
        let l := ((sGet noTimes s.tc.strandErr (20 * die + strand)).filter fun t => s.time ≤ 1000000000 + t) ++ [s.time]
        let counted := { s with tc := { s.tc with strandErr := sSet noTimes s.tc.strandErr (20 * die + strand) l } }
        (l.length < 16 → s.strandWatch core = counted) ∧
        (16 ≤ l.length → exec (.strandLost die strand) counted = .next (s.strandWatch core)))

/-- Semaphore and event-queue registers of a T-die. A permitted write of TC_SEM_VALUE adds its value to the semaphore. A
change of a semaphore's owner leaves the value 0 and no poison; a change of a queue's owner clears ENABLE and DROPPED. BASE
and SIZE_LOG2 of a queue change only while ENABLE is 0, and HEAD is set to TAIL as ENABLE goes from 0 to 1. No other
register changes, but for those an increment changes. Where the spec leaves it open, what is said here is the choice or the
reading of the model (log entry 23). -/
def Obligations.DieRegisterWrites : Prop :=
  ∀ (s : State) (agent : Agent) (die i : Nat) (value : Word), die < 4 → s.working (capTdie die) = true →
    let n := 256 * die + i
    let w := Reg.dieEvq die i
    let own := packF [(Fld.TC_SEM_OWNER_VALID, getF value Fld.TC_SEM_OWNER_VALID),
      (Fld.TC_SEM_OWNER_PARTITION, getF value Fld.TC_SEM_OWNER_PARTITION)]
    let on := s.flag (Reg.EVQ_CTRL w) Fld.TC_EVQ_CTRL_ENABLE
    (i < 256 → (s.ctx agent).mayUse (s.flag (semOwner n) Fld.TC_SEM_OWNER_VALID) (s.fld (semOwner n) Fld.TC_SEM_OWNER_PARTITION) = true →
        sGet noMark s.tc.semPoison n = false →
        exec (.tcSemValue agent die i value) s = .next (s.semInc n (getF value Fld.TC_SEM_VALUE_VALUE))) ∧
      (i < 256 → (s.ctx agent).priv = true → own ≠ s.rd (semOwner n) →
        ∃ t, exec (.tcSemOwner agent die i value) s = .next t ∧ t.rd (semOwner n) = own ∧ t.semVal n = 0 ∧
          sGet noMark t.tc.semPoison n = false ∧ s.sameBut t [semOwner n, semValue n]) ∧
      (i < 8 → (s.ctx agent).priv = true → own ≠ s.rd (Reg.EVQ_OWNER w) →
        ∃ t, exec (.tcEvqOwner agent die i value) s = .next t ∧ t.rd (Reg.EVQ_OWNER w) = own ∧
          t.flag (Reg.EVQ_CTRL w) Fld.TC_EVQ_CTRL_ENABLE = false ∧ t.rd (Reg.EVQ_DROPPED w) = 0 ∧
          s.sameBut t [Reg.EVQ_OWNER w, Reg.EVQ_CTRL w, Reg.EVQ_DROPPED w] ∧ t = { s with regs := t.regs }) ∧
      (s.mayWriteEvq agent die i = true →
        (on = false → ∃ t, exec (.tcEvqBase agent die i value) s = .next t ∧
          t.fld (Reg.EVQ_BASE w) Fld.TC_EVQ_BASE_BASE = getF value Fld.TC_EVQ_BASE_BASE ∧ s.sameBut t [Reg.EVQ_BASE w] ∧
          t = { s with regs := t.regs }) ∧
        (on = true → exec (.tcEvqBase agent die i value) s = .next s) ∧
        ∃ t, exec (.tcEvqCtrl agent die i value) s = .next t ∧
          t.fld (Reg.EVQ_CTRL w) Fld.TC_EVQ_CTRL_VECTOR = getF value Fld.TC_EVQ_CTRL_VECTOR ∧
          t.fld (Reg.EVQ_CTRL w) Fld.TC_EVQ_CTRL_ENABLE = getF value Fld.TC_EVQ_CTRL_ENABLE ∧
          t.fld (Reg.EVQ_CTRL w) Fld.TC_EVQ_CTRL_SIZE_LOG2 =
            (if on then s.fld (Reg.EVQ_CTRL w) Fld.TC_EVQ_CTRL_SIZE_LOG2 else getF value Fld.TC_EVQ_CTRL_SIZE_LOG2) ∧
          (on = false → getF value Fld.TC_EVQ_CTRL_ENABLE = 1 →
            t.fld (Reg.EVQ_HEAD w) Fld.TC_EVQ_HEAD_HEAD = s.fld (Reg.EVQ_TAIL w) Fld.TC_EVQ_TAIL_TAIL) ∧
          s.sameBut t [Reg.EVQ_CTRL w, Reg.EVQ_HEAD w] ∧ t = { s with regs := t.regs })

/-- The triggers that clear the records of the engines. A permitted write of ME_CTRL, VE_CTRL or FID_CTRL clears what it
names: CLEAR_FLAGS leaves the flags 0, CLEAR_EXC the exception record 0, CLEAR_HIST every register of the histogram at its
reset value. Nothing else changes. Where the spec leaves it open, what is said here is the choice or the reading of the
model (log entry 23). -/
def Obligations.EngineRecordsAreCleared : Prop :=
  ∀ (s : State) (agent : Agent) (die phys c : Nat), s.coreWrite agent die phys = some c →
    let w := s.win c
    let zero (i : Instr) (l : List Nat) : Prop :=
      ∃ t, exec i s = .next t ∧ (∀ a ∈ l, t.rd a = 0) ∧ s.sameBut t l ∧ t = { s with regs := t.regs }
    let hist (i : Instr) (a : Nat) : Prop :=
      ∃ t, exec i s = .next t ∧ (∀ b, a ≤ b → b < a + 288 → t.rd b = regReset b) ∧
        (∀ b, b < a ∨ a + 288 ≤ b → t.rd b = s.rd b) ∧ t = { s with regs := t.regs }
    zero (.meClearFlags agent die phys) [Reg.ME_FLAGS w] ∧ zero (.meClearExc agent die phys) [Reg.ME_EXC w, Reg.ME_EXC_INFO w] ∧
      hist (.meClearHist agent die phys) (Reg.ME_HIST w 0) ∧
      zero (.veClearFlags agent die phys) [Reg.VE_FLAGS w] ∧ zero (.veClearExc agent die phys) [Reg.VE_EXC w, Reg.VE_EXC_INFO w] ∧
      hist (.veClearHist agent die phys) (Reg.VE_HIST w 0) ∧
      zero (.fidClearFlags agent die phys) [Reg.FID_FLAGS w] ∧
      zero (.fidClearExc agent die phys) [Reg.FID_EXC w, Reg.FID_EXC_INFO w] ∧
      hist (.fidClearHist agent die phys) (Reg.FID_HIST w 0)

/-! ### The vector engine -/

/-- Element-wise vector operations. An issued legal element-wise vector operation that reads no poisoned row of its operand
registers (a row with no active element is not read) writes to each active element of the view the value of its operation,
leaves inactive elements, other tile registers, the masks and memory as they were, and goes on. Integer operations wrap;
float operations convert the exact result once under CC. Where the spec leaves it open, what is said here is the choice or
the reading of the model (log entry 30). -/
def Obligations.VectorElementsAreWritten : Prop :=
  ∀ (s : State) (core : Nat) (rest : Rest),
    let f := vF rest
    let n := fmtBits f
    let s2 := s.vecCounted core
    let el (t i j : Nat) : Nat := s.vElem core t f i j
    let num (t i j : Nat) : Machine.Num := decodeNum f (el t i j)
    let int (t i j : Nat) : Int := sext n (el t i j)
    let ta := vTA rest
    let tb := vTB rest
    let b := (s.sreg (s.win core) tb).toNat
    let round (i j : Nat) (x : Machine.Num × Nat) : Nat := (s2.vConvert core rest f (i * vecC f + j) x.2 x.1).1
    let of := s.operandRows core rest f
    let maps (cls op : Nat) (legal : Bool) (rows : List (Nat × Nat)) (i : Instr) (g : Nat → Nat → Nat) : Prop :=
      s.regPoisoned core (maskRows rest ++ rows) = false → pcFits (s.flow core).1 →
        s.does core cls op rest legal i fun t => s.mapped t core (vTD rest) f (s.active core rest (vecW f)) g
    let two := vFieldsOk [.td, .ta, .tb, .f, .mask] rest
    let arith := two && ((vecFloat f && vRoundOk true rest) || (vecInt f && vRoundOk false rest))
    let fused := vFieldsOk [.td, .ta, .tb, .tc, .f, .mask] rest && vecFloat f && vRoundOk true rest
    let logic := two && (vecInt f && vRoundOk false rest)
    let minMax := two && ((vecFloat f || vecInt f) && vRoundOk false rest)
    let unary := vFieldsOk [.td, .ta, .f, .mask] rest && (vecFloat f || vecInt f) && vRoundOk false rest
    let seed := vFieldsOk [.td, .ta, .f, .mask] rest && decide (f ≤ 1) && vRoundOk false rest
    maps 0x18 0x00 arith (of [ta, tb]) (.vadd core rest) (fun i j =>
        if vecInt f then unsig n (int ta i j + int tb i j) else round i j (exactAdd (num ta i j) (num tb i j))) ∧
      maps 0x18 0x01 arith (of [ta, tb]) (.vsub core rest) (fun i j =>
        if vecInt f then unsig n (int ta i j - int tb i j) else round i j (exactAdd (num ta i j) (num tb i j).negate)) ∧
      maps 0x18 0x02 arith (of [ta, tb]) (.vmul core rest) (fun i j =>
        if vecInt f then unsig n (int ta i j * int tb i j) else round i j (exactMul (num ta i j) (num tb i j))) ∧
      maps 0x18 0x03 fused (of [ta, tb, vTC rest]) (.vfma core rest)
        (fun i j => round i j (exactFma false (num ta i j) (num tb i j) (num (vTC rest) i j))) ∧
      maps 0x18 0x04 fused (of [ta, tb, vTC rest]) (.vfnma core rest)
        (fun i j => round i j (exactFma true (num ta i j) (num tb i j) (num (vTC rest) i j))) ∧
      maps 0x18 0x05 minMax (of [ta, tb]) (.vmin core rest) (fun i j =>
        if vecInt f then unsig n (min (int ta i j) (int tb i j)) else (floatMinMax f false (el ta i j) (el tb i j)).1) ∧
      maps 0x18 0x06 minMax (of [ta, tb]) (.vmax core rest) (fun i j =>
        if vecInt f then unsig n (max (int ta i j) (int tb i j)) else (floatMinMax f true (el ta i j) (el tb i j)).1) ∧
      maps 0x18 0x07 unary (of [ta]) (.vabs core rest) (fun i j => absCode f (el ta i j)) ∧
      maps 0x18 0x08 unary (of [ta]) (.vneg core rest) (fun i j => negCode f (el ta i j)) ∧
      maps 0x18 0x09 logic (of [ta, tb]) (.vand core rest) (fun i j => (el ta i j &&& el tb i j) % 2 ^ n) ∧
      maps 0x18 0x0A logic (of [ta, tb]) (.vor core rest) (fun i j => (el ta i j ||| el tb i j) % 2 ^ n) ∧
      maps 0x18 0x0B logic (of [ta, tb]) (.vxor core rest) (fun i j => (el ta i j ^^^ el tb i j) % 2 ^ n) ∧
      maps 0x18 0x0C logic (of [ta, tb]) (.vsll core rest) (fun i j => el ta i j * 2 ^ (el tb i j % n) % 2 ^ n) ∧
      maps 0x18 0x0D logic (of [ta, tb]) (.vsrl core rest) (fun i j => el ta i j / 2 ^ (el tb i j % n) % 2 ^ n) ∧
      maps 0x18 0x0E logic (of [ta, tb]) (.vsra core rest) (fun i j => unsig n (int ta i j / (2 ^ (el tb i j % n) : Nat))) ∧
      maps 0x19 0x02 (vFieldsOk [.td, .ta, .f, .mask] rest && vecView f && vRoundOk false rest) (of [ta]) (.vmov core rest)
        (fun i j => el ta i j) ∧
      maps 0x19 0x03 (vFieldsOk [.td, .tb, .f, .mask] rest && vecView f && vRoundOk false rest) [] (.vsplat core rest)
        (fun _ _ => b % 2 ^ n) ∧
      maps 0x19 0x04 (vFieldsOk [.td, .tb, .f, .mask] rest && vecInt f && vRoundOk false rest) [] (.viota core rest)
        (fun i j => (b + i * vecC f + j) % 2 ^ n) ∧
      maps 0x19 0x05 (vFieldsOk [.td, .ta, .tb, .f, .mask, .imm] rest && vecView f && decide (vImm rest < 2) && vRoundOk false rest)
        (s.vrotRows core rest) (.vrot core rest) (fun i j => if vImm rest = 0 then el ta ((i + b) % 32) j else el ta i ((j + b) % vecC f)) ∧
      maps 0x1A 0x03 seed (of [ta]) (.rcps core rest) (fun i j => (seedResult f 0x03 (num ta i j)).1) ∧
      maps 0x1A 0x04 seed (of [ta]) (.rsqs core rest) (fun i j => (seedResult f 0x04 (num ta i j)).1) ∧
      maps 0x1A 0x05 seed (of [ta]) (.exp2s core rest) (fun i j => (seedResult f 0x05 (num ta i j)).1) ∧
      maps 0x1A 0x06 (vFieldsOk [.td, .f, .mask] rest && (f == fmtINT32 || f == fmtFP32) && vCC rest == 0 && vSK rest != 0 &&
        vSK rest % 4 == 0) [] (.vrand core rest) (fun i j =>
          let w := (s2.vKey core rest).word (i * 32 + j)
          if f = fmtFP32 then uniform32 w else w)

/-- VSEL, VRED, VUNPACK and VLD write their view. Carried out, VSEL writes each element of a or of b by its mask bit, VRED
the reduction of its position, VUNPACK the scaled element under CC, VLD the element of the row in the tile store; all else
as for element-wise operations. Where the spec leaves it open, what is said here is the choice or the reading of the model
(log entry 30). -/
def Obligations.VectorSelectReduceUnpackLoad : Prop :=
  ∀ (s : State) (core : Nat) (rest : Rest), pcFits (s.flow core).1 →
    let f := vF rest
    let f2 := vF2 rest
    let v := memView f
    let a := s.vAddr core rest
    let str := s.vStr core rest
    let rows := rowRanges a str 128
    let active := s.active core rest
    let of := s.operandRows core rest
    let m := s.mask core (vMK rest)
    let reads := if vMasked rest then
        ((positions (vecC v)).filter fun p => activeIn true m (vecW v) p.1 p.2).map fun p => (a + p.1 * str + p.2 * vecW v, vecW v)
      else rows
    let red (i j : Nat) : Nat × Nat × Nat :=
      if vImm rest / 4 % 4 = 0 then (s.vredTable core rest).getD i (0, 0, 0)
      else if vImm rest / 4 % 4 = 1 then (s.vredTable core rest).getD j (0, 0, 0) else (s.vredTable core rest).headD (0, 0, 0)
    let unpacked (i j : Nat) : Nat :=
      let b := bytesAt s.tc.tiles (tileKey core (vTA rest) i (vImm rest * fmtBlock f2)) (fmtBlock f2)
      let x := scaledNum f2 (blockElem (fmtBits f2) b j) (s.tElem core (vTB rest) 1 i (vImm rest))
      ((s.vecCounted core).vConvert core rest fmtFP32 (i * 32 + j) (if x.isSnan then 1 else 0) x).1
    (s.carries core 0x19 0x01 rest (vFieldsOk [.td, .ta, .tb, .f, .mask] rest && vecView f && vRoundOk false rest && vMasked rest) none []
        (maskRows rest ++ s.vselRows core rest) [] → ∃ t, exec (.vsel core rest) s = .next t ∧
          s.mapped t core (vTD rest) f (fun _ _ => true) fun i j =>
            s.vElem core (if active (vecW f) i j then vTA rest else vTB rest) f i j) ∧
      (s.carries core 0x18 0x10 rest (vFieldsOk [.td, .ta, .f, .mask, .imm] rest && (decide (f ≤ 1) || vecInt f) && vRoundOk false rest &&
          decide (vImm rest < 16) && vImm rest % 4 != 3 && vImm rest / 4 != 3) none [] (maskRows rest ++ of f [vTA rest]) [] →
        ∃ t, exec (.vred core rest) s = .next t ∧ s.mapped t core (vTD rest) f (active (vecW f)) fun i j => (red i j).1) ∧
      (s.carries core 0x1A 0x02 rest (vFieldsOk [.td, .ta, .tb, .f, .f2, .imm] rest && vRoundOk true rest && f == fmtFP32 && vecBlock f2 &&
          decide (vImm rest < vecSlots f2)) none [] (maskRows rest ++ wholeRows [vTA rest, vTB rest]) [] →
        ∃ t, exec (.vunpack core rest) s = .next t ∧ s.mapped t core (vTD rest) fmtFP32 (fun _ _ => true) unpacked) ∧
      (s.carries core 0x1B 0x00 rest (vFieldsOk [.td, .ta, .tb, .f, .mask] rest && memLegal rest && vRoundOk false rest)
          (vecCheck 32 [a, str] rows) rows (maskRows rest) reads →
        ∃ t, exec (.vld core rest) s = .next t ∧ s.mapped t core (vTD rest) v (active (vecW v)) fun i j =>
          s.tsNat core (a + i * str + j * vecW v) (vecW v))

/-- Mask operations, VCMP, VCVT, VPACK, vector stores and VHREC. Carried out, a mask operation sets mask TD to its result,
VMLD to the 512 bytes at A; VMST stores mask TD at A; VCMP, VCVT, VPACK, VST, VSTC and VHREC do what their named body does
to the state in which the operands are read; then flags, record, counters and PC follow. Where the spec leaves it open, what
is said here is the choice or the reading of the model (log entries 8 and 30). -/
def Obligations.MasksStoresAndRecordsOfTheVectorEngine : Prop :=
  ∀ (s : State) (core : Nat) (rest : Rest),
    let f := vF rest
    let f2 := vF2 rest
    let s2 := s.vecCounted core
    let a := s.vAddr core rest
    let str := s.vStr core rest
    let ones := 2 ^ 4096 - 1
    let of := s.operandRows core rest
    let ma := s.mask core (vTA rest)
    let mb := s.mask core (vTB rest)
    let setsMask (op : Nat) (used : List VUse) (legal : Bool) (regs : List Nat) (i : Instr) (v : Nat) : Prop :=
      s.carries core 0x19 op rest (vFieldsOk used rest && vRoundOk false rest && legal && decide (vTD rest < 8)) none []
        (maskRows rest ++ wholeRows regs) [] → exec i s = .next (s.vecDone core (s2.setMask core (vTD rest) (v % 2 ^ 4096), []))
    let both := decide (vTA rest < 8) && decide (vTB rest < 8)
    let two (op : Nat) (i : Instr) (v : Nat) : Prop := setsMask op [.td, .ta, .tb] both [32 + vTA rest, 32 + vTB rest] i v
    let maskMem := vFieldsOk [.td, .ta] rest && vRoundOk false rest && decide (vTD rest < 8)
    let at512 := [(a, 512)]
    let record := !bit (vImm rest) 2
    let foot := if record then [(a, 384)] else []
    two 0x08 (.vmand core rest) (ma &&& mb) ∧ two 0x09 (.vmor core rest) (ma ||| mb) ∧ two 0x0A (.vmxor core rest) (ma ^^^ mb) ∧
      two 0x0B (.vmandn core rest) (ma ^^^ (ma &&& mb)) ∧
      setsMask 0x0C [.td, .imm] (decide (vImm rest < 2)) [] (.vmset core rest) (if vImm rest = 1 then ones else 0) ∧
      setsMask 0x0D [.td, .ta] (decide (vTA rest < 8)) [32 + vTA rest] (.vmnot core rest) (ones ^^^ ma) ∧
      (s.carries core 0x1B 0x03 rest maskMem (vecCheck 64 [a] at512) at512 [] at512 →
        exec (.vmld core rest) s = .next (s.vecDone core (s2.setMask core (vTD rest) (s.tsNat core a 512), []))) ∧
      (s.carries core 0x1B 0x04 rest maskMem (vecCheck 64 [a] at512) at512 (wholeRows [32 + vTD rest]) [] →
        exec (.vmst core rest) s = .next (s.vecDone core (s2.tsWrite core a (natLE 512 (s.mask core (vTD rest))), []))) ∧
      (s.carries core 0x19 0x00 rest (vFieldsOk [.td, .ta, .tb, .f, .mask, .imm] rest && (vecFloat f || f == fmtINT8 || vecInt f) &&
          vRoundOk false rest && decide (vTD rest < 8) && decide (vImm rest < 8)) none [] (maskRows rest ++ of f [vTA rest, vTB rest]) [] →
        exec (.vcmp core rest) s = .next (s.vecDone core (s2.vcmpBody core rest))) ∧
      (s.carries core 0x1A 0x00 rest (vFieldsOk [.td, .ta, .f, .f2, .mask, .imm] rest && vRoundOk true rest && vcvtLegal rest) none []
          (maskRows rest ++ s.vcvtRows core rest) [] → exec (.vcvt core rest) s = .next (s.vecDone core (s2.vcvtBody core rest))) ∧
      (s.carries core 0x1A 0x01 rest (vFieldsOk [.td, .ta, .tb, .f, .f2, .imm] rest && vRoundOk true rest && f == fmtFP32 &&
          vecBlock f2 && decide (vImm rest < vecSlots f2)) none [] (maskRows rest ++ wholeRows [vTA rest]) [] →
        exec (.vpack core rest) s = .next (s.vecDone core (s2.vpackBody core rest))) ∧
      (s.carries core 0x1B 0x01 rest (vFieldsOk [.td, .ta, .tb, .f, .mask, .imm] rest && memLegal rest && vRoundOk false rest &&
          decide (vImm rest < 2)) (vecCheck 32 [a, str] (rowRanges a str 128)) (rowRanges a str 128) (maskRows rest ++ of (memView f) [vTD rest]) [] →
        exec (.vst core rest) s = .next (s.vecDone core (s2.vstBody core rest))) ∧
      (s.carries core 0x1B 0x02 rest (vFieldsOk [.td, .ta, .tb, .f, .f2, .mask, .imm] rest && vecView f && vecView f2 &&
          decide (vecW f2 ≤ vecW f) && vRoundOk true rest && decide (vImm rest < 2))
          (vecCheck 32 [a, str] (rowRanges a str (vecC f * vecW f2))) (rowRanges a str (vecC f * vecW f2)) (maskRows rest ++ of f [vTD rest]) [] →
        exec (.vstc core rest) s = .next (s.vecDone core (s2.vstcBody core rest))) ∧
      (s.carries core 0x1B 0x08 rest (vFieldsOk [.ta, .imm] rest && vRoundOk false rest && decide (vImm rest < 8) && vImm rest % 2 == 0 &&
          (record || vTA rest == 0)) (if record then vecCheck 64 [a] foot else none) foot [] [] →
        exec (.vhrec core rest) s = .next (s.vecDone core (s2.vhrecBody core rest)))

/-- MMA, MCOMB and MREC. Carried out, MMA writes the P tile of its span sums, MCOMB the D tile of combined and converted
elements, each row by row at its address, and both record flags, events and histogram; MREC stores the 384-byte record
unless NOSTORE and clears it with CLEAR. Then PC goes on. Where the spec leaves it open, what is said here is the choice or
the reading of the model (log entries 8 and 30). -/
def Obligations.MatrixInstructions : Prop :=
  ∀ (s : State) (core : Nat) (rest : Rest),
    let s1 := s.counted core
    let w := s.win core
    let o := s.mmaOps core rest
    let q := s.mcombOps core rest
    let tile := tileElems o.m o.n (s1.mmaElem core o)
    let out := tileElems q.m q.n (s1.mcombElem core q)
    let store := !bit rest.toNat 30
    let addr := (s.sreg w (fSD rest)).toNat
    let stored := if store then
        s1.tsWrite core addr (s1.recordBytes (Reg.ME_FLAGS w) (Reg.ME_EXC w) (Reg.ME_EXC_INFO w) (Reg.ME_HIST w 0))
      else s1
    let cleared := if bit rest.toNat 31 then ((stored.meClearFlags w).meClearExc w).meClearHist w else stored
    (s.carries core 0x10 0x00 rest (mmaLegal rest) o.check (o.pRange :: o.reads) [] o.poisonRanges →
        exec (.mma core rest) s =
          .next (((s1.tsWrite core o.pAddr (tileBytes 4 tile)).matrixRecord core o.k fmtFP32 o.hx tile).advance core)) ∧
      (s.carries core 0x10 0x01 rest (mcombLegal rest) q.check (q.dRange :: q.reads) [] q.reads →
        exec (.mcomb core rest) s = .next (((s1.tsWrite core q.dAddr (tileBytes (fmtBits q.fd / 8) out)).matrixRecord core q.k q.fd
          q.hx out).advance core)) ∧
      (s.carries core 0x10 0x02 rest (recLegal rest) (recCheck srcMatrix store addr) (if store then [(addr, 384)] else []) [] [] →
        exec (.mrec core rest) s = .next ((cleared.bump64 (Reg.ME_CNT_INSN w) 1).advance core))

/-! ### The Fid engine and the launch queues -/

/-- FXFER, FREC, completion and armed transfers. With room in the queue of 16, an issued legal FXFER queues the descriptor
address, offsets and key block read at issue, and FREC its record address; PC goes on and Fid runs; with the queue full the
core waits with WAIT_KIND 3. The oldest transfer whose accesses are done completes: an armed one enters its flags, it is
counted and its semaphore incremented. An armed transfer starts once no transfer of its core has local work left. A launched
FID_TRANSFER that passes its checks is armed. Where the spec leaves it open, what is said here is the choice or the reading
of the model (log entries 18 and 66). -/
def Obligations.FidInstructionsAndTransfers : Prop :=
  ∀ (s : State) (core : Nat),
    let s1 := s.counted core
    let w := s.win core
    let queued (t : State) (i : FidInsn) : State :=
      ({ t.advance core with fid := { (t.advance core).fid with queue := (t.advance core).fid.queue ++ [i] } }).fidAfter core
    (∀ rest : Rest, s.issues core (insnWord 0x20 0x00 rest) → fxferLegal rest = true → s.fidQueued core < 16 →
        let k := fRsv rest
        let r (n : Nat) : Word := s.sreg w n
        exec (.fxfer core rest) s = .next (queued (s1.bump32 (Reg.FID_SEQ w) 1)
          { core := core, frec := false, addr := r (fSD rest), so := r (fSA rest), dO := r (fSB rest),
            key := if k = 0 then [] else [r k, r (k + 1), r (k + 2), r (k + 3)],
            seq := s.fld (Reg.FID_SEQ w) Fld.FID_SEQ_COUNT, pc := s.pc w, word := insnWord 0x20 0x00 rest })) ∧
      (∀ rest : Rest, s.issues core (insnWord 0x20 0x01 rest) →
        (bits rest.toNat 46 32 == 0 && bits rest.toNat 29 0 == 0 && (!bit rest.toNat 30 || fSD rest == 0)) = true →
        frecCheck (!bit rest.toNat 30) (s.sreg w (fSD rest)).toNat = none → s.fidQueued core < 16 →
        exec (.frec core rest) s =
          .next (queued s1 ⟨core, true, s.sreg w (fSD rest), 0, 0, [], 0, s.pc w, insnWord 0x20 0x01 rest⟩)) ∧
      (∀ rest : Rest, s.issues core (insnWord 0x20 0x00 rest) → fxferLegal rest = true → 16 ≤ s.fidQueued core →
        exec (.fxfer core rest) s = .next (s.block core 3 .stall)) ∧
      (∀ x : Xfer, (s.fid.xfers.find? fun x => x.core == core && x.localDone && x.puts.isEmpty) = some x →
        let s2 := { s with fid := { s.fid with xfers := s.fid.xfers.erase x } }
        let s3 := if x.armed then s2.fidEnter x else s2
        let n := dSem x.words
        let s4 := s3.bump64 (Reg.FID_CNT_XFER (s3.win x.core)) 1
        (dSemEn x.words = true → s3.semFault x.core n = none) →
        exec (.fxferComplete core) s = .next ((if dSemEn x.words then s4.semInc n (dSemInc x.words) else s4).fidAfter core)) ∧
      (∀ x : Xfer, (s.fid.xfers.any fun x => x.core == core && !x.localDone) = false →
        (s.fid.armed.find? fun x => x.core == core) = some x →
        let s2 := { s with fid := { s.fid with armed := s.fid.armed.erase x } }
        let r := s2.fidGo x (fidFuel x)
        exec (.armedTransferStart core) s = .next ((r.1.fidSettle r.2).fidAfter core)) ∧
      (∀ (die : Nat) (e : TalqEntry) (t : State) (d : List Word), die < 4 → s.launches die actFid e →
        let k := 160 * die + e.target
        (s.talqTaken die e).talqTargetUp die e = true → (s.talqTaken die e).fidLaunchCheck k e.desc = (t, .inr d) →
        let u := t.bump64 (Reg.FID_CNT_ARMED (t.win k)) 1
        exec (.fidTransfer die) s = .next (({ u.fidCounted with fid := { u.fidCounted.fid with
          armed := u.fid.armed ++ [u.fidNew k true e.desc d 0 0 [] 0 0x3FFFF 0] } }).fidStatus k))

/-- What a launch queue entry does at its moment. While Halyard launches, the next entry of a queue leaves it, is counted,
and: starts a program as a doorbell would; launches a put, a replica refresh or the cut; submits an accepted RSE command;
posts a host event of a valid descriptor. Where its unit has left service, UNIT_ABSENT is logged with its TAG instead. Where
the spec leaves it open, what is said here is the choice or the reading of the model (log entries 60 and 65). -/
def Obligations.QueueEntriesLaunch : Prop :=
  ∀ (s : State) (e : TalqEntry),
    let launched (q action : Nat) (i : Instr) (k : State → State) : Prop := s.launches q action e →
      exec i s = .next (if (s.talqTaken q e).talqTargetUp q e then k (s.talqTaken q e) else (s.talqTaken q e).logCode 8 e.tag)
    (∀ die, die < 4 → launched die actProgram (.programStart die) fun t => (t.launch (160 * die + e.target) e.desc).1) ∧
      (∀ f, f < 2 → launched (5 + f) actPut (.fabricPut f) fun t => t.putLaunch f e) ∧
      (∀ f, f < 2 → launched (5 + f) actRefresh (.replicaRefresh f) fun t => t.refreshLaunch f e) ∧
      launched 4 actCut .checkpointCut (fun t => t.cutLaunch e) ∧
      (s.launches 4 actRse e → (s.talqTaken 4 e).talqTargetUp 4 e = true → (s.talqTaken 4 e).submitRefusal e.desc = 0 →
        exec .rseSubmit s = .next ((s.talqTaken 4 e).rseAccept e.desc e.tag).1) ∧
      (s.launches 4 actEvent e →
        let r := (s.talqTaken 4 e).readDesc 4 e.desc
        let d := bytesToWords 8 r.data
        let w0 := (wordAt d 0).toNat
        (s.talqTaken 4 e).inTier e.desc = true → r.stat = .ok → bits w0 63 56 = 1 → bits w0 47 0 = 0 → (d.drop 3).all (· == 0) = true →
        exec .hostEvent s = .next (r.st.postHost e.target 0x10 (bits w0 55 48) 0xFFFF e.step (wordAt d 1) (wordAt d 2)).1)

/-! ### Halyard -/

/-- TIME_EXCHANGE, TIME_REQ, TIME_RESP and SLIP_STATE. When the last exchange was answered, the next sends TIME_REQ with the
present time 125,000 ns after it, then SLIP_STATE. TIME_REQ of a node attaches it, up to 64, and is answered with the time
at which its request arrived and the present time. The answer to the last TIME_REQ sets the level and, where twice the
offset is even, the offset and the hop latency; the rate follows, or while JOINING beyond 1,000 ns TIMEBASE is stepped; the
lock is judged. SLIP_STATE is kept for its child. Where the spec leaves it open, what is said here is the choice or the
reading of the model (log entries 13, 32 and 61). -/
def Obligations.TimeIsExchangedWithTheParent : Prop :=
  ∀ (s : State) (src : Nat) (y : TickSymbol),
    let enabled := s.flag Reg.HLY_CTRL Fld.HLY_CTRL_ENABLE
    let n := (s.hly.seq + 1) % 65536
    let t := if s.hly.t1 = 0 then s else s.timeTo (s.hly.t1 + 125000)
    (s.exchanging = true → s.hly.awaiting = false →
        exec .timeExchange s = .next (({ t with hly := { t.hly with seq := n, t1 := t.time, awaiting := true, missed := 0 } }.send t.parent
          symTimeReq { t.mkSym with seq := n, timeA := t.time }).sendSlip)) ∧
      (s.symOk y = true → enabled = true → ((s.hly.children.any fun c => c.node == src) = true ∨ s.hly.children.length < 64) →
        let a := (s.takeSym symTimeReq y).attach src
        exec (.timeReq src y) s = .next (a.send src symTimeResp
          { a.mkSym with seq := y.seq, level := a.fld Reg.HLY_TREE Fld.HLY_TREE_LEVEL, timeA := s.symTime symTimeReq y, timeB := a.time })) ∧
      (s.symOk y = true → enabled = true → s.exchanging = true → src = s.parent → s.hly.awaiting = true → y.seq = s.hly.seq →
        let t1 : Int := s.hly.t1
        let t2 : Int := y.timeA
        let t3 : Int := y.timeB
        let t4 : Int := s.symTime symTimeResp y
        let d := (t2 - t1) - (t4 - t3) - s.parentAsym
        let e := (t4 - t1) - (t3 - t2) - s.parentAsym
        let v := (s.takeSym symTimeResp y).setFld Reg.HLY_TREE Fld.HLY_TREE_LEVEL (min 3 (y.level + 1))
        let w := v.wr Reg.HLY_OFFSET (wordOfInt (d / 2))
        let x := { w with hly := { w.hly with awaiting := false, missed := 0, hopLat := e / 2 } }
        d % 2 = 0 → exec (.timeResp src y) s = .next ((if s.hlyState = hlyJoining ∧ d.natAbs > 2000 then x.stepTime d
          else { x with hly := { x.hly with rate := max (-100) (min 100 (4 * d)) } }).lockJudge d)) ∧
      (s.symOk y = true → enabled = true →
        let u := s.takeSym symSlipState y
        exec (.slipState src y) s = .next ({ u with hly := { u.hly with children := u.hly.children.map fun (c : Child) =>
          if c.node = src then { c with pending := y.pending, latency := y.timeB % 2 ^ 20 } else c } }.slipUpdate).leadUpdate)

/-- TICK_EXTEND, TICK_FINAL and TICK_FAULT. An accepted tick symbol that a member has not handled yet goes to every child.
For the tick the node is in, TICK_EXTEND moves the tick end and counts the slips, TICK_FINAL fixes the end and TICK_FAULT
counts the slips and begins the hold at TIME_A. A TICK_FINAL of another generation is an event. While JOINING, TICK_EXTEND
is kept, and TICK_FINAL of a locked node fixes the moment of its joining. Where the spec leaves it open, what is said here
is the choice or the reading of the model (log entries 32, 33 and 61). -/
def Obligations.TickSymbolsMoveTheTick : Prop :=
  ∀ (s : State) (y : TickSymbol), s.symOk y = true → s.flag Reg.HLY_CTRL Fld.HLY_CTRL_ENABLE = true → s.isMaster = false →
    let relayed (type : Nat) : State :=
      let u := s.takeSym type y
      { u with hly := { u.hly with seen := s.hly.seen ++ [(type, y)] } }.sendChildren type y
    let fresh (type : Nat) : Prop := s.hly.seen.contains (type, y) = false
    let x := relayed symTickExtend
    let f := (relayed symTickFinal).genCheck y
    let x' := { x with hly := { x.hly with latest := some (symTickExtend, y) } }
    (fresh symTickExtend → s.hlyState ≠ hlyJoining → s.ofTick y = true →
        exec (.tickExtend y) s = .next (((x'.wr Reg.HLY_TICK_END (BitVec.ofNat 64 y.timeA)).slipsTo y.slips).unholdLate)) ∧
      (fresh symTickExtend → s.hlyState = hlyJoining → exec (.tickExtend y) s = .next x') ∧
      (fresh symTickFinal → s.hlyState ≠ hlyJoining → s.ofTick y = true → exec (.tickFinal y) s = .next (f.takeFinal y)) ∧
      (fresh symTickFinal → s.hlyState = hlyJoining → s.flag Reg.HLY_STATUS Fld.HLY_STATUS_LOCKED = true → s.hly.final = none →
        exec (.tickFinal y) s = .next { f with hly := { f.hly with
          latest := some (symTickFinal, y), lastChildren := y.children, final := some (y.step, y.timeA, y.timeB) } }) ∧
      (fresh symTickFault → s.ofTick y = true → s.hlyState ≠ hlyHoldFault →
        exec (.tickFault y) s = .next (((relayed symTickFault).slipsTo y.slips).holdFault y.timeA))

/-- Joining, guard point, decision point, tick end, hold, quiet band and FDIE_DONE. At its moment: a joining node with a
held TICK_FINAL becomes a member at its end time; the guard point copies the late words and forces a slip that is due; the
master at E - L sends TICK_FINAL when nothing is pending, else grants a slip while slips remain, else faults the tick; the
fixed end ends the tick; without TICK_FINAL a member holds; the quiet band begins. An F-die that owes nothing at or past the
guard point signals step-done. Where the spec leaves it open, what is said here is the choice or the reading of the model
(log entries 12, 33, 34, 60 and 61). -/
def Obligations.MomentsOfATick : Prop :=
  ∀ s : State,
    let g := doneWords.foldl (fun s e => s.wr e.2.2 (s.lateWord e.1 e.2.1)) (s.timeTo s.guardPoint)
    let g' := { g with hly := { g.hly with guardDone := true, forced := g.calDue } }
    let d := s.timeTo (s.tickEnd - s.lead)
    let h := (s.timeTo s.tickEnd).setHlyState hlyHoldFinal
    let q := s.timeTo s.quietStart
    (∀ st a b, s.hly.final = some (st, a, b) → s.hlyState = hlyJoining →
        let u := (s.timeTo a).tickApply st
        exec .joinComplete s =
          .next ((u.setHlyState hlyRunning).beginTick (nextStep st) (max a u.time) (some b)).dropPast.twaitsJudge.hartsJudge) ∧
      (s.ticking = true → s.hly.guardDone = false → exec .guardPoint s = .next (if !g.calDue.isEmpty then
          (g'.setFld Reg.HLY_SLIPS Fld.HLY_SLIPS_FORCED 1).event Reg.HLY_EVENT Fld.HLY_EVENT_FORCED_SLIP Reg.HLY_CNT_FORCED
        else g').slipUpdate) ∧
      (s.deciding = true → d.aggPending = false → d.cutLaunched = false → exec .decisionPoint s = .next (d.sendFinal d.tickEnd)) ∧
      (s.deciding = true → d.aggPending = true → exec .decisionPoint s =
        .next (if d.fld Reg.HLY_SLIPS Fld.HLY_SLIPS_CURRENT < d.hly.active.maxSlips then d.grantSlip else d.faultTick)) ∧
      (∀ a b, s.hly.final = some (s.step, a, b) → s.ticking = true → exec .tickEnd s = .next (s.endTick a b)) ∧
      (s.launching = true → s.hly.final = none → s.cutArmed = false → s.isMaster = false → exec .boundaryHold s =
        .next ({ h with hly := { h.hly with lateHold := true } }.event Reg.HLY_EVENT Fld.HLY_EVENT_LATE_FINAL Reg.HLY_CNT_LATE_FINAL)) ∧
      (s.launching = true → s.hly.final = none → s.cutArmed = true → exec .boundaryHold s = .next h.cutHoldBegin) ∧
      (s.ticking = true → s.hly.quiet = false →
        exec .quietBandStart s = .next { q with hly := { q.hly with quiet := true } }.calQuiet.wcFlushAll.tlmFlush) ∧
      (∀ f, f < 2 → s.working (capFdie f) = true → (s.hly.guardDone = true ∨ s.ticking = true ∧ s.guardPoint ≤ s.time) → s.fdieOwes f = false →
        exec (.fdieDone f) s = .next (s.unitDone (if f = 0 then Fld.HLY_DONE_U_FDIE0 else Fld.HLY_DONE_U_FDIE1)))

/-- Writes of HLY_CTRL, HLY_PARAM, HLY_HOST_DONE, ARM1 and CANCEL. An agent that may write Halyard arms an entry: its result
is INVALID, UNIT_ABSENT, PAST, FULL or ACCEPTED, the first that applies, and is kept for the agent; only ACCEPTED adds the
entry, FULL and PAST count their events. CANCEL takes the entries with the tag away, but for one whose moment has come, and
keeps their number. HLY_PARAM keeps the staged set for its effective step when no check fails, else PARAM_ERR says which.
HLY_HOST_DONE signals the host. HLY_CTRL keeps its two fields; disabled, the node goes IDLE. Where the spec leaves it open,
what is said here is the choice or the reading of the model (log entries 12, 23 and 61). -/
def Obligations.HalyardRegisterWrites : Prop :=
  ∀ (s : State) (agent : Agent) (v : Word), s.mayWriteHly agent = true →
    (∀ q, s.talqUp q = true →
        let k := armKey q agent
        let w0 := sGet noArm s.hly.arm0 k
        let e : TalqEntry := ⟨q, w0, v⟩
        let old := sGet noArmInfo s.hly.armInfo k
        let r : Nat := if s.talqInvalid q e then 3 else if s.talqTargetUp q e = false then 4
          else if s.passed e.step (s.launchMoment e) then 2
          else if talqSize q ≤ (s.hly.talq.filter fun x => x.queue == q).length then 1 else 0
        let t := if r = 0 then { s with hly := { s.hly with talq := s.hly.talq ++ [e] } }.talqOcc q
          else if r = 1 then s.event Reg.HLY_EVENT Fld.HLY_EVENT_TALQ_FULL Reg.HLY_CNT_FULL
          else if r = 2 then s.event Reg.HLY_EVENT Fld.HLY_EVENT_TALQ_PAST Reg.HLY_CNT_PAST else s
        exec (.hlyTalqArm1 agent q v) s = .next { t with hly := { t.hly with
          armInfo := sSet noArmInfo s.hly.armInfo k (r, bits v.toNat 63 48, old.2.2) } }) ∧
      (∀ q, s.talqUp q = true →
        let k := armKey q agent
        let hit (e : TalqEntry) : Bool := e.queue == q && e.tag == bits v.toNat 15 0 && !s.talqDue e
        let t := { s with hly := { s.hly with talq := s.hly.talq.filter fun e => !hit e } }.talqOcc q
        let old := sGet noArmInfo s.hly.armInfo k
        exec (.hlyTalqCancel agent q v) s = .next { t with hly := { t.hly with
          armInfo := sSet noArmInfo s.hly.armInfo k (old.1, old.2.1, (s.hly.talq.filter hit).length) } }) ∧
      (let eff := getF v Fld.HLY_PARAM_EFFECTIVE_STEP
        let gen := getF v Fld.HLY_PARAM_GENERATION
        let t := s.stagedSet gen
        let c : Nat := t.check (if s.isMaster then s.fld Reg.HLY_TREE Fld.HLY_TREE_MIN_GUARD else 0)
        let e : Nat := if c ≠ 0 then c else if laterStep eff s.step then 0 else 4
        let u := s.setFld Reg.HLY_STATUS Fld.HLY_STATUS_PARAM_ERR e
        let w := (u.wr Reg.HLY_PARAM (packF [(Fld.HLY_PARAM_GENERATION, gen), (Fld.HLY_PARAM_EFFECTIVE_STEP, eff)])).setFld
          Reg.HLY_STATUS Fld.HLY_STATUS_PARAM_PENDING 1
        exec (.hlyParam agent v) s = .next (if e ≠ 0 then u else { w with hly := { w.hly with committed := some (t, eff) } })) ∧
      exec (.hlyHostDone agent v) s =
        .next (if getF v Fld.HLY_HOST_DONE_DONE = 1 then s.unitDone Fld.HLY_DONE_U_HOST else s) ∧
      (let u := s.wr Reg.HLY_CTRL (packF [(Fld.HLY_CTRL_LOCAL, getF v Fld.HLY_CTRL_LOCAL), (Fld.HLY_CTRL_ENABLE, getF v Fld.HLY_CTRL_ENABLE)]);
        (u.flag Reg.HLY_CTRL Fld.HLY_CTRL_ENABLE = false → exec (.hlyCtrl agent v) s = .next (
          if s.hlyState = hlyIdle then u else if u.inDomain then u.discardTalq.goIdle
          else (u.setFld Reg.HLY_STATUS Fld.HLY_STATUS_ROLE 0).goIdle)) ∧
        (u.flag Reg.HLY_CTRL Fld.HLY_CTRL_ENABLE = true → s.hlyState = hlyIdle →
          (s.flag Reg.HLY_DOMAIN Fld.HLY_DOMAIN_VALID = false → exec (.hlyCtrl agent v) s = .next u.goLocal) ∧
          (s.flag Reg.HLY_DOMAIN Fld.HLY_DOMAIN_VALID = true → s.flag Reg.HLY_CTRL Fld.HLY_CTRL_ENABLE = false →
            exec (.hlyCtrl agent v) s = .next u.joinDomain)))

/-! ### Hawser -/

/-- What stops a request, and a request that comes again. A request with a bad CRC, a wrong class or destination, a foreign
partition or a stale epoch is dropped and counted, in this order; while Hawser is off it is dropped. One too old is counted
as AGED; with no tick running it is answered NOT_READY. A request whose key has a replay entry gets the recorded answer
again: its lease begins anew, the hit is counted, and memory stays as it was where no request waits. One behind a waiting
TC3 request of its agent, or one that needs an entry while all 32,768 are held, waits with its credit. Where the spec leaves
it open, what is said here is the choice or the reading of the model (log entry 35). -/
def Obligations.RequestsAreCheckedAndReplayed : Prop :=
  ∀ (s : State) (p : Packet) (type : Nat) (c : Packet → Instr),
    (type, c) ∈ [(ptRD, Instr.rd), (ptWR, Instr.wr), (ptATOMIC, Instr.atomic), (ptACC, Instr.acc), (ptREFRESH, Instr.refresh),
      (ptTFENCE, Instr.tfence)] → s.working (capFdie 0) = true → pType p = type →
    let a := s.arrived p
    let u := a.bump64 Reg.HWS_CNT_RX_REQ 1
    let shape := classOk type (pTc p) && pDst p == s.ownNode
    let mine := s.flag Reg.HWS_PART Fld.HWS_PART_VALID && pPart p == s.fld Reg.HWS_PART Fld.HWS_PART_PARTITION
    (packetCrcOk p = false → exec (c p) s = .next (a.bump32 Reg.HWS_CNT_CRC_DROP 1)) ∧
      (packetCrcOk p = true → shape = false → exec (c p) s = .next (a.bump32 Reg.HWS_CNT_MALFORMED 1)) ∧
      (packetCrcOk p = true → shape = true → s.hwsOn = false → exec (c p) s = .next a) ∧
      (packetCrcOk p = true → shape = true → s.hwsOn = true → mine = false →
        exec (c p) s = .next (a.event Reg.HWS_EVENT Fld.HWS_EVENT_PART_DROP Reg.HWS_CNT_PART_DROP)) ∧
      (packetCrcOk p = true → shape = true → s.hwsOn = true → mine = true → pEpoch p ≠ s.fld Reg.HWS_PART Fld.HWS_PART_EPOCH →
        exec (c p) s = .next (a.event Reg.HWS_EVENT Fld.HWS_EVENT_STALE_EPOCH Reg.HWS_CNT_STALE_EPOCH)) ∧
      (s.admits type p → s.ageOk p = false → exec (c p) s = .next (u.event Reg.HWS_EVENT Fld.HWS_EVENT_AGED Reg.HWS_CNT_AGED)) ∧
      (s.admits type p → s.ageOk p = true → s.ticking = false →
        exec (c p) s = .next ((u.bump32 Reg.HWS_CNT_NOT_READY 1).respond p (answerType type) csNotReady [])) ∧
      (∀ e, s.serves type p → type ≠ ptRD → (s.noted p).cacheFind (pSrc p) (pSport p) (pTag p) = some e →
        let v := s.noted p
        let hit (x : ReplayEntry) : Bool := x.src == e.src && x.sport == e.sport && x.tag == e.tag
        let w := { v with hws := { v.hws with
          cache := v.hws.cache.map fun (x : ReplayEntry) => if hit x then { x with until_ := v.leaseEnd } else x } }
        let t := (w.bump32 Reg.HWS_CNT_REPLAY_HIT 1).respond p (answerType type) e.status e.old
        exec (c p) s = .next (t.refreshGoes p) ∧ t.mem = v.mem ∧ (s.hws.parked = [] → (t.refreshGoes p).mem = s.mem)) ∧
      (let n := s.noted p;
        s.serves type p → (type = ptRD ∨ n.cacheFind (pSrc p) (pSport p) (pTag p) = none) →
          n.behind p = true ∨ (type ≠ ptRD ∧ 32768 ≤ n.hws.cache.length) →
          exec (c p) s = .next ((n.park (s.rxPort p) p).refreshGoes p))

/-- What RD, WR, ATOMIC, ACC, REFRESH and TFENCE do. A served request that is new, finds room, is behind none of its agent,
meets an open checkpoint gate, is well formed and passes the ingress table has its effect, is kept for replay unless it is
an RD, and is answered. RD reads its bytes; WR writes its payload; ATOMIC writes the new value and returns the old; ACC adds
once; WR and ACC to a tick-ordered window are held; REFRESH is staged at its replica window, its end marker once its data
have come; TFENCE is counted when the cut takes it. Where the spec leaves it open, what is said here is the choice or the
reading of the model (log entries 10, 11 and 37). -/
def Obligations.RequestsTakeEffectAtTheHome : Prop :=
  ∀ (s : State) (p : Packet) (v : State) (pa : Nat),
    let n := s.noted p
    let ext := (s.tagPlace p).1
    let passes (type : Nat) : Prop := s.serves type p ∧
      (type ≠ ptRD → n.cacheFind (pSrc p) (pSport p) (pTag p) = none ∧ n.hws.cache.length < 32768) ∧ n.behind p = false ∧
      (n.ckp.closed = false ∨ ((type = ptWR ∨ type = ptTFENCE) ∧ pAgent p = 0x0D00)) ∧ shapeOk p = true ∧
      n.ingressXlat p = (v, .inr pa) ∧ v.windowBusy type (pOff p) = false ∧ v.markWaits p = false
    let ordered := (v.winAt 0 (pOff p)).isSome
    let gives (i : Instr) (r : Applied) : Prop := exec i s = .next ((hwsAnswer p ext r).refreshGoes p)
    let r := v.read pa (pLen p)
    let w := v.write pa p.payload
    let x := v.accApply pa (pFmt p) (leNat p.payload)
    (passes ptRD → r.stat = .ok → gives (.rd p) (r.st, csOK, r.data)) ∧
      (passes ptWR → ordered = false → partialLines pa p.payload.length = [] → w.2 = .ok → gives (.wr p) (w.1, csOK, [])) ∧
      (passes ptATOMIC → ordered = false → r.stat = .ok → gives (.atomic p)
        ((r.st.write pa (natLE (pLen p) (atomicNew (pOp p) (pLen p) (leNat r.data) (leNat p.payload)))).1, csOK, r.data)) ∧
      (passes ptACC → ordered = false → x.2 = true → gives (.acc p) (x.1, csOK, [])) ∧
      (passes ptWR → ordered = true → gives (.wr p) (v.applyHold p pa)) ∧
      (passes ptACC → ordered = true → gives (.acc p) (v.applyHold p pa)) ∧
      (passes ptATOMIC → ordered = true → gives (.atomic p) (v, csToRefused, [])) ∧
      (passes ptREFRESH → ordered = false → gives (.refresh p) (v.applyRefresh p pa)) ∧
      (passes ptTFENCE → gives (.tfence p) (v.applyFence p))

/-- RELEASE, lease expiry, application complete and window writes. A RELEASE frees the entries it names; the end of a lease
frees its entry and journals it; when held operations or a replica copy are applied, the accesses that wait go on. A write
of a window with VALID = 1 that breaks a limit is refused with WIN_INVALID, one within them stands and SERVE is chosen anew;
VALID = 0 to a tick-ordered window waits for the tick end. Where the spec leaves it open, what is said here is the choice or
the reading of the model (log entry 10). -/
def Obligations.HomeEventsAndWindows : Prop :=
  ∀ s : State,
    (∀ p, s.admits ptRELEASE p →
        let k := releaseKeys (pSrc p) p.payload
        exec (.releaseCmd p) s = .next (((s.arrived p).cacheFree (fun e => k.contains (e.src, e.sport, e.tag)) false).unpark)) ∧
      (∀ src sport tag e, s.cacheFind src sport tag = some e → exec (.replayLeaseExpiry src sport tag) s =
        .next (((s.timeTo e.until_).cacheFree (fun x => x.src == src && x.sport == sport && x.tag == tag) true).unpark)) ∧
      (s.hws.toBusy = true → exec .toApplyComplete s = .next { s with hws := { s.hws with toBusy := false } }.unpark) ∧
      (∀ w, s.hws.repBusy.contains w = true →
        let t := { s with hws := { s.hws with repBusy := s.hws.repBusy.filter fun x => x != w } }
        exec (.replicaApplyComplete w) s =
          .next (t.setFld (Reg.HWS_WIN_STATUS (Reg.winWin w)) Fld.HWS_WIN_STATUS_PENDING_APPLY 0).unpark) ∧
      (∀ agent w value, w < 64 → s.working (capFdie 0) = true → (s.ctx agent).serves = true →
        let x := packF [(Fld.HWS_WIN_CFG_VALID, getF value Fld.HWS_WIN_CFG_VALID), (Fld.HWS_WIN_CFG_KIND, getF value Fld.HWS_WIN_CFG_KIND),
          (Fld.HWS_WIN_CFG_NREP, getF value Fld.HWS_WIN_CFG_NREP), (Fld.HWS_WIN_CFG_BASE, getF value Fld.HWS_WIN_CFG_BASE)]
        let t := s.wr (Reg.HWS_WIN_CFG (Reg.winWin w)) x
        exec (.hwsWinCfg agent w value) s = .next (if getF value Fld.HWS_WIN_CFG_VALID = 1 then
            if t.winValid w ∧ t.winBad w then s.event Reg.HWS_EVENT Fld.HWS_EVENT_WIN_INVALID Reg.HWS_CNT_WIN_INVALID else t.chooseServe
          else if s.winValid w ∧ s.winKind w = 0 then { s with hws := { s.hws with winOff := s.hws.winOff ++ [(w, x)] } }
          else t.chooseServe))

/-- CPL, RD_DATA, ATOMIC_DATA, retry, failure, RELEASE and back-off. An admitted response completes the open request of its
port, tag, destination and type: CPL and ATOMIC_DATA first add their RELEASE word. A retry within the lease is sent again at
its moment with RETRY set. At the end an RD completes with TIMEOUT, another with AMBIGUOUS, whose first record is kept,
unless its response has arrived. RELEASE_SEND sends up to 32 words that wait for a node. The end of a back-off lets held
requests go on. Where the spec leaves it open, what is said here is the choice or the reading of the model (log entries 35
and 36). -/
def Obligations.ResponsesRetriesAndFailures : Prop :=
  ∀ s : State,
    (∀ (p : Packet) (r : Req) (type : Nat) (c : Packet → Instr),
        (type, c) ∈ [(ptCPL, Instr.cpl), (ptRD_DATA, Instr.rdData), (ptATOMIC_DATA, Instr.atomicData)] → s.admits type p →
        let a := if type = ptRD_DATA then s.arrived p else (s.arrived p).releaseAdd (pSrc p) (pSport p) (pTag p)
        (a.hws.reqs.find? fun r => r.sport == pSport p && r.tag == pTag p && r.dst == pSrc p && answerType r.type == type) = some r →
        bits p.w2.toNat 63 48 = 0 → exec (c p) s = .next ((a.dropReq r).finishReq r (pStatus p) p.payload).flushHeld) ∧
      (∀ port tag r q, s.reqOf port tag = some r → (r.sends + 1) * r.reqUs ≤ r.leaseUs →
        let t := s.timeTo (r.t0 + 1000 * (r.sends * r.reqUs))
        t.reqPort r.tc r.dst r.off = some q →
        let r' := { r with sends := r.sends + 1, paths := q :: r.paths }
        let u := { t with hws := { t.hws with reqs := t.hws.reqs.map fun (x : Req) => if x = r then r' else x } }
        exec (.requestRetry port tag) s =
          .next (((u.bump32 Reg.HWS_CNT_RETRY 1).bump64 Reg.HWS_CNT_TX_REQ 1).emit q (u.reqPacket r' true))) ∧
      (∀ port tag r, s.reqOf port tag = some r → s.answered r = true → exec (.requestFailure port tag) s = .next s) ∧
      (∀ port tag r, s.reqOf port tag = some r → s.answered r = false →
        let t := (s.timeTo (r.t0 + 1000 * (((r.leaseUs - r.reqUs) / r.reqUs + 1) * r.reqUs))).dropReq r
        let u := { t with hws := { t.hws with declared := t.hws.declared ++ [(r.sport, r.tag)] } }
        let e := u.event Reg.HWS_EVENT Fld.HWS_EVENT_AMBIGUOUS Reg.HWS_CNT_AMBIGUOUS
        let f := if e.flag Reg.HWS_AMBIG Fld.HWS_AMBIG_VALID then e
          else (e.wr Reg.HWS_AMBIG (packF [(Fld.HWS_AMBIG_VALID, 1), (Fld.HWS_AMBIG_SPORT, r.sport), (Fld.HWS_AMBIG_TAG, r.tag),
            (Fld.HWS_AMBIG_AGENT, r.agent), (Fld.HWS_AMBIG_NODE, r.dst)])).wr Reg.HWS_AMBIG_ADDR (BitVec.ofNat 64 r.off)
        exec (.requestFailure port tag) s = .next (if r.type = ptRD then
            ((u.bump32 Reg.HWS_CNT_TIMEOUT 1).finishReq r csTimeout []).flushHeld
          else (f.finishReq r csAmbiguous []).flushHeld)) ∧
      (∀ dst q, s.respPort dst = some q →
        let mine := (s.hws.release.filter fun (e : Nat × Nat × Nat) => e.1 == dst).take 32
        mine ≠ [] → ∃ (t : State) (p : Packet), exec (.releaseSend dst) s = .next t ∧ pType p = ptRELEASE ∧
          p.payload = mine.flatMap (fun e => natLE 4 (2 ^ 20 * e.2.1 + e.2.2)) ∧ packetCrcOk p = true ∧
          t.hws.release = mine.foldl List.erase s.hws.release ∧ t.hws.out = s.hws.out ++ [(q, p)] ∧ t.mem = s.mem) ∧
      (∀ agent dst line e,
        (s.hws.backoff.find? fun (e : Nat × Nat × Nat × Nat) => e.1 == agent && e.2.1 == dst && e.2.2.1 == line) = some e →
        let t := s.timeTo e.2.2.2
        exec (.backoffExpiry agent dst line) s = .next { t with hws := { t.hws with backoff := t.hws.backoff.erase e } }.flushHeld)

/-! ### The host processor complex -/

/-- TICK.RD, TICK.WAIT, TICK.DONE and FWAIT. TICK.RD reads its Halyard value and retires. TICK.WAIT answers 4 with no tick
and 1, counted, for a moment that has passed, else waits; at the moment it ends with 0, or 2 where the mark is not enabled,
and an interrupt before it leaves it unretired. TICK.DONE and FWAIT drain; once every posted operation is complete rd
receives the number that failed, and TICK.DONE signals step-done. A word with a nonzero unused field, of a reserved funct3,
or from a mode that may not run it, is illegal. Where the spec leaves it open, what is said here is the choice or the
reading of the model (log entry 60). -/
def Obligations.TickInstructionsOfHarts : Prop :=
  ∀ (s : State) (h : Nat) (w : BitVec 32),
    let x := s.hart h
    let may := s.xctrl h Fld.HOST_XCTRL_TICK_U
    let rdOk := iRs1 w == 0 && decide (bits w.toNat 31 20 ≤ 5)
    let waitOk := iF7 w == 0 && decide (iRs2 w < 4)
    let drainOk := iF7 w == 0 && iRs2 w == 0 && iRs1 w == 0
    let st := (s.xreg h (iRs1 w)).toNat % 2 ^ 48
    let p := iRs2 w
    let rd := iRd w
    let idle := decide (s.hlyState = hlyIdle)
    let joining := decide (s.hlyState = hlyJoining)
    let passed := s.passed st (s.phaseStart p)
    (s.hartIssues h w 0 → exec (.tickRd h w) s =
        .next (if rdOk then (s.setXreg h rd (s.tickValue (bits w.toNat 31 20))).retire h else s.hartIllegal h w)) ∧
      (s.hartIssues h w 1 → exec (.tickWait h w) s = .next (if (may && waitOk) = false then s.hartIllegal h w
        else if idle then s.hartWaitEnd h rd 4
        else if !joining && passed then (s.bump32 Reg.HOST_CNT_TICK_LATE 1).hartWaitEnd h rd 1
        else s.setHart h { x with wait := .tick st p rd joining })) ∧
      (s.hartIssues h w 2 → exec (.tickDone h w) s =
        .next (if may && drainOk then s.setHart h { x with wait := .drain rd true } else s.hartIllegal h w)) ∧
      (s.hartIssues h w 3 → exec (.fwait h w) s =
        .next (if may && drainOk then s.setHart h { x with wait := .drain rd false } else s.hartIllegal h w)) ∧
      (s.hartReady h = true → iOpcode w = 0x0B → 6 ≤ iF3 w → exec (.tickRd h w) s = .next (s.hartIllegal h w)) ∧
      (∀ q r, s.hartUp h = true → x.wait = .tick s.step q r false → s.ticking = true → exec (.tickWaitEnd h) s =
        .next ((s.timeTo (s.phaseStart q)).hartWaitEnd h r (if s.hly.active.enabled q then 0 else 2))) ∧
      (∀ r signal, s.hartUp h = true → s.hartPosted h = false → x.wait = .drain r signal →
        let t := if signal then s.unitDone Fld.HLY_DONE_U_HOST else s
        exec (.tickDoneDrained h) s =
          .next ((t.setHart h { t.hart h with errs := 0 }).hartWaitEnd h r (t.hart h).errs)) ∧
      (∀ a q r j cause, s.hartUp h = true → x.wait = .tick a q r j → x.strap.tvec &&& 3#64 = 0#64 →
        exec (.tickWaitInterrupt h .s cause) s = .next (s.setHart h { x with
          strap := { x.strap with epc := x.pc, cause := BitVec.ofNat 64 (2 ^ 63 + cause % 2 ^ 63), tval := 0, prev := x.mode,
                                  pie := x.strap.ie, ie := false }
          mode := .s, pc := x.strap.tvec &&& ~~~3#64, wait := .none }))

/-- FACC and accesses to memory, apertures and registers. FACC.D and FACC.S to a usable aperture, aligned, send one ACC of 8
or 4 bytes and retire. A load, store or AMO of the memory tiers reads or writes its bytes and retires; an LR reads and
reserves its line, and an SC without the reservation writes 1 to rd alone; through a usable aperture a store is posted, and
a load or AMO waits for its answer. An 8-byte load of a register outside the PCIe windows reads its value. A misuse takes
the access fault with its reason. Where the spec leaves it open, what is said here is the choice or the reading of the model
(log entries 4, 14, 24 and 71). -/
def Obligations.AccessesOfHarts : Prop :=
  ∀ (s : State) (h : Nat) (w : BitVec 32) (va : Word) (pa : Nat),
    let use := isAperture pa && apertureOk (s.aperture pa)
    let may := s.xctrl h Fld.HOST_XCTRL_FACC_U
    let facc (i : Instr) (n fmt : Nat) : Prop := may = true → iRd w = 0 → use = true → pa % n = 0 →
      exec i s = .next (s.sendPosted h pa (s.apertureReq h 3 pa ptACC n fmt 0 (natLE n (s.xreg h (iRs2 w)).toNat)))
    let tier := decide (pa < 0x018000000000) || (decide (0x100000000000 ≤ pa) && decide (pa < 0x180000000000))
    let size := (BitVec.ofNat 64 (2 ^ 56 * hxSize))
    (s.hartIssues h w 5 → iF7 w = 0 → facc (.faccD h w (.ok pa)) 8 0) ∧
      (s.hartIssues h w 5 → iF7 w = 1 → facc (.faccS h w (.ok pa)) 4 1) ∧
      (s.hartIssues h w 5 → iF7 w = 0 → may = true → iRd w = 0 → pa % 8 ≠ 0 →
        exec (.faccD h w (.ok pa)) s = .next (s.hartTrap h exStoreAccess (s.xreg h (iRs1 w)) (some size))) ∧
      (s.hartReady h = true →
        (∀ n g rd, tier = true → (s.read pa n).stat = .ok → exec (.apertureAccess h va pa (.load n g rd)) s =
          .next (((s.read pa n).st.setXreg h rd (loadValue n g (leNat (s.read pa n).data))).retire h)) ∧
        (∀ n v, tier = true → (s.hartStore h pa (natLE n v.toNat)).2 ≠ .absent →
          exec (.apertureAccess h va pa (.store n v)) s = .next ((s.hartStore h pa (natLE n v.toNat)).1.retire h)) ∧
        (∀ op n v rd, tier = true → (s.read pa n).stat = .ok →
          let o := leNat (s.read pa n).data
          exec (.apertureAccess h va pa (.amo op n v rd)) s = .next
            ((((s.read pa n).st.hartStore h pa (natLE n (atomicNew op n o (v.toNat % 2 ^ (8 * n))))).1.setXreg h rd
              (loadValue n true o)).retire h)) ∧
        (∀ n rd, tier = true → (pa < 0x018000000000 → s.ftCached pa = true) → (s.read pa n).stat = .ok →
          let t := (s.read pa n).st.setXreg h rd (loadValue n true (leNat (s.read pa n).data))
          exec (.apertureAccess h va pa (.lr n rd)) s = .next ((t.setHart h { t.hart h with resv := some (pa / 64) }).retire h)) ∧
        (∀ n v rd, tier = true → (pa < 0x018000000000 → s.ftCached pa = true) → s.exists pa n = true →
          (s.hart h).resv ≠ some (pa / 64) →
          exec (.apertureAccess h va pa (.sc n v rd)) s =
            .next ((((s.setHart h { s.hart h with resv := none }).free 63).2.setXreg h rd 1).retire h)) ∧
        (∀ n g rd, use = true → accScalar (.load n g rd) pa = true → exec (.apertureAccess h va pa (.load n g rd)) s =
          .next (s.sendRemote h va rd n g false (s.apertureReq h 0 pa ptRD n 0 0 []))) ∧
        (∀ n v, use = true → accScalar (.store n v) pa = true → exec (.apertureAccess h va pa (.store n v)) s =
          .next (s.sendPosted h pa (s.apertureReq h 1 pa ptWR n 0 0 (natLE n v.toNat)))) ∧
        (∀ op n v rd, use = true → accAmo (.amo op n v rd) pa = true → exec (.apertureAccess h va pa (.amo op n v rd)) s =
          .next (s.sendRemote h va rd n true true (s.apertureReq h 2 pa ptATOMIC n 0 op (natLE n v.toNat)))) ∧
        (∀ g rd, 0xF00000000000 ≤ pa → pa < 0x1000000000000 → pa % 8 = 0 → inPcieWindow pa = false →
          exec (.apertureAccess h va pa (.load 8 g rd)) s =
            .next ((s.setXreg h rd (s.regView (.hart h (decide ((s.hart h).mode = .m))) pa)).retire h)))

/-- Dot products and unordered reductions of the host, and registers of a hart that the spec names. A dot product whose
type, rounding mode and register groups R270 allows adds to each active element from vstart on the exact sum of its lane
products, rounded once, and retires with vstart 0. VFREDUSUM and VFWREDUSUM of a supported width, with vstart 0 and vl not
0, add the span tree of the active elements, widened exactly, to element 0 of vs1; with no active element vs1 stands. Other
types, and the reserved words of Xumdot, are illegal. The vector length set for AVL is the least of AVL and VLMAX; mhartid
reads the number of the hart and time reads TIMEBASE; in VS-mode a write of sxfault goes to vsxfault. Where the spec leaves
it open, what is said here is the choice or the reading of the model (log entries 4, 14, 71 and 72). -/
def Obligations.VectorOperationsOfHarts : Prop :=
  ∀ (s : State) (h : Nat) (w : BitVec 32),
    let x := s.hart h
    let g := x.group
    let ok (n : Nat) : Bool := !bit x.vtype.toNat 63 && x.sew == n && decide (x.frm ≤ 1) && iRd w % g == 0 && iRs1 w % g == 0 &&
      iRs2 w % g == 0 && (iVm w || iRd w != 0)
    let dot (f6 n : Nat) (i : Instr) (lane : Nat → Nat → Nat → Nat × Nat) : Prop := s.hartVector h w 0x5B 0 f6 →
      exec i s = .next (if ok n then ((s.activeElems h w x.vstart).foldl (fun t i =>
          let r := lane (t.velem h (iRd w) n i) (t.velem h (iRs2 w) n i) (t.velem h (iRs1 w) n i)
          (t.setVelem h (iRd w) n i r.1).addFflags h r.2) s).vretire h
        else s.hartIllegal h w)
    let redOk := !bit x.vtype.toNat 63 && x.vstart == 0 && decide (x.frm ≤ 4) && iRs2 w % g == 0
    let red (f6 : Nat) (i : Instr) (n f f2 : Nat) : Prop := s.hartVector h w 0x57 1 f6 → redOk = true → x.sew = n → 0 < x.vl →
      let m := fmtBits f2 / 8
      let l := (s.activeElems h w 0).map fun i =>
        let c := s.velem h (iRs2 w) n i
        if f = f2 then (c, 0) else let y := convertNum f2 rmRNE true 0 (decodeNum f c); (y.1, y.2 % 16)
      let v1 := s.velem h (iRs1 w) m 0
      let t := hostTree f2 x.frm 16 (l.map (·.1))
      let a := hostAdd f2 x.frm v1 t.1
      let r := if l.isEmpty then (v1, 0) else (a.1, (a.2 ||| t.2) ||| (l.map (·.2)).foldl (· ||| ·) 0)
      exec i s = .next (((s.setVelem h (iRd w) m 0 r.1).addFflags h r.2).vretire h)
    dot 0 4 (.vdot4I8 h w) (fun vd a b => (dotI8 vd a b, 0)) ∧
      dot 1 4 (.vdot4E4m3 h w) (dotLane fmtFP32 fmtE4M3 x.frm 4) ∧
      dot 2 4 (.vdot4E5m2 h w) (dotLane fmtFP32 fmtE5M2 x.frm 4) ∧
      dot 3 4 (.vdot2Bf16 h w) (dotLane fmtFP32 fmtBF16 x.frm 2) ∧
      dot 4 8 (.vdot2WS h w) (dotLane fmtFP64 fmtFP32 x.frm 2) ∧
      red 0x01 (.vfredusum h w) 2 fmtFP16 fmtFP16 ∧ red 0x01 (.vfredusum h w) 4 fmtFP32 fmtFP32 ∧
      red 0x01 (.vfredusum h w) 8 fmtFP64 fmtFP64 ∧ red 0x31 (.vfwredusum h w) 2 fmtFP16 fmtFP32 ∧
      red 0x31 (.vfwredusum h w) 4 fmtFP32 fmtFP64 ∧
      (s.hartReady h = true → iOpcode w = 0x5B → iF3 w ≠ 0 ∨ 4 < iF6 w → exec (.vdot4I8 h w) s = .next (s.hartIllegal h w)) ∧
      (∀ avl vtype, ((s.vset h avl vtype).hart h).vl = min avl (vlMax h vtype) ∧ ((s.vset h avl vtype).hart h).vtype = vtype) ∧
      s.csrRead h csrMhartid = BitVec.ofNat 64 h ∧ s.csrRead h csrTime = BitVec.ofNat 64 s.time ∧
      (∀ v, x.mode = .vs → ((s.csrWrite h csrSxfault v).hart h).vstrap.xfault = v &&& xfaultMask ∧
        ((s.csrWrite h csrSxfault v).hart h).strap = x.strap)

/-! ### The Resident Solve Engine -/

/-- Submission, judgement, completion, loss and zeroing. RSE.SUBMIT answers 2, 3, 4, 5, 1 or 0, the first that applies in
this order of the refusals, and an accepted command gets the next number. The command at the front, run by its own command,
ends INVALID when its descriptor breaks R286, SLOT_STATE when its slot is in another state, and else completes with what it
did; one with a poisoned descriptor ends POISON. Loss empties queue and slots, drops the unit from the done mask and posts
its entry. When the zeroing ends, the bytes of the region are 0 and RSE_STATUS.ZEROING is 0. Where the spec leaves it open,
what is said here is the choice or the reading of the model (log entries 17, 26 and 43). -/
def Obligations.SolveCommandsAreJudged : Prop :=
  ∀ (s : State) (h : Nat) (w : BitVec 32) (pa : Nat),
    let may := s.xctrl h Fld.HOST_XCTRL_RSE_U
    let c : Nat := if s.working capRse = false then 2 else if pa % 64 ≠ 0 then 3 else if s.inTier pa = false ∨ s.reserved pa then 4
      else if s.flag Reg.HOST_PARTITION Fld.HOST_PARTITION_VALID = false then 5
      else if 64 ≤ s.rse.queue.length ∨ s.flag Reg.RSE_STATUS Fld.RSE_STATUS_ZEROING then 1 else 0
    let x := if c = 0 then s.rseAccept pa ((s.xreg h (iRs2 w)).toNat % 65536) else (s, 0)
    let t := if c = 1 then x.1.bump32 Reg.HOST_CNT_RSE_FULL 1 else x.1
    let seq := (s.rse.queue.head?.map RseCmd.seq).getD (s.fld Reg.RSE_SEQ Fld.RSE_SEQ_NEXT)
    let e := { s.capClear capRse with rse := { (s.capClear capRse).rse with queue := [] } }.rseStatus
    let l := e.emptySlots.maskForce Reg.HLY_DONE_MASK_U Fld.HLY_DONE_U_RSE.lo
    (s.hartIssues h w 4 → may = true → iF7 w = 0 → exec (.rseSubmitInsn h w (.ok pa)) s =
        .next ((t.setXreg h (iRd w) (BitVec.ofNat 64 (2 ^ 32 * x.2 + c))).retire h)) ∧
      (∀ (i : Instr) (cmd : Nat) (k : State → RseCmd → State × RseRes) (q : RseCmd),
        (i, cmd, k) ∈ [(Instr.setup, 1, State.setupRun), (.update, 2, State.updateRun), (.factor, 3, State.factorRun),
          (.solve, 4, State.solveRun), (.refine, 5, State.refineRun), (.iter, 6, State.iterCmdRun),
          (.rseRelease, 7, fun s c => (s.emptySlot c.slot, { status := rsOK }))] →
        s.working capRse = true → s.rse.queue.head? = some q →
        (q.poison = true → exec i s = .next (s.rseComplete q (rseFail rsPoison))) ∧
        (q.poison = false → q.cmd = cmd → exec i s = .next (if s.rseValid q = false then s.rseComplete q (rseFail rsInvalid)
          else if s.rseStateOk q = false then s.rseComplete q (rseFail rsSlotState) else (k s q).1.rseComplete q (k s q).2))) ∧
      (s.working capRse = true → exec .rseLost s =
        .next (l.postHost (l.fld Reg.RSE_CTRL Fld.RSE_CTRL_EVQ) 0x14 0 0xFFFF l.step (BitVec.ofNat 64 seq) 0).1) ∧
      (s.flag Reg.RSE_STATUS Fld.RSE_STATUS_ZEROING = true →
        exec .rseZeroingDone s = .next (s.zeroRegion.setFld Reg.RSE_STATUS Fld.RSE_STATUS_ZEROING 0)) ∧
      (s.flag Reg.RSE_STATUS Fld.RSE_STATUS_ZEROING = false → exec .rseZeroingDone s = .next s)

/-- SETUP, UPDATE, FACTOR, SOLVE, REFINE, ITER and RELEASE. A valid command at the front, in a slot state that allows it:
RELEASE empties the slot. SETUP reads the arrays, and a sound pattern that fits makes the slot with its registers and
digest. A full UPDATE replaces every value, marks a factor STALE, and says which values leave their range. FACTOR factors
the values held. SOLVE writes the solution of one right-hand side. REFINE and ITER without a guess write the vector of their
procedure with count and metric. Each completes with its record. Where the spec leaves it open, what is said here is the
choice or the reading of the model (log entries 15, 16, 43, 44 and 45). -/
def Obligations.WhatSolveCommandsDo : Prop :=
  ∀ (s : State) (q : RseCmd), s.working capRse = true → s.rse.queue.head? = some q → q.poison = false → s.rseValid q = true →
    s.rseStateOk q = true →
    let k := q.slot
    let w := Reg.slotWin k
    let n := s.slotN k
    let stale (t : State) : Nat := if t.slotState k = 3 then rfStale else 0
    (q.cmd = 7 → exec .rseRelease s = .next ((s.emptySlot k).rseComplete q { status := rsOK })) ∧
      (∀ t1 t2 t3 rowptr colidx vals, q.cmd = 1 →
        let m := q.w 2
        let nnz := q.w 3
        let chol := bit q.args 0
        let perm := rcm (csrEntries rowptr colidx) m
        let x := setupSlot (bits q.args 15 8) chol rowptr colidx vals perm
        let nnzF := nnzFOf x.fill chol
        let foot := (48 * m + 12 * nnz + 20 * nnzF + 128 * x.sn.length + (2 ^ 21 - 1)) / 2 ^ 21
        let dg := structDigest m nnz (if chol then 1 else 0) 0 rowptr colidx perm
        let u := ((t3.setSlot k x).wr (Reg.RSE_SLOT_STATE w) (packF [(Fld.RSE_SLOT_STATE_STATE, 1),
          (Fld.RSE_SLOT_STATE_KIND, if chol then 1 else 0), (Fld.RSE_SLOT_STATE_ORDER, 0), (Fld.RSE_SLOT_STATE_N, m)])).wr
          (Reg.RSE_SLOT_SIZE w) (packF [(Fld.RSE_SLOT_SIZE_GRANULES, foot), (Fld.RSE_SLOT_SIZE_NNZF, nnzF)])
        let v := u.wr (Reg.RSE_SLOT_INFO w) (packF [(Fld.RSE_SLOT_INFO_NNZ, nnz), (Fld.RSE_SLOT_INFO_SUPERNODES, x.sn.length)])
        bit q.args 2 = false → q.w 7 = 0 → 0 < m → m ≤ 2 ^ 28 → 0 < nnz → nnz ≤ 2 ^ 32 →
        s.rseArray (q.w 4) 8 (m + 1) = (t1, .inr rowptr) → t1.rseArray (q.w 5) 4 nnz = (t2, .inr colidx) →
        t2.rseArray (q.w 6) 8 nnz = (t3, .inr vals) → setupBad m nnz chol false rowptr colidx vals [] = none →
        nnzF ≤ 2 ^ 32 → foot ≤ t3.freeGranules →
        exec .setup s = .next (((List.range 6).foldl (fun s i =>
            s.wr (Reg.RSE_SLOT_DIGEST w i) (BitVec.ofNat 64 (leNat ((dg.drop (8 * i)).take 8)))) v).rseComplete q
          { status := rsOK, count := x.sn.length, bytes := 2 ^ 21 * foot })) ∧
      (∀ t vals, q.cmd = 2 → bit q.args 0 = true →
        let nnz := s.slotNnz k
        s.rseArray (q.w 4) 8 nnz = (t, .inr vals) → (firstBad vals fun _ v => (decodeNum fmtFP64 v).finite) = none →
        (firstBad (List.range nnz) fun _ v => decide (v < nnz)) = none →
        let x := t.slot k
        let l := (List.range nnz).zip vals
        let far := l.filter (outOfRange x)
        let u := t.setSlot k { x with num := { x.num with vals := l.foldl (fun v p => v.set p.1 p.2) x.num.vals } }
        let u := if u.slotState k = 2 then u.setSlotState k 3 else u
        exec .update s = .next (match far with
          | [] => u.rseComplete q { status := rsOK }
          | p :: _ => ((u.setFld (Reg.RSE_SLOT_STATE w) Fld.RSE_SLOT_STATE_RANGE_PENDING 1).event Reg.RSE_EVENT
              Fld.RSE_EVENT_RANGE_EXCEEDED Reg.RSE_CNT_RANGE_EXCEEDED).rseComplete q
                { status := rsOK, flags := rfExceeded, count := far.length, index := p.1 })) ∧
      (q.cmd = 3 → bit q.args 0 = false → bit q.args 1 = false →
        exec .factor s = .next ((s.factorise q).1.rseComplete q (s.factorise q).2)) ∧
      (∀ t b x u, q.cmd = 4 → q.w 2 = 1 → s.rhs (q.w 3) n = (t, .inr b) →
        rseSolve (t.slot k) (t.slotChol k) (nums (b.take (t.slotN k))) = some x → t.rsePut (q.w 4) (t.headed k x) = (u, rsOK) →
        exec .solve s = .next (u.rseComplete q { status := rsOK, flags := stale u })) ∧
      (∀ t b v u, q.cmd = 5 → bit q.args 4 = false → s.rhs (q.w 2) n = (t, .inr b) →
        rseSolve (t.slot k) (t.slotChol k) (nums b) = some v →
        let o := refineLoop (t.slot k) (t.slotChol k) (wholeA (t.slot k) (t.slotChol k)) (nums b) (decodeNum fmtFP64 (q.w 4)) 0
          (bits q.args 3 0) (nums v)
        t.rsePut (q.w 3) (t.headed k (o.x.map rne64Code)) = (u, rsOK) →
        exec .refine s = .next (u.rseComplete q
          { status := o.status, count := o.count, metric := rne64Code o.metric,
            flags := stale t + (if o.status = rsOK then rfConverged else 0) })) ∧
      (∀ t b u, q.cmd = 6 → bit q.args 3 = false → s.rhs (q.w 2) n = (t, .inr b) →
        let o := rseIter (t.slot k) (t.slotChol k) (bit q.args 0) (bits q.args 2 1) (bits q.args 31 16) (decodeNum fmtFP64 (q.w 4))
          (nums b) (nums (List.replicate (t.slotN k) 0))
        t.rsePut (q.w 3) (t.headed k (o.x.map rne64Code)) = (u, rsOK) →
        exec .iter s = .next (u.rseComplete q
          { status := o.status, count := o.count, metric := rne64Code o.metric,
            flags := (if bits q.args 2 1 = 2 then stale t else 0) + (if o.status = rsOK then rfConverged else 0) }))

/-! ### The memory tiers -/

/-- Line reads with the errors the code finds, and line writes with their frame. A read of a stored line of a working unit
is counted; an error that the code corrects is corrected, one that it detects leaves the line as stored and counts as
uncorrectable; an error of one lane is always corrected. A write of a whole line to a working unit replaces it, clears
poison and error, and reads back; no other byte, as a read returns it, changes where no home window marks the write. Entries
are of capacity lines. A partial write to the fast tier changes the bytes written alone, or leaves a poisoned line poisoned.
A write to a failed unit is discarded. Where the spec leaves it open, what is said here is the choice or the reading of the
model (log entries 2, 42, 63 and 64). -/
def Obligations.LineReadsAndWrites : Prop :=
  ∀ (s : State) (l u : Nat), l % 64 = 0 → (s.place l).unit = some u → s.reserved l = false → s.exists l 64 = true →
    let r := s.bump64 (cntRd u) 1
    let with_ (e : LineErr) : State := { s with mem := { s.mem with errs := sSet noErr s.mem.errs l e } }
    let line (t : State) (a : Nat) : Prop := t.byte a = s.byte a
    (∀ x, x < 40 → s.codeOut l [x] = .corrects) ∧
      (s.unitFailed u = false → s.poisoned l = false → ∀ e : LaneErr,
        (s.codeOut l e.lanes = .clean → s.lineErr l = .none → exec (.memoryRead l e) s = .next r) ∧
        (s.codeOut l e.lanes = .corrects → let y := laneSymbol e true
          exec (.memoryRead l e) s = .next (((with_ (.ce y)).bump64 (cntRd u) 1).corrected u l y)) ∧
        (s.codeOut l e.lanes = .detects → let y := laneSymbol e e.located
          exec (.memoryRead l e) s = .next (((with_ (.ue y)).bump64 (cntRd u) 1).ueRead u l y))) ∧
      (s.unitFailed u = false → s.homeWins = [] → (u < 16 → s.wcOf l = none) → ∀ bs : List Byte, bs.length = 64 →
        ∃ t, exec (.memoryWrite l bs ⟨[], false⟩) s = .next t ∧
        t.bytes l 64 = bs ∧ t.poisoned l = false ∧ t.lineErr l = .none ∧ (∀ a, a < l ∨ l + 64 ≤ a → line t a) ∧
        s.sameBut t [cntWr u, Reg.MEMC_CH_STATUS (Reg.chanWin (u - 16))]) ∧
      (s.unitFailed u = false → s.homeWins = [] → u < 16 → s.lineErr l = .none → ∀ (o : Nat) (bs : List Byte), 0 < bs.length →
        o + bs.length ≤ 64 → bs.length ≠ 64 → ∃ t, exec (.memoryWrite (l + o) bs ⟨[], false⟩) s = .next t ∧
          (s.poisoned l = true → t.mem.data = s.mem.data ∧ t.poisoned l = true) ∧
          (s.poisoned l = false → t.mem.data = putBytes s.mem.data (l + o) bs ∧ t.mem.poison = s.mem.poison) ∧
          s.sameBut t [cntWr u]) ∧
      (s.unitFailed u = true → s.homeWins = [] → ∀ bs : List Byte, bs.length = 64 →
        exec (.memoryWrite l bs ⟨[], false⟩) s = .next (s.bump64 (cntWr u) 1))

/-- Write-combining flushes, refresh, scrub and failure of stacks and channels. An entry is written back at its age: its
bytes replace those of the line, and no entry is left; over a poisoned line a partial entry changes nothing and a whole one
replaces the line. All entries are written back when software asks, and FLUSHING reads 0 when the last is complete. A
refresh reports the rate of the temperature. A scrub read of a working unit goes to its next line or its next pass; the line
is counted and corrected or poisoned, and a poisoned one is skipped. A pass that outlasts its period is late once. A
failure, or the 64th uncorrectable read within a second, makes the unit FAILED with its event, its loss and the request for
service, and clears its capability; a failed channel has no entry. Where the spec leaves it open, what is said here is the
choice or the reading of the model (log entries 42 and 64). -/
def Obligations.MemoryUnitsAtWork : Prop :=
  ∀ (s : State) (u : Nat),
    let x := sGet noPlace s.mem.scrub u
    let a := s.unitOffset u x
    let asked := s.setFld Reg.MEMC_WC_CTRL Fld.MEMC_WC_CTRL_FLUSHING 1
    let status := Reg.MEMF_ST_STATUS (unitWin u)
    let temp := sext 16 (s.fld (Reg.MEMF_ST_TEMP (unitWin u)) Fld.MEMF_ST_TEMP_TEMP)
    let moved (t : State) (x : Nat) : State := { t with mem := { t.mem with scrub := sSet noPlace t.mem.scrub u x } }
    let hours := s.fld (if u < 16 then Reg.MEMF_SCRUB else Reg.MEMC_SCRUB) Fld.MEMF_SCRUB_PERIOD_H
    let late := s.timeTo (sGet noPlace s.mem.scrubAt u + 3600000000000 * hours)
    (∀ l e, s.wcOf l = some e → exec (.wcAgeExpiry l) s =
        .next ((s.timeTo (e.born + 1000 * s.fld Reg.MEMC_WC_CTRL Fld.MEMC_WC_CTRL_AGE_US)).wcFlush e)) ∧
      (∀ (g : State) (e : WcEntry) (c : Nat), g.place e.line = .cap c → g.unitFailed (16 + c) = false →
        (g.wcFlush e).wcOf e.line = none ∧
        (g.poisoned e.line = false → g.lineErr e.line = .none → (g.wcFlush e).mem.data = putEntry g.mem.data e.line e.bytes) ∧
        (g.poisoned e.line = true → e.bytes.length = 64 →
          (g.wcFlush e).mem.data = putEntry g.mem.data e.line e.bytes ∧ (g.wcFlush e).poisoned e.line = false) ∧
        (g.poisoned e.line = true → e.bytes.length ≠ 64 →
          (g.wcFlush e).mem.data = g.mem.data ∧ (g.wcFlush e).poisoned e.line = true)) ∧
      (∀ agent, (s.ctx agent).priv = true → s.mem.wc ≠ [] → exec (.memcWcFlush agent) s = .next (asked.wcFlushList s.mem.wc) ∧
        (asked.wcFlushList s.mem.wc).mem.wc = []) ∧
      exec .wcFlushComplete s = .next (s.setFld Reg.MEMC_WC_CTRL Fld.MEMC_WC_CTRL_FLUSHING 0) ∧
      (u < 12 → s.unitState u = 2 → exec (.dramRefresh u) s =
        .next (s.setFld status Fld.MEMF_ST_STATUS_REFRESH (if 85 * 16 < temp then 1 else 0))) ∧
      (s.scrubs u = true → ∀ e,
        let d := (s.errFound a e).scrubLine u a
        let p := d.bump32 (cntScrubPass u) 1
        (x + 64 < s.unitSize u → exec (.scrubRead u e) s = .next (moved d (x + 64))) ∧
        (s.unitSize u ≤ x + 64 → exec (.scrubRead u e) s = .next { p with mem := { p.mem with
          scrub := sSet noPlace p.mem.scrub u 0
          scrubAt := sSet noPlace p.mem.scrubAt u d.time
          scrubLate := sSet noMark p.mem.scrubLate u false } })) ∧
      (∀ (g : State) (l : Nat),
        let n := g.bump64 (cntScrubLines u) 1
        (g.poisoned l = true → g.scrubLine u l = g) ∧
        (g.poisoned l = false → g.lineErr l = .none → g.scrubLine u l = n) ∧
        (∀ y, g.poisoned l = false → g.lineErr l = .ce y → g.scrubLine u l = n.corrected u l y) ∧
        (∀ y, g.poisoned l = false → g.lineErr l = .ue y →
          (g.scrubLine u l).poisoned l = true ∧ (g.scrubLine u l).lineErr l = .none)) ∧
      (s.scrubs u = true → sGet noMark s.mem.scrubLate u = false → ∃ t, exec (.scrubPeriodEnd u) s = .next t ∧
        sGet noMark t.mem.scrubLate u = true ∧
        t = { late with mem := { late.mem with scrubLate := t.mem.scrubLate } }.event (unitEvent u) Fld.MEMC_CH_EVENT_SCRUB_LATE
          (cntScrubLate u)) ∧
      (s.unitState u = 2 → s.working (unitCap u) = true → exec (.memoryFail u) s = .next ((s.unitWcLost u).unitFail u) ∧
        (16 ≤ u → ∀ e, e ∈ (s.unitWcLost u).mem.wc ↔ e ∈ s.mem.wc ∧ s.place e.line ≠ .cap (u - 16))) ∧
      (let late := (sGet noTimes s.mem.ueAt u).filter fun t => s.time ≤ 1000000000 + t;
        s.unitState u = 2 → 63 ≤ late.length →
          s.ueWatch u = (State.unitWcLost { s with mem := { s.mem with
            ueAt := sSet noTimes s.mem.ueAt u (late ++ [s.time]) } } u).unitFail u) ∧
      (u < 12 ∨ 16 ≤ u ∧ u < 28 → ∀ g : State,
        let t := g.unitFail u
        t.unitState u = 4 ∧ t.flag (unitEvent u) Fld.MEMC_CH_EVENT_FAIL = true ∧ t.working (unitCap u) = false ∧
        t.flag Reg.RAS_SERVICE_REQUEST (if u < 16 then Fld.RAS_SERVICE_REQUEST_STACK else Fld.RAS_SERVICE_REQUEST_CHANNEL) = true ∧
        (g.bwl.cfgNew = none → g.losses.length < 1000 →
          (if u < 16 then (lossStack, u) else (lossChannel, u - 16)) ∈ t.losses))

/-! ### The checkpoint engine -/

/-- A cut from its drain to its manifests, and its timeouts. CUT_DRAINED, with no request open, flushes write-combining and
begins the held shard of the operations held for the step, or goes on to its gather record where its part has failed.
SHARD_WRITTEN counts the bytes, and an entry of the plan as done, and more shards or the manifest begin; a PCIe read that
failed fails the part with STORE_FAIL, and under the slot of the manifest a PCIe read ends a stage of the manifest.
NODE_MANIFEST_COMMIT, once the header is written, counts the bytes and goes on to the gather record. With every fence
counted PARTITION_MANIFEST_COMMIT ends the part with NODE_FAILED, or begins the partition manifest, and once its header is
written ends the part OK. Both timeouts end or fail the part at their moments. A part that ends is IDLE with its result and
event, and no longer holds the tick. Where the spec leaves it open, what is said here is the choice or the reading of the
model (log entries 46 and 47). -/
def Obligations.CutsWriteShardsAndManifests : Prop :=
  ∀ s : State,
    let f := s.wcFlushAll
    let b := heldBytes f.heldOps
    let open0 := s.ckpOpen ckpManSlot = some 0
    let manOut := s.bump64 Reg.CKP_CNT_BYTES_OUT (512 + s.ckp.man.length)
    let fences := s.fld Reg.CKP_FENCES Fld.CKP_FENCES_COUNT
    let waits := (s.ckp.stage = 6 ∨ s.ckp.stage = 7) ∧ s.cutDesig = true
    (s.ckp.stage = 1 → s.hws.reqs = [] → s.hws.held = [] →
        (f.ckp.bad = none → exec .cutDrained s = .next (State.ckpBegin
          { f with ckp := { f.ckp with stage := 2, helds := f.ckp.helds ++ [(b, f.heldOps)] } } 0 f.cutMkind (f.cutW 7) (b, 0, 0))) ∧
        (∀ x, f.ckp.bad = some x → exec .cutDrained s = .next f.ckpGatherSend)) ∧
      (∀ slot ok, slot ≠ ckpManSlot → s.ckp.stage = 2 → s.ckpOpen slot = some 0 →
        let e := s.ckp.plan.getD (slot - 1) []
        let kind := if slot = 0 then s.cutMkind else if peXform e = 3 then 1 else peKind e
        let n := ((s.ckp.recs.find? fun r => r.slot == slot).map CkpRec.stored).getD 0
        let t := (s.ckpClose slot).bump64 Reg.CKP_CNT_BYTES_OUT n
        (kind ≠ 2 ∨ ok = true → slot = 0 → exec (.shardWritten slot ok) s = .next (t.shardFill 8).shardsOver) ∧
        (kind ≠ 2 ∨ ok = true → slot ≠ 0 → exec (.shardWritten slot ok) s = .next ((t.setFld Reg.CKP_STATUS
          Fld.CKP_STATUS_SHARDS_DONE (t.fld Reg.CKP_STATUS Fld.CKP_STATUS_SHARDS_DONE + 1)).shardFill 8).shardsOver) ∧
        (kind = 2 → ok = false → exec (.shardWritten slot ok) s = .next (s.ckpFail slot crStoreFail (some 0xFF)))) ∧
      (∀ ok, s.ckp.stage ∈ [3, 4, 5, 8, 9, 10] → open0 → s.cutMkind = 2 →
        (ok = true → exec (.shardWritten ckpManSlot ok) s = .next s.manNext) ∧
        (ok = false → exec (.shardWritten ckpManSlot ok) s = .next (s.ckpFail ckpManSlot crStoreFail (some 0xFF)))) ∧
      (s.ckp.stage = 5 → open0 → exec .nodeManifestCommit s = .next manOut.ckpGatherSend) ∧
      (∀ x y, s.ckp.stage = 10 → open0 → exec (.partitionManifestCommit x y) s = .next (manOut.ckpPartEnd crOk)) ∧
      (∀ x y t, waits → s.cutNodes ≤ fences → s.gatherAll 0 s.cutNodes = (t, none) →
        exec (.partitionManifestCommit x y) s = .next (t.ckpPartEnd crNodeFailed)) ∧
      (∀ x y t recs, waits → s.cutNodes ≤ fences → s.gatherAll 0 s.cutNodes = (t, some recs) →
        let p := partSlot (partSeq x) (partSeq y)
        exec (.partitionManifestCommit x y) s = .next (State.manBegin { t with ckp := { t.ckp with mseq := p.2 } } 8
          (t.cutW 3 + 0x1000000 * p.1) (manRecord 1 t.ckp.seeds ++ recs))) ∧
      (waits → fences < s.cutNodes → exec .gatherTimeout s =
        .next ((s.timeTo (s.ckp.holdAt + 1000000 * (s.cutTimeout + 100))).ckpPartEnd crGatherTimeout)) ∧
      (1 ≤ s.ckp.stage → s.ckp.stage ≤ 5 → exec .cutTimeout s =
        .next ((s.timeTo (s.ckp.holdAt + 1000000 * s.cutTimeout)).ckpFail ckpManSlot crTimeout none)) ∧
      (∀ (g : State) (r : Nat), r < 256 → g.flag Reg.CKP_CTRL Fld.CKP_CTRL_EVQ_EN = false →
        let t := g.ckpPartEnd r
        t.ckpPhase = ckpIdle ∧ t.fld Reg.CKP_STATUS Fld.CKP_STATUS_RESULT = r ∧ t.ckp.stage = 0 ∧ t.hly.cutHold = false ∧
        t.flag Reg.CKP_EVENT (if r = crOk then Fld.CKP_EVENT_CUT_DONE else Fld.CKP_EVENT_FAIL) = true ∧ t.mem = g.mem ∧
        t.hws = g.hws)

/-- The end of a cut hold, silent children, and restores. CUT_HOLD_END: with nothing pending the master sends TICK_FINAL, no
sooner than MIN_GUARD after the tick end. A child silent for 500 µs of a cut hold counts as not pending. CKP_RESTORE checks
alignment, descriptor, state, manifest, node and signature in that order, and a sound manifest starts the restore with its
step and cut. RESTORE_COMPLETE restores the records, SHARD before HELD, and ends OK or with the first result that is not; on
the master an OK restore becomes a hold with HLY_STEP at its step, which CKP_RELEASE ends with TICK_FINAL. TICK_FINAL fixes
the end of the step and goes to every child. The bytes of the manifest that were read are counted. A restore that ends is
IDLE with its result and event. Where the spec leaves it open, what is said here is the choice or the reading of the model
(log entries 34 and 47). -/
def Obligations.HoldsAndRestores : Prop :=
  ∀ (s : State) (agent : Agent),
    let upd (n : Nat) (c : Child) : Child := if c.node = n then { c with pending := false } else c
    let guarded := s.timeTo (s.tickEnd + s.fld Reg.HLY_TREE Fld.HLY_TREE_MIN_GUARD)
    let may := (s.ctx agent).serves
    (s.isMaster = true → s.hlyState = hlyHoldFinal → s.ckp.closed = true → s.ckpPhase ≠ ckpRestoreHold → s.hly.final = none →
        s.aggPending = false → exec .cutHoldEnd s = .next (guarded.sendFinal (guarded.time + guarded.lead))) ∧
      (∀ n c, s.ckp.closed = true → s.ckpPhase ≠ ckpRestoreHold → s.hlyState = hlyHoldFinal →
        (s.hly.children.find? fun (c : Child) => c.node == n) = some c →
        let t := s.timeTo (c.heard + 500000)
        exec (.childSilence n) s = .next { t with hly := { t.hly with children := t.hly.children.map (upd n) } }.slipUpdate) ∧
      (∀ v man, may = true → s.working capCkp = true → s.ckpPhase = ckpIdle →
        let a := getF v Fld.CKP_RESTORE_DESC
        let r := s.readDesc 4 a
        let d := bytesToWords 8 r.data
        let w0 := (wordAt d 0).toNat
        let u := { r.st with ckp := { r.st.ckp with rdesc := d } }
        let sound := bits w0 63 56 = 1 ∧ bits w0 51 0 = 0 ∧ (bits w0 53 52 = 1 ∨ bits w0 53 52 = 2)
        (a % 64 ≠ 0 → exec (.ckpRestore agent v man) s = .next (s.restoreEnd crInvalid)) ∧
        (a % 64 = 0 → r.stat = .poison → exec (.ckpRestore agent v man) s = .next (r.st.restoreEnd crPoison)) ∧
        (a % 64 = 0 → r.stat = .absent ∨ r.stat = .ok ∧ ¬ sound →
          ∃ t : State, exec (.ckpRestore agent v man) s = .next (t.restoreEnd crInvalid) ∧ (t = r.st ∨ t = u)) ∧
        (a % 64 = 0 → r.stat = .ok → sound → u.restoreState (bit w0 55) = false →
          exec (.ckpRestore agent v man) s = .next (u.restoreEnd crState)) ∧
        (a % 64 = 0 → r.stat = .ok → sound → u.restoreState (bit w0 55) = true →
          let w (o n : Nat) : Nat := leNat ((man.drop o).take n)
          let same := decide (w 24 8 = (u.rd Reg.ID_NUMERICS_SIG).toNat)
          let digest := ((d.drop 2).take 6).flatMap fun (x : Word) => natLE 8 x.toNat
          let g := u.bump64 Reg.CKP_CNT_BYTES_IN
            (if sha384 (man.take 256) = digest then min man.length (256 + w 52 4) else min man.length 256)
          (sha384 (man.take 256) ≠ digest ∨ manParse man = none →
            exec (.ckpRestore agent v man) s = .next (g.restoreEnd crManifestCorrupt)) ∧
          (sha384 (man.take 256) = digest → manParse man ≠ none → w 32 2 ≠ u.ownNode →
            exec (.ckpRestore agent v man) s = .next (g.restoreEnd crNodeMismatch)) ∧
          (sha384 (man.take 256) = digest → manParse man ≠ none → w 32 2 = u.ownNode → same = false → bit w0 54 = true →
            exec (.ckpRestore agent v man) s = .next (g.restoreEnd crSigMismatch)) ∧
          (sha384 (man.take 256) = digest → manParse man ≠ none → w 32 2 = u.ownNode → same = true ∨ bit w0 54 = false →
            ∃ t, exec (.ckpRestore agent v man) s = .next t ∧ t.ckp.stage = 11 ∧ t.ckp.rman = man ∧
              t.fld Reg.CKP_STATUS Fld.CKP_STATUS_CUT_ID = w 12 4 ∧ t.ckpPhase = ckpRestoring ∧
              t.rd Reg.CKP_STEP = BitVec.ofNat 64 (w 16 6)))) ∧
      (∀ data u res, s.ckp.stage = 11 →
        let l := (manParse s.ckp.rman).getD []
        s.restoreAll ((l.filter fun (r : ManRec) => !isHeld r) ++ l.filter isHeld) data = (u, res) →
        let done := u.restoreEnd crOk
        let held := (done.wr Reg.HLY_STEP (BitVec.ofNat 64 done.ckpStep)).setHlyState hlyHoldFinal
        (res = crOk → bit (wordAt done.ckp.rdesc 0).toNat 55 = false → exec (.restoreComplete data) s = .next done) ∧
        (res = crOk → bit (wordAt done.ckp.rdesc 0).toNat 55 = true → exec (.restoreComplete data) s =
          .next { held.setCkpPhase ckpRestoreHold with
            ckp := { held.ckp with closed := true, holdAt := held.time }
            hly := { held.hly with final := none, lateHold := false } }) ∧
        (res = crDigestFail → exec (.restoreComplete data) s =
          .next ((u.event Reg.CKP_EVENT Fld.CKP_EVENT_DIGEST_FAIL Reg.CKP_CNT_DIGEST_FAIL).restoreEnd res)) ∧
        (res ≠ crOk → res ≠ crDigestFail → exec (.restoreComplete data) s = .next (u.restoreEnd res))) ∧
      (may = true → s.ckpPhase = ckpRestoreHold → s.hly.final = none →
        exec (.ckpRelease agent) s = .next (s.sendFinal (s.time + s.lead))) ∧
      (∀ (g : State) (e : Nat),
        let t := g.sendFinal e
        (∃ b, t.hly.final = some (g.step, e, b)) ∧ t.rd Reg.HLY_TICK_END = BitVec.ofNat 64 e ∧
        ∃ y : TickSymbol, y.step = g.step ∧ y.timeA = e ∧
          t.hly.sent = g.hly.sent ++ g.hly.children.map fun c => ⟨c.node, symTickFinal, y⟩) ∧
      (∀ (g : State) (r : Nat), r < 256 →
        let t := g.restoreEnd r
        t.ckpPhase = ckpIdle ∧ t.fld Reg.CKP_STATUS Fld.CKP_STATUS_RESULT = r ∧ t.ckp = { g.ckp with stage := 0 } ∧
        t.flag Reg.CKP_EVENT (if r = crOk then Fld.CKP_EVENT_RESTORE_DONE else Fld.CKP_EVENT_FAIL) = true ∧ t.mem = g.mem)

/-! ### The optical ports -/

/-- Flits of each type, damaged flits and uncorrectable codewords. A flit of at most 15 symbols in error on a lane that
receives is counted and its control field taken, and where that does not take the link down the flit is handled: on a lane
in use DATA goes on in its stream, a TICK delivers its symbol with the time of its arrival where the link carries ticks, one
of a reserved TYPE being ignored and counted, a NAK starts a replay, a REMAP schedules a change; a TRAIN flit is kept while
training, CAPS in NEGOTIATE and an answered timestamp as a round trip less the turnaround; IDLE and CAL do no more. A flit
whose CRC fails, and a codeword of more errors, are counted and count as a loss on a lane in use. Where the spec leaves it
open, what is said here is the choice or the reading of the model (log entries 38 and 70). -/
def Obligations.FlitsReceived : Prop :=
  ∀ (s : State) (p l errs : Nat) (f : Flit), s.laneHears p l →
    let used := decide (s.rxRole p l < 16)
    let h := s.heard p l errs f
    let gets (i : Instr) (type : Nat) (t : State) : Prop :=
      errs ≤ 15 → f.crc = flitCrc f → f.ftype = type → exec i s = .next (if h.portState p < optAlign then h else t)
    let cw := s.turned p l
    let lost (t : State) : State := if used then t.rxLoss p else t
    gets (.idleFlit p l errs f) ftIDLE h ∧
      gets (.dataFlit p l errs f) ftDATA (if used then h.rxData p f else h) ∧
      gets (.tickFlit p l errs f) ftTICK
        (if used && h.tickUp p then h.symArrive (readSym f.payload) else h) ∧
      gets (.nakFlit p l errs f) ftNAK (if used then h.rxNak p f else h) ∧
      gets (.calFlit p l errs f) ftCAL h ∧
      (∀ k spare period, gets (.remapFlit p l errs f k spare period) ftREMAP (if used && h.portState p == optUp then
        h.setPort p { h.port p with remaps := (h.port p).remaps ++ [Remap.mk false k spare period] } else h)) ∧
      (h.portState p ≠ optUp →
        gets (.trainFlit p l errs f .lock) ftTRAIN h ∧
        gets (.trainFlit p l errs f .caps) ftTRAIN
          (if h.portState p = optNegotiate then h.takeCaps p (bytesToWords 7 (f.payload.take 56)) else h) ∧
        (∀ m sp, gets (.trainFlit p l errs f (.lanes m sp)) ftTRAIN (h.setPort p { h.port p with
          peerMap := (m.filter fun k => decide (k < 18)).take 16, peerSpares := sp })) ∧
        gets (.trainFlit p l errs f .stamped) ftTRAIN (h.setPort p { h.port p with toAnswer := (h.port p).toAnswer ++ [h.time] }) ∧
        (∀ rx tx sent rest, (h.port p).asks = sent :: rest → (h.port p).stamps.length < 64 →
          gets (.trainFlit p l errs f (.answer rx tx)) ftTRAIN (h.setPort p { h.port p with
            asks := rest, stamps := (h.port p).stamps ++ [h.time - sent - (tx + 2 ^ 64 - rx) % 2 ^ 64] }))) ∧
      (∀ (g : State) (e : Nat × TickSymbol),
        (e.1 = 0 ∨ 6 < e.1 → g.symArrive e = g.event Reg.HLY_EVENT Fld.HLY_EVENT_SYM_UNKNOWN Reg.HLY_CNT_SYM_UNKNOWN) ∧
        (1 ≤ e.1 → e.1 ≤ 6 → g.symArrive e = { g with ports := { g.ports with rxSym := g.ports.rxSym ++ [(e.1, e.2, g.time)] } })) ∧
      (∀ i, i ∈ [Instr.idleFlit p l errs f, .dataFlit p l errs f, .tickFlit p l errs f, .nakFlit p l errs f, .calFlit p l errs f,
          .trainFlit p l errs f .lock, .remapFlit p l errs f 0 none 0] →
        (15 < errs → exec i s = .next (lost (cw.bump48 (Reg.OPT_L_UNCORR (Reg.laneWin p l)) 1))) ∧
        (errs ≤ 15 → f.crc ≠ flitCrc f → exec i s = .next (lost ((cw.bump48 (Reg.OPT_L_CORR (Reg.laneWin p l)) errs).bump32
          (Reg.OPT_CNT_CRC_FAIL (pw p)) 1))))

/-- A codeword period, resending, the steps of training, and the light. In a period of an up port each logical lane sends
its slot and each spare an IDLE, in whose place a burst puts CAL; a training port sends TRAIN flits, timestamped in DELAY. A
NAK is repeated after 2 µs, and a replay begins 4 µs after the oldest flit was sent. A step that ends leads to the next,
QUALIFY keeping the lanes that qualify on a usable wavelength, and CAL bringing the link up; one that overruns fails, after
which training begins again in 10 ms. An input with a reading that falls below 13.0 dBm sets LASER_LOW; new readings with no
usable wavelength take the link down, and otherwise the lanes l of an up port whose wavelength l mod 6 is not usable are
lost. Where the spec leaves it open, what is said here is the choice or the reading of the model (log entries 39, 40 and
70). -/
def Obligations.PortsTransmitAndTrain : Prop :=
  ∀ (s : State) (p : Nat) (x : List Nat) (m : List (Nat × Nat)), s.working (capPort p) = true →
    let st := s.portState p
    let lanes := List.range 18
    let b := s.setPort p { s.port p with period := (s.port p).period + 1 }
    let sent := (List.range (b.fld (Reg.OPT_STATUS (pw p)) Fld.OPT_STATUS_TX_WIDTH)).foldl (fun (s : State) k => s.slotSend p k) b
    let nak := s.timeTo ((s.port p).nakAt + 2000)
    let low (i : Nat) (t : State) : State := if t.laserLow p i then t.laserEvent p else t
    let lit := low 1 (low 0 (s.setLasers p x))
    let meas := s.measure p m
    let goes (t : State) : Prop := exec (.trainingStepDone p x m) s = .next t
    let fell (i : Nat) : Prop := ∃ k, k < 6 ∧ 104 ≤ s.laser p i k ∧ (s.setLasers p x).laser p i k < 104
    let changed (i : Nat) (t : State) : State := if (s.setLasers p x).laserFell s p i then t.laserEvent p else t
    let laser := changed 1 (changed 0 (s.setLasers p x))
    (st = optUp ∨ st = optCal → exec (.flitTransmit p) s =
        .next ((lanes.filter fun l => sent.txRole p l == roleSpare).foldl
          (fun (s : State) l => s.flitOpen p l (if s.calibrating p then ftCAL else ftIDLE) (s.port p).txSeq) sent)) ∧
      (st = optNegotiate → exec (.flitTransmit p) s =
        .next (lanes.foldl (fun (t : State) l => t.flitSend p l ftTRAIN 0 (flitBytes (wordsToBytes (s.capsWords p)))) s)) ∧
      (st = optDelay → exec (.flitTransmit p) s = .next (s.sendTimed p)) ∧
      (st ≠ optNegotiate → optAlign ≤ st → st < optDelay → exec (.flitTransmit p) s =
        .next (lanes.foldl (fun (t : State) l => t.flitOpen p l ftTRAIN 0) s)) ∧
      (s.traffic p = true → (s.port p).rxLost = true → exec (.nakResend p) s =
        .next (nak.setPort p { nak.port p with nakDue := true, nakAt := nak.time })) ∧
      (∀ e r, s.traffic p = true → (s.port p).replay = e :: r → exec (.replayTimeout p) s =
        .next ((s.timeTo (e.sentAt + 4000)).replayFrom p 0)) ∧
      (st = optLight → lit.anyUsable p = true →
        goes ((lanes.foldl (fun (t : State) l => t.setRx p l roleNone laneTraining) lit).setOpt p optAcquire)) ∧
      (st = optLight → lit.anyUsable p = false → goes lit) ∧
      (st = optAcquire → goes ((s.scramSync p).setOpt p optAlign)) ∧ (st = optAlign → goes (s.setOpt p optQualify)) ∧
      (st = optQualify → goes ((meas.setPort p { meas.port p with
        qualified := lanes.filter fun l => qualifies (m.getD l (1, 0)) && meas.usable p (l % 6) }).setOpt p optMap)) ∧
      (st = optMap → goes (s.stepMap p)) ∧ (st = optNegotiate → goes (s.stepNegotiate p)) ∧ (st = optDelay → goes (s.stepDelay p)) ∧
      (st = optCal → goes (s.stepUp p)) ∧
      (∀ silent, optLight ≤ st → st ≤ optCal → ¬ (st = optLight ∧ s.anyUsable p = false) → ¬ (st = optAcquire ∧ silent = true) →
        exec (.trainingStepTimeout p silent) s = .next (s.trainFail p)) ∧
      ((s.port p).waiting = true → exec (.trainingRetry p) s =
        .next ((s.timeTo ((s.port p).waitAt + 10000000)).trainBegin p)) ∧
      (∀ i, (s.setLasers p x).laserFell s p i = true ↔ fell i) ∧
      (laser.anyUsable p = true → laser.portState p ≠ optUp → exec (.laserInputChange p x) s = .next laser) ∧
      (laser.anyUsable p = true → laser.portState p = optUp → exec (.laserInputChange p x) s =
        .next ((laser.spareFail p (laser.darkLanes p)).degradeAll p fun l => (laser.darkLanes p).contains l)) ∧
      (∀ l, l < 18 → (l ∈ laser.darkLanes p ↔ laser.usable p (l % 6) = false)) ∧
      (laser.anyUsable p = false → optAcquire ≤ laser.portState p → laser.portState p ≤ optUp →
        exec (.laserInputChange p x) s = .next (laser.linkDown p))

/-- Lanes lost in operation, calibration bursts, failure of an engine and control of a port. At the end of a window lanes
beyond 57,000 corrected symbols or with 4 uncorrectable codewords are degraded, as are lanes that lose signal. A remapping
takes effect in its codeword period on the spare named, or narrows the link. A burst falls due PERIOD_MS after the last, and
ends with a new slip state. An engine that fails maps its port out, records the loss and asks for service. RETRAIN, and a
changed MGMT_ONLY of a port that is not INCOMPATIBLE, take the link down. Where the spec leaves it open, what is said here
is the choice or the reading of the model (log entries 41 and 70). -/
def Obligations.PortLanesBurstsAndControl : Prop :=
  ∀ (s : State) (p : Nat), s.working (capPort p) = true →
    let up := s.portState p = optUp
    let bad (l : Nat) : Bool := decide (57000 < (s.laneSince p l).1) || decide (4 ≤ (s.laneSince p l).2)
    let due := s.timeTo ((s.port p).calAt + 1000000 * s.fld (Reg.OPT_CAL (pw p)) Fld.OPT_CAL_PERIOD_MS)
    let out := (s.linkDown p).setOpt p optMappedOut
    let ctrl := s.rd (Reg.OPT_CTRL (pw p))
    (up → exec (.laneWindowEnd p) s = .next ((s.windowBegin p).degradeAll p bad)) ∧
      (∀ lanes, up → exec (.laneSignalLoss p lanes) s = .next (s.degradeAll p fun l => lanes.contains l)) ∧
      (∀ rx r, up → let now := 1 + (if rx then (s.port p).rxPeriod else (s.port p).period)
        ((s.port p).remaps.find? fun (q : Remap) => q.rx == rx && decide (q.period ≤ now)) = some r →
        let rest := listTake r (s.port p).remaps
        let t := s.setPort p { s.port p with remaps := rest }
        let down (q : Remap) : Remap := if q.rx = rx ∧ r.lane < q.lane then { q with lane := q.lane - 1 } else q
        let u := s.setPort p { s.port p with remaps := rest.map down }
        (∀ l, r.spare = some l → l < 18 →
          exec (.remapTakeEffect p rx) s = .next (if rx then t.spareRx p r.lane l else t.spareTx p r.lane l)) ∧
        (r.spare = none → exec (.remapTakeEffect p rx) s =
          .next ((if rx then u.narrowRx p r.lane else u.narrowTx p r.lane).widthService p))) ∧
      (up → (s.port p).calDue = false → s.calibrating p = false → exec (.calDue p) s =
        .next (due.setPort p { due.port p with calDue := true }).calIdle) ∧
      (up → s.calibrating p = true → exec (.calBurstEnd p) s = .next (s.calEnd p).slipUpdate) ∧
      exec (.opticalEngineFail p) s = .next (((out.capClear (capPort p)).service Fld.RAS_SERVICE_REQUEST_PORT_ENGINE).addLoss
        lossPort p).slipUpdate.chooseServe.flushHeld ∧
      (∀ agent, (s.ctx agent).priv = true →
        (∃ t, exec (.retrain agent p) s = .next (t.linkDown p) ∧ s.sameBut t [Reg.OPT_CTRL (pw p)] ∧
          getF (t.rd (Reg.OPT_CTRL (pw p))) Fld.OPT_CTRL_MGMT_ONLY = getF ctrl Fld.OPT_CTRL_MGMT_ONLY) ∧
        (∀ on : Bool, getF ctrl Fld.OPT_CTRL_MGMT_ONLY ≠ (if on then 1 else 0) → s.portState p ≠ optIncompatible → ∃ t, exec (.mgmtOnly agent p on) s =
          .next (t.linkDown p) ∧ s.sameBut t [Reg.OPT_CTRL (pw p)] ∧ getF (t.rd (Reg.OPT_CTRL (pw p))) Fld.OPT_CTRL_MGMT_ONLY =
            (if on then 1 else 0)))

/-! ### Reset, bring-up, power and heat -/

/-- Standby power, pins, supplies, watchdog, fatal errors and the reset each takes. Standby power-on resets all but flash,
fuses and pins, and holds while VSB33 is low. PWR_OK falling, RESET_N, VIN48 out of range, a keyed host write, an expired
watchdog and a fatal error each take a reset of their source; a Bowline error or a missing record is marked NO_RECORD, and a
record waits for a configuration write that runs. The pins of sources that come in one cycle all fall, and without 3.3 V
RESET_N falls and nothing is reset. The hold after THERM ends once every junction is below 95 °C and the supplies and
RESET_N let the sequence begin. Rising pins, the straps, a kick and released holds are taken as they come. A warm reset
keeps fuses, log, queue and pins. Where the spec leaves it open, what is said here is the choice or the reading of the model
(log entries 50, 52 and 62). -/
def Obligations.ResetSourcesAndFatalErrors : Prop :=
  ∀ s : State,
    let r := s.rst
    let by_ (t : State) (src : Nat) (l : List Nat) : State := t.takeAll src l
    let drives := r.tapIr = tapEXTEST ∨ r.tapIr = tapHIGHZ ∨ r.tapIr = tapCLAMP
    let calm := if drives then s.tap tapIDCODE (some (tapId s.fuse.part)) else s
    (exec .sbpor s = .next (s.powerOn true) ∧ exec .vsb33Low s = .next (s.powerOn false) ∧
        ∀ v, (s.powerOn v).nvm = s.nvm ∧ (s.powerOn v).fuse = s.fuse ∧ (s.powerOn v).rst.vsb = v ∧ (s.powerOn v).mem = State.reset.mem) ∧
      (r.vsb = true → r.pwrOk = true → ∀ l, exec (.pwrok l) s = .next (by_ s srcPWROK l)) ∧
      (∀ (t : State) (l : List Nat), (t.pinsFall l).rst.pwrOk = (t.rst.pwrOk && !l.contains srcPWROK) ∧
        (t.pinsFall l).rst.resetN = (t.rst.resetN && !l.contains srcPIN)) ∧
      (r.vsb = true → exec .pwrOkRise s = .next { s with rst := { r with pwrOk := true } }) ∧
      (r.vsb = true → r.pwrOk = true → r.vinFault = false → exec .vin48OutOfRange s =
        .next (State.takeReset { s with rst := { r with vinFault := true } } [srcPWROK])) ∧
      exec .vin48Recovered s = .next { s with rst := { r with vinFault := false } } ∧
      (r.vsb = true → r.resetN = true → ∀ l, exec (.pin l) s = .next (by_ s srcPIN l)) ∧
      (r.vsb = false → ∀ l, exec (.pin l) s = .next (s.pinsFall [srcPIN])) ∧
      (r.vsb = true → r.resetN = false → ∀ boot clk sb, exec (.resetNRelease boot clk sb) s =
        .next { (calm.wr Reg.RST_STRAP (packF [(Fld.RST_STRAP_BOOT_SRC, boot), (Fld.RST_STRAP_CLK_MODE, clk),
          (Fld.RST_STRAP_SB_ADDR, sb), (Fld.RST_STRAP_SMB_ADDR, 0x58 + sb % 8)])).setFld Reg.HLY_STATUS Fld.HLY_STATUS_CLK_SRC clk with
            rst := { calm.rst with resetN := true } }) ∧
      (s.mayBegin = true → (∀ l ∈ s.pwr.junction, ∀ x ∈ l, x < 95 * 16) → exec .thermRestart s =
        .next { s with rst := { r with thermHold := false } }) ∧
      (s.mayBegin = false ∨ ¬ (∀ l ∈ s.pwr.junction, ∀ x ∈ l, x < 95 * 16) → exec .thermRestart s = .next s) ∧
      exec .pePerstDeassert s = .next { s with rst := { r with perst := r.perst || s.powered 135 } } ∧
      (∀ agent v l, (s.ctx agent).priv = true → getF v Fld.RST_CTRL_KEY = 0xA5 → getF v Fld.RST_CTRL_RESET = 1 →
        exec (.rstCtrlReset agent v l) s = .next (by_ s srcHOST l)) ∧
      (∀ l, s.start = 1 ∨ s.start = 2 ∧ s.bwl.kickAt + 1000000 * s.fld Reg.BWL_WDOG Fld.BWL_WDOG_PERIOD_MS ≤ s.time →
        exec (.watchdogExpiry l) s = .next (by_ s srcWDOG l)) ∧
      (∀ v, s.fld Reg.BWL_STATUS Fld.BWL_STATUS_MODE = 1 → ∃ t, exec (.wdogKick .bowline v) s = .next t ∧ t.bwl.kickAt = s.time ∧
        s.sameBut t [Reg.BWL_WDOG]) ∧
      (∀ code die ok, r.fatal = false →
        let t := (s.wr Reg.RAS_FATAL (packF [(Fld.RAS_FATAL_VALID, 1), (Fld.RAS_FATAL_MULTI, 0), (Fld.RAS_FATAL_NO_RECORD,
          if code = 8 then 1 else 0), (Fld.RAS_FATAL_DIE, die), (Fld.RAS_FATAL_CODE, code), (Fld.RAS_FATAL_STEP, s.step)])).log
          Reg.RAS_FATAL 63 0 0
        (code = 8 → exec (.fatalError [(code, die)] ok) s = .next (t.takeReset [srcFATAL])) ∧
        (code ≠ 8 → ok = true → t.nvmBusy = false → exec (.fatalError [(code, die)] ok) s =
          .next ((t.fatalWrite true (2 ^ srcFATAL)).takeReset [srcFATAL])) ∧
        (code ≠ 8 → ok = true → t.nvmBusy = true → exec (.fatalError [(code, die)] ok) s =
          .next (State.nvmLater { t with rst := { t.rst with fatal := true } } (.fatal true (t.fatalNew (2 ^ srcFATAL)) (some srcFATAL)))) ∧
        (code ≠ 8 → ok = false → exec (.fatalError [(code, die)] ok) s = .next { t with rst := { t.rst with fatal := true } })) ∧
      (∀ c l ok, r.fatal = true → exec (.fatalError (c :: l) ok) s = .next (s.setFld Reg.RAS_FATAL Fld.RAS_FATAL_MULTI 1)) ∧
      (r.fatal = true → exec .fatalRecordTimeout s =
        .next ((s.setFld Reg.RAS_FATAL Fld.RAS_FATAL_NO_RECORD 1).takeReset [srcFATAL])) ∧
      ∀ keep, (s.warm keep).fuse = s.fuse ∧ (s.warm keep).logRing = s.logRing ∧ (s.warm keep).pending = s.pending ∧
        (s.warm keep).rst.pwrOk = r.pwrOk ∧ ∀ a, warmReg a = true → (s.warm keep).rd a = s.rd a

/-- Release of steps, choice of configuration and firmware, confirmation and checks. Bowline may ask for the next step only;
a step is released in order once the last is ready, and meets its condition with what was found or overruns once. ROM
chooses the configuration by BOOT_SRC, the flash and the failed starts, or takes an image from the fabric, which it asks at
every port that is UP. Entering firmware counts the start and clears the service request; a keyed confirmation (on a trial
or a fallback not before a command has been answered), the check of the other slot and the end of a configuration write, on
which what waits for the flash goes on, follow. Where the spec leaves it open, what is said here is the choice or the
reading of the model (log entries 22, 51 and 62). -/
def Obligations.BringUpConfigurationAndFirmware : Prop :=
  ∀ s : State,
    let fail := s.fld Reg.RST_STATUS Fld.RST_STATUS_FAIL_STEP
    let r := s.rst
    let free := s.setFlds Reg.RST_STATUS [(Fld.RST_STATUS_BELAY, 0), (Fld.RST_STATUS_BELAY_CAUSE, 0)]
    let seen := free.showNvm.bootShow
    let sent := s.fabricPorts.foldl State.fabricAsk s
    let c := { seen with rst := { seen.rst with freset := seen.authorised } }
    let other := 1 - s.fld Reg.BWL_STATUS Fld.BWL_STATUS_RUNNING_SLOT
    let late := s.event Reg.CFG_EVENT Fld.CFG_EVENT_FABRIC_TIMEOUT Reg.CFG_CNT_FABRIC_TIMEOUT
    let choose (t : State) : Prop := ∀ ok, exec (.configurationChoice ok) s = .next t
    let held (k : Nat) : State := s.setFld Reg.RST_STATUS Fld.RST_STATUS_FAIL_STEP k
    (∀ k, s.fld Reg.BWL_STATUS Fld.BWL_STATUS_MODE ≠ 0 →
        (s.nextStep = some k → exec (.releaseRequest k) s = .next { s with rst := { r with asked := some k } }) ∧
        (s.nextStep ≠ some k → exec (.releaseRequest k) s = .next (s.logCode 5 k))) ∧
      (∀ k, s.nextStep = some k → s.mayRun = true → s.stepsReady = true ∨ r.released = [] → k < 3 ∨ r.asked = some k →
        ¬ (k = 4 ∧ s.bwl.fabric = true) →
        let t := s.setFld Reg.RST_STATUS Fld.RST_STATUS_STEP k
        exec .releaseStep s = .next (State.releaseEffect { t with rst := { t.rst with
          running := true, asked := none, released := t.rst.released ++ [k]
          ready := if k = 7 then t.rst.ready ++ [k] else t.rst.ready } } k)) ∧
      (∀ k found, r.released.contains k = true → r.ready.contains k = false → fail = 0 →
        let t := { s with rst := { r with ready := r.ready ++ [k] } }
        exec (.stepReady k found) s = .next (if k = 2 then t.fuseSense else if k = 4 then t.memoryReady found
          else if k = 5 then t.strandsReady found else if k = 6 then t.opticsReady found else t)) ∧
      (∀ k ok, r.released.getLast? = some k → s.stepsReady = false → fail = 0 → exec (.stepTimeout ok) s =
        .next (((held k).event Reg.RST_EVENT Fld.RST_EVENT_STEP_TIMEOUT Reg.RST_CNT_STEP_TIMEOUT).fatalWrite ok 0)) ∧
      (r.ready.contains 2 = true → s.bwl.chosen = false →
        (c.bootSrc = 3 → choose (c.copiesUnread.enterBelay 2 4)) ∧
        (c.bootSrc ≠ 3 → c.nvmPresent = false → choose (c.copiesUnread.enterBelay 4 2)) ∧
        (c.bootSrc ≠ 3 → c.nvmPresent = true → c.nvmHeaderOk = false → choose (c.copiesUnread.enterBelay 5 3)) ∧
        (c.bootSrc ≠ 3 → c.nvmPresent = true → c.nvmHeaderOk = true → 4 ≤ c.rst.failed → choose (c.showCopies.enterBelay 1 0).bootShow) ∧
        (c.bootSrc = 2 → c.nvmPresent = true → c.nvmHeaderOk = true → c.rst.failed < 4 →
          let t := c.copiesUnread.bootShow.loadStandby
          choose { t with bwl := { t.bwl with chosen := true, fabric := true } }) ∧
        (c.bootSrc ≠ 3 → c.bootSrc ≠ 2 → c.nvmPresent = true → c.nvmHeaderOk = true → c.rst.failed < 4 → ∀ ok,
          exec (.configurationChoice ok) s = .next (c.chooseFlash ok 0 1))) ∧
      (∀ l m, s.bwl.fabric = true → sent.fabricImage l = some m → exec (.fabricConfigRequest l) s =
        .next (sent.useImage m (cfgCheck sent.fuse sent.serial true none m) 3 0 false).reload) ∧
      (∀ l, s.bwl.fabric = true → sent.fabricImage l = none → exec (.fabricConfigRequest l) s = .next sent) ∧
      (∀ ok, s.bwl.fabric = true → exec (.fabricConfigTimeout ok) s = .next (late.chooseFlash ok 5 5).reload) ∧
      (s.bwl.chosen = true → s.belay = false → s.bwl.fw = none → ∀ ok t,
        (s.chooseFirmware ok = (t, none) →
          exec (.firmwareEntry ok) s = .next (t.enterBelay 6 (t.fld Reg.CFG_STATUS Fld.CFG_STATUS_RESULT))) ∧
        (∀ slot trial bad, s.chooseFirmware ok = (t, some (slot, trial, bad)) → ∃ u, exec (.firmwareEntry ok) s = .next u ∧
          u.bwl.fw = some (fwUse (t.slotBytes slot)) ∧ u.bwl.kickAt = u.time ∧ u.pending = t.pending)) ∧
      (∀ v ok, getF v Fld.BWL_HEALTH_CONFIRM_KEY = 0x5A → getF v Fld.BWL_HEALTH_CONFIRM_CONFIRM = 1 → s.start = 1 →
        r.released.contains 7 = true → fail = 0 →
        let tried := s.flag Reg.BWL_STATUS Fld.BWL_STATUS_TRIAL || s.flag Reg.CFG_STATUS Fld.CFG_STATUS_FALLBACK
        (s.bwl.answered = true ∨ tried = false → exec (.healthConfirm .bowline v ok) s = .next (s.confirm ok)) ∧
        (s.bwl.answered = false → tried = true → exec (.healthConfirm .bowline v ok) s = .next s)) ∧
      (s.start = 2 → s.slotValid other = false → (s.flash (fwSlot other) 4096).any (· != 0xFF) = true → exec .otherSlotCheck s =
        .next ((s.event Reg.BWL_EVENT Fld.BWL_EVENT_SLOT_BAD (Reg.BWL_CNT 3)).service Fld.RAS_SERVICE_REQUEST_FW_SLOT)) ∧
      (∀ m ok flaws, s.bwl.cfgNew = some m → (s.bwl.running.find? fun c => c.cmd == 0x72) = none →
        let copy := if s.fld Reg.CFG_WRITE Fld.CFG_WRITE_TARGET = 1 then cfgCopyB else cfgCopyA
        let t := { s with bwl := { s.bwl with cfgNew := none } }
        let back := withFlaws m flaws
        let done (x : State) (res : Nat) : State := x.setFld Reg.CFG_WRITE Fld.CFG_WRITE_RESULT res
        let failed (x : State) (res : Nat) : State :=
          (done x res).event Reg.CFG_EVENT Fld.CFG_EVENT_WRITE_FAIL Reg.CFG_CNT_WRITE_FAIL
        let valid := (cfgCheck s.fuse s.serial s.fuse.signReq none back).reason = 0
        (ok = false ∨ s.nvmPresent = false →
          exec (.cfgWriteDone ok flaws) s = .next (failed (t.flashErase copy cfgLen) cwNvmError).nvmFree.smbResume) ∧
        (ok = true → s.nvmPresent = true → valid →
          exec (.cfgWriteDone ok flaws) s = .next (done (t.flashLoad copy back) cwDone).nvmFree.smbResume) ∧
        (ok = true → s.nvmPresent = true → ¬ valid →
          exec (.cfgWriteDone ok flaws) s = .next (failed (t.flashLoad copy back) cwVerifyFail).nvmFree.smbResume))

/-- Domains, sensors, the governor, PROCHOT_N, cooling and telemetry. A present domain other than 120 of a unit that no
program uses is powered down, a capacity domain after its entries are written back, and one released earlier, of a unit that
is not mapped out, is powered up with its unit fresh. A sample shows stack temperatures and mean power, and 125 °C at a
junction resets under THERM, after its record where a configuration write holds the flash. The governor moves its level by
the cap and the dies by their junctions. PROCHOT_N held by the board is shown and counted once, unless the package drives it
as well, and 0 when released. The cooling margin is shown, and a margin below or above its threshold sets or clears the
request. A record takes the next number. Where the spec leaves it open, what is said here is the choice or the reading of
the model (log entries 56, 57 and 62). -/
def Obligations.PowerHeatAndTelemetry : Prop :=
  ∀ s : State,
    let t120 (d : Nat) : State := (if 132 ≤ d ∧ d ≤ 134 then s.wcFlushAll else s).setPower d false
    let thr : Int := s.fld Reg.RAS_COOL Fld.RAS_COOL_THRESH
    let n := s.fld Reg.BWL_TLM_STATUS Fld.BWL_TLM_STATUS_TSEQ
    let counted := s.setFld Reg.BWL_TLM_STATUS Fld.BWL_TLM_STATUS_TSEQ ((n + 1) % 2 ^ 32)
    let out := counted.inDomain = false ∨ counted.hly.quiet = true
    let waiting := counted.bwl.tlmWait
    let tell (t : State) : Prop := exec .telemetryRecord s = .next t
    (∀ d, s.domainPresent d = true → s.powered d = true → d ≠ 120 → s.domainUsed d = false →
        (d ≠ 135 → exec (.domainPowerDown d) s = .next (t120 d)) ∧
        (d = 135 → exec (.domainPowerDown d) s = .next { t120 d with rst := { (t120 d).rst with perst := false } })) ∧
      (∀ d k, s.domainPresent d = true → s.domainInUse d = true → s.powered d = false → k ∈ s.rst.released → (s.stepDomains k).contains d = true →
        exec (.domainPowerUp d) s = .next ((s.setPower d true).unitFresh d)) ∧
      (∀ junction stackT volt amp ok,
        let a := State.stackSamples { s with pwr := { s.pwr with
          junction := junction, volt := volt, amp := amp, power := ((volt * amp) :: s.pwr.power).take 100 } } 0 stackT
        let b := a.setFlds Reg.BWL_GOV [(Fld.BWL_GOV_POWER_W, a.pwr.watts),
          (Fld.BWL_GOV_STACK_HOT, if a.pwr.stackHot = 0 then 0 else 1)]
        let trips := b.rst.thermHold = false ∧ ∃ l ∈ junction, ∃ x ∈ l, 125 * 16 ≤ x
        (¬ trips → exec (.sensorSample junction stackT volt amp ok) s = .next b) ∧
        (trips → b.nvmBusy = true → b.thermWaits = true → exec (.sensorSample junction stackT volt amp ok) s = .next b) ∧
        (trips → b.nvmBusy = true → b.thermWaits = false → exec (.sensorSample junction stackT volt amp ok) s =
          .next ((b.resetCauses [srcTHERM]).nvmLater (.fatal ok ((b.resetCauses [srcTHERM]).fatalNew (2 ^ srcTHERM)) (some srcTHERM)))) ∧
        (trips → b.nvmBusy = false → exec (.sensorSample junction stackT volt amp ok) s =
          .next (((b.resetCauses [srcTHERM]).fatalWrite ok (2 ^ srcTHERM)).resetEffect [srcTHERM]))) ∧
      (exec .governorCompare s = .next s.govCompare.thermCompare.prochotSeen ∧
        ∀ l j, thermNext l j = if ∃ x ∈ j, 105 * 16 ≤ x then min 23 (l + 1) else if ∀ x ∈ j, x < 100 * 16 then l - 1 else l) ∧
      (let held := s.setBoardHot true;
        let seen := s.flag Reg.BWL_GOV Fld.BWL_GOV_PROCHOT_IN = false ∧ s.prochotLow = false;
        (seen → exec .prochotIn s = .next
          ((held.setFld Reg.BWL_GOV Fld.BWL_GOV_PROCHOT_IN 1).event Reg.BWL_EVENT Fld.BWL_EVENT_PROCHOT_IN (Reg.BWL_CNT 8))) ∧
        (¬ seen → exec .prochotIn s = .next held)) ∧
      exec .prochotNRelease s = .next ((s.setBoardHot false).setFld Reg.BWL_GOV Fld.BWL_GOV_PROCHOT_IN 0) ∧
      (∀ m : Int,
        let t := s.setFlds Reg.RAS_COOL [(Fld.RAS_COOL_MARGIN, (BitVec.ofInt 16 m).toNat), (Fld.RAS_COOL_BELOW, if m < thr * 16 then 1 else 0)]
        let set := t.flag Reg.RAS_SERVICE_REQUEST Fld.RAS_SERVICE_REQUEST_COOLING
        (m < thr * 16 → set = false → exec (.coolingCheck m) s =
          .next ((t.service Fld.RAS_SERVICE_REQUEST_COOLING).event Reg.RAS_EVENT Fld.RAS_EVENT_COOLING Reg.RAS_CNT_COOLING)) ∧
        ((thr + 2) * 16 ≤ m → set = true → exec (.coolingCheck m) s = .next (t.serviceClear Fld.RAS_SERVICE_REQUEST_COOLING)) ∧
        (m < thr * 16 ∧ set = true ∨ thr * 16 ≤ m ∧ (m < (thr + 2) * 16 ∨ set = false) → exec (.coolingCheck m) s = .next t)) ∧
      (s.fld Reg.BWL_TLM_STATUS Fld.BWL_TLM_STATUS_RATE_HZ ≠ 0 →
        (out → tell (counted.tlmFlush.tlmSend (s.tlmRecord n))) ∧
        (¬ out → 64 ≤ waiting.length → tell counted.tlmDrop) ∧
        (¬ out → waiting.length < 64 → tell { counted with bwl := { counted.bwl with tlmWait := waiting ++ [s.tlmRecord n] } }))

/-! ### PCIe, register writes and the test port -/

/-- Accesses of harts through the root port, and reads and writes of devices. A load of 8 bytes at an aligned offset of the
memory window sends a read and delivers the data, all ones for a refused completion, or an access fault for a poisoned one,
whose consumption is counted on the P-die at the line of the window (DEDUCED, log entry 48); a store sends a write; other
accesses fault with SIZE. A configuration store within the buses below goes down, and one of the subordinate bus number is
held to 63. A device reads or writes the memory tiers; poison gives EP, and EP writes poison. Where the spec leaves it open,
what is said here is the choice or the reading of the model (log entries 14 and 48). -/
def Obligations.PcieRootPort : Prop :=
  ∀ (s : State) (h off : Nat) (va : Word),
    let win := pcieMemBase + off
    let bus := 0x80000000 + off
    let out (x : PcieOut) : State := { s with pcieOut := s.pcieOut ++ [x] }
    let sent := out ⟨.read, bus, []⟩
    let size (store : Bool) : State := s.accessFault h store va hxSize
    let mem (acc : HartAccess) (cpl : PcieCpl) (d : Word) (t : State) : Prop := exec (.pcieMemoryAccess h va off acc cpl d) s = .next t
    (s.hartReady h = true → off < 2 ^ 27 →
        (off % 8 = 0 → s.readable win = true → ∀ g rd d,
          mem (.load 8 g rd) .ok d ((sent.setXreg h rd d).retire h) ∧
          mem (.load 8 g rd) .refused d ((sent.setXreg h rd (BitVec.ofNat 64 (2 ^ 64 - 1))).retire h) ∧
          mem (.load 8 g rd) .poisoned d ((sent.poisonUsed 4 (win / 64 * 64)).accessFault h false va hxPoison)) ∧
        (off % 8 = 0 → s.writable win = true → ∀ v cpl d, mem (.store 8 v) cpl d ((out ⟨.write, bus, natLE 8 v.toNat⟩).retire h)) ∧
        (off % 8 ≠ 0 → ∀ acc cpl d, mem acc cpl d (size (accStore acc))) ∧
        (∀ op n v rd cpl d, mem (.amo op n v rd) cpl d (size true))) ∧
      (s.hartReady h = true → off < 2 ^ 26 → off % 8 = 0 → s.writable (pcieCfgBase + off) = true → ∀ v cpl d,
        (off = 0x18 → exec (.pcieConfigAccess h va off (.store 8 v) cpl d) s =
          .next (State.retire { s with pcieSub := min 63 (bits v.toNat 23 16) } h)) ∧
        (1 ≤ bits off 27 20 → bits off 27 20 ≤ s.pcieSub → exec (.pcieConfigAccess h va off (.store 8 v) cpl d) s =
          .next ((out ⟨.cfgWrite, off, natLE 8 v.toNat⟩).retire h))) ∧
      (∀ a n, s.pcieUp = true → s.inTier a = true →
        let r := s.read a n
        (r.stat = .ok → exec (.pcieDmaRead a n) s =
          .next { r.st with pcieOut := r.st.pcieOut ++ [⟨.done false, a, r.data⟩] }) ∧
        (r.stat = .poison →
          exec (.pcieDmaRead a n) s = .next ((r.st.poisonUsed 4 r.line).pciePut ⟨.done true, a, List.replicate n 0⟩))) ∧
      (∀ a bs, s.pcieUp = true → s.inTier a = true →
        exec (.pcieDmaWrite a bs false) s = .next (s.write a bs).1 ∧
        ((s.write a bs).2 ≠ .absent → exec (.pcieDmaWrite a bs true) s =
          .next ((linesOf a bs.length).foldl (fun (t : State) l => t.setPoison l true) (s.write a bs).1)))

/-- Access codes of a register write, the mailbox, the hart cache and release registers, and the TAP. A write by Bowline or
the management context to the CFG, log or RAS blocks sets RW bits to the value, clears the W1C bits written 1, sets the W1S
bits written 1 and leaves the rest; a write by another agent, or one not aligned, changes nothing. MAILBOX_GO, the hart
cache bits within the fast tier, and the release of harts that were held have their effects. A TAP instruction becomes
current, those that drive pins only under reset. Where the spec leaves it open, what is said here is the choice or the
reading of the model (log entries 23, 49 and 59). -/
def Obligations.RegisterWritesAndTheTestPort : Prop :=
  ∀ (s : State) (agent : Agent) (a : Nat) (v : Word) (man : List Byte) (ok : Bool),
    let priv := (s.ctx agent).priv = true
    let wr (t : State) : Prop := exec (.registerWrite agent a v man ok) s = .next t
    let gib := s.fld Reg.MEMF_MAP Fld.MEMF_MAP_SIZE_GIB
    let tap (i : Instr) (ir : Nat) (o : Option (BitVec 32)) : Prop :=
      exec i s = .next { s with rst := { s.rst with tapIr := ir, tapOut := o } }
    (a % 8 ≠ 0 → wr s) ∧
      (a % 8 = 0 → 0xF00004000000 ≤ a → a < 0xF00010000000 → s.writable a = true →
        (¬ priv → wr s) ∧ (regSpec a = none → wr s) ∧
        (∀ r, priv → regSpec a = some r → ∃ t, wr t ∧ s.sameBut t [a] ∧ ∀ i, i < 64 →
          (t.rd a).getLsbD i = if r.w1s.testBit i && v.getLsbD i then true else if r.w1c.testBit i && v.getLsbD i then false
            else if r.rw.testBit i then v.getLsbD i else (s.rd a).getLsbD i)) ∧
      (priv → ∃ r, regSpec Reg.BWL_MBX_CTRL = some r ∧ exec (.mailboxGo agent v) s =
        .next (s.wr Reg.BWL_MBX_CTRL (codedWrite r (s.rd Reg.BWL_MBX_CTRL) (setF v Fld.BWL_MBX_CTRL_GO 1))).mailboxGo) ∧
      (∀ i, i < 24 → priv → ∃ t, exec (.hostFtCache agent i v) s = .next t ∧ s.sameBut t [Reg.HOST_FT_CACHE i] ∧
        t.rd (Reg.HOST_FT_CACHE i) = BitVec.ofNat 64 ((ones v.toNat 64).foldl (fun m j => if 64 * i + j < gib then m + 2 ^ j else m) 0)) ∧
      (priv →
        let old := s.rd Reg.HOST_HART_RELEASE0
        let new := (ones v.toNat 64).filter fun j => !bit old.toNat j
        exec (.hostHartRelease agent 0 v) s = .next (new.foldl (fun (t : State) j => t.hartStart j)
          (s.wr Reg.HOST_HART_RELEASE0 (BitVec.ofNat 64 (new.foldl (fun m j => m + 2 ^ j) old.toNat))))) ∧
      (priv →
        let old := s.rd Reg.HOST_HART_RELEASE1
        let new := (ones v.toNat 4).filter fun j => !bit old.toNat j
        exec (.hostHartRelease agent 1 v) s = .next (new.foldl (fun (t : State) j => t.hartStart (64 + j))
          (s.wr Reg.HOST_HART_RELEASE1 (BitVec.ofNat 64 (new.foldl (fun m j => m + 2 ^ j) old.toNat))))) ∧
      (s.rst.vsb = true →
        tap .idcode tapIDCODE (some (BitVec.ofNat 32 (2 ^ 28 + 2 ^ 12 * s.fuse.part + 0x5E3 * 2 + 1))) ∧
        tap .samplePreload tapSAMPLE none ∧ tap .bypass tapBYPASS none ∧
        (s.rst.resetN = false → tap .extest tapEXTEST none ∧ tap .highz tapHIGHZ none ∧ tap .clamp tapCLAMP none) ∧
        (s.rst.resetN = true → tap .extest tapBYPASS none ∧ tap .highz tapBYPASS none ∧ tap .clamp tapBYPASS none))

/-! ### The SMBus target -/

/-- Reads, writes and the alert of the SMBus target, in and out of Belay mode. From step 1 the target answers: STATUS
returns the status and marks it seen, IDENTITY the identity registers, LOG the entry of the lowest ESEQ from the one
written, FATAL 32 bytes of a record; RESET with 0xA5 resets under LANYARD, and an alert response releases a low alert. In
Belay mode the configuration is begun, filled and committed, firmware staged unless a write holds the flash, results are
read and BELAY_EXIT resets, once a write that holds the flash has ended. A failed PEC discards the transaction and is
counted. Where the spec leaves it open, what is said here is the choice or the reading of the model (log entry 58). -/
def Obligations.SmbusTransactions : Prop :=
  ∀ s : State, s.smbOn = true →
    let reads (i : Instr) (d : List Byte) : Prop := exec i s = .next { s with bwl := { s.bwl with smbOut := d } }
    let ids := wordsToBytes [s.rd Reg.ID_SERIAL, s.rd Reg.ID_DEVICE, s.rd Reg.ID_STEPPING, s.rd Reg.ID_NUMERICS_SIG]
    exec .smbStatus s = .next { s with bwl := { s.bwl with smbOut := s.smbStatus, smbSeen := s.smbStatus } } ∧
      reads .smbIdentity ids ∧
      (∀ d e l, d.length = 4 → (s.logRing.dropWhile fun x => decide (x.eseq < leNat d)) = e :: l → reads (.smbLog true d) e.bytes) ∧
      (∀ i c : Byte, i.toNat ≤ 223 → c.toNat ≤ 7 →
        reads (.smbFatal true [i, c]) (((s.fatalBytes i.toNat).drop (32 * c.toNat)).take 32)) ∧
      exec (.smbReset true 0xA5) s = .next (s.takeReset [srcLANYARD]) ∧
      (s.alertLow = true → ∃ t, exec .smbAlertResponse s = .next t ∧ t.bwl.smbAck = s.smbStatus ∧
        t = { s with bwl := { s.bwl with smbAck := t.bwl.smbAck } }) ∧
      (∀ d b, ∀ i ∈ [Instr.smbLog false d, .smbFatal false d, .smbReset false b], exec i s =
        .next (s.event Reg.BWL_EVENT Fld.BWL_EVENT_SMB_PEC (Reg.BWL_CNT 9))) ∧
      (s.belay = true →
        (∀ d, d.length = 4 → leNat d = cfgLen → s.bwl.cfgBuf = none →
          exec (.smbCfgBegin true d) s = .next { s with bwl := { s.bwl with cfgBuf := some [] } }) ∧
        (∀ d, 4 ≤ d.length → d.length ≤ 244 →
          exec (.smbCfgData true d) s = .next (s.cfgData (leNat (d.take 4)) (d.drop 4)).1) ∧
        (∀ l, s.bwl.cfgBuf = some l → exec (.smbCfgCommit true) s = .next (s.cfgCommit l).1) ∧
        reads .smbCfgResult s.cfgWriteData ∧ reads .smbFwResult (natLE 1 s.bwl.smbFw.1 ++ natLE 1 s.bwl.smbFw.2) ∧
        (∀ d ok, s.bwl.smbHeld = none →
          let fw (i : Instr) (code : Nat) (x : List Byte) : Prop := exec i s = .next (if s.stageWaits then
            { s with bwl := { s.bwl with smbHeld := some (code, x, ok), smbFw := (1, 0) } } else s.smbStage code x ok)
          fw (.smbFwBegin true d ok) 0x18 d ∧ fw (.smbFwData true d ok) 0x19 d ∧ fw (.smbFwCommit true ok) 0x1A []) ∧
        (∀ ok, s.nvmBusy = false → exec (.smbBelayExit true ok) s = .next (s.belayExit ok).1) ∧
        (∀ ok, s.nvmBusy = true → s.bwl.smbHeld = none → exec (.smbBelayExit true ok) s =
          .next { s with bwl := { s.bwl with smbHeld := some (0x20, [], ok) } }) ∧
        (∀ ok, s.nvmBusy = false → s.fld Reg.RST_STATUS Fld.RST_STATUS_BELAY_CAUSE = 3 →
          exec (.smbBelayExit true ok) s = .next (s.takeReset [srcLANYARD])) ∧
        (∀ d ok, ∀ i ∈ [Instr.smbCfgBegin false d, .smbCfgData false d, .smbCfgCommit false, .smbFwBegin false d ok,
          .smbFwData false d ok, .smbFwCommit false ok, .smbBelayExit false ok], exec i s =
            .next (s.event Reg.BWL_EVENT Fld.BWL_EVENT_SMB_PEC (Reg.BWL_CNT 9))))

/-! ### Lanyard -/

/-- Session packets, FABRIC resets, time-outs, and the commands that read and write registers. A whole HELLO1 or HELLO3 sets
up or opens a session, DATA is opened with the session key and its command arrives, CLOSE changes nothing but counts. A
valid FRESET advances its counter and resets under FABRIC, any other is counted. An idle or old session expires, and a
command under way for 1 ms is answered IN_PROGRESS once. GET_INFO, REG_READ, REG_WRITE and CLOSE_SESSION are answered with
their data. Where the spec leaves it open, what is said here is the choice or the reading of the model (log entries 15 and
53). -/
def Obligations.LanyardSessions : Prop :=
  ∀ (s : State) (p : Packet) (port : Nat),
    let h := (s.rxTake p).bump64 Reg.HWS_CNT_RX_BYTES (40 + p.payload.length)
    let served := s.lyServed = true
    let b := lyBody p
    (served → s.lyGets lyHello1 p → lySession p = 0 → 137 ≤ b.length → exec (.hello1 port p) s = .next (h.hello1 port p)) ∧
      (served → s.lyGets lyHello3 p → exec (.hello3 port p) s = .next (h.hello3 port p) ∧
        (∀ x y, (h.bwl.sessions.find? fun x => x.id == lySession p && !x.up && x.peer == pSrc p) = some x →
          (h.bwl.sessions.filter Session.up).length < 4 → h.hello3Open x b = some y → h.hello3 port p = h.setSession y)) ∧
      (served → s.lyGets lyData p → exec (.dataCmd p) s = .next (h.lyDataIn p) ∧
        (∀ x plain, lyMajor p = 1 → (h.bwl.sessions.find? fun x => x.id == lySession p && x.up) = some x →
          gcmOpen x.rxKey (x.rxSalt ++ natLE 8 (lyCounter p)) (wordsToBytes [p.w0, p.w1] ++ p.payload.take 16) b = some plain →
          counterOk x.seen (lyCounter p) = true → lyCounter p < 2 ^ 48 → 8 ≤ plain.length →
          let t := h.setSession { x with seen := counterAdd x.seen (lyCounter p), last := h.time }
          t.rateOver.2 = false → h.lyDataIn p = t.rateOver.1.lyArrive (some x.id) plain)) ∧
      (s.lyGets lyClose p → exec (.closeCmd p) s = .next h) ∧
      (s.lyGets lyFreset p →
        (h.fresetOk b = true → exec (.freset p) s =
          .next ((h.wr Reg.BWL_FRESET_CTR (BitVec.ofNat 64 (leNat ((b.drop 8).take 8)))).takeReset [srcFABRIC])) ∧
        (h.fresetOk b = false → exec (.freset p) s =
          .next (h.event Reg.BWL_EVENT Fld.BWL_EVENT_FRESET_REJECT (Reg.BWL_CNT 10)))) ∧
      (∀ id x, s.sessionOf id = some x → x.last + 300 * 10 ^ 9 ≤ s.time ∨ x.since + 86400 * 10 ^ 9 ≤ s.time →
        exec (.sessionTimeout id) s = .next (s.expire x)) ∧
      (∀ via req c, c ∈ s.bwl.running → c.via = via → c.req = req → c.told = false → ∃ t : State,
        exec (.commandProgressTimeout via req) s = .next (t.lyReply via (lyResponse req lyIN_PROGRESS [])) ∧
        t = { s with bwl := { s.bwl with running := t.bwl.running, cmds := t.bwl.cmds } } ∧
        t.bwl.running = tellCmd via req s.bwl.running) ∧
      (∀ c r, s.lyFirst 0x01 c r → c.has 0 = true →
        exec .getInfo s = .next ((s.lyTaken r).lyEnds c lyOK (s.lyTaken r).infoBytes)) ∧
      (∀ c r pcie, s.lyFirst 0x02 c r → c.has 16 = true → c.w 1 % 8 = 0 → ctrlBase ≤ c.w 1 → c.w 1 < 2 ^ 48 →
        within 1 27 (c.w 2) = true → exec (.regRead pcie) s = .next (((s.lyTaken r).lyRegs (c.w 1) pcie (c.w 2)).1.lyEnds c lyOK
          (wordsToBytes ((s.lyTaken r).lyRegs (c.w 1) pcie (c.w 2)).2))) ∧
      (∀ c r man, s.lyFirst 0x03 c r → c.has 16 = true → c.w 1 % 8 = 0 → ctrlBase ≤ c.w 1 → c.w 1 < 2 ^ 48 →
        exec (.regWrite man) s = .next (((s.lyTaken r).regWrite .lanyard (c.w 1) (BitVec.ofNat 64 (c.w 2)) man true).lyEnds c lyOK
          [])) ∧
      (∀ c r id, s.lyFirst 0x04 c r → c.has 0 = true → c.via = some id →
        let t := ((s.lyTaken r).lyAnswer c lyOK []).dropSession id
        exec .closeSession s = .next (t.lyDrain t.bwl.cmds))

/-- Commands that assign, join, route and set up the node, and their bad arguments. SET_NODE, SET_EPOCH, ASSIGN, UNASSIGN,
JOIN, LEAVE, TICK_PARAMS, RESUME, ROUTE, SET_CAP, JOURNAL and TELEMETRY, first to be executed with good arguments in a state
that allows them, have their effect and are answered OK, ASSIGN and UNASSIGN once the cores allow. Arguments of another
length are answered BAD_ARGS, and nothing else changes. Where the spec leaves it open, what is said here is the choice or
the reading of the model (log entry 54). -/
def Obligations.LanyardNodeAndDomainCommands : Prop :=
  ∀ (s : State) (c : LyCmd) (r : List LyCmd),
    let t := s.lyTaken r
    let ok (cmd n : Nat) : Prop := s.lyFirst cmd c r ∧ c.has n = true
    let n := bits (c.w 1) 15 0
    let noPart := t.flag Reg.HWS_PART Fld.HWS_PART_VALID = false
    let goes (u : State) (d : LyCmd) : State := (u.putRunning (u.bwl.running ++ [d])).assignGo d
    let d1 := { c with stage := 1 }
    let canAssign := t.assigning = false ∧ t.flag Reg.HWS_NODE Fld.HWS_NODE_VALID = true ∧
      t.flag Reg.HLY_DOMAIN Fld.HLY_DOMAIN_VALID = false ∧ ∀ x ∈ s.bwl.running, x.cmd ≠ c.cmd
    let v (i : Nat) : Word := BitVec.ofNat 64 (c.w i)
    (∀ e ∈ [(Instr.setNode, 0x10, 8), (.setEpoch, 0x12, 8), (.join, 0x20, 16), (.leave, 0x21, 0), (.tickParams, 0x22, 48),
        (.resume, 0x23, 0), (.setCap, 0x31, 8), (.journal, 0x40, 16), (.telemetry, 0x50, 8)],
        s.lyFirst e.2.1 c r → c.has e.2.2 = false → exec e.1 s = .next (t.lyEnds c lyBAD_ARGS [])) ∧
      (ok 0x10 8 → n ≤ 0xFFFD → t.assigning = false → noPart → exec .setNode s = .next
        ((t.wr Reg.HWS_NODE (packF [(Fld.HWS_NODE_VALID, 1), (Fld.HWS_NODE_NODE, n)])).chooseServe.lyEnds c lyOK [])) ∧
      (ok 0x12 8 → t.assigning = false → exec .setEpoch s =
        .next ((t.setPart (setF (t.rd Reg.HWS_PART) Fld.HWS_PART_EPOCH (bits (c.w 1) 7 0))).lyEnds c lyOK [])) ∧
      (ok 0x11 40 → canAssign → rootOk (c.w 2) = true → rootOk (c.w 3) = true → rootOk (c.w 4) = true → rootOk (c.w 5) = true →
        let u := goes (t.assignBegin (packF [(Fld.HWS_PART_VALID, 1), (Fld.HWS_PART_EPOCH, bits (c.w 1) 19 12),
          (Fld.HWS_PART_PARTITION, bits (c.w 1) 11 0)])
          (packF [(Fld.HOST_PARTITION_VALID, 1), (Fld.HOST_PARTITION_PARTITION, bits (c.w 1) 11 0)])) d1
        exec .assign s = .next (u.lyDrain u.bwl.cmds)) ∧
      (ok 0x13 0 → canAssign →
        let u := goes (t.assignBegin (setF (t.rd Reg.HWS_PART) Fld.HWS_PART_VALID 0)
          (setF (t.rd Reg.HOST_PARTITION) Fld.HOST_PARTITION_VALID 0)) d1
        exec .unassign s = .next (u.lyDrain u.bwl.cmds)) ∧
      (ok 0x20 16 → bits (c.w 1) 17 16 ≠ 3 → t.assigning = false → t.flag Reg.HWS_PART Fld.HWS_PART_VALID = true →
        t.fld Reg.HWS_PART Fld.HWS_PART_PARTITION = bits (c.w 1) 11 0 → t.flag Reg.HLY_DOMAIN Fld.HLY_DOMAIN_VALID = false →
        let u := t.wr Reg.HLY_DOMAIN (packF [(Fld.HLY_DOMAIN_PARENT, bits (c.w 2) 15 0), (Fld.HLY_DOMAIN_ALT_PARENT, bits (c.w 2) 31 16),
          (Fld.HLY_DOMAIN_DOMAIN, bits (c.w 1) 11 0), (Fld.HLY_DOMAIN_ROLE, bits (c.w 1) 17 16), (Fld.HLY_DOMAIN_VALID, 1)])
        exec .join s = .next ((if u.flag Reg.HLY_CTRL Fld.HLY_CTRL_ENABLE then u.joinDomain else u).lyEnds c lyOK [])) ∧
      (ok 0x21 0 → exec .leave s =
        .next ((if t.flag Reg.HLY_DOMAIN Fld.HLY_DOMAIN_VALID then t.leaveDomain else t).lyEnds c lyOK [])) ∧
      (ok 0x22 48 →
        let a := { t with hly := { t.hly with stagedPeriod := getF (v 1) Fld.HLY_PERIOD_PERIOD } }
        let u := State.commitParams ((((a.coded Reg.HLY_MARK12 (v 2)).coded Reg.HLY_MARK3 (v 3)).coded Reg.HLY_GUARD_QUIET
          (v 4)).coded Reg.HLY_SLIP_CFG (v 5)) (v 6)
        let e := u.fld Reg.HLY_STATUS Fld.HLY_STATUS_PARAM_ERR
        exec .tickParams s = .next (u.lyEnds c (if e = 0 then lyOK else lyFAILED) (natLE 8 e))) ∧
      (ok 0x23 0 → t.hlyState = hlyHoldFault → t.isMaster = true → t.aggPending = false →
        exec .resume s = .next ((t.sendFinal (t.time + t.lead)).lyEnds c lyOK [])) ∧
      (∀ k, s.lyFirst 0x30 c r → bits (c.w 1) 23 16 = k → 1 ≤ k → k ≤ 26 → c.has (8 + 8 * k) = true → n + k ≤ 65536 →
        exec .route s = .next (((List.range k).foldl (fun (t : State) i => t.writeRoute (n + i) (v (2 + i))) t).lyEnds c lyOK [])) ∧
      (ok 0x31 8 → bits (c.w 1) 11 0 = 0 ∨ 900 ≤ bits (c.w 1) 11 0 → exec .setCap s =
        .next ((t.setCap (bits (c.w 1) 11 0)).lyEnds c lyOK [])) ∧
      (ok 0x40 16 →
        let q := t.journalQuery (bits (c.w 1) 15 0) (bits (c.w 1) 18 16) (bits (c.w 1) 51 32) (c.w 2)
        exec .journal s = .next (t.lyEnds c lyOK (natLE 8 q.1 ++ natLE 8 q.2.1 ++ natLE 8 (leNat q.2.2)))) ∧
      (ok 0x50 8 → (CfgRec.mk 0 rtTELEMETRY false 1 8 [v 1]).inRange = true →
        exec .telemetry s = .next ((t.setTelemetry (c.w 1)).lyEnds c lyOK []))

/-- Commands that read records, transfer images, reset and attest. LOG_READ, FATAL_READ and LOSS_READ answer with their
records and LOSS_CLEAR clears, once no configuration write holds the flash; a configuration image is begun, filled and
committed, the commit of an accepted one staying under way until its write ends; firmware is staged unless a write holds the
flash; RESET and BELAY_EXIT are answered before their reset, which the latter takes once the flash is free; ATTEST answers
with a signature of the identity key. Where the spec leaves it open, what is said here is the choice or the reading of the
model (log entries 52, 54 and 55). -/
def Obligations.LanyardRecordsImagesAndResets : Prop :=
  ∀ (s : State) (c : LyCmd) (r : List LyCmd) (nvm : Bool),
    let t := s.lyTaken r
    let ok (cmd n : Nat) : Prop := s.lyFirst cmd c r ∧ c.has n = true
    let ends (x : State × Nat × List Byte) : Host.Outcome State Fault Refusal := .next (x.1.lyEnds c x.2.1 x.2.2)
    let fw := s.stageWaits = false
    let run (u : State) : State := { u with bwl := { u.bwl with running := u.bwl.running ++ [{ c with stage := 1 }] } }
    let told := run (t.lyAnswer c lyOK [])
    let resets (i : Instr) (k : State → State) : Prop :=
      (told.lySent c.via = true → exec i s = .next (k told)) ∧
      (told.lySent c.via = false → exec i s = .next (told.lyDrain told.bwl.cmds))
    let fail := (t.event Reg.BWL_EVENT Fld.BWL_EVENT_NVM_FAIL (Reg.BWL_CNT 11)).free 14
    let named := lossKeep (c.w 1) t.losses ≠ t.losses
    let cause := s.fld Reg.RST_STATUS Fld.RST_STATUS_BELAY_CAUSE
    (ok 0x60 16 → 1 ≤ c.w 2 → c.w 2 ≤ 6 → exec .logRead s =
        ends (t, lyOK, ((t.logRing.dropWhile fun e => decide (e.eseq < c.w 1)).take (c.w 2)).flatMap LogEntry.bytes)) ∧
      (ok 0x61 16 → c.w 1 ≤ 223 → c.w 2 ≤ 1 → exec .fatalRead s =
        ends (t, lyOK, ((t.fatalBytes (c.w 1)).drop (128 * c.w 2)).take 128)) ∧
      (ok 0x62 8 → c.w 1 + 192 ≤ 4096 → exec .lossRead s = ends (t, lyOK, (t.lossBytes.drop (c.w 1)).take 192)) ∧
      (ok 0x63 8 → s.nvmBusy = false → named → nvm = true → t.nvmPresent = true → exec (.lossClear nvm) s =
        ends (t.lossWrite (lossKeep (c.w 1) t.losses), lyOK, [])) ∧
      (s.nvmBusy = true → exec (.lossClear nvm) s = .next s) ∧
      (ok 0x63 8 → s.nvmBusy = false → named → nvm = false ∨ t.nvmPresent = false → exec (.lossClear nvm) s =
        ends (fail.2, lyFAILED, natLE 8 fail.1.toNat)) ∧
      (ok 0x70 8 → c.w 1 = cfgLen → t.cfgBusy = false → exec .cfgBegin s =
        ends ({ t with bwl := { t.bwl with cfgBuf := some [] } }, lyOK, [])) ∧
      (∀ l, s.lyFirst 0x71 c r → 8 ≤ c.len → c.len ≤ 200 → c.has c.len = true → t.bwl.cfgBuf = some l →
        c.w 1 + (c.args.drop 8).length ≤ cfgLen →
        exec .cfgData s = ends ({ t with bwl := { t.bwl with cfgBuf := some ((c.w 1, c.args.drop 8) :: l) } }, lyOK, [])) ∧
      (∀ l, ok 0x72 0 → t.bwl.cfgBuf = some l →
        ((t.cfgCommit l).2 = false → exec .cfgCommit s = ends ((t.cfgCommit l).1, lyFAILED, (t.cfgCommit l).1.cfgWriteData)) ∧
        ((t.cfgCommit l).2 = true → exec .cfgCommit s =
          .next ((run (t.cfgCommit l).1).lyDrain (run (t.cfgCommit l).1).bwl.cmds))) ∧
      (ok 0x78 8 → fw → exec (.fwBegin nvm) s = ends (t.fwBegin (c.w 1) nvm)) ∧
      (s.lyFirst 0x79 c r → fw → 8 ≤ c.len → c.len ≤ 200 → c.has c.len = true →
        exec (.fwData nvm) s = ends (t.fwData (c.w 1) (c.args.drop 8) nvm)) ∧
      (ok 0x7A 0 → fw → exec (.fwCommit nvm) s = ends (t.fwCommit nvm)) ∧
      (ok 0x7B 0 → fw → exec (.fwCancel nvm) s = ends (t.fwCancel nvm)) ∧
      (ok 0x80 8 → bits (c.w 1) 7 0 = 0xA5 → (∀ x ∈ s.bwl.running, x.cmd ≠ 0x80) →
        resets .resetCmd fun u => u.takeReset [srcLANYARD]) ∧
      (ok 0x81 0 → s.belay = true → cause ≠ 2 → cause ≠ 4 → (∀ x ∈ s.bwl.running, x.cmd ≠ 0x81) →
        resets (.belayExit nvm) fun u => if u.nvmBusy then u else (u.belayExit nvm).1) ∧
      (ok 0x82 32 →
        let k := t.freeScalar
        let m := textAttest ++ c.args.take 32 ++ wordsToBytes [t.rd Reg.ID_SERIAL, t.rd Reg.ID_NUMERICS_SIG, t.rd Reg.BWL_FW]
        exec .attest s = ends (k.2, lyOK, ecdsaSign t.fuse.identityKey k.1 m))

/-! ### The whole block -/

/-- A step runs the front command of the queue; on an empty queue one nanosecond passes. With command c at the front of the
queue, a step is exec c on the state that holds the rest of the queue. On an empty queue a nanosecond of the clock source
passes at the slewed rate, whose fractions of a nanosecond are carried on exactly, while the Halyard domain is out of reset,
and it is one nanosecond of TIMEBASE where the rate is 0; otherwise nothing changes. That a step on an empty queue is a
nanosecond is the choice of the model (log entry 6). Where the spec leaves it open, what is said here is the choice or the
reading of the model (log entries 6 and 61). -/
def Obligations.StepRunsTheFrontCommand : Prop :=
  ∀ s : State,
    let x := (65536 * (1000000 + s.hly.rate)).toNat + s.hly.slewRem
    let f := s.hly.frac + x / 1000000
    (∀ c r, s.pending = c :: r → step s = exec c { s with pending := r }) ∧
      (s.pending = [] → s.hly.running = true → step s = .next { s.wr Reg.HLY_TIMEBASE (BitVec.ofNat 64 (s.time + f / 65536)) with
        hly := { s.hly with frac := f % 65536, slewRem := x % 1000000 } }) ∧
      (s.hly.rate = 0 → s.hly.slewRem < 1000000 → s.hly.frac < 65536 →
        f / 65536 = 1 ∧ f % 65536 = s.hly.frac ∧ x % 1000000 = s.hly.slewRem) ∧
      (s.pending = [] → s.hly.running = false → step s = .next s)

/-- Every command has a next state in every state. Whatever the command and its operands, and whatever the state, exec
answers a next state: what the spec has turned away (a command for an absent unit, a refused write, an undefined field) is
turned away by a next state too. No command of this block ends in a fault or a refusal of the model. Where the spec leaves
it open, what is said here is the choice or the reading of the model (log entries 4 and 5). -/
def Obligations.EveryCommandCompletes : Prop :=
  (∀ (i : Instr) (s : State), ∃ t : State, exec i s = .next t) ∧ ∀ s : State, ∃ t : State, step s = .next t

/-- No command touches the commands that wait, and only a confirmation of health blows fuses. For every command and every
state: the queue stands, and every fuse stands, but under BWL_HEALTH_CONFIRM, by its own command or as a register write,
where the fuses are either those before or those that the confirmation of one running image blows. -/
def Obligations.CommandsKeepTheQueueAndTheFuses : Prop :=
  ∀ (i : Instr) (s t : State), exec i s = .next t →
    t.pending = s.pending ∧
      (t.fuse = s.fuse ∨ ((∃ agent v ok, i = .healthConfirm agent v ok) ∨ ∃ agent a v man ok, i = .registerWrite agent a v man ok) ∧
        ∃ u, t.fuse = s.fuse.confirm u)

/-- Over every step, blown fuses stay blown, ROLLBACK never falls, and a usable firmware key remains. A step never changes
the serial number, the capabilities, the keys, the spares or SIGN_REQUIRED; a revoked key slot stays revoked; ROLLBACK stays
at most 64 and never falls; and where a firmware key slot is programmed and not revoked, one still is after the step. -/
def Obligations.FusesOnlyGoForward : Prop :=
  ∀ s t : State, step s = .next t →
    let f := s.fuse
    let g := t.fuse
    let usable (f : FuseSt) : Prop := ∃ k < 4, f.fwKeys.getD k [] ≠ [] ∧ bit f.fwRevoke k = false
    g = { f with fwRevoke := g.fwRevoke, cfgRevoke := g.cfgRevoke, rollback := g.rollback } ∧
      (∀ k, bit f.fwRevoke k = true → bit g.fwRevoke k = true) ∧ (∀ k, bit f.cfgRevoke k = true → bit g.cfgRevoke k = true) ∧
      (f.rollback ≤ 64 → f.rollback ≤ g.rollback ∧ g.rollback ≤ 64) ∧ (usable f → usable g)

/-- After a reset from any source, everything outside the standby domain is at its reset value. A warm reset from any
sources leaves every register that the standby domain does not keep at its reset value, Halyard, cores, harts, engines,
ports and Hawser as State.reset has them, no memory but lines of the capacity window and no write-combining entry; the
fuses, the queue and the memory of the flash stand. The reset state itself has the canonical memories and an empty queue.
Where the spec leaves it open, what is said here is the choice or the reading of the model (log entries 2 and 3). -/
def Obligations.AResetLeavesTheStandbyDomain : Prop :=
  (∀ (s : State) (srcs : List Nat),
    let t := s.takeReset srcs
    let r := State.reset
    (∀ a, warmReg a = false → t.rd a = regReset a) ∧ t.hly = r.hly ∧ t.tc = r.tc ∧ t.host = r.host ∧ t.fid = r.fid ∧ t.hws = r.hws ∧
      t.ckp = r.ckp ∧ t.rse = r.rse ∧ t.ports = { r.ports with sent := s.ports.sent } ∧ t.mem.wc = [] ∧
      (∀ a, inCapWindow a = false → byteAt t.mem.data a = 0 ∧ t.poisoned a = false) ∧
      t.fuse = s.fuse ∧ t.pending = s.pending ∧ t.nvm = s.nvm) ∧
    State.reset.pending = [] ∧ Memory.wf State.reset.mem.data = true ∧ Memory.wf State.reset.tc.tiles = true ∧
    Memory.wf State.reset.tc.pmem = true

/-- Registers that the register tables give a reset value other than 0 read it right after standby power-on. Right after
standby power-on every physical core is SCRUBBING and serves no logical core, every spare strand serves none, every event
queue has 64 entries, and the identification, numerics, protocol-version and watchdog registers read what their tables give;
TIMEBASE, the step counter and the domain are 0 and the standby power-on is counted. Where the spec leaves it open, what is
said here is the choice or the reading of the model (log entry 50). -/
def Obligations.ResetValuesOfRegisters : Prop :=
  let s := State.reset
  (∀ d p, d < 4 → p < 168 →
      s.fld (Reg.TC_STATUS (Reg.coreWin d p)) Fld.TC_STATUS_STATE = 5 ∧ s.fld (Reg.TC_MAP (Reg.coreWin d p)) Fld.TC_MAP_LCORE = 0x3FF) ∧
    (∀ d, d < 4 → s.fld (Reg.TC_SPARE (Reg.dieBlk d)) Fld.TC_SPARE_SPARE_FOR = 0x1F ∧
      ∀ q, q < 8 → s.fld (Reg.EVQ_CTRL (Reg.dieEvq d q)) Fld.TC_EVQ_CTRL_SIZE_LOG2 = 6) ∧
    s.rd Reg.HLY_TIMEBASE = 0 ∧ s.rd Reg.HLY_STEP = 0 ∧ s.rd Reg.HLY_DOMAIN = 0 ∧
    s.fld Reg.HLY_STATUS Fld.HLY_STATUS_PROTO_MAJOR = 1 ∧ s.fld Reg.BWL_STATUS Fld.BWL_STATUS_LY_MAJOR = 1 ∧
    s.fld Reg.BWL_WDOG Fld.BWL_WDOG_PERIOD_MS = 10000 ∧ s.fld Reg.ID_DEVICE Fld.ID_DEVICE_VENDOR = 0x5E3 ∧
    s.fld Reg.ID_DEVICE Fld.ID_DEVICE_FAMILY = 1 ∧ s.rd Reg.ID_STEPPING = 0x14101 ∧
    s.fld Reg.ID_NUMERICS_SIG Fld.ID_NUMERICS_SIG_STEPPING = 0x4101 ∧ s.fld Reg.ID_NUMERICS_SIG Fld.ID_NUMERICS_SIG_GENERATION = 1 ∧
    bit (s.rd Reg.RST_CAUSE).toNat 0 = true ∧ s.rd Reg.RST_CNT_SBPOR = 1
end

