-- ==== Sys2Proof/Laws/Bits.lean ====
section
/-! SUPPORT. Fields of registers: what a field reads after a field was set, and words of a number. -/

namespace Sys2Proof.Machine

/-- A field lies in a 64-bit register. -/
def Field.ok (f : Field) : Bool := decide (f.lo ≤ f.hi) && decide (f.hi < 64)

/-- Two fields share no bit. -/
def Field.apart (f g : Field) : Bool := decide (f.hi < g.lo) || decide (g.hi < f.lo)

/-- The number that `setF` forms: the bits above the field, the field, the bits below. -/
theorem setF_toNat (v : Word) (f : Field) (x : Nat) (h : f.ok = true) :
    (setF v f x).toNat = 2 ^ f.lo * (2 ^ (f.hi + 1 - f.lo) * (v.toNat / 2 ^ f.lo / 2 ^ (f.hi + 1 - f.lo)) + x % 2 ^ (f.hi + 1 - f.lo))
      + v.toNat % 2 ^ f.lo := by
  simp only [Field.ok, Bool.and_eq_true, decide_eq_true_eq] at h
  have hv : v.toNat < 2 ^ 64 := v.isLt
  generalize hk : f.hi + 1 - f.lo = k
  have hp : 2 ^ 64 = 2 ^ f.lo * (2 ^ k * 2 ^ (64 - f.lo - k)) := by
    rw [← Nat.pow_add, ← Nat.pow_add]
    congr 1
    omega
  have a : 0 < 2 ^ f.lo := Nat.two_pow_pos _
  have b : 0 < 2 ^ k := Nat.two_pow_pos _
  rw [setF, hk]
  simp only [BitVec.toNat_ofNat]
  generalize 2 ^ f.lo = p at *
  generalize 2 ^ k = n at *
  generalize 2 ^ (64 - f.lo - k) = m at *
  generalize v.toNat = y at *
  rw [hp] at hv ⊢
  have e1 : y = y / p / n * (n * p) + (y / p % n * p + y % p) := by
    have := Nat.div_add_mod y p
    have := Nat.div_add_mod (y / p) n
    nlinarith
  have e2 : y / p / n < m := by
    rw [Nat.div_div_eq_div_mul, Nat.div_lt_iff_lt_mul (Nat.mul_pos a b)]
    nlinarith
  have e3 : y % p < p := Nat.mod_lt _ a
  have e4 : x % n < n := Nat.mod_lt _ b
  have e5 : y - p * (y / p % n) = y / p / n * (n * p) + y % p := by
    rw [Nat.mul_comm p]
    omega
  rw [e5]
  have e6 : (y / p / n + 1) * (n * p) ≤ m * (n * p) := Nat.mul_le_mul_right _ e2
  have e7 : (x % n + 1) * p ≤ n * p := Nat.mul_le_mul_right _ e4
  rw [Nat.mod_eq_of_lt (by nlinarith)]
  ring

/-- Bit `i` of a register after a field was set. -/
theorem setF_testBit (v : Word) (f : Field) (x i : Nat) (h : f.ok = true) :
    (setF v f x).toNat.testBit i =
      if f.lo ≤ i ∧ i ≤ f.hi then x.testBit (i - f.lo) else v.toNat.testBit i := by
  have hf := h
  simp only [Field.ok, Bool.and_eq_true, decide_eq_true_eq] at hf
  rw [setF_toNat v f x h, Nat.testBit_two_pow_mul_add _ (Nat.mod_lt _ (Nat.two_pow_pos _)),
    Nat.testBit_two_pow_mul_add _ (Nat.mod_lt _ (Nat.two_pow_pos _))]
  by_cases c : i < f.lo
  · rw [if_pos c, if_neg (by omega), Nat.testBit_mod_two_pow]
    simp [c]
  · rw [if_neg c]
    by_cases e : i - f.lo < f.hi + 1 - f.lo
    · rw [if_pos e, if_pos (by omega), Nat.testBit_mod_two_pow]
      simp [e]
    · rw [if_neg e, if_neg (by omega), Nat.testBit_div_two_pow, Nat.testBit_div_two_pow]
      congr 1
      omega

/-- Bit `i` of a field's value. -/
theorem getF_testBit (v : Word) (f : Field) (i : Nat) (h : f.ok = true) :
    (getF v f).testBit i = (decide (i ≤ f.hi - f.lo) && v.toNat.testBit (f.lo + i)) := by
  simp only [Field.ok, Bool.and_eq_true, decide_eq_true_eq] at h
  rw [getF, bits, Nat.testBit_mod_two_pow, Nat.testBit_div_two_pow, Nat.add_comm i]
  congr 1
  simp only [decide_eq_decide]
  omega

/-- A field just set reads the value set, as far as it fits. -/
theorem getF_setF_same (v : Word) (f : Field) (x : Nat) (h : f.ok = true) : getF (setF v f x) f = x % 2 ^ (f.hi + 1 - f.lo) := by
  apply Nat.eq_of_testBit_eq
  intro i
  have hf := h
  simp only [Field.ok, Bool.and_eq_true, decide_eq_true_eq] at hf
  rw [getF_testBit _ _ _ h, setF_testBit _ _ _ _ h, Nat.testBit_mod_two_pow]
  by_cases c : i ≤ f.hi - f.lo
  · rw [if_pos (by omega)]
    have e : f.lo + i - f.lo = i := by omega
    have g : i < f.hi + 1 - f.lo := by omega
    simp [c, e, g]
  · have g : ¬ i < f.hi + 1 - f.lo := by omega
    simp [c, g]

/-- Setting a field leaves the fields beside it. -/
theorem getF_setF_apart (v : Word) (f g : Field) (x : Nat) (hf : f.ok = true) (hg : g.ok = true) (h : f.apart g = true) :
    getF (setF v f x) g = getF v g := by
  apply Nat.eq_of_testBit_eq
  intro i
  have a := hg
  simp only [Field.ok, Bool.and_eq_true, decide_eq_true_eq] at a
  simp only [Field.apart, Bool.or_eq_true, decide_eq_true_eq] at h
  rw [getF_testBit _ _ _ hg, getF_testBit _ _ _ hg, setF_testBit _ _ _ _ hf]
  by_cases c : i ≤ g.hi - g.lo
  · rw [if_neg (by omega)]
  · simp [c]

/-- `past` is subtraction. -/
theorem past_eq (base a : Nat) : past base a = a - base := by
  rw [past]
  split
  · rfl
  · omega

/-- A field's value fits the field. -/
theorem getF_lt (v : Word) (f : Field) : getF v f < 2 ^ (f.hi + 1 - f.lo) := Nat.mod_lt _ (Nat.two_pow_pos _)

end Sys2Proof.Machine
end

