-- ==== Sys2Proof/Laws/Sparse.lean ====
section
/-! SUPPORT. Sparse data: a read after a write, writes elsewhere, and the canonical form, which every operation keeps. -/

namespace Sys2Proof.Machine

variable {α : Type} {d : Nat → α}

/-- Every key of the list is above `k`. -/
def sAbove (k : Nat) (l : List (Nat × α)) : Prop := ∀ e ∈ l, k < e.1

theorem sAbove_nil (k : Nat) : sAbove k ([] : List (Nat × α)) := by intro e h; cases h

theorem sAbove_cons {k : Nat} {e : Nat × α} {l : List (Nat × α)} : sAbove k (e :: l) ↔ k < e.1 ∧ sAbove k l := by
  simp [sAbove]

theorem sAbove_mono {j k : Nat} {l : List (Nat × α)} (h : j ≤ k) (a : sAbove k l) : sAbove j l :=
  fun e he => Nat.lt_of_le_of_lt h (a e he)

/-- Sorted lists by their first entry. -/
theorem sSorted_cons {e : Nat × α} {l : List (Nat × α)} : sSorted (e :: l) = true ↔ sAbove e.1 l ∧ sSorted l = true := by
  induction l generalizing e with
  | nil => simp [sSorted, sAbove_nil]
  | cons b r ih =>
    rw [sSorted, Bool.and_eq_true, decide_eq_true_eq, ih, sAbove_cons]
    constructor
    · rintro ⟨h, a, s⟩
      exact ⟨⟨h, sAbove_mono (Nat.le_of_lt h) a⟩, a, s⟩
    · rintro ⟨⟨h, _⟩, a, s⟩
      exact ⟨h, a, s⟩

theorem sGet_above {k : Nat} {l : List (Nat × α)} (h : sAbove k l) : sGet d l k = d k := by
  induction l with
  | nil => rfl
  | cons e r ih =>
    rw [sAbove_cons] at h
    obtain ⟨a, b⟩ := e
    rw [sGet, if_neg (Nat.ne_of_gt h.1), ih h.2]

theorem sGet_sPut_same (l : List (Nat × α)) (k : Nat) (v : α) : sGet d (sPut l k v) k = v := by
  induction l with
  | nil => simp [sPut, sGet]
  | cons e r ih =>
    obtain ⟨a, b⟩ := e
    rw [sPut]
    split
    · simp [sGet]
    · split
      · simp [sGet]
      · rw [sGet, if_neg (by assumption), ih]

theorem sGet_sPut_other {l : List (Nat × α)} {k j : Nat} {v : α} (h : j ≠ k) : sGet d (sPut l k v) j = sGet d l j := by
  induction l with
  | nil => simp [sPut, sGet, Ne.symm h]
  | cons e r ih =>
    obtain ⟨a, b⟩ := e
    rw [sPut]
    split
    · subst_vars
      simp [sGet, Ne.symm h]
    · split
      · rw [sGet, if_neg (Ne.symm h)]
      · rw [sGet, ih, sGet]

theorem sGet_sDel_other {l : List (Nat × α)} {k j : Nat} (h : j ≠ k) : sGet d (sDel l k) j = sGet d l j := by
  induction l with
  | nil => rfl
  | cons e r ih =>
    obtain ⟨a, b⟩ := e
    rw [sDel, List.filter_cons]
    split
    · rw [sGet, sGet, ← ih, sDel]
    · rename_i c
      have e : a = k := by simpa using c
      rw [sGet, if_neg (by rw [e]; exact Ne.symm h), ← ih, sDel]

theorem sGet_sDel_same (l : List (Nat × α)) (k : Nat) : sGet d (sDel l k) k = d k := by
  induction l with
  | nil => rfl
  | cons e r ih =>
    obtain ⟨a, b⟩ := e
    rw [sDel, List.filter_cons]
    split
    · rename_i c
      rw [sGet, if_neg (by simpa using c), ← sDel, ih]
    · rw [← sDel, ih]

theorem sAbove_sPut {l : List (Nat × α)} {j k : Nat} {v : α} (h : sAbove j l) (hk : j < k) : sAbove j (sPut l k v) := by
  induction l with
  | nil => simp [sPut, sAbove, hk]
  | cons e r ih =>
    obtain ⟨a, b⟩ := e
    rw [sAbove_cons] at h
    rw [sPut]
    split
    · exact sAbove_cons.2 ⟨hk, h.2⟩
    · split
      · exact sAbove_cons.2 ⟨hk, sAbove_cons.2 h⟩
      · exact sAbove_cons.2 ⟨h.1, ih h.2⟩

theorem sSorted_sPut {l : List (Nat × α)} (k : Nat) (v : α) (w : sSorted l = true) : sSorted (sPut l k v) = true := by
  induction l with
  | nil => rfl
  | cons e r ih =>
    obtain ⟨a, b⟩ := e
    have w' := sSorted_cons.1 w
    rw [sPut]
    split
    · subst_vars
      exact sSorted_cons.2 w'
    · split
      · rename_i h
        exact sSorted_cons.2 ⟨sAbove_cons.2 ⟨h, sAbove_mono (Nat.le_of_lt h) w'.1⟩, w⟩
      · rename_i h1 h2
        exact sSorted_cons.2 ⟨sAbove_sPut w'.1 (by simp only at *; omega), ih w'.2⟩

theorem mem_sPut {l : List (Nat × α)} {k : Nat} {v : α} {e : Nat × α} (h : e ∈ sPut l k v) : e = (k, v) ∨ e ∈ l := by
  induction l with
  | nil => simpa [sPut] using h
  | cons f r ih =>
    obtain ⟨a, b⟩ := f
    rw [sPut] at h
    split at h
    · rcases List.mem_cons.1 h with h | h
      · exact .inl h
      · exact .inr (List.mem_cons_of_mem _ h)
    · split at h
      · rcases List.mem_cons.1 h with h | h
        · exact .inl h
        · exact .inr h
      · rcases List.mem_cons.1 h with h | h
        · exact .inr (List.mem_cons.2 (.inl h))
        · exact (ih h).imp id (List.mem_cons_of_mem _)

variable [DecidableEq α]

/-- The canonical form in words. -/
theorem sWf_iff {l : List (Nat × α)} : sWf d l = true ↔ sSorted l = true ∧ ∀ e ∈ l, e.2 ≠ d e.1 := by
  simp [sWf]

/-- A read of a key just written gives the value written. -/
theorem sGet_sSet_same (l : List (Nat × α)) (k : Nat) (v : α) : sGet d (sSet d l k v) k = v := by
  rw [sSet]
  split
  · subst_vars
    exact sGet_sDel_same l k
  · exact sGet_sPut_same l k v

/-- A write leaves every other key alone. -/
theorem sGet_sSet_other {l : List (Nat × α)} {k j : Nat} {v : α} (h : j ≠ k) : sGet d (sSet d l k v) j = sGet d l j := by
  rw [sSet]
  split
  · exact sGet_sDel_other h
  · exact sGet_sPut_other h

/-- Entries taken out by a filter keep the canonical form. -/
theorem sWf_filter {l : List (Nat × α)} (p : Nat × α → Bool) (w : sWf d l = true) : sWf d (l.filter p) = true := by
  rw [sWf_iff] at w ⊢
  refine ⟨?_, fun e h => w.2 e (List.mem_of_mem_filter h)⟩
  have h := w.1
  clear w
  induction l with
  | nil => rfl
  | cons e r ih =>
    have h' := sSorted_cons.1 h
    rw [List.filter_cons]
    split
    · exact sSorted_cons.2 ⟨fun x hx => h'.1 x (List.mem_of_mem_filter hx), ih h'.2⟩
    · exact ih h'.2

/-- A write keeps the canonical form. -/
theorem sWf_sSet {l : List (Nat × α)} (k : Nat) (v : α) (w : sWf d l = true) : sWf d (sSet d l k v) = true := by
  rw [sSet]
  split
  · exact sWf_filter _ w
  · rw [sWf_iff] at w ⊢
    refine ⟨sSorted_sPut k v w.1, fun e h => ?_⟩
    rcases mem_sPut h with h | h
    · subst h
      assumption
    · exact w.2 e h

/-- Taking a run of keys out keeps the canonical form. -/
theorem sWf_sDrop {l : List (Nat × α)} (lo hi : Nat) (w : sWf d l = true) : sWf d (sDrop lo hi l) = true := sWf_filter _ w

end Sys2Proof.Machine
end

