-- ==== Sys2Proof/Laws/Bytes.lean ====
section
/-! SUPPORT. Bytes of memories: a run written reads back, the rest stands, and the canonical form is kept; numbers as bytes. -/

namespace Sys2Proof.Machine

/-- Writing a run of bytes keeps the canonical form of a memory. -/
theorem wf_putBytes {m : List Host.Cell} (a : Nat) (bs : List Byte) (w : Memory.wf m = true) : Memory.wf (putBytes m a bs) = true := by
  induction bs generalizing m a with
  | nil => exact w
  | cons b r ih => exact ih _ (sWf_sSet _ _ w)

/-- A byte outside a run just written stands. -/
theorem byteAt_putBytes_other {m : List Host.Cell} {a k : Nat} {bs : List Byte} (h : k < a ∨ a + bs.length ≤ k) :
    byteAt (putBytes m a bs) k = byteAt m k := by
  induction bs generalizing m a with
  | nil => rfl
  | cons b r ih =>
    rw [List.length_cons] at h
    exact (ih (by omega)).trans (sGet_sSet_other (by omega))

/-- Byte `i` of a run just written. -/
theorem byteAt_putBytes_same {m : List Host.Cell} {a i : Nat} {bs : List Byte} (h : i < bs.length) :
    byteAt (putBytes m a bs) (a + i) = bs[i] := by
  induction bs generalizing m a i with
  | nil => cases h
  | cons b r ih =>
    cases i with
    | zero =>
      rw [putBytes, Nat.add_zero, byteAt_putBytes_other (by omega)]
      exact sGet_sSet_same _ _ _
    | succ j =>
      have : a + (j + 1) = a + 1 + j := by omega
      rw [this]
      exact ih (by simpa using h)

/-- A run just written reads back. -/
theorem bytesAt_putBytes (m : List Host.Cell) (a : Nat) (bs : List Byte) : bytesAt (putBytes m a bs) a bs.length = bs := by
  suffices h : ∀ (m : List Host.Cell) (a : Nat) (bs : List Byte), (∀ i (h : i < bs.length), byteAt m (a + i) = bs[i]) → bytesAt m a bs.length = bs by
    exact h _ a bs fun i h => byteAt_putBytes_same h
  intro m a bs
  induction bs generalizing a with
  | nil => intro; rfl
  | cons b r ih =>
    intro h
    rw [List.length_cons, bytesAt]
    congr 1
    · exact h 0 (by simp)
    · refine ih (a + 1) fun i hi => ?_
      have : a + 1 + i = a + (i + 1) := by omega
      rw [this]
      exact h (i + 1) (by simpa using hi)

@[simp] theorem length_natLE (n x : Nat) : (natLE n x).length = n := by
  induction n generalizing x with
  | zero => rfl
  | succ k ih => rw [natLE, List.length_cons, ih]

/-- The number held by the bytes of a number that fits. -/
theorem leNat_natLE (n x : Nat) : leNat (natLE n x) = x % 256 ^ n := by
  induction n generalizing x with
  | zero => simp [natLE, leNat, Nat.mod_one]
  | succ k ih =>
    rw [natLE, leNat, ih, Nat.pow_succ, BitVec.toNat_ofNat, Nat.mul_comm (256 ^ k) 256, Nat.mod_mul]

end Sys2Proof.Machine
end

