-- ==== Sys2Proof/Laws/Canonical.lean ====
section
/-! SUPPORT. Every operation that changes a memory keeps its canonical form: the memory tiers, the tile stores, the program
memories and the vector registers are changed by the operations of this file alone. -/

namespace Sys2Proof.Machine

/-- The bytes of a write-combining entry (R331). -/
theorem wf_putEntry {m : List Host.Cell} (line : Nat) (l : List (Nat × Byte)) (w : Memory.wf m = true) :
    Memory.wf (putEntry m line l) = true := by
  induction l generalizing m with
  | nil => exact w
  | cons e r ih => exact ih (sWf_sSet _ _ w)

/-- A scrub takes a range of keys away (R100). -/
theorem wf_sDrop {m : List Host.Cell} (lo hi : Nat) (w : Memory.wf m = true) : Memory.wf (sDrop lo hi m) = true := sWf_sDrop _ _ w

/-- A reset keeps the bytes of the capacity window alone (R454), and a stack powered up anew starts empty. -/
theorem wf_filter {m : List Host.Cell} (p : Host.Cell → Bool) (w : Memory.wf m = true) : Memory.wf (m.filter p) = true := sWf_filter _ w

/-- The preserved contents laid out over other channels (R314). -/
theorem wf_rekeyList {old new : List Nat} {m : List Host.Cell} (w : Memory.wf m = true) : Memory.wf (rekeyList old new m) = true := by
  have hv : ∀ e ∈ m, e.2 ≠ 0 := (sWf_iff.mp w).2
  suffices h : ∀ (l acc : List Host.Cell), (∀ e ∈ l, e.2 ≠ 0) → Memory.wf acc = true →
      Memory.wf (l.foldl (fun m e => match rekey old new e.1 with | some a => sPut m a e.2 | none => m) acc) = true from
    h m [] hv rfl
  intro l
  induction l with
  | nil => exact fun _ _ w => w
  | cons e r ih =>
    intro acc h w
    refine ih _ (fun x hx => h x (.tail _ hx)) ?_
    dsimp only
    split
    · have a := sWf_iff.mp w
      refine sWf_iff.mpr ⟨sSorted_sPut _ _ a.1, fun x hx => ?_⟩
      rcases mem_sPut hx with rfl | hx
      · exact h e (.head _)
      · exact a.2 x hx
    · exact w

/-- A stored memory of State is in canonical form. -/
def State.memsWf (s : State) : Bool := Memory.wf s.mem.data && Memory.wf s.tc.tiles && Memory.wf s.tc.pmem

theorem memsWf_reset : State.reset.memsWf = true := by decide

theorem memsWf_wcStore {s : State} (e : WcEntry) (w : s.memsWf = true) : (s.wcStore e).memsWf = true := by
  simp only [State.memsWf, Bool.and_eq_true] at w ⊢
  exact ⟨⟨wf_putEntry _ _ w.1.1, w.1.2⟩, w.2⟩

theorem memsWf_relayCap {s : State} (w : s.memsWf = true) : s.relayCap.memsWf = true := by
  unfold State.relayCap
  dsimp only
  split
  · exact w
  · simp only [State.memsWf, Bool.and_eq_true] at w ⊢
    exact ⟨⟨wf_rekeyList w.1.1, w.1.2⟩, w.2⟩

end Sys2Proof.Machine
end

