-- ==== Sys2Proof/Laws/State.lean ====
section
/-! SUPPORT. What an update of registers, of the event log or of the counter of free values leaves of every other field of State. -/

namespace Sys2Proof.Machine

/-! ### State.wr -/

@[simp] theorem State.wr_logRing (s : State) (a : Nat) (v : Word) : (s.wr a v).logRing = s.logRing := (rfl)
@[simp] theorem State.wr_logNext (s : State) (a : Nat) (v : Word) : (s.wr a v).logNext = s.logNext := (rfl)
@[simp] theorem State.wr_mem (s : State) (a : Nat) (v : Word) : (s.wr a v).mem = s.mem := (rfl)
@[simp] theorem State.wr_tc (s : State) (a : Nat) (v : Word) : (s.wr a v).tc = s.tc := (rfl)
@[simp] theorem State.wr_hly (s : State) (a : Nat) (v : Word) : (s.wr a v).hly = s.hly := (rfl)
@[simp] theorem State.wr_host (s : State) (a : Nat) (v : Word) : (s.wr a v).host = s.host := (rfl)
@[simp] theorem State.wr_fid (s : State) (a : Nat) (v : Word) : (s.wr a v).fid = s.fid := (rfl)
@[simp] theorem State.wr_nvm (s : State) (a : Nat) (v : Word) : (s.wr a v).nvm = s.nvm := (rfl)
@[simp] theorem State.wr_hws (s : State) (a : Nat) (v : Word) : (s.wr a v).hws = s.hws := (rfl)
@[simp] theorem State.wr_ckp (s : State) (a : Nat) (v : Word) : (s.wr a v).ckp = s.ckp := (rfl)
@[simp] theorem State.wr_pcieOut (s : State) (a : Nat) (v : Word) : (s.wr a v).pcieOut = s.pcieOut := (rfl)
@[simp] theorem State.wr_pcieSub (s : State) (a : Nat) (v : Word) : (s.wr a v).pcieSub = s.pcieSub := (rfl)
@[simp] theorem State.wr_ports (s : State) (a : Nat) (v : Word) : (s.wr a v).ports = s.ports := (rfl)
@[simp] theorem State.wr_rse (s : State) (a : Nat) (v : Word) : (s.wr a v).rse = s.rse := (rfl)
@[simp] theorem State.wr_fuse (s : State) (a : Nat) (v : Word) : (s.wr a v).fuse = s.fuse := (rfl)
@[simp] theorem State.wr_rst (s : State) (a : Nat) (v : Word) : (s.wr a v).rst = s.rst := (rfl)
@[simp] theorem State.wr_bwl (s : State) (a : Nat) (v : Word) : (s.wr a v).bwl = s.bwl := (rfl)
@[simp] theorem State.wr_pwr (s : State) (a : Nat) (v : Word) : (s.wr a v).pwr = s.pwr := (rfl)
@[simp] theorem State.wr_freeCtr (s : State) (a : Nat) (v : Word) : (s.wr a v).freeCtr = s.freeCtr := (rfl)
@[simp] theorem State.wr_pending (s : State) (a : Nat) (v : Word) : (s.wr a v).pending = s.pending := (rfl)

/-! ### State.dropRegs -/

@[simp] theorem State.dropRegs_logRing (s : State) (lo hi : Nat) : (s.dropRegs lo hi).logRing = s.logRing := (rfl)
@[simp] theorem State.dropRegs_logNext (s : State) (lo hi : Nat) : (s.dropRegs lo hi).logNext = s.logNext := (rfl)
@[simp] theorem State.dropRegs_mem (s : State) (lo hi : Nat) : (s.dropRegs lo hi).mem = s.mem := (rfl)
@[simp] theorem State.dropRegs_tc (s : State) (lo hi : Nat) : (s.dropRegs lo hi).tc = s.tc := (rfl)
@[simp] theorem State.dropRegs_hly (s : State) (lo hi : Nat) : (s.dropRegs lo hi).hly = s.hly := (rfl)
@[simp] theorem State.dropRegs_host (s : State) (lo hi : Nat) : (s.dropRegs lo hi).host = s.host := (rfl)
@[simp] theorem State.dropRegs_fid (s : State) (lo hi : Nat) : (s.dropRegs lo hi).fid = s.fid := (rfl)
@[simp] theorem State.dropRegs_nvm (s : State) (lo hi : Nat) : (s.dropRegs lo hi).nvm = s.nvm := (rfl)
@[simp] theorem State.dropRegs_hws (s : State) (lo hi : Nat) : (s.dropRegs lo hi).hws = s.hws := (rfl)
@[simp] theorem State.dropRegs_ckp (s : State) (lo hi : Nat) : (s.dropRegs lo hi).ckp = s.ckp := (rfl)
@[simp] theorem State.dropRegs_pcieOut (s : State) (lo hi : Nat) : (s.dropRegs lo hi).pcieOut = s.pcieOut := (rfl)
@[simp] theorem State.dropRegs_pcieSub (s : State) (lo hi : Nat) : (s.dropRegs lo hi).pcieSub = s.pcieSub := (rfl)
@[simp] theorem State.dropRegs_ports (s : State) (lo hi : Nat) : (s.dropRegs lo hi).ports = s.ports := (rfl)
@[simp] theorem State.dropRegs_rse (s : State) (lo hi : Nat) : (s.dropRegs lo hi).rse = s.rse := (rfl)
@[simp] theorem State.dropRegs_fuse (s : State) (lo hi : Nat) : (s.dropRegs lo hi).fuse = s.fuse := (rfl)
@[simp] theorem State.dropRegs_rst (s : State) (lo hi : Nat) : (s.dropRegs lo hi).rst = s.rst := (rfl)
@[simp] theorem State.dropRegs_bwl (s : State) (lo hi : Nat) : (s.dropRegs lo hi).bwl = s.bwl := (rfl)
@[simp] theorem State.dropRegs_pwr (s : State) (lo hi : Nat) : (s.dropRegs lo hi).pwr = s.pwr := (rfl)
@[simp] theorem State.dropRegs_freeCtr (s : State) (lo hi : Nat) : (s.dropRegs lo hi).freeCtr = s.freeCtr := (rfl)
@[simp] theorem State.dropRegs_pending (s : State) (lo hi : Nat) : (s.dropRegs lo hi).pending = s.pending := (rfl)

/-! ### State.setFld -/

@[simp] theorem State.setFld_logRing (s : State) (a : Nat) (f : Field) (x : Nat) : (s.setFld a f x).logRing = s.logRing := (rfl)
@[simp] theorem State.setFld_logNext (s : State) (a : Nat) (f : Field) (x : Nat) : (s.setFld a f x).logNext = s.logNext := (rfl)
@[simp] theorem State.setFld_mem (s : State) (a : Nat) (f : Field) (x : Nat) : (s.setFld a f x).mem = s.mem := (rfl)
@[simp] theorem State.setFld_tc (s : State) (a : Nat) (f : Field) (x : Nat) : (s.setFld a f x).tc = s.tc := (rfl)
@[simp] theorem State.setFld_hly (s : State) (a : Nat) (f : Field) (x : Nat) : (s.setFld a f x).hly = s.hly := (rfl)
@[simp] theorem State.setFld_host (s : State) (a : Nat) (f : Field) (x : Nat) : (s.setFld a f x).host = s.host := (rfl)
@[simp] theorem State.setFld_fid (s : State) (a : Nat) (f : Field) (x : Nat) : (s.setFld a f x).fid = s.fid := (rfl)
@[simp] theorem State.setFld_nvm (s : State) (a : Nat) (f : Field) (x : Nat) : (s.setFld a f x).nvm = s.nvm := (rfl)
@[simp] theorem State.setFld_hws (s : State) (a : Nat) (f : Field) (x : Nat) : (s.setFld a f x).hws = s.hws := (rfl)
@[simp] theorem State.setFld_ckp (s : State) (a : Nat) (f : Field) (x : Nat) : (s.setFld a f x).ckp = s.ckp := (rfl)
@[simp] theorem State.setFld_pcieOut (s : State) (a : Nat) (f : Field) (x : Nat) : (s.setFld a f x).pcieOut = s.pcieOut := (rfl)
@[simp] theorem State.setFld_pcieSub (s : State) (a : Nat) (f : Field) (x : Nat) : (s.setFld a f x).pcieSub = s.pcieSub := (rfl)
@[simp] theorem State.setFld_ports (s : State) (a : Nat) (f : Field) (x : Nat) : (s.setFld a f x).ports = s.ports := (rfl)
@[simp] theorem State.setFld_rse (s : State) (a : Nat) (f : Field) (x : Nat) : (s.setFld a f x).rse = s.rse := (rfl)
@[simp] theorem State.setFld_fuse (s : State) (a : Nat) (f : Field) (x : Nat) : (s.setFld a f x).fuse = s.fuse := (rfl)
@[simp] theorem State.setFld_rst (s : State) (a : Nat) (f : Field) (x : Nat) : (s.setFld a f x).rst = s.rst := (rfl)
@[simp] theorem State.setFld_bwl (s : State) (a : Nat) (f : Field) (x : Nat) : (s.setFld a f x).bwl = s.bwl := (rfl)
@[simp] theorem State.setFld_pwr (s : State) (a : Nat) (f : Field) (x : Nat) : (s.setFld a f x).pwr = s.pwr := (rfl)
@[simp] theorem State.setFld_freeCtr (s : State) (a : Nat) (f : Field) (x : Nat) : (s.setFld a f x).freeCtr = s.freeCtr := (rfl)
@[simp] theorem State.setFld_pending (s : State) (a : Nat) (f : Field) (x : Nat) : (s.setFld a f x).pending = s.pending := (rfl)

/-! ### State.setFlds -/

@[simp] theorem State.setFlds_logRing (s : State) (a : Nat) (l : List (Field × Nat)) : (s.setFlds a l).logRing = s.logRing := (rfl)
@[simp] theorem State.setFlds_logNext (s : State) (a : Nat) (l : List (Field × Nat)) : (s.setFlds a l).logNext = s.logNext := (rfl)
@[simp] theorem State.setFlds_mem (s : State) (a : Nat) (l : List (Field × Nat)) : (s.setFlds a l).mem = s.mem := (rfl)
@[simp] theorem State.setFlds_tc (s : State) (a : Nat) (l : List (Field × Nat)) : (s.setFlds a l).tc = s.tc := (rfl)
@[simp] theorem State.setFlds_hly (s : State) (a : Nat) (l : List (Field × Nat)) : (s.setFlds a l).hly = s.hly := (rfl)
@[simp] theorem State.setFlds_host (s : State) (a : Nat) (l : List (Field × Nat)) : (s.setFlds a l).host = s.host := (rfl)
@[simp] theorem State.setFlds_fid (s : State) (a : Nat) (l : List (Field × Nat)) : (s.setFlds a l).fid = s.fid := (rfl)
@[simp] theorem State.setFlds_nvm (s : State) (a : Nat) (l : List (Field × Nat)) : (s.setFlds a l).nvm = s.nvm := (rfl)
@[simp] theorem State.setFlds_hws (s : State) (a : Nat) (l : List (Field × Nat)) : (s.setFlds a l).hws = s.hws := (rfl)
@[simp] theorem State.setFlds_ckp (s : State) (a : Nat) (l : List (Field × Nat)) : (s.setFlds a l).ckp = s.ckp := (rfl)
@[simp] theorem State.setFlds_pcieOut (s : State) (a : Nat) (l : List (Field × Nat)) : (s.setFlds a l).pcieOut = s.pcieOut := (rfl)
@[simp] theorem State.setFlds_pcieSub (s : State) (a : Nat) (l : List (Field × Nat)) : (s.setFlds a l).pcieSub = s.pcieSub := (rfl)
@[simp] theorem State.setFlds_ports (s : State) (a : Nat) (l : List (Field × Nat)) : (s.setFlds a l).ports = s.ports := (rfl)
@[simp] theorem State.setFlds_rse (s : State) (a : Nat) (l : List (Field × Nat)) : (s.setFlds a l).rse = s.rse := (rfl)
@[simp] theorem State.setFlds_fuse (s : State) (a : Nat) (l : List (Field × Nat)) : (s.setFlds a l).fuse = s.fuse := (rfl)
@[simp] theorem State.setFlds_rst (s : State) (a : Nat) (l : List (Field × Nat)) : (s.setFlds a l).rst = s.rst := (rfl)
@[simp] theorem State.setFlds_bwl (s : State) (a : Nat) (l : List (Field × Nat)) : (s.setFlds a l).bwl = s.bwl := (rfl)
@[simp] theorem State.setFlds_pwr (s : State) (a : Nat) (l : List (Field × Nat)) : (s.setFlds a l).pwr = s.pwr := (rfl)
@[simp] theorem State.setFlds_freeCtr (s : State) (a : Nat) (l : List (Field × Nat)) : (s.setFlds a l).freeCtr = s.freeCtr := (rfl)
@[simp] theorem State.setFlds_pending (s : State) (a : Nat) (l : List (Field × Nat)) : (s.setFlds a l).pending = s.pending := (rfl)

/-! ### State.bump32 -/

@[simp] theorem State.bump32_logRing (s : State) (a n : Nat) : (s.bump32 a n).logRing = s.logRing := (rfl)
@[simp] theorem State.bump32_logNext (s : State) (a n : Nat) : (s.bump32 a n).logNext = s.logNext := (rfl)
@[simp] theorem State.bump32_mem (s : State) (a n : Nat) : (s.bump32 a n).mem = s.mem := (rfl)
@[simp] theorem State.bump32_tc (s : State) (a n : Nat) : (s.bump32 a n).tc = s.tc := (rfl)
@[simp] theorem State.bump32_hly (s : State) (a n : Nat) : (s.bump32 a n).hly = s.hly := (rfl)
@[simp] theorem State.bump32_host (s : State) (a n : Nat) : (s.bump32 a n).host = s.host := (rfl)
@[simp] theorem State.bump32_fid (s : State) (a n : Nat) : (s.bump32 a n).fid = s.fid := (rfl)
@[simp] theorem State.bump32_nvm (s : State) (a n : Nat) : (s.bump32 a n).nvm = s.nvm := (rfl)
@[simp] theorem State.bump32_hws (s : State) (a n : Nat) : (s.bump32 a n).hws = s.hws := (rfl)
@[simp] theorem State.bump32_ckp (s : State) (a n : Nat) : (s.bump32 a n).ckp = s.ckp := (rfl)
@[simp] theorem State.bump32_pcieOut (s : State) (a n : Nat) : (s.bump32 a n).pcieOut = s.pcieOut := (rfl)
@[simp] theorem State.bump32_pcieSub (s : State) (a n : Nat) : (s.bump32 a n).pcieSub = s.pcieSub := (rfl)
@[simp] theorem State.bump32_ports (s : State) (a n : Nat) : (s.bump32 a n).ports = s.ports := (rfl)
@[simp] theorem State.bump32_rse (s : State) (a n : Nat) : (s.bump32 a n).rse = s.rse := (rfl)
@[simp] theorem State.bump32_fuse (s : State) (a n : Nat) : (s.bump32 a n).fuse = s.fuse := (rfl)
@[simp] theorem State.bump32_rst (s : State) (a n : Nat) : (s.bump32 a n).rst = s.rst := (rfl)
@[simp] theorem State.bump32_bwl (s : State) (a n : Nat) : (s.bump32 a n).bwl = s.bwl := (rfl)
@[simp] theorem State.bump32_pwr (s : State) (a n : Nat) : (s.bump32 a n).pwr = s.pwr := (rfl)
@[simp] theorem State.bump32_freeCtr (s : State) (a n : Nat) : (s.bump32 a n).freeCtr = s.freeCtr := (rfl)
@[simp] theorem State.bump32_pending (s : State) (a n : Nat) : (s.bump32 a n).pending = s.pending := (rfl)

/-! ### State.bump64 -/

@[simp] theorem State.bump64_logRing (s : State) (a n : Nat) : (s.bump64 a n).logRing = s.logRing := (rfl)
@[simp] theorem State.bump64_logNext (s : State) (a n : Nat) : (s.bump64 a n).logNext = s.logNext := (rfl)
@[simp] theorem State.bump64_mem (s : State) (a n : Nat) : (s.bump64 a n).mem = s.mem := (rfl)
@[simp] theorem State.bump64_tc (s : State) (a n : Nat) : (s.bump64 a n).tc = s.tc := (rfl)
@[simp] theorem State.bump64_hly (s : State) (a n : Nat) : (s.bump64 a n).hly = s.hly := (rfl)
@[simp] theorem State.bump64_host (s : State) (a n : Nat) : (s.bump64 a n).host = s.host := (rfl)
@[simp] theorem State.bump64_fid (s : State) (a n : Nat) : (s.bump64 a n).fid = s.fid := (rfl)
@[simp] theorem State.bump64_nvm (s : State) (a n : Nat) : (s.bump64 a n).nvm = s.nvm := (rfl)
@[simp] theorem State.bump64_hws (s : State) (a n : Nat) : (s.bump64 a n).hws = s.hws := (rfl)
@[simp] theorem State.bump64_ckp (s : State) (a n : Nat) : (s.bump64 a n).ckp = s.ckp := (rfl)
@[simp] theorem State.bump64_pcieOut (s : State) (a n : Nat) : (s.bump64 a n).pcieOut = s.pcieOut := (rfl)
@[simp] theorem State.bump64_pcieSub (s : State) (a n : Nat) : (s.bump64 a n).pcieSub = s.pcieSub := (rfl)
@[simp] theorem State.bump64_ports (s : State) (a n : Nat) : (s.bump64 a n).ports = s.ports := (rfl)
@[simp] theorem State.bump64_rse (s : State) (a n : Nat) : (s.bump64 a n).rse = s.rse := (rfl)
@[simp] theorem State.bump64_fuse (s : State) (a n : Nat) : (s.bump64 a n).fuse = s.fuse := (rfl)
@[simp] theorem State.bump64_rst (s : State) (a n : Nat) : (s.bump64 a n).rst = s.rst := (rfl)
@[simp] theorem State.bump64_bwl (s : State) (a n : Nat) : (s.bump64 a n).bwl = s.bwl := (rfl)
@[simp] theorem State.bump64_pwr (s : State) (a n : Nat) : (s.bump64 a n).pwr = s.pwr := (rfl)
@[simp] theorem State.bump64_freeCtr (s : State) (a n : Nat) : (s.bump64 a n).freeCtr = s.freeCtr := (rfl)
@[simp] theorem State.bump64_pending (s : State) (a n : Nat) : (s.bump64 a n).pending = s.pending := (rfl)

/-! ### State.bump48 -/

@[simp] theorem State.bump48_logRing (s : State) (a n : Nat) : (s.bump48 a n).logRing = s.logRing := (rfl)
@[simp] theorem State.bump48_logNext (s : State) (a n : Nat) : (s.bump48 a n).logNext = s.logNext := (rfl)
@[simp] theorem State.bump48_mem (s : State) (a n : Nat) : (s.bump48 a n).mem = s.mem := (rfl)
@[simp] theorem State.bump48_tc (s : State) (a n : Nat) : (s.bump48 a n).tc = s.tc := (rfl)
@[simp] theorem State.bump48_hly (s : State) (a n : Nat) : (s.bump48 a n).hly = s.hly := (rfl)
@[simp] theorem State.bump48_host (s : State) (a n : Nat) : (s.bump48 a n).host = s.host := (rfl)
@[simp] theorem State.bump48_fid (s : State) (a n : Nat) : (s.bump48 a n).fid = s.fid := (rfl)
@[simp] theorem State.bump48_nvm (s : State) (a n : Nat) : (s.bump48 a n).nvm = s.nvm := (rfl)
@[simp] theorem State.bump48_hws (s : State) (a n : Nat) : (s.bump48 a n).hws = s.hws := (rfl)
@[simp] theorem State.bump48_ckp (s : State) (a n : Nat) : (s.bump48 a n).ckp = s.ckp := (rfl)
@[simp] theorem State.bump48_pcieOut (s : State) (a n : Nat) : (s.bump48 a n).pcieOut = s.pcieOut := (rfl)
@[simp] theorem State.bump48_pcieSub (s : State) (a n : Nat) : (s.bump48 a n).pcieSub = s.pcieSub := (rfl)
@[simp] theorem State.bump48_ports (s : State) (a n : Nat) : (s.bump48 a n).ports = s.ports := (rfl)
@[simp] theorem State.bump48_rse (s : State) (a n : Nat) : (s.bump48 a n).rse = s.rse := (rfl)
@[simp] theorem State.bump48_fuse (s : State) (a n : Nat) : (s.bump48 a n).fuse = s.fuse := (rfl)
@[simp] theorem State.bump48_rst (s : State) (a n : Nat) : (s.bump48 a n).rst = s.rst := (rfl)
@[simp] theorem State.bump48_bwl (s : State) (a n : Nat) : (s.bump48 a n).bwl = s.bwl := (rfl)
@[simp] theorem State.bump48_pwr (s : State) (a n : Nat) : (s.bump48 a n).pwr = s.pwr := (rfl)
@[simp] theorem State.bump48_freeCtr (s : State) (a n : Nat) : (s.bump48 a n).freeCtr = s.freeCtr := (rfl)
@[simp] theorem State.bump48_pending (s : State) (a n : Nat) : (s.bump48 a n).pending = s.pending := (rfl)

/-! ### State.bumpFld -/

@[simp] theorem State.bumpFld_logRing (s : State) (a : Nat) (f : Field) (n : Nat) : (s.bumpFld a f n).logRing = s.logRing := (rfl)
@[simp] theorem State.bumpFld_logNext (s : State) (a : Nat) (f : Field) (n : Nat) : (s.bumpFld a f n).logNext = s.logNext := (rfl)
@[simp] theorem State.bumpFld_mem (s : State) (a : Nat) (f : Field) (n : Nat) : (s.bumpFld a f n).mem = s.mem := (rfl)
@[simp] theorem State.bumpFld_tc (s : State) (a : Nat) (f : Field) (n : Nat) : (s.bumpFld a f n).tc = s.tc := (rfl)
@[simp] theorem State.bumpFld_hly (s : State) (a : Nat) (f : Field) (n : Nat) : (s.bumpFld a f n).hly = s.hly := (rfl)
@[simp] theorem State.bumpFld_host (s : State) (a : Nat) (f : Field) (n : Nat) : (s.bumpFld a f n).host = s.host := (rfl)
@[simp] theorem State.bumpFld_fid (s : State) (a : Nat) (f : Field) (n : Nat) : (s.bumpFld a f n).fid = s.fid := (rfl)
@[simp] theorem State.bumpFld_nvm (s : State) (a : Nat) (f : Field) (n : Nat) : (s.bumpFld a f n).nvm = s.nvm := (rfl)
@[simp] theorem State.bumpFld_hws (s : State) (a : Nat) (f : Field) (n : Nat) : (s.bumpFld a f n).hws = s.hws := (rfl)
@[simp] theorem State.bumpFld_ckp (s : State) (a : Nat) (f : Field) (n : Nat) : (s.bumpFld a f n).ckp = s.ckp := (rfl)
@[simp] theorem State.bumpFld_pcieOut (s : State) (a : Nat) (f : Field) (n : Nat) : (s.bumpFld a f n).pcieOut = s.pcieOut := (rfl)
@[simp] theorem State.bumpFld_pcieSub (s : State) (a : Nat) (f : Field) (n : Nat) : (s.bumpFld a f n).pcieSub = s.pcieSub := (rfl)
@[simp] theorem State.bumpFld_ports (s : State) (a : Nat) (f : Field) (n : Nat) : (s.bumpFld a f n).ports = s.ports := (rfl)
@[simp] theorem State.bumpFld_rse (s : State) (a : Nat) (f : Field) (n : Nat) : (s.bumpFld a f n).rse = s.rse := (rfl)
@[simp] theorem State.bumpFld_fuse (s : State) (a : Nat) (f : Field) (n : Nat) : (s.bumpFld a f n).fuse = s.fuse := (rfl)
@[simp] theorem State.bumpFld_rst (s : State) (a : Nat) (f : Field) (n : Nat) : (s.bumpFld a f n).rst = s.rst := (rfl)
@[simp] theorem State.bumpFld_bwl (s : State) (a : Nat) (f : Field) (n : Nat) : (s.bumpFld a f n).bwl = s.bwl := (rfl)
@[simp] theorem State.bumpFld_pwr (s : State) (a : Nat) (f : Field) (n : Nat) : (s.bumpFld a f n).pwr = s.pwr := (rfl)
@[simp] theorem State.bumpFld_freeCtr (s : State) (a : Nat) (f : Field) (n : Nat) : (s.bumpFld a f n).freeCtr = s.freeCtr := (rfl)
@[simp] theorem State.bumpFld_pending (s : State) (a : Nat) (f : Field) (n : Nat) : (s.bumpFld a f n).pending = s.pending := (rfl)

/-! ### State.free -/

@[simp] theorem State.free_regs (s : State) (k : Nat) : (s.free k).2.regs = s.regs := (rfl)
@[simp] theorem State.free_logRing (s : State) (k : Nat) : (s.free k).2.logRing = s.logRing := (rfl)
@[simp] theorem State.free_logNext (s : State) (k : Nat) : (s.free k).2.logNext = s.logNext := (rfl)
@[simp] theorem State.free_mem (s : State) (k : Nat) : (s.free k).2.mem = s.mem := (rfl)
@[simp] theorem State.free_tc (s : State) (k : Nat) : (s.free k).2.tc = s.tc := (rfl)
@[simp] theorem State.free_hly (s : State) (k : Nat) : (s.free k).2.hly = s.hly := (rfl)
@[simp] theorem State.free_host (s : State) (k : Nat) : (s.free k).2.host = s.host := (rfl)
@[simp] theorem State.free_fid (s : State) (k : Nat) : (s.free k).2.fid = s.fid := (rfl)
@[simp] theorem State.free_nvm (s : State) (k : Nat) : (s.free k).2.nvm = s.nvm := (rfl)
@[simp] theorem State.free_hws (s : State) (k : Nat) : (s.free k).2.hws = s.hws := (rfl)
@[simp] theorem State.free_ckp (s : State) (k : Nat) : (s.free k).2.ckp = s.ckp := (rfl)
@[simp] theorem State.free_pcieOut (s : State) (k : Nat) : (s.free k).2.pcieOut = s.pcieOut := (rfl)
@[simp] theorem State.free_pcieSub (s : State) (k : Nat) : (s.free k).2.pcieSub = s.pcieSub := (rfl)
@[simp] theorem State.free_ports (s : State) (k : Nat) : (s.free k).2.ports = s.ports := (rfl)
@[simp] theorem State.free_rse (s : State) (k : Nat) : (s.free k).2.rse = s.rse := (rfl)
@[simp] theorem State.free_fuse (s : State) (k : Nat) : (s.free k).2.fuse = s.fuse := (rfl)
@[simp] theorem State.free_rst (s : State) (k : Nat) : (s.free k).2.rst = s.rst := (rfl)
@[simp] theorem State.free_bwl (s : State) (k : Nat) : (s.free k).2.bwl = s.bwl := (rfl)
@[simp] theorem State.free_pwr (s : State) (k : Nat) : (s.free k).2.pwr = s.pwr := (rfl)
@[simp] theorem State.free_pending (s : State) (k : Nat) : (s.free k).2.pending = s.pending := (rfl)
@[simp] theorem State.free_freeCtr (s : State) (k : Nat) : (s.free k).2.freeCtr = s.freeCtr + 1 := (rfl)

/-! ### The event log -/

@[simp] theorem State.log_mem (s : State) (reg bitNo code detail : Nat) : (s.log reg bitNo code detail).mem = s.mem := by
  unfold State.log; dsimp only; split <;> simp
@[simp] theorem State.log_tc (s : State) (reg bitNo code detail : Nat) : (s.log reg bitNo code detail).tc = s.tc := by
  unfold State.log; dsimp only; split <;> simp
@[simp] theorem State.log_hly (s : State) (reg bitNo code detail : Nat) : (s.log reg bitNo code detail).hly = s.hly := by
  unfold State.log; dsimp only; split <;> simp
@[simp] theorem State.log_host (s : State) (reg bitNo code detail : Nat) : (s.log reg bitNo code detail).host = s.host := by
  unfold State.log; dsimp only; split <;> simp
@[simp] theorem State.log_fid (s : State) (reg bitNo code detail : Nat) : (s.log reg bitNo code detail).fid = s.fid := by
  unfold State.log; dsimp only; split <;> simp
@[simp] theorem State.log_nvm (s : State) (reg bitNo code detail : Nat) : (s.log reg bitNo code detail).nvm = s.nvm := by
  unfold State.log; dsimp only; split <;> simp
@[simp] theorem State.log_hws (s : State) (reg bitNo code detail : Nat) : (s.log reg bitNo code detail).hws = s.hws := by
  unfold State.log; dsimp only; split <;> simp
@[simp] theorem State.log_ckp (s : State) (reg bitNo code detail : Nat) : (s.log reg bitNo code detail).ckp = s.ckp := by
  unfold State.log; dsimp only; split <;> simp
@[simp] theorem State.log_pcieOut (s : State) (reg bitNo code detail : Nat) : (s.log reg bitNo code detail).pcieOut = s.pcieOut := by
  unfold State.log; dsimp only; split <;> simp
@[simp] theorem State.log_pcieSub (s : State) (reg bitNo code detail : Nat) : (s.log reg bitNo code detail).pcieSub = s.pcieSub := by
  unfold State.log; dsimp only; split <;> simp
@[simp] theorem State.log_ports (s : State) (reg bitNo code detail : Nat) : (s.log reg bitNo code detail).ports = s.ports := by
  unfold State.log; dsimp only; split <;> simp
@[simp] theorem State.log_rse (s : State) (reg bitNo code detail : Nat) : (s.log reg bitNo code detail).rse = s.rse := by
  unfold State.log; dsimp only; split <;> simp
@[simp] theorem State.log_fuse (s : State) (reg bitNo code detail : Nat) : (s.log reg bitNo code detail).fuse = s.fuse := by
  unfold State.log; dsimp only; split <;> simp
@[simp] theorem State.log_rst (s : State) (reg bitNo code detail : Nat) : (s.log reg bitNo code detail).rst = s.rst := by
  unfold State.log; dsimp only; split <;> simp
@[simp] theorem State.log_bwl (s : State) (reg bitNo code detail : Nat) : (s.log reg bitNo code detail).bwl = s.bwl := by
  unfold State.log; dsimp only; split <;> simp
@[simp] theorem State.log_pwr (s : State) (reg bitNo code detail : Nat) : (s.log reg bitNo code detail).pwr = s.pwr := by
  unfold State.log; dsimp only; split <;> simp
@[simp] theorem State.log_freeCtr (s : State) (reg bitNo code detail : Nat) : (s.log reg bitNo code detail).freeCtr = s.freeCtr := by
  unfold State.log; dsimp only; split <;> simp
@[simp] theorem State.log_pending (s : State) (reg bitNo code detail : Nat) : (s.log reg bitNo code detail).pending = s.pending := by
  unfold State.log; dsimp only; split <;> simp

@[simp] theorem State.logCode_mem (s : State) (code detail : Nat) : (s.logCode code detail).mem = s.mem := by
  simp [State.logCode]
@[simp] theorem State.logCode_tc (s : State) (code detail : Nat) : (s.logCode code detail).tc = s.tc := by
  simp [State.logCode]
@[simp] theorem State.logCode_hly (s : State) (code detail : Nat) : (s.logCode code detail).hly = s.hly := by
  simp [State.logCode]
@[simp] theorem State.logCode_host (s : State) (code detail : Nat) : (s.logCode code detail).host = s.host := by
  simp [State.logCode]
@[simp] theorem State.logCode_fid (s : State) (code detail : Nat) : (s.logCode code detail).fid = s.fid := by
  simp [State.logCode]
@[simp] theorem State.logCode_nvm (s : State) (code detail : Nat) : (s.logCode code detail).nvm = s.nvm := by
  simp [State.logCode]
@[simp] theorem State.logCode_hws (s : State) (code detail : Nat) : (s.logCode code detail).hws = s.hws := by
  simp [State.logCode]
@[simp] theorem State.logCode_ckp (s : State) (code detail : Nat) : (s.logCode code detail).ckp = s.ckp := by
  simp [State.logCode]
@[simp] theorem State.logCode_pcieOut (s : State) (code detail : Nat) : (s.logCode code detail).pcieOut = s.pcieOut := by
  simp [State.logCode]
@[simp] theorem State.logCode_pcieSub (s : State) (code detail : Nat) : (s.logCode code detail).pcieSub = s.pcieSub := by
  simp [State.logCode]
@[simp] theorem State.logCode_ports (s : State) (code detail : Nat) : (s.logCode code detail).ports = s.ports := by
  simp [State.logCode]
@[simp] theorem State.logCode_rse (s : State) (code detail : Nat) : (s.logCode code detail).rse = s.rse := by
  simp [State.logCode]
@[simp] theorem State.logCode_fuse (s : State) (code detail : Nat) : (s.logCode code detail).fuse = s.fuse := by
  simp [State.logCode]
@[simp] theorem State.logCode_rst (s : State) (code detail : Nat) : (s.logCode code detail).rst = s.rst := by
  simp [State.logCode]
@[simp] theorem State.logCode_bwl (s : State) (code detail : Nat) : (s.logCode code detail).bwl = s.bwl := by
  simp [State.logCode]
@[simp] theorem State.logCode_pwr (s : State) (code detail : Nat) : (s.logCode code detail).pwr = s.pwr := by
  simp [State.logCode]
@[simp] theorem State.logCode_freeCtr (s : State) (code detail : Nat) : (s.logCode code detail).freeCtr = s.freeCtr := by
  simp [State.logCode]
@[simp] theorem State.logCode_pending (s : State) (code detail : Nat) : (s.logCode code detail).pending = s.pending := by
  simp [State.logCode]

@[simp] theorem State.event_mem (s : State) (reg : Nat) (f : Field) (cnt detail : Nat) : (s.event reg f cnt detail).mem = s.mem := by
  simp [State.event]
@[simp] theorem State.event_tc (s : State) (reg : Nat) (f : Field) (cnt detail : Nat) : (s.event reg f cnt detail).tc = s.tc := by
  simp [State.event]
@[simp] theorem State.event_hly (s : State) (reg : Nat) (f : Field) (cnt detail : Nat) : (s.event reg f cnt detail).hly = s.hly := by
  simp [State.event]
@[simp] theorem State.event_host (s : State) (reg : Nat) (f : Field) (cnt detail : Nat) : (s.event reg f cnt detail).host = s.host := by
  simp [State.event]
@[simp] theorem State.event_fid (s : State) (reg : Nat) (f : Field) (cnt detail : Nat) : (s.event reg f cnt detail).fid = s.fid := by
  simp [State.event]
@[simp] theorem State.event_nvm (s : State) (reg : Nat) (f : Field) (cnt detail : Nat) : (s.event reg f cnt detail).nvm = s.nvm := by
  simp [State.event]
@[simp] theorem State.event_hws (s : State) (reg : Nat) (f : Field) (cnt detail : Nat) : (s.event reg f cnt detail).hws = s.hws := by
  simp [State.event]
@[simp] theorem State.event_ckp (s : State) (reg : Nat) (f : Field) (cnt detail : Nat) : (s.event reg f cnt detail).ckp = s.ckp := by
  simp [State.event]
@[simp] theorem State.event_pcieOut (s : State) (reg : Nat) (f : Field) (cnt detail : Nat) : (s.event reg f cnt detail).pcieOut = s.pcieOut := by
  simp [State.event]
@[simp] theorem State.event_pcieSub (s : State) (reg : Nat) (f : Field) (cnt detail : Nat) : (s.event reg f cnt detail).pcieSub = s.pcieSub := by
  simp [State.event]
@[simp] theorem State.event_ports (s : State) (reg : Nat) (f : Field) (cnt detail : Nat) : (s.event reg f cnt detail).ports = s.ports := by
  simp [State.event]
@[simp] theorem State.event_rse (s : State) (reg : Nat) (f : Field) (cnt detail : Nat) : (s.event reg f cnt detail).rse = s.rse := by
  simp [State.event]
@[simp] theorem State.event_fuse (s : State) (reg : Nat) (f : Field) (cnt detail : Nat) : (s.event reg f cnt detail).fuse = s.fuse := by
  simp [State.event]
@[simp] theorem State.event_rst (s : State) (reg : Nat) (f : Field) (cnt detail : Nat) : (s.event reg f cnt detail).rst = s.rst := by
  simp [State.event]
@[simp] theorem State.event_bwl (s : State) (reg : Nat) (f : Field) (cnt detail : Nat) : (s.event reg f cnt detail).bwl = s.bwl := by
  simp [State.event]
@[simp] theorem State.event_pwr (s : State) (reg : Nat) (f : Field) (cnt detail : Nat) : (s.event reg f cnt detail).pwr = s.pwr := by
  simp [State.event]
@[simp] theorem State.event_freeCtr (s : State) (reg : Nat) (f : Field) (cnt detail : Nat) : (s.event reg f cnt detail).freeCtr = s.freeCtr := by
  simp [State.event]
@[simp] theorem State.event_pending (s : State) (reg : Nat) (f : Field) (cnt detail : Nat) : (s.event reg f cnt detail).pending = s.pending := by
  simp [State.event]

@[simp] theorem State.event16_mem (s : State) (reg : Nat) (f : Field) (cnt lo : Nat) : (s.event16 reg f cnt lo).mem = s.mem := by
  simp [State.event16]
@[simp] theorem State.event16_tc (s : State) (reg : Nat) (f : Field) (cnt lo : Nat) : (s.event16 reg f cnt lo).tc = s.tc := by
  simp [State.event16]
@[simp] theorem State.event16_hly (s : State) (reg : Nat) (f : Field) (cnt lo : Nat) : (s.event16 reg f cnt lo).hly = s.hly := by
  simp [State.event16]
@[simp] theorem State.event16_host (s : State) (reg : Nat) (f : Field) (cnt lo : Nat) : (s.event16 reg f cnt lo).host = s.host := by
  simp [State.event16]
@[simp] theorem State.event16_fid (s : State) (reg : Nat) (f : Field) (cnt lo : Nat) : (s.event16 reg f cnt lo).fid = s.fid := by
  simp [State.event16]
@[simp] theorem State.event16_nvm (s : State) (reg : Nat) (f : Field) (cnt lo : Nat) : (s.event16 reg f cnt lo).nvm = s.nvm := by
  simp [State.event16]
@[simp] theorem State.event16_hws (s : State) (reg : Nat) (f : Field) (cnt lo : Nat) : (s.event16 reg f cnt lo).hws = s.hws := by
  simp [State.event16]
@[simp] theorem State.event16_ckp (s : State) (reg : Nat) (f : Field) (cnt lo : Nat) : (s.event16 reg f cnt lo).ckp = s.ckp := by
  simp [State.event16]
@[simp] theorem State.event16_pcieOut (s : State) (reg : Nat) (f : Field) (cnt lo : Nat) : (s.event16 reg f cnt lo).pcieOut = s.pcieOut := by
  simp [State.event16]
@[simp] theorem State.event16_pcieSub (s : State) (reg : Nat) (f : Field) (cnt lo : Nat) : (s.event16 reg f cnt lo).pcieSub = s.pcieSub := by
  simp [State.event16]
@[simp] theorem State.event16_ports (s : State) (reg : Nat) (f : Field) (cnt lo : Nat) : (s.event16 reg f cnt lo).ports = s.ports := by
  simp [State.event16]
@[simp] theorem State.event16_rse (s : State) (reg : Nat) (f : Field) (cnt lo : Nat) : (s.event16 reg f cnt lo).rse = s.rse := by
  simp [State.event16]
@[simp] theorem State.event16_fuse (s : State) (reg : Nat) (f : Field) (cnt lo : Nat) : (s.event16 reg f cnt lo).fuse = s.fuse := by
  simp [State.event16]
@[simp] theorem State.event16_rst (s : State) (reg : Nat) (f : Field) (cnt lo : Nat) : (s.event16 reg f cnt lo).rst = s.rst := by
  simp [State.event16]
@[simp] theorem State.event16_bwl (s : State) (reg : Nat) (f : Field) (cnt lo : Nat) : (s.event16 reg f cnt lo).bwl = s.bwl := by
  simp [State.event16]
@[simp] theorem State.event16_pwr (s : State) (reg : Nat) (f : Field) (cnt lo : Nat) : (s.event16 reg f cnt lo).pwr = s.pwr := by
  simp [State.event16]
@[simp] theorem State.event16_freeCtr (s : State) (reg : Nat) (f : Field) (cnt lo : Nat) : (s.event16 reg f cnt lo).freeCtr = s.freeCtr := by
  simp [State.event16]
@[simp] theorem State.event16_pending (s : State) (reg : Nat) (f : Field) (cnt lo : Nat) : (s.event16 reg f cnt lo).pending = s.pending := by
  simp [State.event16]

@[simp] theorem State.service_mem (s : State) (f : Field) : (s.service f).mem = s.mem := by
  simp only [State.service]; split <;> simp
@[simp] theorem State.service_tc (s : State) (f : Field) : (s.service f).tc = s.tc := by
  simp only [State.service]; split <;> simp
@[simp] theorem State.service_hly (s : State) (f : Field) : (s.service f).hly = s.hly := by
  simp only [State.service]; split <;> simp
@[simp] theorem State.service_host (s : State) (f : Field) : (s.service f).host = s.host := by
  simp only [State.service]; split <;> simp
@[simp] theorem State.service_fid (s : State) (f : Field) : (s.service f).fid = s.fid := by
  simp only [State.service]; split <;> simp
@[simp] theorem State.service_nvm (s : State) (f : Field) : (s.service f).nvm = s.nvm := by
  simp only [State.service]; split <;> simp
@[simp] theorem State.service_hws (s : State) (f : Field) : (s.service f).hws = s.hws := by
  simp only [State.service]; split <;> simp
@[simp] theorem State.service_ckp (s : State) (f : Field) : (s.service f).ckp = s.ckp := by
  simp only [State.service]; split <;> simp
@[simp] theorem State.service_pcieOut (s : State) (f : Field) : (s.service f).pcieOut = s.pcieOut := by
  simp only [State.service]; split <;> simp
@[simp] theorem State.service_pcieSub (s : State) (f : Field) : (s.service f).pcieSub = s.pcieSub := by
  simp only [State.service]; split <;> simp
@[simp] theorem State.service_ports (s : State) (f : Field) : (s.service f).ports = s.ports := by
  simp only [State.service]; split <;> simp
@[simp] theorem State.service_rse (s : State) (f : Field) : (s.service f).rse = s.rse := by
  simp only [State.service]; split <;> simp
@[simp] theorem State.service_fuse (s : State) (f : Field) : (s.service f).fuse = s.fuse := by
  simp only [State.service]; split <;> simp
@[simp] theorem State.service_rst (s : State) (f : Field) : (s.service f).rst = s.rst := by
  simp only [State.service]; split <;> simp
@[simp] theorem State.service_bwl (s : State) (f : Field) : (s.service f).bwl = s.bwl := by
  simp only [State.service]; split <;> simp
@[simp] theorem State.service_pwr (s : State) (f : Field) : (s.service f).pwr = s.pwr := by
  simp only [State.service]; split <;> simp
@[simp] theorem State.service_freeCtr (s : State) (f : Field) : (s.service f).freeCtr = s.freeCtr := by
  simp only [State.service]; split <;> simp
@[simp] theorem State.service_pending (s : State) (f : Field) : (s.service f).pending = s.pending := by
  simp only [State.service]; split <;> simp

@[simp] theorem State.poisonUsed_mem (s : State) (die a : Nat) : (s.poisonUsed die a).mem = s.mem := by
  simp only [State.poisonUsed]; split <;> simp
@[simp] theorem State.poisonUsed_tc (s : State) (die a : Nat) : (s.poisonUsed die a).tc = s.tc := by
  simp only [State.poisonUsed]; split <;> simp
@[simp] theorem State.poisonUsed_hly (s : State) (die a : Nat) : (s.poisonUsed die a).hly = s.hly := by
  simp only [State.poisonUsed]; split <;> simp
@[simp] theorem State.poisonUsed_host (s : State) (die a : Nat) : (s.poisonUsed die a).host = s.host := by
  simp only [State.poisonUsed]; split <;> simp
@[simp] theorem State.poisonUsed_fid (s : State) (die a : Nat) : (s.poisonUsed die a).fid = s.fid := by
  simp only [State.poisonUsed]; split <;> simp
@[simp] theorem State.poisonUsed_nvm (s : State) (die a : Nat) : (s.poisonUsed die a).nvm = s.nvm := by
  simp only [State.poisonUsed]; split <;> simp
@[simp] theorem State.poisonUsed_hws (s : State) (die a : Nat) : (s.poisonUsed die a).hws = s.hws := by
  simp only [State.poisonUsed]; split <;> simp
@[simp] theorem State.poisonUsed_ckp (s : State) (die a : Nat) : (s.poisonUsed die a).ckp = s.ckp := by
  simp only [State.poisonUsed]; split <;> simp
@[simp] theorem State.poisonUsed_pcieOut (s : State) (die a : Nat) : (s.poisonUsed die a).pcieOut = s.pcieOut := by
  simp only [State.poisonUsed]; split <;> simp
@[simp] theorem State.poisonUsed_pcieSub (s : State) (die a : Nat) : (s.poisonUsed die a).pcieSub = s.pcieSub := by
  simp only [State.poisonUsed]; split <;> simp
@[simp] theorem State.poisonUsed_ports (s : State) (die a : Nat) : (s.poisonUsed die a).ports = s.ports := by
  simp only [State.poisonUsed]; split <;> simp
@[simp] theorem State.poisonUsed_rse (s : State) (die a : Nat) : (s.poisonUsed die a).rse = s.rse := by
  simp only [State.poisonUsed]; split <;> simp
@[simp] theorem State.poisonUsed_fuse (s : State) (die a : Nat) : (s.poisonUsed die a).fuse = s.fuse := by
  simp only [State.poisonUsed]; split <;> simp
@[simp] theorem State.poisonUsed_rst (s : State) (die a : Nat) : (s.poisonUsed die a).rst = s.rst := by
  simp only [State.poisonUsed]; split <;> simp
@[simp] theorem State.poisonUsed_bwl (s : State) (die a : Nat) : (s.poisonUsed die a).bwl = s.bwl := by
  simp only [State.poisonUsed]; split <;> simp
@[simp] theorem State.poisonUsed_pwr (s : State) (die a : Nat) : (s.poisonUsed die a).pwr = s.pwr := by
  simp only [State.poisonUsed]; split <;> simp
@[simp] theorem State.poisonUsed_freeCtr (s : State) (die a : Nat) : (s.poisonUsed die a).freeCtr = s.freeCtr := by
  simp only [State.poisonUsed]; split <;> simp
@[simp] theorem State.poisonUsed_pending (s : State) (die a : Nat) : (s.poisonUsed die a).pending = s.pending := by
  simp only [State.poisonUsed]; split <;> simp

end Sys2Proof.Machine
end

