-- ==== Sys2Proof/Laws/Regs.lean ====
section
/-! SUPPORT. Registers: a read after a write, fields after a field was set, counters. -/

namespace Sys2Proof.Machine

/-- Registers other than `a` are unchanged. -/
theorem rd_wr_other (s : State) {a b : Nat} (v : Word) (h : b ≠ a) : (s.wr a v).rd b = s.rd b := sGet_sSet_other h

/-- A register just written reads the value written. -/
@[simp] theorem rd_wr_same (s : State) (a : Nat) (v : Word) : (s.wr a v).rd a = v := sGet_sSet_same _ _ _

/-- A register after a write, in one equation. -/
theorem rd_wr (s : State) (a b : Nat) (v : Word) : (s.wr a v).rd b = if b = a then v else s.rd b := by
  split
  · subst_vars
    exact rd_wr_same s _ v
  · exact rd_wr_other s v (by assumption)

theorem rd_setFld (s : State) (a b : Nat) (f : Field) (x : Nat) :
    (s.setFld a f x).rd b = if b = a then setF (s.rd a) f x else s.rd b := rd_wr _ _ _ _

theorem rd_setFlds (s : State) (a b : Nat) (l : List (Field × Nat)) :
    (s.setFlds a l).rd b = if b = a then l.foldl (fun v e => setF v e.1 e.2) (s.rd a) else s.rd b := rd_wr _ _ _ _

theorem rd_bump32 (s : State) (a b n : Nat) :
    (s.bump32 a n).rd b = if b = a then BitVec.ofNat 64 (min 0xFFFFFFFF ((s.rd a).toNat + n)) else s.rd b := rd_wr _ _ _ _

theorem rd_bump64 (s : State) (a b n : Nat) :
    (s.bump64 a n).rd b = if b = a then s.rd a + BitVec.ofNat 64 n else s.rd b := rd_wr _ _ _ _

theorem rd_bump48 (s : State) (a b n : Nat) :
    (s.bump48 a n).rd b = if b = a then BitVec.ofNat 64 (((s.rd a).toNat + n) % 2 ^ 48) else s.rd b := rd_wr _ _ _ _

theorem rd_bumpFld (s : State) (a b : Nat) (f : Field) (n : Nat) :
    (s.bumpFld a f n).rd b =
      if b = a then setF (s.rd a) f (min (2 ^ (f.hi + 1 - f.lo) - 1) (s.fld a f + n)) else s.rd b := rd_wr _ _ _ _

/-- A field just set reads the value set, as far as it fits. -/
theorem fld_setFld_same (s : State) (a : Nat) (f : Field) (x : Nat) (h : f.ok = true) :
    (s.setFld a f x).fld a f = x % 2 ^ (f.hi + 1 - f.lo) := by
  rw [State.fld, rd_setFld, if_pos rfl, getF_setF_same _ _ _ h]

/-- Fields beside it, in the same register, are unchanged. -/
theorem fld_setFld_apart (s : State) (a : Nat) (f g : Field) (x : Nat) (hf : f.ok = true) (hg : g.ok = true)
    (h : f.apart g = true) : (s.setFld a f x).fld a g = s.fld a g := by
  rw [State.fld, rd_setFld, if_pos rfl, getF_setF_apart _ _ _ _ hf hg h, State.fld]

/-- Fields of other registers are unchanged. -/
theorem fld_setFld_other (s : State) {a b : Nat} (f g : Field) (x : Nat) (h : b ≠ a) : (s.setFld a f x).fld b g = s.fld b g := by
  rw [State.fld, rd_setFld, if_neg h, State.fld]

/-- Registers that an entry of the event log changes: BWL_LOG_STATUS, and BWL_EVENT and its counter when the ring was full. -/
theorem rd_log (s : State) (reg bitNo code detail b : Nat) (h1 : b ≠ Reg.BWL_LOG_STATUS) (h2 : b ≠ Reg.BWL_EVENT)
    (h3 : b ≠ Reg.BWL_CNT 0) : (s.log reg bitNo code detail).rd b = s.rd b := by
  rw [State.log]
  split
  · rw [rd_bump32, if_neg h3, rd_setFld, if_neg h2, rd_setFlds, if_neg h1]
    rfl
  · rw [rd_setFlds, if_neg h1]
    rfl

/-- Registers that an event changes: its register, its counter, and those of the log. -/
theorem rd_event (s : State) (reg : Nat) (f : Field) (cnt detail b : Nat) (h : b ≠ reg) (h' : b ≠ cnt) (h1 : b ≠ Reg.BWL_LOG_STATUS)
    (h2 : b ≠ Reg.BWL_EVENT) (h3 : b ≠ Reg.BWL_CNT 0) : (s.event reg f cnt detail).rd b = s.rd b := by
  rw [State.event, rd_log _ _ _ _ _ _ h1 h2 h3, rd_bump32, if_neg h', rd_setFld, if_neg h]

/-- The ring of the event log never holds more than 4,096 entries (R495). -/
theorem log_ring (s : State) (reg bitNo code detail : Nat) (h : s.logRing.length ≤ 4096) :
    (s.log reg bitNo code detail).logRing.length ≤ 4096 := by
  have e : (s.log reg bitNo code detail).logRing.length = (if s.logRing.length ≥ 4096 then s.logRing.drop 1 else s.logRing).length + 1 := by
    simp only [State.log]
    split <;> simp [State.bump32, State.setFld, State.setFlds, State.wr]
  rw [e]
  split
  · rw [List.length_drop]
    omega
  · omega

/-- A write of a register, and the return of registers to their reset values, leave every other field of State. -/
theorem onlyRegs_wr {s t : State} (h : t = { s with regs := t.regs }) (a : Nat) (v : Word) : t.wr a v = { s with regs := (t.wr a v).regs } := by
  rw [h]; rfl

theorem onlyRegs_dropRegs {s t : State} (h : t = { s with regs := t.regs }) (lo hi : Nat) :
    t.dropRegs lo hi = { s with regs := (t.dropRegs lo hi).regs } := by
  rw [h]; rfl

/-- What a key reads as after a range of keys was taken out. -/
theorem sGet_sDrop {α : Type} {d : Nat → α} (lo hi : Nat) (l : List (Nat × α)) (k : Nat) :
    sGet d (sDrop lo hi l) k = if lo ≤ k ∧ k < hi then d k else sGet d l k := by
  induction l with
  | nil => simp [sDrop, sGet]
  | cons e r ih =>
    obtain ⟨j, v⟩ := e
    unfold sDrop at ih ⊢
    rw [List.filter_cons]
    split <;> rename_i h <;> simp only [Bool.or_eq_true, decide_eq_true_eq] at h <;> simp only [sGet, ih]
    · by_cases q : j = k
      · rw [if_pos q, if_pos q, if_neg (by omega)]
      · rw [if_neg q, if_neg q]
    · by_cases q : j = k
      · rw [if_pos q, if_pos (by omega), if_pos (by omega)]
      · rw [if_neg q]

/-- Registers outside a range stand as the range returns to its reset values; those in it read as at reset. -/
theorem rd_dropRegs (s : State) (lo hi a : Nat) : (s.dropRegs lo hi).rd a = if lo ≤ a ∧ a < hi then regReset a else s.rd a :=
  sGet_sDrop _ _ _ _

theorem log_form (s : State) (reg bitNo code detail : Nat) :
    ∃ r l n, s.log reg bitNo code detail = { s with regs := r, logRing := l, logNext := n } := by
  unfold State.log
  dsimp only
  split_ifs
  · exact ⟨_, _, _, rfl⟩
  · exact ⟨_, _, _, rfl⟩

/-- Logging changes registers and the log alone. -/
theorem log_eq (s : State) (reg bitNo code detail : Nat) : s.log reg bitNo code detail =
    { s with regs := (s.log reg bitNo code detail).regs, logRing := (s.log reg bitNo code detail).logRing
             logNext := (s.log reg bitNo code detail).logNext } := by
  obtain ⟨r, l, n, h⟩ := log_form s reg bitNo code detail
  rw [h]

/-- An event changes registers and the log alone. -/
theorem event_eq (s : State) (reg : Nat) (f : Field) (cnt detail : Nat) : s.event reg f cnt detail =
    { s with regs := (s.event reg f cnt detail).regs, logRing := (s.event reg f cnt detail).logRing
             logNext := (s.event reg f cnt detail).logNext } := by
  obtain ⟨r, l, n, h⟩ := log_form ((s.setFld reg f 1).bump32 cnt 1) reg f.lo 0 detail
  unfold State.event
  rw [h]
  rfl

end Sys2Proof.Machine
end

