-- ==== Sys2Proof/Laws/Seq.lean ====
section
/-! SUPPORT. The shared operations of the sequencer: issue, S registers, and flow. -/

namespace Sys2Proof.Machine

/-- A core's state after the state of one core was set. -/
theorem core_setCore (s : State) (c k : Nat) (x : CoreSt) : (s.setCore c x).core k = if k = c then x else s.core k := by
  unfold State.core State.setCore
  split
  · subst_vars; exact sGet_sSet_same _ _ _
  · exact sGet_sSet_other (by assumption)

/-- The S registers of a core that exists are 0 at reset. -/
theorem regReset_sreg {d p n : Nat} (hd : d < 4) (hp : p < 168) (hn : n < 32) : regReset (Reg.TC_SREG (Reg.coreWin d p) n) = 0 := by
  have h : ∀ n, n < 32 → (findReg Spec.coreRegs Spec.coreArrays (0x100 + 8 * n)).map RegSpec.rst = some 0 := by decide
  have off : 0x1000000 * d + 0x10000 * p + 0x100 + 8 * n < 0x4000000 := by omega
  have e : regSpec (Reg.TC_SREG (Reg.coreWin d p) n) = findReg Spec.coreRegs Spec.coreArrays (0x100 + 8 * n) := by
    unfold regSpec Reg.TC_SREG Reg.coreWin
    iterate 7 rw [if_neg (by omega)]
    rw [if_pos (by omega)]
    have e : past 0xF00010000000 (0xF00010000000 + 0x1000000 * d + 0x10000 * p + 0x100 + 8 * n) = 0x1000000 * d + (0x10000 * p + (0x100 + 8 * n)) := by
      unfold past
      rw [if_pos (by omega)]
      omega
    rw [e]
    unfold tdieSpec
    have m : (0x1000000 * d + (0x10000 * p + (0x100 + 8 * n))) % 0x1000000 = 0x10000 * p + (0x100 + 8 * n) := by omega
    have m' : (0x10000 * p + (0x100 + 8 * n)) % 0x10000 = 0x100 + 8 * n := by omega
    rw [m, if_pos (by omega), m']
  unfold regReset
  rw [e]
  have := h n hn
  cases q : findReg Spec.coreRegs Spec.coreArrays (0x100 + 8 * n) with
  | none => rfl
  | some r => rw [q] at this; cases r; cases this; rfl

@[simp] theorem rd_setCore (s : State) (c a : Nat) (x : CoreSt) : (s.setCore c x).rd a = s.rd a := rfl

/-- The window of a core in service lies in the windows of its die's cores, before the die's own block. -/
theorem win_room {s : State} {c : Nat} (h : s.coreUp c = true) :
    0xF00010000000 + 0x1000000 * (c / 160) ≤ s.win c ∧ s.win c + 0x10000 ≤ 0xF00010000000 + 0x1000000 * (c / 160) + 0xA80000 := by
  have h3 : s.physStrand (c / 160) (c % 160 / 8) < 21 := by
    simp only [State.coreUp, Bool.and_eq_true, decide_eq_true_eq] at h
    exact h.2
  generalize e : s.physStrand (c / 160) (c % 160 / 8) = p at h3
  unfold State.win Reg.coreWin
  rw [e]
  omega

/-- The strand of a core in service is looked up in two registers of its die: a write elsewhere keeps the window. -/
theorem win_wr {s : State} {c a : Nat} (v : Word) (h : s.coreUp c = true)
    (ha : s.win c ≤ a ∧ a < s.win c + 0x10000) : (s.wr a v).win c = s.win c := by
  have r := win_room h
  have n0 : Reg.TC_STRAND_MAP0 (Reg.dieBlk (c / 160)) ≠ a := by unfold Reg.TC_STRAND_MAP0 Reg.dieBlk; omega
  have n1 : Reg.TC_STRAND_MAP1 (Reg.dieBlk (c / 160)) ≠ a := by unfold Reg.TC_STRAND_MAP1 Reg.dieBlk; omega
  have p : (s.wr a v).physStrand (c / 160) (c % 160 / 8) = s.physStrand (c / 160) (c % 160 / 8) := by
    unfold State.physStrand
    rw [rd_wr_other _ _ n0, rd_wr_other _ _ n1]
  unfold State.win
  rw [p]

/-- A write within the windows of a die's cores leaves which cores are in service. -/
theorem coreUp_wr {s : State} {c a : Nat} (v : Word) (h : s.coreUp c = true)
    (ha : s.win c ≤ a ∧ a < s.win c + 0x10000) : (s.wr a v).coreUp c = true := by
  have r := win_room h
  have n0 : Reg.TC_STRAND_MAP0 (Reg.dieBlk (c / 160)) ≠ a := by unfold Reg.TC_STRAND_MAP0 Reg.dieBlk; omega
  have n1 : Reg.TC_STRAND_MAP1 (Reg.dieBlk (c / 160)) ≠ a := by unfold Reg.TC_STRAND_MAP1 Reg.dieBlk; omega
  have p : (s.wr a v).physStrand (c / 160) (c % 160 / 8) = s.physStrand (c / 160) (c % 160 / 8) := by
    unfold State.physStrand
    rw [rd_wr_other _ _ n0, rd_wr_other _ _ n1]
  have n2 : Reg.ID_CAPS_EFFECTIVE ≠ a := by unfold Reg.ID_CAPS_EFFECTIVE; omega
  have n3 : Reg.ID_STRANDS_EFF01 ≠ a := by unfold Reg.ID_STRANDS_EFF01; omega
  have n4 : Reg.ID_STRANDS_EFF23 ≠ a := by unfold Reg.ID_STRANDS_EFF23; omega
  have n5 : (if c / 160 < 2 then Reg.ID_STRANDS_EFF01 else Reg.ID_STRANDS_EFF23) ≠ a := by split <;> assumption
  unfold State.coreUp State.strandUp State.working at h ⊢
  rw [p, rd_wr_other _ _ n2, rd_wr_other _ _ n5]
  exact h

/-- An instruction that the core issues and that is legal is counted and carried out. -/
theorem issue_legal {s : State} {c : Nat} {word : Word} (h : s.issues c word) (k : State → State) :
    s.issue c word true k = k (s.bump64 (Reg.TC_CNT_INSN (s.win c)) 1) := by
  obtain ⟨h1, h2, h3, h4⟩ := h
  simp [State.issue, h1, h2, h3, h4]

/-- The S registers of a core in another state agree where its window does. -/
theorem setSreg_eq (s : State) (w n : Nat) (v : Word) : s.setSreg w n v = if n = 0 then s else s.wr (Reg.TC_SREG w n) v := rfl

/-- Flow that stays in range changes PC and the loops alone. -/
theorem goTo_fits {s : State} {c t : Nat} (h : pcFits t) : s.goTo c t = s.setFld (Reg.TC_PC (s.win c)) Fld.TC_PC_PC t := by
  unfold State.goTo
  exact if_pos h

/-- Flow that goes on at `pc`, in range, with the loops `l`. -/
theorem landing_fits {s : State} {c pc : Nat} (l : List LoopFrame) (u : s.coreUp c = true) (h : pcFits pc) :
    (s.setLoops c l).goTo c pc = ((s.setCore c { s.core c with loops := l }).setFld (Reg.TC_STATUS (s.win c))
      Fld.TC_STATUS_LOOP_DEPTH l.length).setFld (Reg.TC_PC (s.win c)) Fld.TC_PC_PC pc := by
  have e : (s.setLoops c l).win c = s.win c := by
    have : s.win c ≤ Reg.TC_STATUS (s.win c) ∧ Reg.TC_STATUS (s.win c) < s.win c + 0x10000 := by unfold Reg.TC_STATUS; omega
    exact win_wr (s := s.setCore c { s.core c with loops := l }) _ u this
  rw [goTo_fits h, e]
  rfl

theorem advance_eq (s : State) (c : Nat) : s.advance c = (s.setLoops c (s.flow c).2).goTo c (s.flow c).1 := rfl

/-- What an instruction changes that counts, writes some registers of its window and goes on. -/
theorem landed_of {s s1 : State} {c pc : Nat} {ls : List LoopFrame} {l : List Nat} (u1 : s1.coreUp c = true) (ew : s1.win c = s.win c)
    (h : pcFits pc) (f : s1 = { s with regs := s1.regs })
    (i : s1.rd (Reg.TC_CNT_INSN (s.win c)) = s.rd (Reg.TC_CNT_INSN (s.win c)) + 1)
    (b : s.sameBut s1 (Reg.TC_CNT_INSN (s.win c) :: l)) (ns : Reg.TC_STATUS (s.win c) ∉ l) :
    s.went ((s1.setLoops c ls).goTo c pc) c pc ls l := by
  have hc (k : Nat) : s1.core k = s.core k := by rw [f]; rfl
  have fit : pc < 2 ^ 18 := by have := h.2; omega
  rw [landing_fits ls u1 h, ew]
  refine ⟨?_, ?_, ?_, ?_, ?_, ?_, ?_⟩
  · unfold State.pc
    rw [fld_setFld_same _ _ _ _ (by decide)]
    exact Nat.mod_eq_of_lt fit
  · have : ∀ (t : State) (a : Nat) (g : Field) (x : Nat), (t.setFld a g x).core c = t.core c := fun _ _ _ _ => rfl
    rw [this, this, core_setCore, if_pos rfl, hc]
  · intro k hk
    have : ∀ (t : State) (a : Nat) (g : Field) (x : Nat), (t.setFld a g x).core k = t.core k := fun _ _ _ _ => rfl
    rw [this, this, core_setCore, if_neg hk, hc]
  · rw [rd_setFld, if_neg (by unfold Reg.TC_STATUS Reg.TC_PC; omega), rd_setFld, if_pos rfl, rd_setCore,
      b _ (by simp only [List.mem_cons, not_or]; exact ⟨by unfold Reg.TC_STATUS Reg.TC_CNT_INSN; omega, ns⟩)]
  · rw [rd_setFld, if_neg (by unfold Reg.TC_CNT_INSN Reg.TC_PC; omega), rd_setFld,
      if_neg (by unfold Reg.TC_CNT_INSN Reg.TC_STATUS; omega), rd_setCore, i]
  · intro a ha
    simp only [List.mem_cons, not_or] at ha
    obtain ⟨a1, a2, a3, a4⟩ := ha
    rw [rd_setFld, if_neg a1, rd_setFld, if_neg a2, rd_setCore, b a (by simp only [List.mem_cons, not_or]; exact ⟨a3, a4⟩)]
  · rw [f]; rfl

/-- An instruction that counts, writes S register `sd` and goes on. -/
theorem wroteAt_of {s : State} {c sd pc : Nat} (ls : List LoopFrame) (v : Word) (u : s.coreUp c = true) (h : pcFits pc) (hd : sd < 32) :
    s.wroteAt ((((s.bump64 (Reg.TC_CNT_INSN (s.win c)) 1).setSreg (s.win c) sd v).setLoops c ls).goTo c pc) c pc ls sd v := by
  have room (n : Nat) (hn : n < 32) : s.win c ≤ Reg.TC_SREG (s.win c) n ∧ Reg.TC_SREG (s.win c) n < s.win c + 0x10000 := by
    unfold Reg.TC_SREG; omega
  have roomI : s.win c ≤ Reg.TC_CNT_INSN (s.win c) ∧ Reg.TC_CNT_INSN (s.win c) < s.win c + 0x10000 := by
    unfold Reg.TC_CNT_INSN; omega
  have e0 : (s.bump64 (Reg.TC_CNT_INSN (s.win c)) 1).win c = s.win c := win_wr _ u roomI
  have u0 : (s.bump64 (Reg.TC_CNT_INSN (s.win c)) 1).coreUp c = true := coreUp_wr _ u roomI
  have e1 : ((s.bump64 (Reg.TC_CNT_INSN (s.win c)) 1).setSreg (s.win c) sd v).win c = s.win c := by
    rw [setSreg_eq]
    split
    · exact e0
    · rw [win_wr _ u0 (by rw [e0]; exact room _ hd), e0]
  have u1 : ((s.bump64 (Reg.TC_CNT_INSN (s.win c)) 1).setSreg (s.win c) sd v).coreUp c = true := by
    rw [setSreg_eq]
    split
    · exact u0
    · exact coreUp_wr _ u0 (by rw [e0]; exact room _ hd)
  have r1 (a : Nat) : ((s.bump64 (Reg.TC_CNT_INSN (s.win c)) 1).setSreg (s.win c) sd v).rd a =
      if sd ≠ 0 ∧ a = Reg.TC_SREG (s.win c) sd then v
      else if a = Reg.TC_CNT_INSN (s.win c) then s.rd a + 1 else s.rd a := by
    rw [setSreg_eq]
    by_cases z : sd = 0
    · rw [if_pos z, if_neg (by simp [z]), rd_bump64]
      split
      · subst_vars; rfl
      · rfl
    · rw [if_neg z, rd_wr]
      by_cases y : a = Reg.TC_SREG (s.win c) sd
      · rw [if_pos y, if_pos ⟨z, y⟩]
      · rw [if_neg y, if_neg (fun q => y q.2), rd_bump64]
        split
        · subst_vars; rfl
        · rfl
  have fr : ((s.bump64 (Reg.TC_CNT_INSN (s.win c)) 1).setSreg (s.win c) sd v) =
      { s with regs := ((s.bump64 (Reg.TC_CNT_INSN (s.win c)) 1).setSreg (s.win c) sd v).regs } := by
    rw [setSreg_eq]
    split <;> rfl
  have key := landed_of (ls := ls) (l := [Reg.TC_SREG (s.win c) sd]) u1 e1 h fr
    (by rw [r1, if_neg (by unfold Reg.TC_CNT_INSN Reg.TC_SREG; omega), if_pos rfl])
    (by
      intro a ha
      simp only [List.mem_cons, List.not_mem_nil, or_false, not_or] at ha
      rw [r1, if_neg (fun q => ha.2 q.2), if_neg ha.1])
    (by simp only [List.mem_cons, List.not_mem_nil, or_false]; unfold Reg.TC_STATUS Reg.TC_SREG; omega)
  refine ⟨key, fun k hk => ?_⟩
  have fit := landing_fits ls u1 h
  rw [fit, e1]
  unfold State.sreg
  by_cases z : k = 0
  · simp [z]
  · rw [if_neg z, if_neg z, rd_setFld, if_neg (by unfold Reg.TC_SREG Reg.TC_PC; omega), rd_setFld,
      if_neg (by unfold Reg.TC_SREG Reg.TC_STATUS; omega), rd_setCore, r1]
    by_cases y : k = sd
    · subst y; rw [if_pos ⟨z, rfl⟩, if_pos ⟨rfl, z⟩]
    · rw [if_neg (by unfold Reg.TC_SREG; omega), if_neg (by unfold Reg.TC_SREG Reg.TC_CNT_INSN; omega), if_neg (fun q => y q.1)]

/-- The flow of an instruction that writes an S register is that of the state before. -/
theorem flow_setSreg {s : State} {c sd : Nat} (v : Word) (u : s.coreUp c = true) (hd : sd < 32) :
    ((s.bump64 (Reg.TC_CNT_INSN (s.win c)) 1).setSreg (s.win c) sd v).flow c = s.flow c := by
  have e0 : (s.bump64 (Reg.TC_CNT_INSN (s.win c)) 1).win c = s.win c := win_wr _ u (by unfold Reg.TC_CNT_INSN; omega)
  have u0 : (s.bump64 (Reg.TC_CNT_INSN (s.win c)) 1).coreUp c = true := coreUp_wr _ u (by unfold Reg.TC_CNT_INSN; omega)
  rw [setSreg_eq]
  unfold State.flow State.pc State.fld
  split
  · rw [e0, rd_bump64, if_neg (by unfold Reg.TC_PC Reg.TC_CNT_INSN; omega)]
    rfl
  · rw [win_wr _ u0 (by rw [e0]; unfold Reg.TC_SREG; omega), e0, rd_wr, if_neg (by unfold Reg.TC_PC Reg.TC_SREG; omega), rd_bump64,
      if_neg (by unfold Reg.TC_PC Reg.TC_CNT_INSN; omega)]
    rfl

/-- An instruction that counts, writes S register `sd` and goes on in sequence. -/
theorem wrote_of {s : State} {c sd : Nat} (v : Word) (u : s.coreUp c = true) (h : pcFits (s.flow c).1) (hd : sd < 32) :
    s.wrote (((s.bump64 (Reg.TC_CNT_INSN (s.win c)) 1).setSreg (s.win c) sd v).advance c) c sd v := by
  rw [advance_eq, flow_setSreg v u hd]
  exact wroteAt_of _ v u h hd

theorem fSD_lt (r : Rest) : fSD r < 32 := by unfold fSD bits; omega
theorem fSA_lt (r : Rest) : fSA r < 32 := by unfold fSA bits; omega
theorem fSB_lt (r : Rest) : fSB r < 32 := by unfold fSB bits; omega

/-- Counting an instruction changes no S register and no window. -/
theorem sreg_counted (s : State) (w : Nat) {n : Nat} (h : n < 32) : (s.bump64 (Reg.TC_CNT_INSN w) 1).sreg w n = s.sreg w n := by
  unfold State.sreg
  split
  · rfl
  · rw [rd_bump64, if_neg (by unfold Reg.TC_SREG Reg.TC_CNT_INSN; omega)]

theorem win_counted {s : State} {c : Nat} (u : s.coreUp c = true) : (s.bump64 (Reg.TC_CNT_INSN (s.win c)) 1).win c = s.win c :=
  win_wr _ u (by unfold Reg.TC_CNT_INSN; omega)

theorem coreUp_counted {s : State} {c : Nat} (u : s.coreUp c = true) : (s.bump64 (Reg.TC_CNT_INSN (s.win c)) 1).coreUp c = true :=
  coreUp_wr _ u (by unfold Reg.TC_CNT_INSN; omega)

theorem pc_counted (s : State) (w : Nat) : (s.bump64 (Reg.TC_CNT_INSN w) 1).pc w = s.pc w := by
  unfold State.pc State.fld
  rw [rd_bump64, if_neg (by unfold Reg.TC_PC Reg.TC_CNT_INSN; omega)]

theorem flow_counted {s : State} {c : Nat} (u : s.coreUp c = true) : (s.bump64 (Reg.TC_CNT_INSN (s.win c)) 1).flow c = s.flow c := by
  unfold State.flow
  rw [win_counted u, pc_counted]
  rfl

/-- An instruction that counts and goes on at `pc`, and changes nothing else. -/
theorem landed_counted {s : State} {c pc : Nat} (ls : List LoopFrame) (u : s.coreUp c = true) (h : pcFits pc) :
    s.went (((s.bump64 (Reg.TC_CNT_INSN (s.win c)) 1).setLoops c ls).goTo c pc) c pc ls [] :=
  landed_of (coreUp_counted u) (win_counted u) h rfl (by rw [rd_bump64, if_pos rfl]; rfl)
    (by
      intro a ha
      simp only [List.mem_cons, List.not_mem_nil, or_false] at ha
      rw [rd_bump64, if_neg ha]) (by simp)

/-- An instruction that counts and goes on in sequence, and changes nothing else. -/
theorem went_counted {s : State} {c : Nat} (u : s.coreUp c = true) (h : pcFits (s.flow c).1) :
    s.went ((s.bump64 (Reg.TC_CNT_INSN (s.win c)) 1).advance c) c (s.flow c).1 (s.flow c).2 [] := by
  rw [advance_eq, flow_counted u]
  exact landed_counted _ u h

/-- A legal instruction that a core issues is counted and carried out. -/
theorem does_of {s : State} {c cls op : Nat} {rest : Rest} {legal : Bool} {i : Instr} {P : State → Prop} (k : State → State)
    (he : exec i s = .next (s.issue c (insnWord cls op rest) legal k))
    (h : s.coreUp c = true → s.coreState (s.win c) = coreRunning → P (k (s.bump64 (Reg.TC_CNT_INSN (s.win c)) 1))) :
    s.does c cls op rest legal i P := by
  intro hi hl
  refine ⟨_, he, ?_⟩
  rw [hl, issue_legal hi]
  exact h hi.1 hi.2.1

theorem does_counted {s : State} {c cls op : Nat} {rest : Rest} {legal : Bool} {i : Instr} {P : State → Prop} (k : State → State)
    (he : exec i s = .next (s.issue c (insnWord cls op rest) legal k))
    (h : s.coreUp c = true → s.coreState (s.win c) = coreRunning → P (k (s.counted c))) : s.does c cls op rest legal i P :=
  does_of k he h

/-- The same, with the state it gives. -/
theorem gives_of {s : State} {c cls op : Nat} {rest : Rest} {legal : Bool} {i : Instr} {k : State → State} (k' : State → State)
    (he : exec i s = .next (s.issue c (insnWord cls op rest) legal k'))
    (h : s.coreUp c = true → s.coreState (s.win c) = coreRunning → k' (s.counted c) = k (s.counted c)) :
    s.gives c cls op rest legal i k := by
  intro hi hl
  rw [he, hl, issue_legal hi]
  exact congrArg _ (h hi.1 hi.2.1)

/-- What blocking a core changes. -/
theorem waits_of {s : State} {c kind : Nat} (x : CoreWait) (u : s.coreUp c = true) (hk : kind < 16) :
    s.waits ((s.counted c).block c kind x) c kind x := by
  have e : (s.counted c).win c = s.win c := win_counted u
  have n : Reg.TC_STATUS (s.win c) ≠ Reg.TC_CNT_INSN (s.win c) := by unfold Reg.TC_STATUS Reg.TC_CNT_INSN; omega
  have n' : Reg.TC_PC (s.win c) ≠ Reg.TC_CNT_INSN (s.win c) := by unfold Reg.TC_PC Reg.TC_CNT_INSN; omega
  have n'' : Reg.TC_PC (s.win c) ≠ Reg.TC_STATUS (s.win c) := by unfold Reg.TC_PC Reg.TC_STATUS; omega
  have rr (a : Nat) : ((s.counted c).block c kind x).rd a =
      ((((s.counted c).setFld (Reg.TC_STATUS (s.win c)) Fld.TC_STATUS_STATE coreWaiting).setFld (Reg.TC_STATUS (s.win c))
        Fld.TC_STATUS_WAIT_KIND kind).rd a) := by
    unfold State.block; rw [e]; rfl
  have fr : (s.counted c).block c kind x = { s with
      regs := ((s.counted c).block c kind x).regs, tc := { s.tc with cores := ((s.counted c).block c kind x).tc.cores } } := rfl
  refine ⟨?_, ?_, ?_, ?_, ?_, ?_, ?_, fr⟩
  · unfold State.coreState State.fld
    rw [rr]
    exact (fld_setFld_apart _ _ Fld.TC_STATUS_WAIT_KIND Fld.TC_STATUS_STATE _ (by decide) (by decide) (by decide)).trans
      (fld_setFld_same _ _ _ _ (by decide))
  · unfold State.fld
    rw [rr]
    exact (fld_setFld_same _ _ _ _ (by decide)).trans (Nat.mod_eq_of_lt hk)
  · unfold State.pc State.fld
    rw [rr, rd_setFld, if_neg n'', rd_setFld, if_neg n'', State.counted, rd_bump64, if_neg n']
  · exact (core_setCore _ _ _ _).trans (if_pos rfl)
  · intro k hk
    exact (core_setCore _ _ _ _).trans (if_neg hk)
  · rw [rr, rd_setFld, if_neg n.symm, rd_setFld, if_neg n.symm, State.counted, rd_bump64, if_pos rfl]; rfl
  · intro a ha
    simp only [List.mem_cons, List.not_mem_nil, or_false, not_or] at ha
    rw [rr, rd_setFld, if_neg ha.1, rd_setFld, if_neg ha.1, State.counted, rd_bump64, if_neg ha.2]

/-- A register outside the windows of the cores of a T-die stands while an instruction is counted. -/
theorem rd_counted_far {s : State} {c a : Nat} (u : s.coreUp c = true) (h : a < 0xF00010000000 ∨ 0xF00013A80000 ≤ a) :
    (s.counted c).rd a = s.rd a := by
  have r := win_room u
  have : c / 160 < 4 := by
    simp only [State.coreUp, Bool.and_eq_true, decide_eq_true_eq] at u
    omega
  unfold State.counted
  rw [rd_bump64, if_neg (by unfold Reg.TC_CNT_INSN; omega)]

end Sys2Proof.Machine
end

