-- ==== Sys2Proof/Laws/Vector.lean ====
section
/-! SUPPORT. Vector instructions: elements written to a tile register read back, and what recording and going on leave alone. -/

namespace Sys2Proof.Machine

theorem positions_lt {n : Nat} {p : Nat × Nat} (h : p ∈ positions n) : p.1 < 32 ∧ p.2 < n := by
  unfold positions at h
  simp only [List.mem_flatMap, List.mem_range, List.mem_map] at h
  obtain ⟨r, hr, c, hc, rfl⟩ := h
  exact ⟨hr, hc⟩

theorem mem_positions {n i j : Nat} (hi : i < 32) (hj : j < n) : (i, j) ∈ positions n := by
  unfold positions
  simp only [List.mem_flatMap, List.mem_range, List.mem_map]
  exact ⟨i, hi, j, hj, rfl⟩

theorem positions_nodup (n : Nat) : (positions n).Nodup := by
  unfold positions
  rw [List.nodup_flatMap]
  refine ⟨fun r _ => (List.nodup_range).map fun a b h => by simpa using h, ?_⟩
  refine (List.nodup_range).pairwise_of_forall_ne fun a _ b _ hab => ?_
  intro x hx hy
  simp only [List.mem_map] at hx hy
  obtain ⟨_, _, rfl⟩ := hx
  obtain ⟨_, _, h⟩ := hy
  exact hab (congrArg Prod.fst h).symm

/-- Writes of elements change nothing but the tiles. -/
theorem vWrite_eq (s : State) (c td w : Nat) (l : List VRes) :
    s.vWrite c td w l = { s with tc := { s.tc with tiles := (s.vWrite c td w l).tc.tiles } } := by
  induction l generalizing s with
  | nil => rfl
  | cons e r ih =>
    rw [State.vWrite, ih]
    rfl

/-- A byte outside every element written stands. -/
theorem vWrite_other {s : State} {c td w k : Nat} {l : List VRes}
    (h : ∀ e ∈ l, k < tileKey c td e.row (e.col * w) ∨ tileKey c td e.row (e.col * w) + w ≤ k) :
    byteAt (s.vWrite c td w l).tc.tiles k = byteAt s.tc.tiles k := by
  induction l generalizing s with
  | nil => rfl
  | cons e r ih =>
    rw [State.vWrite, ih fun x hx => h x (List.mem_cons_of_mem _ hx)]
    exact byteAt_putBytes_other (by rw [length_natLE]; exact h e List.mem_cons_self)

theorem bytesAt_congr {m m' : List Host.Cell} {a n : Nat} (h : ∀ k, a ≤ k → k < a + n → byteAt m k = byteAt m' k) :
    bytesAt m a n = bytesAt m' a n := by
  induction n generalizing a with
  | zero => rfl
  | succ n ih =>
    rw [bytesAt, bytesAt, h a (by omega) (by omega), ih fun k h1 h2 => h k (by omega) (by omega)]

theorem col_room {a b w : Nat} (h : a < b) : a * w + w ≤ b * w := by
  have : (a + 1) * w ≤ b * w := Nat.mul_le_mul_right _ h
  rw [Nat.add_mul, Nat.one_mul] at this
  exact this

/-- Elements of one view do not overlap. -/
theorem keys_apart {c td w n i j i' j' : Nat} (hn : n * w = 128) (hj : j < n) (hj' : j' < n) (h : (i, j) ≠ (i', j')) :
    tileKey c td i (j * w) + w ≤ tileKey c td i' (j' * w) ∨ tileKey c td i' (j' * w) + w ≤ tileKey c td i (j * w) := by
  have a := col_room (w := w) hj
  have b := col_room (w := w) hj'
  unfold tileKey
  by_cases e : i = i'
  · subst e
    have : j ≠ j' := fun q => h (by rw [q])
    rcases Nat.lt_or_gt_of_ne this with q | q
    · have := col_room (w := w) q; omega
    · have := col_room (w := w) q; omega
  · rcases Nat.lt_or_gt_of_ne e with q | q <;> omega

/-- An element written reads as it was written; every other element of the view stands. -/
theorem vWrite_elem {s : State} {c td w n : Nat} (hn : n * w = 128) (ps : List (Nat × Nat)) (hp : ps.Nodup)
    (hb : ∀ p ∈ ps, p.2 < n) (g : Nat × Nat → VRes) (hg : ∀ p, (g p).row = p.1 ∧ (g p).col = p.2) {i j : Nat} (hj : j < n) :
    (s.vWrite c td w (ps.map g)).tElem c td w i j =
      if (i, j) ∈ ps then (g (i, j)).code % 256 ^ w else s.tElem c td w i j := by
  induction ps generalizing s with
  | nil => simp [State.vWrite]
  | cons p r ih =>
    rw [List.map_cons, State.vWrite, ih hp.of_cons fun q hq => hb q (List.mem_cons_of_mem _ hq)]
    have hpr := hg p
    by_cases q : (i, j) = p
    · subst q
      have : (i, j) ∉ r := (List.nodup_cons.1 hp).1
      rw [if_neg this, if_pos List.mem_cons_self]
      unfold State.tElem
      rw [hpr.1, hpr.2]
      show leNat (bytesAt (putBytes s.tc.tiles (tileKey c td i (j * w)) (natLE w (g (i, j)).code)) (tileKey c td i (j * w)) w) = _
      have e := bytesAt_putBytes s.tc.tiles (tileKey c td i (j * w)) (natLE w (g (i, j)).code)
      rw [length_natLE] at e
      rw [e, leNat_natLE]
    · have : ((i, j) ∈ p :: r) ↔ (i, j) ∈ r := by simp [q]
      simp only [this]
      split
      · rfl
      · unfold State.tElem
        rw [hpr.1, hpr.2]
        congr 1
        refine bytesAt_congr fun k h1 h2 => ?_
        show byteAt (putBytes s.tc.tiles (tileKey c td p.1 (p.2 * w)) _) k = _
        refine byteAt_putBytes_other ?_
        rw [length_natLE]
        have := keys_apart (c := c) (td := td) (w := w) (i := i) (i' := p.1) (j' := p.2) hn hj (hb p List.mem_cons_self) q
        omega

/-- Where only registers of its own window changed, a core keeps its window and its place. -/
theorem win_of_far {s t : State} {c : Nat} (u : s.coreUp c = true)
    (h : ∀ a, a < s.win c ∨ s.win c + 0x10000 ≤ a → t.rd a = s.rd a) : t.win c = s.win c ∧ t.coreUp c = true := by
  have r := win_room u
  have n0 : t.rd (Reg.TC_STRAND_MAP0 (Reg.dieBlk (c / 160))) = s.rd (Reg.TC_STRAND_MAP0 (Reg.dieBlk (c / 160))) :=
    h _ (by right; unfold Reg.TC_STRAND_MAP0 Reg.dieBlk; omega)
  have n1 : t.rd (Reg.TC_STRAND_MAP1 (Reg.dieBlk (c / 160))) = s.rd (Reg.TC_STRAND_MAP1 (Reg.dieBlk (c / 160))) :=
    h _ (by right; unfold Reg.TC_STRAND_MAP1 Reg.dieBlk; omega)
  have p : t.physStrand (c / 160) (c % 160 / 8) = s.physStrand (c / 160) (c % 160 / 8) := by
    unfold State.physStrand
    rw [n0, n1]
  have n2 : t.rd Reg.ID_CAPS_EFFECTIVE = s.rd Reg.ID_CAPS_EFFECTIVE := h _ (by left; unfold Reg.ID_CAPS_EFFECTIVE; omega)
  have n5 : t.rd (if c / 160 < 2 then Reg.ID_STRANDS_EFF01 else Reg.ID_STRANDS_EFF23) =
      s.rd (if c / 160 < 2 then Reg.ID_STRANDS_EFF01 else Reg.ID_STRANDS_EFF23) :=
    h _ (by left; split <;> first | (unfold Reg.ID_STRANDS_EFF01; omega) | (unfold Reg.ID_STRANDS_EFF23; omega))
  constructor
  · unfold State.win; rw [p]
  · unfold State.coreUp State.strandUp State.working at u ⊢
    rw [p, n2, n5]
    exact u

/-- A row written whole changes the poison of tiles alone. -/
theorem rowsFresh_eq (s : State) (c td : Nat) (m : Bool) :
    s.rowsFresh c td m = { s with tc := { s.tc with tilePoison := (s.rowsFresh c td m).tc.tilePoison } } := by
  cases m <;> rfl

/-- What recording the results of a vector instruction leaves alone. -/
theorem vRecord_eq (s : State) (c seq : Nat) (l : List VRes) : s.vRecord c seq l = { s with regs := (s.vRecord c seq l).regs } := by
  unfold State.vRecord State.raise State.bump32 State.bump64
  dsimp only
  split
  · exact onlyRegs_wr (onlyRegs_wr rfl _ _) _ _
  · split
    · exact onlyRegs_wr (onlyRegs_wr (onlyRegs_wr rfl _ _) _ _) _ _
    · exact onlyRegs_wr (onlyRegs_wr (onlyRegs_wr (onlyRegs_wr (onlyRegs_wr rfl _ _) _ _) _ _) _ _) _ _

theorem rd_vRecord {s : State} {c seq a : Nat} {l : List VRes}
    (h : a ∉ [Reg.VE_FLAGS (s.win c), Reg.VE_EXC (s.win c), Reg.VE_EXC_INFO (s.win c), Reg.VE_CNT_NV (s.win c), Reg.VE_CNT_INSN (s.win c)]) :
    (s.vRecord c seq l).rd a = s.rd a := by
  simp only [List.mem_cons, List.not_mem_nil, or_false, not_or] at h
  obtain ⟨h1, h2, h3, h4, h5⟩ := h
  have hr : ∀ (t : State) (b fl : Nat), a ≠ b → (t.raise b fl).rd a = t.rd a := fun t b fl q => rd_wr_other _ _ q
  unfold State.vRecord
  dsimp only
  rw [rd_bump64, if_neg h5]
  split
  · exact hr _ _ _ h1
  · split
    · rw [rd_bump32, if_neg h4, hr _ _ _ h1]
    · rw [rd_wr_other _ _ h3, rd_wr_other _ _ h2, rd_bump32, if_neg h4, hr _ _ _ h1]

/-! ### From a body that maps to the statement -/

theorem view_of_float {f : Nat} (h : vecFloat f = true) : vecView f = true := by
  unfold vecFloat at h; unfold vecView; simp only [decide_eq_true_eq] at h; simp; omega
theorem view_of_int {f : Nat} (h : vecInt f = true) : vecView f = true := by
  unfold vecInt at h; unfold vecView; simp at h ⊢; omega
theorem view_128 {f : Nat} (h : vecView f = true) : vecC f * vecW f = 128 := by
  have : ∀ f < 16, vecView f = true → vecC f * vecW f = 128 := by decide
  refine this f ?_ h
  unfold vecView at h; simp at h; omega

/-- state facts between s and vecCounted -/
theorem vc_rd {s : State} {c a : Nat} (h : a ≠ Reg.TC_CNT_INSN (s.win c)) (h' : a ≠ Reg.VE_SEQ (s.win c)) : (s.vecCounted c).rd a = s.rd a := by
  unfold State.vecCounted State.counted
  rw [rd_bump32, if_neg h', rd_bump64, if_neg h]
theorem vc_far {s : State} {c : Nat} : ∀ a, a < s.win c ∨ s.win c + 0x10000 ≤ a → (s.vecCounted c).rd a = s.rd a := by
  intro a h
  refine vc_rd ?_ ?_
  · unfold Reg.TC_CNT_INSN; omega
  · unfold Reg.VE_SEQ; omega
theorem vc_win {s : State} {c : Nat} (u : s.coreUp c = true) : (s.vecCounted c).win c = s.win c := (win_of_far u vc_far).1
theorem vc_up {s : State} {c : Nat} (u : s.coreUp c = true) : (s.vecCounted c).coreUp c = true := (win_of_far u vc_far).2
theorem vc_eq (s : State) (c : Nat) : s.vecCounted c = { s with regs := (s.vecCounted c).regs } := rfl
theorem vc_sreg {s : State} {c n : Nat} (hn : n < 32) : (s.vecCounted c).sreg (s.win c) n = s.sreg (s.win c) n := by
  unfold State.sreg; split
  · rfl
  · rw [vc_rd (by unfold Reg.TC_SREG Reg.TC_CNT_INSN; omega) (by unfold Reg.TC_SREG Reg.VE_SEQ; omega)]

/-- From a body that maps, to the statement. -/
theorem mapped_of {s : State} {core seq : Nat} {rest : Rest} {f : Nat} (u : s.coreUp core = true) (hp : pcFits (s.flow core).1)
    (hf : vecView f = true) (masked : Bool) (m : Nat) (g : Nat → Nat → Nat × Nat × Nat) (l : List VRes) (l' : List VRes) (fresh : Bool)
    (hl : l = ((positions (vecC f)).filter fun p => activeIn masked m (vecW f) p.1 p.2).map fun p => (⟨p.1, p.2, (g p.1 p.2).1, (g p.1 p.2).2.1, (g p.1 p.2).2.2⟩ : VRes)) :
    s.mapped (((((s.vecCounted core).vWrite core (vTD rest) (vecW f) l).rowsFresh core (vTD rest) fresh).vRecord core seq l').advance core) core (vTD rest) f
      (activeIn masked m (vecW f)) (fun i j => (g i j).1) := by
  let x0 := (s.vecCounted core).vWrite core (vTD rest) (vecW f) l
  let x1 := x0.rowsFresh core (vTD rest) fresh
  let x2 := x1.vRecord core seq l'
  have e0 : x0 = { s.vecCounted core with tc := { s.tc with tiles := x0.tc.tiles } } := vWrite_eq _ _ _ _ _
  have r0 (a : Nat) : x0.rd a = (s.vecCounted core).rd a := by rw [e0]; rfl
  have e1 : x1 = { x0 with tc := { x0.tc with tilePoison := x1.tc.tilePoison } } := rowsFresh_eq _ _ _ _
  have r1 (a : Nat) : x1.rd a = (s.vecCounted core).rd a := by rw [e1]; exact r0 a
  have w1 : x1.win core = s.win core ∧ x1.coreUp core = true := win_of_far u fun a h => (r1 a).trans (vc_far a h)
  have e2 : x2 = { x1 with regs := x2.regs } := vRecord_eq _ _ _ _
  have r2 (a : Nat) (h : a ∉ [Reg.VE_FLAGS (s.win core), Reg.VE_EXC (s.win core), Reg.VE_EXC_INFO (s.win core), Reg.VE_CNT_NV (s.win core), Reg.VE_CNT_INSN (s.win core)]) :
      x2.rd a = (s.vecCounted core).rd a := (rd_vRecord (by rw [w1.1]; exact h)).trans (r1 a)
  have far2 (a : Nat) (h : a < s.win core ∨ s.win core + 0x10000 ≤ a) : x2.rd a = s.rd a := by
    rw [r2 a, vc_far a h]
    simp only [List.mem_cons, List.not_mem_nil, or_false, not_or]
    unfold Reg.VE_FLAGS Reg.VE_EXC Reg.VE_EXC_INFO Reg.VE_CNT_NV Reg.VE_CNT_INSN
    omega
  have w2 : x2.win core = s.win core ∧ x2.coreUp core = true := win_of_far u far2
  have pc2 : x2.pc (s.win core) = s.pc (s.win core) := by
    unfold State.pc State.fld
    rw [r2 _ (by simp only [List.mem_cons, List.not_mem_nil, or_false, not_or]; unfold Reg.TC_PC Reg.VE_FLAGS Reg.VE_EXC Reg.VE_EXC_INFO Reg.VE_CNT_NV Reg.VE_CNT_INSN; omega),
      vc_rd (by unfold Reg.TC_PC Reg.TC_CNT_INSN; omega) (by unfold Reg.TC_PC Reg.VE_SEQ; omega)]
  have hc (k : Nat) : x2.core k = s.core k := by rw [e2, e1, e0]; rfl
  have fl : x2.flow core = s.flow core := by unfold State.flow; rw [w2.1, pc2, hc]
  have hadv : x2.advance core = _ := (advance_eq x2 core).trans (landing_fits _ w2.2 (by rw [fl]; exact hp))
  have ht : (x2.advance core).tc.tiles = x0.tc.tiles := by
    rw [hadv]
    show x2.tc.tiles = _
    rw [e2]; show x1.tc.tiles = _; rw [e1]
  have hn := view_128 hf
  have hnd : ((positions (vecC f)).filter fun p => activeIn masked m (vecW f) p.1 p.2).Nodup := (positions_nodup _).filter _
  refine ⟨?_, ?_, ?_, ?_, ?_, ?_, ?_⟩
  · intro i j hi hj
    have : (x2.advance core).tElem core (vTD rest) (vecW f) i j = x0.tElem core (vTD rest) (vecW f) i j := by
      unfold State.tElem; rw [ht]
    refine this.trans ?_
    show ((s.vecCounted core).vWrite core (vTD rest) (vecW f) l).tElem _ _ _ _ _ = _
    rw [hl, vWrite_elem hn _ hnd (fun p hp => (positions_lt (List.mem_filter.1 hp).1).2) _ (fun p => ⟨rfl, rfl⟩) hj]
    have : ((i, j) ∈ (positions (vecC f)).filter fun p => activeIn masked m (vecW f) p.1 p.2) ↔ activeIn masked m (vecW f) i j = true := by
      rw [List.mem_filter]; exact ⟨fun h => h.2, fun h => ⟨mem_positions hi hj, h⟩⟩
    simp only [this]
    rfl
  · intro k hk
    rw [show (x2.advance core).tc.tiles = x0.tc.tiles from ht]
    show byteAt ((s.vecCounted core).vWrite core (vTD rest) (vecW f) l).tc.tiles k = _
    refine (vWrite_other fun e he => ?_).trans rfl
    rw [hl] at he
    obtain ⟨p, hp', rfl⟩ := List.mem_map.1 he
    have hb := positions_lt (List.mem_filter.1 hp').1
    have := col_room (w := vecW f) hb.2
    unfold tileKey at hk ⊢
    dsimp only
    omega
  · show (x2.advance core).pc (s.win core) = _
    rw [hadv, w2.1, fl]
    unfold State.pc
    rw [fld_setFld_same _ _ _ _ (by decide)]
    have := hp.2
    exact Nat.mod_eq_of_lt (by show (s.flow core).1 < 2 ^ 18; omega)
  · show (x2.advance core).rd _ = _
    rw [hadv, w2.1, rd_setFld, if_neg (by unfold Reg.TC_CNT_INSN Reg.TC_PC; omega), rd_setFld, if_neg (by unfold Reg.TC_CNT_INSN Reg.TC_STATUS; omega), rd_setCore,
      r2 _ (by simp only [List.mem_cons, List.not_mem_nil, or_false, not_or]; unfold Reg.TC_CNT_INSN Reg.VE_FLAGS Reg.VE_EXC Reg.VE_EXC_INFO Reg.VE_CNT_NV Reg.VE_CNT_INSN; omega)]
    unfold State.vecCounted State.counted
    rw [rd_bump32, if_neg (by unfold Reg.TC_CNT_INSN Reg.VE_SEQ; omega), rd_bump64, if_pos rfl]; rfl
  · intro a ha
    simp only [vecRegsOf, List.mem_cons, List.not_mem_nil, or_false, not_or] at ha
    obtain ⟨h1, h2, h3, h4, h5, h6, h7, h8, h9⟩ := ha
    show (x2.advance core).rd a = _
    rw [hadv, w2.1, rd_setFld, if_neg h1, rd_setFld, if_neg h2, rd_setCore, r2 a (by simp only [List.mem_cons, List.not_mem_nil, or_false, not_or]; exact ⟨h5, h6, h7, h8, h9⟩), vc_rd h3 h4]
  · show x2.advance core = _
    rw [hadv, e2, e1, e0]; rfl
  · show (x2.advance core).tc.masks = _
    rw [hadv, e2, e1, e0]; rfl

/-- The first poisoned line depends on memory's poison alone. -/
theorem tsPoison_congr {s t : State} (h : t.mem = s.mem) (c : Nat) (l : List Range) : t.tsPoison c l = s.tsPoison c l := by
  have e : t.poisoned = s.poisoned := by funext a; unfold State.poisoned; rw [h]
  induction l with
  | nil => rfl
  | cons r rs ih => simp only [State.tsPoison, e, ih]

/-- An engine instruction that is issued, legal, passes its checks and has no transfer to wait for is counted and carried out. -/
theorem engine_runs {s : State} {c cls op : Nat} {r : Rest} {legal : Bool} {check : State → Option IssueFault} {foot : State → List Range}
    {k : State → State} (hi : s.issues c (insnWord cls op r)) (hl : legal = true)
    (hc : check (s.counted c) = none) (hz : s.hazard c (foot (s.counted c)) = false) :
    s.engine c (insnWord cls op r) legal check foot k = k (s.counted c) := by
  unfold State.engine
  rw [hl, issue_legal hi]
  show (match check (s.counted c) with
    | some f => _
    | none => if (s.counted c).hazard c (foot (s.counted c)) then s.block c 5 .stall else _) = _
  rw [hc]
  exact if_neg (by show ¬ s.hazard c _ = true; rw [hz]; decide)

/-- A vector instruction that is issued, legal, passes its checks and reads no poison is carried out. -/
theorem vector_runs {s : State} {c cls op : Nat} {r : Rest} {legal : Bool} {check : State → Option IssueFault} {foot reads : State → List Range}
    {rows : State → List (Nat × Nat)} {body : State → State × List VRes} (hi : s.issues c (insnWord cls op r)) (hl : legal = true)
    (hc : check (s.counted c) = none) (hz : s.hazard c (foot (s.counted c)) = false) (hr : s.regPoisoned c (rows (s.vecCounted c)) = false)
    (hp : s.tsPoison c (reads (s.vecCounted c)) = none) :
    s.vector c cls op r legal check foot reads rows body =
      ((body (s.vecCounted c)).1.vRecord c ((s.counted c).fld (Reg.VE_SEQ (s.win c)) Fld.VE_SEQ_COUNT) (body (s.vecCounted c)).2).advance c := by
  have u := hi.1
  unfold State.vector State.engine
  rw [hl, issue_legal hi]
  show (match check (s.counted c) with
    | some f => _
    | none => if (s.counted c).hazard c (foot (s.counted c)) then s.block c 5 .stall else _) = _
  rw [hc]
  dsimp only
  rw [if_neg (by show ¬ s.hazard c _ = true; rw [hz]; decide), win_counted u]
  rw [if_neg (by show ¬ s.regPoisoned c (rows (s.vecCounted c)) = true; rw [hr]; decide)]
  have hq : ∀ t : State, t = s.vecCounted c → t.tsPoison c (reads t) = none := fun t h => by
    rw [h, tsPoison_congr (t := s.vecCounted c) (s := s) rfl]; exact hp
  rw [hq ((s.bump64 (Reg.TC_CNT_INSN (s.win c)) 1).bump32 (Reg.VE_SEQ (s.win c)) 1) rfl]
  rfl

end Sys2Proof.Machine
end

