-- ==== Sys2Proof/Laws/Engine.lean ====
section
/-! SUPPORT. Counting an instruction leaves the operands of vector and matrix instructions as they were, and a legal one that meets no hazard runs. -/

namespace Sys2Proof.Machine

theorem next_congr {a b : State} (h : a = b) : (Host.Outcome.next a : Host.Outcome State Fault Refusal) = .next b := by rw [h]

theorem sreg_vecCounted {s : State} {c n : Nat} (u : s.coreUp c = true) (hn : n < 32) : (s.vecCounted c).sreg ((s.vecCounted c).win c) n = s.sreg (s.win c) n := by
  rw [vc_win u, vc_sreg hn]

theorem sreg_counted_win {s : State} {c n : Nat} (u : s.coreUp c = true) (hn : n < 32) : (s.counted c).sreg ((s.counted c).win c) n = s.sreg (s.win c) n := by
  unfold State.counted; rw [win_counted u, sreg_counted _ _ hn]

theorem vTA_lt (r : Rest) : vTA r < 32 := by unfold vTA bits; omega

theorem vTB_lt (r : Rest) : vTB r < 32 := by unfold vTB bits; omega

theorem vAddr_vecCounted {s : State} {c : Nat} (r : Rest) (u : s.coreUp c = true) : (s.vecCounted c).vAddr c r = s.vAddr c r := by
  unfold State.vAddr; rw [sreg_vecCounted u (vTA_lt r)]

theorem vStr_vecCounted {s : State} {c : Nat} (r : Rest) (u : s.coreUp c = true) : (s.vecCounted c).vStr c r = s.vStr c r := by
  unfold State.vStr; rw [sreg_vecCounted u (vTB_lt r)]

theorem vAddr_counted {s : State} {c : Nat} (r : Rest) (u : s.coreUp c = true) : (s.counted c).vAddr c r = s.vAddr c r := by
  unfold State.vAddr; rw [sreg_counted_win u (vTA_lt r)]

theorem vStr_counted {s : State} {c : Nat} (r : Rest) (u : s.coreUp c = true) : (s.counted c).vStr c r = s.vStr c r := by
  unfold State.vStr; rw [sreg_counted_win u (vTB_lt r)]

theorem veSeq_counted {s : State} {c : Nat} : (s.counted c).fld (Reg.VE_SEQ (s.win c)) Fld.VE_SEQ_COUNT = s.fld (Reg.VE_SEQ (s.win c)) Fld.VE_SEQ_COUNT := by
  unfold State.fld State.counted; rw [rd_bump64, if_neg (by unfold Reg.VE_SEQ Reg.TC_CNT_INSN; omega)]

/-- An engine instruction that its core issues, legal and without a hazard or a fault, is carried out. -/
theorem vector_carried {s : State} {c cls op : Nat} {r : Rest} {legal : Bool} {check : State → Option IssueFault} {foot reads : State → List Range}
    {rows : State → List (Nat × Nat)} {body : State → State × List VRes} {ck : Option IssueFault} {ft rdl : List Range}
    {rl : List (Nat × Nat)} (h : s.carries c cls op r legal ck ft rl rdl) (hc : s.coreUp c = true → check (s.counted c) = ck)
    (hf : s.coreUp c = true → foot (s.counted c) = ft) (hr : s.coreUp c = true → reads (s.vecCounted c) = rdl)
    (hw : s.coreUp c = true → rows (s.vecCounted c) = rl) :
    s.vector c cls op r legal check foot reads rows body = s.vecDone c (body (s.vecCounted c)) := by
  obtain ⟨h1, h2, h3, h4, h5, h6⟩ := h
  have u := h1.1
  rw [vector_runs h1 h2 ((hc u).trans h3) (by rw [hf u]; exact h4) (by rw [hw u]; exact h5) (by rw [hr u]; exact h6), veSeq_counted]
  rfl

theorem mask_vecCounted (s : State) (c : Nat) : (s.vecCounted c).mask = s.mask := by
  funext c m; unfold State.mask; rfl

theorem activeRows_vecCounted (s : State) (c : Nat) (r : Rest) (f : Nat) : (s.vecCounted c).activeRows c r f = s.activeRows c r f := by
  unfold State.activeRows; rw [mask_vecCounted]

theorem operandRows_vecCounted (s : State) (c : Nat) (r : Rest) (f : Nat) (l : List Nat) :
    (s.vecCounted c).operandRows c r f l = s.operandRows c r f l := by
  unfold State.operandRows; rw [activeRows_vecCounted]

theorem vselRows_vecCounted (s : State) (c : Nat) (r : Rest) : (s.vecCounted c).vselRows c r = s.vselRows c r := by
  unfold State.vselRows; rw [mask_vecCounted]

theorem vcvtRows_vecCounted (s : State) (c : Nat) (r : Rest) : (s.vecCounted c).vcvtRows c r = s.vcvtRows c r := by
  unfold State.vcvtRows; rw [mask_vecCounted]

theorem vrotRows_vecCounted {s : State} {c : Nat} (r : Rest) (u : s.coreUp c = true) : (s.vecCounted c).vrotRows c r = s.vrotRows c r := by
  unfold State.vrotRows; rw [sreg_vecCounted u (vTB_lt r), activeRows_vecCounted]

/-- An instruction that computes a mask writes it. -/
theorem vector_mask_runs {s : State} {c op : Nat} {r : Rest} {used : List VUse} {legal : Bool} {regs : List Nat} {g : State → Nat} {v : Nat}
    (h : s.carries c 0x19 op r (vFieldsOk used r && vRoundOk false r && legal && decide (vTD r < 8)) none [] (maskRows r ++ wholeRows regs) [])
    (hv : g (s.vecCounted c) = v) : s.vMaskOp c op r used legal regs g = s.vecDone c ((s.vecCounted c).setMask c (vTD r) (v % 2 ^ 4096), []) := by
  unfold State.vMaskOp State.vecRegs
  rw [vector_carried (check := fun _ => none) (foot := fun _ => []) (reads := fun _ => []) h (fun _ => rfl) (fun _ => rfl) (fun _ => rfl) (fun _ => rfl), hv]

theorem mapped_congr {s t : State} {c td f : Nat} {a a' : Nat → Nat → Bool} {g : Nat → Nat → Nat} (h : s.mapped t c td f a g) (e : a = a') :
    s.mapped t c td f a' g := e ▸ h

theorem mmaOps_counted {s : State} {c : Nat} (r : Rest) (u : s.coreUp c = true) : (s.counted c).mmaOps c r = s.mmaOps c r := by
  unfold State.mmaOps
  simp only [sreg_counted_win u (fSD_lt r), sreg_counted_win u (fSA_lt r), sreg_counted_win u (fSB_lt r), sreg_counted_win u (n := fR4 r) (by unfold fR4 bits; omega)]

theorem mcombOps_counted {s : State} {c : Nat} (r : Rest) (u : s.coreUp c = true) : (s.counted c).mcombOps c r = s.mcombOps c r := by
  unfold State.mcombOps
  simp only [sreg_counted_win u (fSD_lt r), sreg_counted_win u (fSA_lt r), sreg_counted_win u (fSB_lt r), sreg_counted_win u (n := fR4 r) (by unfold fR4 bits; omega)]

end Sys2Proof.Machine
end

