-- ==== Sys2Proof/Laws/Fold.lean ====
section
/-! SUPPORT. What a fold of operations leaves alone, and a projection of a choice. -/

namespace Sys2Proof.Machine

@[simp] theorem foldl_pending {α : Type} (g : State → α → State) (l : List α) (s : State)
    (h : ∀ (t : State) (x : α), (g t x).pending = t.pending) : (l.foldl g s).pending = s.pending := by
  induction l generalizing s with
  | nil => rfl
  | cons x r ih => rw [List.foldl_cons, ih, h]

@[simp] theorem foldl_fuse {α : Type} (g : State → α → State) (l : List α) (s : State)
    (h : ∀ (t : State) (x : α), (g t x).fuse = t.fuse) : (l.foldl g s).fuse = s.fuse := by
  induction l generalizing s with
  | nil => rfl
  | cons x r ih => rw [List.foldl_cons, ih, h]

@[simp] theorem ite_pending (c : Prop) [Decidable c] (a b : State) : (if c then a else b).pending = if c then a.pending else b.pending :=
  apply_ite State.pending c a b

@[simp] theorem ite_fuse (c : Prop) [Decidable c] (a b : State) : (if c then a else b).fuse = if c then a.fuse else b.fuse :=
  apply_ite State.fuse c a b

@[simp] theorem ite_fst {α β : Type} (c : Prop) [Decidable c] (a b : α × β) : (if c then a else b).1 = if c then a.1 else b.1 :=
  apply_ite Prod.fst c a b

@[simp] theorem ite_snd {α β : Type} (c : Prop) [Decidable c] (a b : α × β) : (if c then a else b).2 = if c then a.2 else b.2 :=
  apply_ite Prod.snd c a b

@[simp] theorem ite_st (c : Prop) [Decidable c] (a b : ReadRes) : (if c then a else b).st = if c then a.st else b.st :=
  apply_ite ReadRes.st c a b

/-- What every step of a fold keeps, the fold keeps. -/
theorem foldl_keeps {α β : Type} {P : β → Prop} {g : β → α → β} (h : ∀ b x, P b → P (g b x)) (l : List α) {b : β} (hb : P b) :
    P (l.foldl g b) := by
  induction l generalizing b with
  | nil => exact hb
  | cons x r ih => exact ih (h b x hb)

/-- An outcome that leaves the queue and the fuses of `s` alone. -/
def State.kept (s : State) : Host.Outcome State Fault Refusal → Prop
  | .next t => t.pending = s.pending ∧ t.fuse = s.fuse
  | _ => True

@[simp] theorem kept_next (s t : State) : s.kept (.next t) ↔ t.pending = s.pending ∧ t.fuse = s.fuse := Iff.rfl

@[simp] theorem kept_fault (s : State) (r : Fault) : s.kept (.fault r) := trivial

@[simp] theorem kept_refused (s : State) (r : Refusal) : s.kept (.refused r) := trivial

end Sys2Proof.Machine
end

