-- ==== Sys2Proof/Laws/Fuses.lean ====
section
/-! SUPPORT. What a confirmation of health does to the fuses: every change goes forward. -/

namespace Sys2Proof.Machine

/-- Fuses that only went forward: identity, keys and spares stand, bits stay blown, ROLLBACK does not fall, a usable firmware key remains. -/
def FuseSt.forward (f g : FuseSt) : Prop :=
  g = { f with fwRevoke := g.fwRevoke, cfgRevoke := g.cfgRevoke, rollback := g.rollback } ∧
      (∀ k, bit f.fwRevoke k = true → bit g.fwRevoke k = true) ∧ (∀ k, bit f.cfgRevoke k = true → bit g.cfgRevoke k = true) ∧
      (f.rollback ≤ 64 → f.rollback ≤ g.rollback ∧ g.rollback ≤ 64) ∧
      ((∃ k < 4, f.fwKeys.getD k [] ≠ [] ∧ bit f.fwRevoke k = false) → (∃ k < 4, g.fwKeys.getD k [] ≠ [] ∧ bit g.fwRevoke k = false))

theorem FuseSt.forward_refl (f : FuseSt) : FuseSt.forward f f := ⟨rfl, fun _ h => h, fun _ h => h, fun h => ⟨le_refl _, h⟩, fun h => h⟩

theorem FuseSt.forward_trans {f g h : FuseSt} (a : FuseSt.forward f g) (b : FuseSt.forward g h) : FuseSt.forward f h := by
  refine ⟨?_, fun k q => b.2.1 k (a.2.1 k q), fun k q => b.2.2.1 k (a.2.2.1 k q), fun q => ?_, fun q => b.2.2.2.2 (a.2.2.2.2 q)⟩
  · rw [b.1, a.1]
  · have x := a.2.2.2.1 q
    have y := b.2.2.2.1 x.2
    exact ⟨le_trans x.1 y.1, y.2⟩

/-- Adding a bit that is clear sets it and no other. -/
theorem bit_add_two_pow (m k j : Nat) (h : bit m k = false) : bit (m + 2 ^ k) j = if j = k then true else bit m j := by
  unfold bit at h ⊢
  have hk : m / 2 ^ k % 2 = 0 := by
    have : m / 2 ^ k % 2 ≠ 1 := by simpa using h
    omega
  have ak : (m + 2 ^ k) / 2 ^ k = m / 2 ^ k + 1 := by rw [Nat.add_div_right _ (Nat.two_pow_pos k)]
  by_cases q : j = k
  · subst q
    rw [if_pos rfl, ak]; simp; omega
  rw [if_neg q]
  rcases Nat.lt_or_gt_of_ne q with q | q
  · obtain ⟨d, rfl⟩ := Nat.exists_eq_add_of_lt q
    have : (m + 2 ^ (j + d + 1)) / 2 ^ j = m / 2 ^ j + 2 * 2 ^ d := by
      rw [show 2 ^ (j + d + 1) = 2 ^ j * (2 * 2 ^ d) by rw [pow_succ, pow_add]; ac_rfl, Nat.add_mul_div_left _ _ (Nat.two_pow_pos j)]
    rw [this, Nat.add_mul_mod_self_left]
  · obtain ⟨d, rfl⟩ := Nat.exists_eq_add_of_lt q
    have e (n : Nat) : n / 2 ^ (k + d + 1) = n / 2 ^ k / 2 / 2 ^ d := by
      rw [Nat.div_div_eq_div_mul, Nat.div_div_eq_div_mul]; congr 1; rw [pow_succ, pow_add]; ac_rfl
    rw [e, e, ak, show (m / 2 ^ k + 1) / 2 = m / 2 ^ k / 2 by omega]

theorem FuseSt.foldl_forward (g : FuseSt → Nat → FuseSt) (h : ∀ f k, k < 4 → FuseSt.forward f (g f k)) (l : List Nat) (hl : ∀ k ∈ l, k < 4) (f : FuseSt) : FuseSt.forward f (l.foldl g f) := by
  induction l generalizing f with
  | nil => exact FuseSt.forward_refl f
  | cons a r ih => exact FuseSt.forward_trans (h f a (hl a List.mem_cons_self)) (ih (fun k q => hl k (List.mem_cons_of_mem _ q)) _)

/-- A confirmation goes forward. -/
theorem FuseSt.confirm_forward (f : FuseSt) (u : FwUse) : FuseSt.forward f (f.confirm u) := by
  unfold FuseSt.confirm
  dsimp only
  refine FuseSt.forward_trans ?_ (FuseSt.forward_trans (FuseSt.foldl_forward _ (fun f k hk => ?_) _ (fun k q => List.mem_range.1 q) _) (FuseSt.foldl_forward _ (fun f k hk => ?_) _ (fun k q => List.mem_range.1 q) _))
  · split
    · rename_i h
      refine ⟨rfl, fun _ h => h, fun _ h => h, fun q => ?_, fun h => h⟩
      show f.rollback ≤ min u.secver 64 ∧ min u.secver 64 ≤ 64
      omega
    · exact FuseSt.forward_refl f
  · split
    · rename_i h
      refine ⟨rfl, fun j q => ?_, fun _ h => h, fun q => ⟨le_refl _, q⟩, fun q => ?_⟩
      · rw [bit_add_two_pow _ _ _ h.2.2.1]; split; rfl; exact q
      · obtain ⟨j, hj⟩ := List.exists_mem_of_ne_nil _ h.2.2.2
        rw [List.mem_filter] at hj
        simp only [Bool.and_eq_true, bne_iff_ne, Bool.not_eq_true', List.mem_range] at hj
        refine ⟨j, hj.1, hj.2.1.2, ?_⟩
        show bit (f.fwRevoke + 2 ^ k) j = false
        rw [bit_add_two_pow _ _ _ h.2.2.1, if_neg hj.2.1.1]; exact hj.2.2
    · exact FuseSt.forward_refl f
  · split
    · rename_i h
      refine ⟨rfl, fun _ h => h, fun j q => ?_, fun q => ⟨le_refl _, q⟩, fun q => q⟩
      show bit (f.cfgRevoke + 2 ^ k) j = true
      rw [bit_add_two_pow _ _ _ h.2]; split; rfl; exact q
    · exact FuseSt.forward_refl f

end Sys2Proof.Machine
end

