-- ==== Sys2Proof/Laws/Halyard.lean ====
section
/-! SUPPORT. Halyard: accepted tick symbols act, a queue launches its due entry, and what children see of slips and leads. -/

namespace Sys2Proof.Machine

/-- A queue whose earliest due entry has the action launches it. -/
theorem talq_takes {s : State} {q a : Nat} {e : TalqEntry} (h : s.launches q a e) (k : State → TalqEntry → State) :
    s.talqLaunch q a k = if (s.talqTaken q e).talqTargetUp q e then k (s.talqTaken q e) e else (s.talqTaken q e).logCode 8 e.tag := by
  obtain ⟨h1, h2, h3, h4⟩ := h
  unfold State.talqLaunch
  rw [if_neg (by simp [h1, h2]), h3]
  dsimp only
  rw [if_neg (by simp [h4])]
  rfl

theorem send_children (s : State) (d t : Nat) (y : TickSymbol) : (s.send d t y).hly.children = s.hly.children := rfl

theorem sendSlip_children (s : State) : s.sendSlip.hly.children = s.hly.children := by
  unfold State.sendSlip; split <;> rfl

theorem sendSlip_form (s : State) : ∃ l, s.sendSlip = { s with hly := { s.hly with sent := l } } := by
  unfold State.sendSlip
  split
  · exact ⟨s.hly.sent, rfl⟩
  · exact ⟨_, rfl⟩

/-- All that forming the slip state again can do: HLY_STATUS is written, and a symbol may go out. -/
theorem slipUpdate_form (s : State) : ∃ r l, s.slipUpdate = { s with regs := r, hly := { s.hly with sent := l } } ∧
    ∀ a, a ≠ Reg.HLY_STATUS → s.slipUpdate.rd a = s.rd a := by
  unfold State.slipUpdate
  dsimp only
  generalize hv : [(Fld.HLY_STATUS_PENDING, if s.localPending = true then 1 else 0), (Fld.HLY_STATUS_AGG_PENDING, if s.aggPending = true then 1 else 0)] = v
  split
  · exact ⟨_, _, rfl, fun a h => by rw [rd_setFlds, if_neg h]⟩
  · obtain ⟨l, hl⟩ := sendSlip_form (s.setFlds Reg.HLY_STATUS v)
    rw [hl]
    exact ⟨_, l, rfl, fun a h => by
      show (s.setFlds Reg.HLY_STATUS v).rd a = _
      rw [rd_setFlds, if_neg h]⟩

theorem slipUpdate_children (s : State) : s.slipUpdate.hly.children = s.hly.children := by
  obtain ⟨r, l, h, -⟩ := slipUpdate_form s
  rw [h]

theorem leadUpdate_children (s : State) : s.leadUpdate.hly.children = s.hly.children := by
  unfold State.leadUpdate
  split <;> rfl

/-- A join request of a child, or with a free place, is taken. -/
theorem child_attached {s : State} {src : Nat} (h : (s.hly.children.any fun c => c.node == src) = true ∨ s.hly.children.length < 64) :
    ((s.attach src).hly.children.any fun c => c.node == src) = true := by
  unfold State.attach
  by_cases g : (s.hly.children.any fun c => c.node == src) = true
  · rw [if_pos g]
    simp only [List.any_eq_true, beq_iff_eq, List.any_map, Function.comp] at g ⊢
    obtain ⟨c, hc, e⟩ := g
    exact ⟨c, hc, by rw [if_pos e]; exact e⟩
  · rw [if_neg g, if_neg (by rcases h with h | h; exact absurd h g; omega)]
    dsimp only
    rw [leadUpdate_children, slipUpdate_children]
    cases s.hly.latest with
    | none => 
      show ((s.hly.children ++ [_]).any fun c => c.node == src) = true
      simp
    | some p => 
      show ((s.hly.children ++ [_]).any fun c => c.node == src) = true
      simp

/-- An accepted tick symbol acts, where Halyard is enabled. -/
theorem symbol_acts {s : State} {y : TickSymbol} (type : Nat) (k : State → State) (h : s.symOk y = true) (e : s.flag Reg.HLY_CTRL Fld.HLY_CTRL_ENABLE = true) :
    s.symbol type y k = k (s.takeSym type y) := by
  unfold State.symbol
  dsimp only
  rw [show (s.takeSym type y).symOk y = true from h, if_neg (by decide)]
  rw [show (s.takeSym type y).flag _ _ = true from e, if_neg (by decide)]

/-- An accepted symbol of the tick acts, where the node hears it from its parent. -/
theorem tick_symbol_acts {s : State} {y : TickSymbol} (type : Nat) (k : State → State) (h : s.symOk y = true) (e : s.flag Reg.HLY_CTRL Fld.HLY_CTRL_ENABLE = true)
    (m : s.isMaster = false) (f : s.hly.seen.contains (type, y) = false) :
    s.tickSymbol type y k = k ({ s.takeSym type y with hly := { (s.takeSym type y).hly with seen := s.hly.seen ++ [(type, y)] } }.sendChildren type y) := by
  unfold State.tickSymbol
  rw [symbol_acts _ _ h e]
  exact if_neg (by rw [show (s.takeSym type y).isMaster = false from m, show (s.takeSym type y).hly.seen.contains (type, y) = false from f]; decide)

end Sys2Proof.Machine
end

