-- ==== Sys2Proof/Laws/Hawser.lean ====
section
/-! SUPPORT. Hawser: what the receipt of a packet leaves alone, the acceptance of packets, the first run of a request, and the checks of packets made here. -/

namespace Sys2Proof.Machine

/-- The outcome that goes on. -/
abbrev nextOf (a : State) : Host.Outcome State Fault Refusal := .next a

/-- Taking a packet from the ports changes the ports alone. -/
theorem rxTake_eq (s : State) (p : Packet) : s.rxTake p = { s with ports := (s.rxTake p).ports } := by
  unfold State.rxTake
  cases s.ports.rx.find? fun e => e.2 == p with
  | none => rfl
  | some e => obtain ⟨q, k⟩ := e; cases q <;> rfl

theorem rd_rxTake (s : State) (p : Packet) (a : Nat) : (s.rxTake p).rd a = s.rd a := by
  rw [rxTake_eq]; rfl

theorem rxTake_mem (s : State) (p : Packet) : (s.rxTake p).mem = s.mem := by rw [rxTake_eq]

/-- A packet that arrives is counted in bytes. -/
theorem rd_arrived (s : State) (p : Packet) (a : Nat) (h : a ≠ Reg.HWS_CNT_RX_BYTES) : (s.arrived p).rd a = s.rd a := by
  unfold State.arrived; rw [rd_bump64, if_neg h]; exact rd_rxTake _ _ _

theorem fld_arrived (s : State) (p : Packet) (a : Nat) (f : Field) (h : a ≠ Reg.HWS_CNT_RX_BYTES) : (s.arrived p).fld a f = s.fld a f := by
  unfold State.fld; rw [rd_arrived _ _ _ h]

theorem flag_arrived (s : State) (p : Packet) (a : Nat) (f : Field) (h : a ≠ Reg.HWS_CNT_RX_BYTES) : (s.arrived p).flag a f = s.flag a f := by
  unfold State.flag; rw [fld_arrived _ _ _ _ h]

theorem hwsOn_arrived (s : State) (p : Packet) : (s.arrived p).hwsOn = s.hwsOn := by
  unfold State.hwsOn; rw [flag_arrived _ _ _ _ (by decide), flag_arrived _ _ _ _ (by decide)]

theorem ownNode_arrived (s : State) (p : Packet) : (s.arrived p).ownNode = s.ownNode := by
  unfold State.ownNode; rw [fld_arrived _ _ _ _ (by decide)]

/-- The four checks of a packet, in terms of the state before it arrived. -/
theorem hwsAccept_eq (s : State) (p : Packet) : (s.rxTake p).hwsAccept p =
    (let a := s.arrived p
    if packetCrcOk p = false then (a.bump32 Reg.HWS_CNT_CRC_DROP 1, false)
    else if !typeKnown (pType p) || !classOk (pType p) (pTc p) || pDst p != s.ownNode then (a.bump32 Reg.HWS_CNT_MALFORMED 1, false)
    else if s.hwsOn = false then (a, false)
    else if s.flag Reg.HWS_PART Fld.HWS_PART_VALID = false ∨ pPart p ≠ s.fld Reg.HWS_PART Fld.HWS_PART_PARTITION then
      (a.event Reg.HWS_EVENT Fld.HWS_EVENT_PART_DROP Reg.HWS_CNT_PART_DROP, false)
    else if pEpoch p ≠ s.fld Reg.HWS_PART Fld.HWS_PART_EPOCH then
      (a.event Reg.HWS_EVENT Fld.HWS_EVENT_STALE_EPOCH Reg.HWS_CNT_STALE_EPOCH, false)
    else (a, true)) := by
  rw [← ownNode_arrived s p, ← hwsOn_arrived s p, ← flag_arrived s p Reg.HWS_PART _ (by decide), ← fld_arrived s p Reg.HWS_PART Fld.HWS_PART_PARTITION (by decide), ← fld_arrived s p Reg.HWS_PART Fld.HWS_PART_EPOCH (by decide)]
  rfl

theorem hwsAccept_of_admits {s : State} {type : Nat} {p : Packet} (h : s.admits type p) (hk : typeKnown type = true) : (s.rxTake p).hwsAccept p = (s.arrived p, true) := by
  obtain ⟨h1, h2, h3, h4, h5, h6, h7, h8, h9⟩ := h
  rw [hwsAccept_eq]
  dsimp only
  rw [if_neg (by rw [h3]; decide), if_neg (by rw [h2, hk, h4, h5]; simp), if_neg (by rw [h6]; decide), if_neg (by rw [h7, h8]; simp), if_neg (by rw [h9]; simp)]

/-- A request of the type, unfolded once. -/
theorem hwsRequest_eq (s : State) (type : Nat) (p : Packet) (h1 : s.working (capFdie 0) = true) (h2 : pType p = type) : s.hwsRequest type p =
    (let q := s.rxPort p
    let a := (s.rxTake p).hwsAccept p
    if a.2 = false then a.1
    else
      let s := a.1.bump64 Reg.HWS_CNT_RX_REQ 1
      if s.ageOk p = false then s.event Reg.HWS_EVENT Fld.HWS_EVENT_AGED Reg.HWS_CNT_AGED
      else if s.ticking = false then
        (s.bump32 Reg.HWS_CNT_NOT_READY 1).respond p (answerType type) csNotReady []
      else s.hwsTake q p) := by
  unfold State.hwsRequest
  rw [if_neg (by rw [h1, h2]; simp)]

theorem ageOk_arrived (s : State) (p : Packet) : ((s.arrived p).bump64 Reg.HWS_CNT_RX_REQ 1).ageOk p = s.ageOk p := by
  have (a : Nat) (h : a ≠ Reg.HWS_CNT_RX_REQ) (h' : a ≠ Reg.HWS_CNT_RX_BYTES) : ((s.arrived p).bump64 Reg.HWS_CNT_RX_REQ 1).rd a = s.rd a := by
    rw [rd_bump64, if_neg h, rd_arrived _ _ _ h']
  unfold State.ageOk State.age State.time State.fld
  rw [this _ (by decide) (by decide), this _ (by decide) (by decide)]

theorem ticking_arrived (s : State) (p : Packet) : ((s.arrived p).bump64 Reg.HWS_CNT_RX_REQ 1).ticking = s.ticking := by
  have (a : Nat) (h : a ≠ Reg.HWS_CNT_RX_REQ) (h' : a ≠ Reg.HWS_CNT_RX_BYTES) : ((s.arrived p).bump64 Reg.HWS_CNT_RX_REQ 1).rd a = s.rd a := by
    rw [rd_bump64, if_neg h, rd_arrived _ _ _ h']
  unfold State.ticking State.hlyState State.fld
  rw [this _ (by decide) (by decide)]

/-- A request that meets no check, parked queue or replay entry is served. -/
theorem hwsRequest_of_serves {s : State} {type : Nat} {p : Packet} (h : s.serves type p) (hk : typeKnown type = true) :
    s.hwsRequest type p = ((s.arrived p).bump64 Reg.HWS_CNT_RX_REQ 1).hwsTake (s.rxPort p) p := by
  obtain ⟨h1, h2, h3⟩ := h
  rw [hwsRequest_eq _ _ _ h1.1 h1.2.1, hwsAccept_of_admits h1 hk]
  dsimp only
  rw [if_neg (by decide), if_neg (by rw [ageOk_arrived, h2]; decide), if_neg (by rw [ticking_arrived, h3]; decide)]

theorem emit_mem (s : State) (q : Nat) (k : Packet) : (s.emit q k).mem = s.mem := rfl

theorem respond_mem (s : State) (p : Packet) (t st : Nat) (d : List Byte) : (s.respond p t st d).mem = s.mem := by
  unfold State.respond
  dsimp only
  split_ifs with h
  · cases s.respPort (pSrc p) <;> rfl
  · have e := event_eq s Reg.HWS_EVENT Fld.HWS_EVENT_HOT Reg.HWS_CNT_HOT 0
    have em : (s.event Reg.HWS_EVENT Fld.HWS_EVENT_HOT Reg.HWS_CNT_HOT).mem = s.mem := by rw [e]
    cases (s.event Reg.HWS_EVENT Fld.HWS_EVENT_HOT Reg.HWS_CNT_HOT).respPort (pSrc p)
    · exact em
    · exact em

theorem journalAdd_mem (s : State) (e : ReplayEntry) : (s.journalAdd e).mem = s.mem := by
  unfold State.journalAdd
  split
  · dsimp only; rw [event_eq]
  · rfl

theorem foldl_journalAdd_mem (l : List ReplayEntry) (s : State) : (l.foldl State.journalAdd s).mem = s.mem := by
  induction l generalizing s with
  | nil => rfl
  | cons a l ih => rw [List.foldl_cons, ih, journalAdd_mem]

theorem tagSeen_mem (s : State) (a b c : Nat) : (s.tagSeen a b c).2.mem = s.mem := by
  unfold State.tagSeen State.cacheFree State.replayOcc
  dsimp only
  split_ifs
  all_goals first | rfl | (show (List.foldl State.journalAdd _ _).mem = _; rw [foldl_journalAdd_mem])

theorem respond_parked (s : State) (p : Packet) (t st : Nat) (d : List Byte) : (s.respond p t st d).hws.parked = s.hws.parked := by
  unfold State.respond
  dsimp only
  split_ifs with h
  · cases s.respPort (pSrc p) <;> rfl
  · have e := event_eq s Reg.HWS_EVENT Fld.HWS_EVENT_HOT Reg.HWS_CNT_HOT 0
    have em : (s.event Reg.HWS_EVENT Fld.HWS_EVENT_HOT Reg.HWS_CNT_HOT).hws.parked = s.hws.parked := by rw [e]
    cases (s.event Reg.HWS_EVENT Fld.HWS_EVENT_HOT Reg.HWS_CNT_HOT).respPort (pSrc p)
    · exact em
    · exact em

theorem journalAdd_parked (s : State) (e : ReplayEntry) : (s.journalAdd e).hws.parked = s.hws.parked := by
  unfold State.journalAdd
  split
  · dsimp only; rw [event_eq]
  · rfl

theorem foldl_journalAdd_parked (l : List ReplayEntry) (s : State) : (l.foldl State.journalAdd s).hws.parked = s.hws.parked := by
  induction l generalizing s with
  | nil => rfl
  | cons a l ih => rw [List.foldl_cons, ih, journalAdd_parked]

theorem tagSeen_parked (s : State) (a b c : Nat) : (s.tagSeen a b c).2.hws.parked = s.hws.parked := by
  unfold State.tagSeen State.cacheFree State.replayOcc
  dsimp only
  split_ifs
  all_goals first | rfl | (show (List.foldl State.journalAdd _ _).hws.parked = _; rw [foldl_journalAdd_parked])

theorem unpark_nil {s : State} (h : s.hws.parked = []) : s.unpark.mem = s.mem ∧ s.unpark.hws.parked = [] := by
  unfold State.unpark
  rw [h]
  exact ⟨rfl, rfl⟩

theorem tagFirst_nil {s : State} (p : Packet) (h : s.hws.parked = []) : (s.tagFirst p).mem = s.mem ∧ (s.tagFirst p).hws.parked = [] := by
  have e : (s.tagSeen (pSrc p) (pSport p) (pTag p)).2.hws.parked = [] := by rw [tagSeen_parked, h]
  unfold State.tagFirst
  dsimp only
  split
  · rw [(unpark_nil e).1, tagSeen_mem]; exact ⟨rfl, (unpark_nil e).2⟩
  · exact ⟨tagSeen_mem _ _ _ _, e⟩

theorem refreshGoes_nil {s : State} (p : Packet) (h : s.hws.parked = []) : (s.refreshGoes p).mem = s.mem := by
  unfold State.refreshGoes
  split
  · exact (unpark_nil h).1
  · rfl

/-- Where no request waits, the count of a new one leaves memory alone, and none waits then. -/
theorem noted_nil {s : State} (p : Packet) (h : s.hws.parked = []) : (s.noted p).mem = s.mem ∧ (s.noted p).hws.parked = [] := by
  have e : ((s.arrived p).bump64 Reg.HWS_CNT_RX_REQ 1).hws.parked = [] := by
    show (s.rxTake p).hws.parked = []
    rw [rxTake_eq]; exact h
  have := tagFirst_nil p e
  unfold State.noted State.tagPlace
  rw [tagSeen_mem, tagSeen_parked, this.1]
  exact ⟨rxTake_mem s p, this.2⟩

theorem crcBit_lt {c : Nat} (h : c < 2 ^ 32) : crcBit c < 2 ^ 32 := by
  unfold crcBit
  split
  · exact Nat.xor_lt_two_pow (by omega) (by decide)
  · omega

theorem foldl_crcByte_lt (l : List Byte) (c : Nat) (h : c < 2 ^ 32) : l.foldl crcByte c < 2 ^ 32 := by
  induction l generalizing c with
  | nil => exact h
  | cons b l ih =>
    refine ih _ ?_
    unfold crcByte
    have : c ^^^ b.toNat < 2 ^ 32 := Nat.xor_lt_two_pow h (by have := b.isLt; omega)
    exact crcBit_lt (crcBit_lt (crcBit_lt (crcBit_lt (crcBit_lt (crcBit_lt (crcBit_lt (crcBit_lt this)))))))

theorem crc32c_lt (l : List Byte) : crc32c l < 2 ^ 32 := by
  unfold crc32c
  exact Nat.xor_lt_two_pow (foldl_crcByte_lt l _ (by decide)) (by decide)

/-- A packet made here passes its own check. -/
theorem packetCrcOk_mkPacket (a b c d : Word) (l : List Byte) : packetCrcOk (mkPacket a b c d l) = true := by
  unfold packetCrcOk mkPacket
  have e : packetBody { w0 := a, w1 := b, w2 := c, w3 := d, payload := l, trailer := BitVec.ofNat 64 (crc32c (packetBody ⟨a, b, c, d, l, 0⟩)) } = packetBody ⟨a, b, c, d, l, 0⟩ := rfl
  dsimp only
  rw [e]
  have := crc32c_lt (packetBody ⟨a, b, c, d, l, 0⟩)
  simp only [beq_iff_eq]
  unfold bits
  rw [BitVec.toNat_ofNat]
  omega

theorem pType_mkPacket (s : State) (t tc sp dst : Nat) (ht : t < 64) (hc : tc < 8) {b c d : Word} {l : List Byte} : pType (mkPacket (s.hdr0 t tc sp dst) b c d l) = t := by
  show bits (s.hdr0 t tc sp dst).toNat 63 58 = t
  unfold State.hdr0 bits
  have h1 : s.fld Reg.HWS_PART Fld.HWS_PART_PARTITION < 2 ^ 12 := getF_lt _ _
  have h2 : s.fld Reg.HWS_PART Fld.HWS_PART_EPOCH < 2 ^ 8 := getF_lt _ _
  have h3 : s.fld Reg.HWS_NODE Fld.HWS_NODE_NODE < 2 ^ 16 := getF_lt _ _
  rw [BitVec.toNat_ofNat]
  omega

end Sys2Proof.Machine
end

