-- ==== Sys2Proof/Laws/Host.lean ====
section
/-! SUPPORT. An operation of a hart that issues and may use it is carried out. -/

namespace Sys2Proof.Machine

/-- An operation of its hart that issues with permission is carried out. -/
theorem service_runs {s : State} {h : Nat} {w : BitVec 32} {f3 : Nat} (hi : s.hartIssues h w f3) (may ok : Bool) (k : State → State) (mine : Bool) (hm : mine = true) :
    s.svareot h w f3 mine may ok k = if (may && ok) = true then k s else s.hartIllegal h w := by
  obtain ⟨h1, h2, h3⟩ := hi
  unfold State.svareot
  rw [if_neg (by rw [h1, h2]; simp), if_pos ⟨h3, hm⟩]

end Sys2Proof.Machine
end

