-- ==== Sys2Proof/Laws/KeepOps.lean ====
section
/-! SUPPORT. No operation of Machine/Ops.lean touches the queue of commands or the fuses. -/

set_option linter.unusedTactic false
set_option linter.unreachableTactic false
set_option linter.unnecessarySeqFocus false

namespace Sys2Proof.Machine

@[simp] theorem State.wr_keep (s : State) (a : Nat) (v : Word) : (State.wr s a v).pending = s.pending ∧ (State.wr s a v).fuse = s.fuse := by
  refine ⟨?_, ?_⟩ <;> (unfold State.wr; all_goals (try dsimp only); all_goals (repeat' split); all_goals simp_all)

@[simp] theorem State.dropRegs_keep (s : State) (lo hi : Nat) : (State.dropRegs s lo hi).pending = s.pending ∧ (State.dropRegs s lo hi).fuse = s.fuse := by
  refine ⟨?_, ?_⟩ <;> (unfold State.dropRegs; all_goals (try dsimp only); all_goals (repeat' split); all_goals simp_all)

@[simp] theorem State.setFld_keep (s : State) (a : Nat) (f : Field) (x : Nat) : (State.setFld s a f x).pending = s.pending ∧ (State.setFld s a f x).fuse = s.fuse := by
  refine ⟨?_, ?_⟩ <;> (unfold State.setFld; all_goals (try dsimp only); all_goals (repeat' split); all_goals simp_all)

@[simp] theorem State.setFlds_keep (s : State) (a : Nat) (l : List (Field × Nat)) : (State.setFlds s a l).pending = s.pending ∧ (State.setFlds s a l).fuse = s.fuse := by
  refine ⟨?_, ?_⟩ <;> (unfold State.setFlds; all_goals (try dsimp only); all_goals (repeat' split); all_goals simp_all)

@[simp] theorem State.bump32_keep (s : State) (a n : Nat) : (State.bump32 s a n).pending = s.pending ∧ (State.bump32 s a n).fuse = s.fuse := by
  refine ⟨?_, ?_⟩ <;> (unfold State.bump32; all_goals (try dsimp only); all_goals (repeat' split); all_goals simp_all)

@[simp] theorem State.bump64_keep (s : State) (a n : Nat) : (State.bump64 s a n).pending = s.pending ∧ (State.bump64 s a n).fuse = s.fuse := by
  refine ⟨?_, ?_⟩ <;> (unfold State.bump64; all_goals (try dsimp only); all_goals (repeat' split); all_goals simp_all)

@[simp] theorem State.bump48_keep (s : State) (a n : Nat) : (State.bump48 s a n).pending = s.pending ∧ (State.bump48 s a n).fuse = s.fuse := by
  refine ⟨?_, ?_⟩ <;> (unfold State.bump48; all_goals (try dsimp only); all_goals (repeat' split); all_goals simp_all)

@[simp] theorem State.bumpFld_keep (s : State) (a : Nat) (f : Field) (n : Nat) : (State.bumpFld s a f n).pending = s.pending ∧ (State.bumpFld s a f n).fuse = s.fuse := by
  refine ⟨?_, ?_⟩ <;> (unfold State.bumpFld; all_goals (try dsimp only); all_goals (repeat' split); all_goals simp_all)

@[simp] theorem State.free_keep (s : State) (kind : Nat) : (State.free s kind).2.pending = s.pending ∧ (State.free s kind).2.fuse = s.fuse := by
  refine ⟨?_, ?_⟩ <;> (unfold State.free; all_goals (try dsimp only); all_goals (repeat' split); all_goals simp_all)

@[simp] theorem State.log_keep (s : State) (reg bitNo code detail : Nat) : (State.log s reg bitNo code detail).pending = s.pending ∧ (State.log s reg bitNo code detail).fuse = s.fuse := by
  refine ⟨?_, ?_⟩ <;> (unfold State.log; all_goals (try dsimp only); all_goals (repeat' split); all_goals simp_all)

@[simp] theorem State.logCode_keep (s : State) (code detail : Nat) : (State.logCode s code detail).pending = s.pending ∧ (State.logCode s code detail).fuse = s.fuse := by
  refine ⟨?_, ?_⟩ <;> (unfold State.logCode; all_goals (try dsimp only); all_goals (repeat' split); all_goals simp_all)

@[simp] theorem State.event_keep (s : State) (reg : Nat) (f : Field) (cnt : Nat) (detail : Nat := 0) : (State.event s reg f cnt detail).pending = s.pending ∧ (State.event s reg f cnt detail).fuse = s.fuse := by
  refine ⟨?_, ?_⟩ <;> (unfold State.event; all_goals (try dsimp only); all_goals (repeat' split); all_goals simp_all)

@[simp] theorem State.event16_keep (s : State) (reg : Nat) (f : Field) (cnt lo : Nat) : (State.event16 s reg f cnt lo).pending = s.pending ∧ (State.event16 s reg f cnt lo).fuse = s.fuse := by
  refine ⟨?_, ?_⟩ <;> (unfold State.event16; all_goals (try dsimp only); all_goals (repeat' split); all_goals simp_all)

@[simp] theorem State.capClear_keep (s : State) (b : Nat) : (State.capClear s b).pending = s.pending ∧ (State.capClear s b).fuse = s.fuse := by
  refine ⟨?_, ?_⟩ <;> (unfold State.capClear; all_goals (try dsimp only); all_goals (repeat' split); all_goals simp_all)

@[simp] theorem State.capSet_keep (s : State) (b : Nat) : (State.capSet s b).pending = s.pending ∧ (State.capSet s b).fuse = s.fuse := by
  refine ⟨?_, ?_⟩ <;> (unfold State.capSet; all_goals (try dsimp only); all_goals (repeat' split); all_goals simp_all)

@[simp] theorem State.service_keep (s : State) (f : Field) : (State.service s f).pending = s.pending ∧ (State.service s f).fuse = s.fuse := by
  refine ⟨?_, ?_⟩ <;> (unfold State.service; all_goals (try dsimp only); all_goals (repeat' split); all_goals simp_all)

@[simp] theorem State.poisonUsed_keep (s : State) (die a : Nat) : (State.poisonUsed s die a).pending = s.pending ∧ (State.poisonUsed s die a).fuse = s.fuse := by
  refine ⟨?_, ?_⟩ <;> (unfold State.poisonUsed; all_goals (try dsimp only); all_goals (repeat' split); all_goals simp_all)

end Sys2Proof.Machine
end

