-- ==== Sys2Proof/Laws/KeepNvm.lean ====
section
/-! SUPPORT. No operation of Machine/Nvm.lean touches the queue of commands or the fuses. -/

set_option linter.unusedTactic false
set_option linter.unreachableTactic false
set_option linter.unnecessarySeqFocus false

namespace Sys2Proof.Machine

@[simp] theorem State.lossWrite_keep (s : State) (l : List (Nat × Nat)) : (State.lossWrite s l).pending = s.pending ∧ (State.lossWrite s l).fuse = s.fuse := by
  refine ⟨?_, ?_⟩ <;> (unfold State.lossWrite; all_goals (try dsimp only); all_goals (repeat' split); all_goals simp_all)

@[simp] theorem State.putLoss_keep (s : State) (kind index : Nat) : (State.putLoss s kind index).pending = s.pending ∧ (State.putLoss s kind index).fuse = s.fuse := by
  refine ⟨?_, ?_⟩ <;> (unfold State.putLoss; all_goals (try dsimp only); all_goals (repeat' split); all_goals simp_all)

@[simp] theorem State.addLoss_keep (s : State) (kind index : Nat) : (State.addLoss s kind index).pending = s.pending ∧ (State.addLoss s kind index).fuse = s.fuse := by
  refine ⟨?_, ?_⟩ <;> (unfold State.addLoss; all_goals (try dsimp only); all_goals (repeat' split); all_goals simp_all)

end Sys2Proof.Machine
end

