-- ==== Sys2Proof/Laws/KeepMem.lean ====
section
/-! SUPPORT. No operation of Machine/Mem.lean touches the queue of commands or the fuses. -/

set_option linter.unusedTactic false
set_option linter.unreachableTactic false
set_option linter.unnecessarySeqFocus false

namespace Sys2Proof.Machine

@[simp] theorem State.wcOcc_keep (s : State) (c : Nat) : (State.wcOcc s c).pending = s.pending ∧ (State.wcOcc s c).fuse = s.fuse := by
  refine ⟨?_, ?_⟩ <;> (unfold State.wcOcc; all_goals (try dsimp only); all_goals (repeat' split); all_goals simp_all)

@[simp] theorem State.unitWcLost_keep (s : State) (unit : Nat) : (State.unitWcLost s unit).pending = s.pending ∧ (State.unitWcLost s unit).fuse = s.fuse := by
  refine ⟨?_, ?_⟩ <;> (unfold State.unitWcLost; all_goals (try dsimp only); all_goals (repeat' split); all_goals simp_all)

@[simp] theorem State.unitFail_keep (s : State) (unit : Nat) : (State.unitFail s unit).pending = s.pending ∧ (State.unitFail s unit).fuse = s.fuse := by
  refine ⟨?_, ?_⟩ <;> (unfold State.unitFail; all_goals (try dsimp only); all_goals (repeat' split); all_goals simp_all)

@[simp] theorem State.ueWatch_keep (s : State) (u : Nat) : (State.ueWatch s u).pending = s.pending ∧ (State.ueWatch s u).fuse = s.fuse := by
  refine ⟨?_, ?_⟩ <;> (unfold State.ueWatch; all_goals (try dsimp only); all_goals (repeat' split); all_goals simp_all)

@[simp] theorem State.capture_keep (s : State) (a line symbol : Nat) : (State.capture s a line symbol).pending = s.pending ∧ (State.capture s a line symbol).fuse = s.fuse := by
  refine ⟨?_, ?_⟩ <;> (unfold State.capture; all_goals (try dsimp only); all_goals (repeat' split); all_goals simp_all)

@[simp] theorem State.setErr_keep (s : State) (line : Nat) (e : LineErr) : (State.setErr s line e).pending = s.pending ∧ (State.setErr s line e).fuse = s.fuse := by
  refine ⟨?_, ?_⟩ <;> (unfold State.setErr; all_goals (try dsimp only); all_goals (repeat' split); all_goals simp_all)

@[simp] theorem State.corrected_keep (s : State) (u line symbol : Nat) : (State.corrected s u line symbol).pending = s.pending ∧ (State.corrected s u line symbol).fuse = s.fuse := by
  refine ⟨?_, ?_⟩ <;> (unfold State.corrected; all_goals (try dsimp only); all_goals (repeat' split); all_goals simp_all)

@[simp] theorem State.uncorrectable_keep (s : State) (u line symbol : Nat) : (State.uncorrectable s u line symbol).pending = s.pending ∧ (State.uncorrectable s u line symbol).fuse = s.fuse := by
  refine ⟨?_, ?_⟩ <;> (unfold State.uncorrectable; all_goals (try dsimp only); all_goals (repeat' split); all_goals simp_all)

@[simp] theorem State.ueRead_keep (s : State) (u line symbol : Nat) : (State.ueRead s u line symbol).pending = s.pending ∧ (State.ueRead s u line symbol).fuse = s.fuse := by
  refine ⟨?_, ?_⟩ <;> (unfold State.ueRead; all_goals (try dsimp only); all_goals (repeat' split); all_goals simp_all)

@[simp] theorem State.setPoison_keep (s : State) (line : Nat) (b : Bool) : (State.setPoison s line b).pending = s.pending ∧ (State.setPoison s line b).fuse = s.fuse := by
  refine ⟨?_, ?_⟩ <;> (unfold State.setPoison; all_goals (try dsimp only); all_goals (repeat' split); all_goals simp_all)

@[simp] theorem State.readLine_keep (s : State) (line : Nat) : (State.readLine s line).1.pending = s.pending ∧ (State.readLine s line).1.fuse = s.fuse := by
  refine ⟨?_, ?_⟩ <;> (unfold State.readLine; all_goals (try dsimp only); all_goals (repeat' split); all_goals simp_all)

@[simp] theorem State.wcDrop_keep (s : State) (line : Nat) : (State.wcDrop s line).pending = s.pending ∧ (State.wcDrop s line).fuse = s.fuse := by
  refine ⟨?_, ?_⟩ <;> (unfold State.wcDrop; all_goals (try dsimp only); all_goals (repeat' split); all_goals simp_all)

@[simp] theorem State.wcStore_keep (s : State) (e : WcEntry) : (State.wcStore s e).pending = s.pending ∧ (State.wcStore s e).fuse = s.fuse := by
  refine ⟨?_, ?_⟩ <;> (unfold State.wcStore; all_goals (try dsimp only); all_goals (repeat' split); all_goals simp_all)

@[simp] theorem State.wcFlush_keep (s : State) (e : WcEntry) : (State.wcFlush s e).pending = s.pending ∧ (State.wcFlush s e).fuse = s.fuse := by
  refine ⟨?_, ?_⟩ <;> (unfold State.wcFlush; all_goals (try dsimp only); all_goals (repeat' split); all_goals simp_all)

@[simp] theorem State.wcFlushList_keep (s : State) (x0 : List WcEntry) : (State.wcFlushList s x0).pending = s.pending ∧ (State.wcFlushList s x0).fuse = s.fuse := by
  induction x0 generalizing s with
  | nil => simp [State.wcFlushList]
  | cons a r ih => refine ⟨?_, ?_⟩ <;> (unfold State.wcFlushList; all_goals (try dsimp only); all_goals (repeat' split); all_goals simp_all)

@[simp] theorem State.wcFlushAll_keep (s : State) : (State.wcFlushAll s).pending = s.pending ∧ (State.wcFlushAll s).fuse = s.fuse := by
  refine ⟨?_, ?_⟩ <;> (unfold State.wcFlushAll; all_goals (try dsimp only); all_goals (repeat' split); all_goals simp_all)

@[simp] theorem State.wcMerge_keep (s : State) (c line o : Nat) (bs : List Byte) : (State.wcMerge s c line o bs).pending = s.pending ∧ (State.wcMerge s c line o bs).fuse = s.fuse := by
  refine ⟨?_, ?_⟩ <;> (unfold State.wcMerge; all_goals (try dsimp only); all_goals (repeat' split); all_goals simp_all)

@[simp] theorem State.storeLine_keep (s : State) (line : Nat) (bs : List Byte) : (State.storeLine s line bs).pending = s.pending ∧ (State.storeLine s line bs).fuse = s.fuse := by
  refine ⟨?_, ?_⟩ <;> (unfold State.storeLine; all_goals (try dsimp only); all_goals (repeat' split); all_goals simp_all)

@[simp] theorem State.storeBytes_keep (s : State) (a : Nat) (bs : List Byte) : (State.storeBytes s a bs).pending = s.pending ∧ (State.storeBytes s a bs).fuse = s.fuse := by
  refine ⟨?_, ?_⟩ <;> (unfold State.storeBytes; all_goals (try dsimp only); all_goals (repeat' split); all_goals simp_all)

@[simp] theorem State.writeLine_keep (s : State) (line o : Nat) (bs : List Byte) : (State.writeLine s line o bs).1.pending = s.pending ∧ (State.writeLine s line o bs).1.fuse = s.fuse := by
  refine ⟨?_, ?_⟩ <;> (unfold State.writeLine; all_goals (try dsimp only); all_goals (repeat' split); all_goals simp_all)

@[simp] theorem State.writeLines_keep (s : State) (a : Nat) (bs : List Byte) (x0 : List Nat) : (State.writeLines s a bs x0).1.pending = s.pending ∧ (State.writeLines s a bs x0).1.fuse = s.fuse := by
  induction x0 generalizing s a bs with
  | nil => simp [State.writeLines]
  | cons a r ih => refine ⟨?_, ?_⟩ <;> (unfold State.writeLines; all_goals (try dsimp only); all_goals (repeat' split); all_goals simp_all)

@[simp] theorem State.writeRaw_keep (s : State) (a : Nat) (bs : List Byte) : (State.writeRaw s a bs).1.pending = s.pending ∧ (State.writeRaw s a bs).1.fuse = s.fuse := by
  refine ⟨?_, ?_⟩ <;> (unfold State.writeRaw; all_goals (try dsimp only); all_goals (repeat' split); all_goals simp_all)

@[simp] theorem State.readLines_keep (s : State) (x0 : List Nat) : (State.readLines s x0).1.pending = s.pending ∧ (State.readLines s x0).1.fuse = s.fuse := by
  induction x0 generalizing s with
  | nil => simp [State.readLines]
  | cons a r ih => refine ⟨?_, ?_⟩ <;> (unfold State.readLines; all_goals (try dsimp only); all_goals (repeat' split); all_goals simp_all)

@[simp] theorem State.read_keep (s : State) (a n : Nat) : (State.read s a n).st.pending = s.pending ∧ (State.read s a n).st.fuse = s.fuse := by
  refine ⟨?_, ?_⟩ <;> (unfold State.read; all_goals (try dsimp only); all_goals (repeat' split); all_goals simp_all)

@[simp] theorem State.readDesc_keep (s : State) (die a : Nat) : (State.readDesc s die a).st.pending = s.pending ∧ (State.readDesc s die a).st.fuse = s.fuse := by
  refine ⟨?_, ?_⟩ <;> (unfold State.readDesc; all_goals (try dsimp only); all_goals (repeat' split); all_goals simp_all)

@[simp] theorem State.walk_keep (s : State) (die da part : Nat) (acc : Access) (x0 : Nat) (x1 : Nat) : (State.walk s die da part acc x0 x1).1.pending = s.pending ∧ (State.walk s die da part acc x0 x1).1.fuse = s.fuse := by
  induction x0 generalizing s die da part acc x1 with
  | zero => simp [State.walk]
  | succ k ih => refine ⟨?_, ?_⟩ <;> (unfold State.walk; all_goals (try dsimp only); all_goals (repeat' split); all_goals simp_all)

@[simp] theorem State.translateE_keep (s : State) (die root part da : Nat) (acc : Access) : (State.translateE s die root part da acc).1.pending = s.pending ∧ (State.translateE s die root part da acc).1.fuse = s.fuse := by
  refine ⟨?_, ?_⟩ <;> (unfold State.translateE; all_goals (try dsimp only); all_goals (repeat' split); all_goals simp_all)

@[simp] theorem State.translate_keep (s : State) (die root part da : Nat) (acc : Access) : (State.translate s die root part da acc).1.pending = s.pending ∧ (State.translate s die root part da acc).1.fuse = s.fuse := by
  refine ⟨?_, ?_⟩ <;> (unfold State.translate; all_goals (try dsimp only); all_goals (repeat' split); all_goals simp_all)

@[simp] theorem State.dirtySet_keep (s : State) (w i : Nat) (b : Bool) : (State.dirtySet s w i b).pending = s.pending ∧ (State.dirtySet s w i b).fuse = s.fuse := by
  refine ⟨?_, ?_⟩ <;> (unfold State.dirtySet; all_goals (try dsimp only); all_goals (repeat' split); all_goals simp_all)

@[simp] theorem State.dirtyLine_keep (s : State) (line : Nat) (x0 : List Nat) : (State.dirtyLine s line x0).pending = s.pending ∧ (State.dirtyLine s line x0).fuse = s.fuse := by
  induction x0 generalizing s line with
  | nil => simp [State.dirtyLine]
  | cons a r ih => refine ⟨?_, ?_⟩ <;> (unfold State.dirtyLine; all_goals (try dsimp only); all_goals (repeat' split); all_goals simp_all)

@[simp] theorem State.write_keep (s : State) (a : Nat) (bs : List Byte) : (State.write s a bs).1.pending = s.pending ∧ (State.write s a bs).1.fuse = s.fuse := by
  refine ⟨?_, ?_⟩ <;> (unfold State.write; all_goals (try dsimp only); all_goals (repeat' split); all_goals simp_all)

@[simp] theorem State.devRead_keep (s : State) (die root part da n : Nat) (x0 : Nat) : (State.devRead s die root part da n x0).1.pending = s.pending ∧ (State.devRead s die root part da n x0).1.fuse = s.fuse := by
  induction x0 generalizing s die root part da n with
  | zero => simp [State.devRead]
  | succ k ih => refine ⟨?_, ?_⟩ <;> (unfold State.devRead; all_goals (try dsimp only); all_goals (repeat' split); all_goals simp_all)

@[simp] theorem State.devWrite_keep (s : State) (die root part da : Nat) (bs : List Byte) (x0 : Nat) : (State.devWrite s die root part da bs x0).1.pending = s.pending ∧ (State.devWrite s die root part da bs x0).1.fuse = s.fuse := by
  induction x0 generalizing s die root part da bs with
  | zero => simp [State.devWrite]
  | succ k ih => refine ⟨?_, ?_⟩ <;> (unfold State.devWrite; all_goals (try dsimp only); all_goals (repeat' split); all_goals simp_all)

end Sys2Proof.Machine
end

