-- ==== Sys2Proof/Laws/KeepEvents.lean ====
section
/-! SUPPORT. No operation of Machine/Events.lean touches the queue of commands or the fuses. -/

set_option linter.unusedTactic false
set_option linter.unreachableTactic false
set_option linter.unnecessarySeqFocus false

namespace Sys2Proof.Machine

@[simp] theorem State.interrupt_keep (s : State) (vector : Nat) : (State.interrupt s vector).pending = s.pending ∧ (State.interrupt s vector).fuse = s.fuse := by
  refine ⟨?_, ?_⟩ <;> (unfold State.interrupt; all_goals (try dsimp only); all_goals (repeat' split); all_goals simp_all)

@[simp] theorem State.evqTakeSeq_keep (s : State) (w : Nat) : (State.evqTakeSeq s w).2.pending = s.pending ∧ (State.evqTakeSeq s w).2.fuse = s.fuse := by
  refine ⟨?_, ?_⟩ <;> (unfold State.evqTakeSeq; all_goals (try dsimp only); all_goals (repeat' split); all_goals simp_all)

@[simp] theorem State.evqAdvance_keep (s : State) (w : Nat) : (State.evqAdvance s w).pending = s.pending ∧ (State.evqAdvance s w).fuse = s.fuse := by
  refine ⟨?_, ?_⟩ <;> (unfold State.evqAdvance; all_goals (try dsimp only); all_goals (repeat' split); all_goals simp_all)

@[simp] theorem State.dieEvqDrop_keep (s : State) (d w : Nat) : (State.dieEvqDrop s d w).pending = s.pending ∧ (State.dieEvqDrop s d w).fuse = s.fuse := by
  refine ⟨?_, ?_⟩ <;> (unfold State.dieEvqDrop; all_goals (try dsimp only); all_goals (repeat' split); all_goals simp_all)

@[simp] theorem State.postDie_keep (s : State) (d q : Nat) (pvalid : Bool) (part type code core : Nat) (a b : Word) : (State.postDie s d q pvalid part type code core a b).1.pending = s.pending ∧ (State.postDie s d q pvalid part type code core a b).1.fuse = s.fuse := by
  refine ⟨?_, ?_⟩ <;> (unfold State.postDie; all_goals (try dsimp only); all_goals (repeat' split); all_goals simp_all)

@[simp] theorem State.hostEvqDrop_keep (s : State) (w : Nat) : (State.hostEvqDrop s w).pending = s.pending ∧ (State.hostEvqDrop s w).fuse = s.fuse := by
  refine ⟨?_, ?_⟩ <;> (unfold State.hostEvqDrop; all_goals (try dsimp only); all_goals (repeat' split); all_goals simp_all)

@[simp] theorem State.postHost_keep (s : State) (q type code core step : Nat) (a b : Word) : (State.postHost s q type code core step a b).1.pending = s.pending ∧ (State.postHost s q type code core step a b).1.fuse = s.fuse := by
  refine ⟨?_, ?_⟩ <;> (unfold State.postHost; all_goals (try dsimp only); all_goals (repeat' split); all_goals simp_all)

end Sys2Proof.Machine
end

