-- ==== Sys2Proof/Laws/KeepHlyOps.lean ====
section
/-! SUPPORT. No operation of Machine/HlyOps.lean touches the queue of commands or the fuses. -/

set_option linter.unusedTactic false
set_option linter.unreachableTactic false
set_option linter.unnecessarySeqFocus false

namespace Sys2Proof.Machine

@[simp] theorem State.setHlyState_keep (s : State) (x : Nat) : (State.setHlyState s x).pending = s.pending ∧ (State.setHlyState s x).fuse = s.fuse := by
  refine ⟨?_, ?_⟩ <;> (unfold State.setHlyState; all_goals (try dsimp only); all_goals (repeat' split); all_goals simp_all)

@[simp] theorem State.timeTo_keep (s : State) (t : Nat) : (State.timeTo s t).pending = s.pending ∧ (State.timeTo s t).fuse = s.fuse := by
  refine ⟨?_, ?_⟩ <;> (unfold State.timeTo; all_goals (try dsimp only); all_goals (repeat' split); all_goals simp_all)

@[simp] theorem State.tickNs_keep (s : State) : (State.tickNs s).pending = s.pending ∧ (State.tickNs s).fuse = s.fuse := by
  refine ⟨?_, ?_⟩ <;> (unfold State.tickNs; all_goals (try dsimp only); all_goals (repeat' split); all_goals simp_all)

@[simp] theorem State.send_keep (s : State) (dst type : Nat) (y : TickSymbol) : (State.send s dst type y).pending = s.pending ∧ (State.send s dst type y).fuse = s.fuse := by
  refine ⟨?_, ?_⟩ <;> (unfold State.send; all_goals (try dsimp only); all_goals (repeat' split); all_goals simp_all)

@[simp] theorem State.sendChildren_keep (s : State) (type : Nat) (y : TickSymbol) : (State.sendChildren s type y).pending = s.pending ∧ (State.sendChildren s type y).fuse = s.fuse := by
  refine ⟨?_, ?_⟩ <;> (unfold State.sendChildren; all_goals (try dsimp only); all_goals (repeat' split); all_goals simp_all)

@[simp] theorem State.sendSlip_keep (s : State) : (State.sendSlip s).pending = s.pending ∧ (State.sendSlip s).fuse = s.fuse := by
  refine ⟨?_, ?_⟩ <;> (unfold State.sendSlip; all_goals (try dsimp only); all_goals (repeat' split); all_goals simp_all)

@[simp] theorem State.leadUpdate_keep (s : State) : (State.leadUpdate s).pending = s.pending ∧ (State.leadUpdate s).fuse = s.fuse := by
  refine ⟨?_, ?_⟩ <;> (unfold State.leadUpdate; all_goals (try dsimp only); all_goals (repeat' split); all_goals simp_all)

@[simp] theorem State.slipUpdate_keep (s : State) : (State.slipUpdate s).pending = s.pending ∧ (State.slipUpdate s).fuse = s.fuse := by
  refine ⟨?_, ?_⟩ <;> (unfold State.slipUpdate; all_goals (try dsimp only); all_goals (repeat' split); all_goals simp_all)

@[simp] theorem State.setDone_keep (s : State) (a j : Nat) : (State.setDone s a j).pending = s.pending ∧ (State.setDone s a j).fuse = s.fuse := by
  refine ⟨?_, ?_⟩ <;> (unfold State.setDone; all_goals (try dsimp only); all_goals (repeat' split); all_goals simp_all)

@[simp] theorem State.coreDone_keep (s : State) (c : Nat) : (State.coreDone s c).pending = s.pending ∧ (State.coreDone s c).fuse = s.fuse := by
  refine ⟨?_, ?_⟩ <;> (unfold State.coreDone; all_goals (try dsimp only); all_goals (repeat' split); all_goals simp_all)

@[simp] theorem State.unitDone_keep (s : State) (f : Field) : (State.unitDone s f).pending = s.pending ∧ (State.unitDone s f).fuse = s.fuse := by
  refine ⟨?_, ?_⟩ <;> (unfold State.unitDone; all_goals (try dsimp only); all_goals (repeat' split); all_goals simp_all)

@[simp] theorem State.maskForce_keep (s : State) (a j : Nat) : (State.maskForce s a j).pending = s.pending ∧ (State.maskForce s a j).fuse = s.fuse := by
  refine ⟨?_, ?_⟩ <;> (unfold State.maskForce; all_goals (try dsimp only); all_goals (repeat' split); all_goals simp_all)

@[simp] theorem State.symArrive_keep (s : State) (e : Nat × TickSymbol) : (State.symArrive s e).pending = s.pending ∧ (State.symArrive s e).fuse = s.fuse := by
  refine ⟨?_, ?_⟩ <;> (unfold State.symArrive; all_goals (try dsimp only); all_goals (repeat' split); all_goals simp_all)

end Sys2Proof.Machine
end

