-- ==== Sys2Proof/Laws/KeepHwsOps.lean ====
section
/-! SUPPORT. No operation of Machine/HwsOps.lean touches the queue of commands or the fuses. -/

set_option linter.unusedTactic false
set_option linter.unreachableTactic false
set_option linter.unnecessarySeqFocus false

namespace Sys2Proof.Machine

@[simp] theorem State.emit_keep (s : State) (p : Nat) (k : Packet) : (State.emit s p k).pending = s.pending ∧ (State.emit s p k).fuse = s.fuse := by
  refine ⟨?_, ?_⟩ <;> (unfold State.emit; all_goals (try dsimp only); all_goals (repeat' split); all_goals simp_all)

@[simp] theorem State.chooseServe_keep (s : State) : (State.chooseServe s).pending = s.pending ∧ (State.chooseServe s).fuse = s.fuse := by
  refine ⟨?_, ?_⟩ <;> (unfold State.chooseServe; all_goals (try dsimp only); all_goals (repeat' split); all_goals simp_all)

@[simp] theorem State.takeScount_keep (s : State) (agent : Nat) : (State.takeScount s agent).2.pending = s.pending ∧ (State.takeScount s agent).2.fuse = s.fuse := by
  refine ⟨?_, ?_⟩ <;> (unfold State.takeScount; all_goals (try dsimp only); all_goals (repeat' split); all_goals simp_all)

@[simp] theorem State.sendReq_keep (s : State) (r : Req) (p : Nat) : (State.sendReq s r p).pending = s.pending ∧ (State.sendReq s r p).fuse = s.fuse := by
  refine ⟨?_, ?_⟩ <;> (unfold State.sendReq; all_goals (try dsimp only); all_goals (repeat' split); all_goals simp_all)

@[simp] theorem State.issueReq_keep (s : State) (r : Req) : (State.issueReq s r).1.pending = s.pending ∧ (State.issueReq s r).1.fuse = s.fuse := by
  refine ⟨?_, ?_⟩ <;> (unfold State.issueReq; all_goals (try dsimp only); all_goals (repeat' split); all_goals simp_all)

@[simp] theorem State.toPoison_keep (s : State) (a : Nat) : (State.toPoison s a).pending = s.pending ∧ (State.toPoison s a).fuse = s.fuse := by
  refine ⟨?_, ?_⟩ <;> (unfold State.toPoison; all_goals (try dsimp only); all_goals (repeat' split); all_goals simp_all)

@[simp] theorem State.heldWrLine_keep (s : State) (a : Nat) (bs : List Byte) : (State.heldWrLine s a bs).pending = s.pending ∧ (State.heldWrLine s a bs).fuse = s.fuse := by
  refine ⟨?_, ?_⟩ <;> (unfold State.heldWrLine; all_goals (try dsimp only); all_goals (repeat' split); all_goals simp_all)

@[simp] theorem State.heldWr_keep (s : State) (a : Nat) (bs : List Byte) (x0 : Nat) : (State.heldWr s a bs x0).pending = s.pending ∧ (State.heldWr s a bs x0).fuse = s.fuse := by
  induction x0 generalizing s a bs with
  | zero => simp [State.heldWr]
  | succ k ih => refine ⟨?_, ?_⟩ <;> (unfold State.heldWr; all_goals (try dsimp only); all_goals (repeat' split); all_goals simp_all)

@[simp] theorem State.accApply_keep (s : State) (a f v : Nat) : (State.accApply s a f v).1.pending = s.pending ∧ (State.accApply s a f v).1.fuse = s.fuse := by
  refine ⟨?_, ?_⟩ <;> (unfold State.accApply; all_goals (try dsimp only); all_goals (repeat' split); all_goals simp_all)

@[simp] theorem State.heldApply_keep (s : State) (o : HeldOp) : (State.heldApply s o).pending = s.pending ∧ (State.heldApply s o).fuse = s.fuse := by
  refine ⟨?_, ?_⟩ <;> (unfold State.heldApply; all_goals (try dsimp only); all_goals (repeat' split); all_goals simp_all)

@[simp] theorem State.tobOcc_keep (s : State) : (State.tobOcc s).pending = s.pending ∧ (State.tobOcc s).fuse = s.fuse := by
  refine ⟨?_, ?_⟩ <;> (unfold State.tobOcc; all_goals (try dsimp only); all_goals (repeat' split); all_goals simp_all)

@[simp] theorem State.tobApply_keep (s : State) (st : Nat) : (State.tobApply s st).pending = s.pending ∧ (State.tobApply s st).fuse = s.fuse := by
  refine ⟨?_, ?_⟩ <;> (unfold State.tobApply; all_goals (try dsimp only); all_goals (repeat' split); all_goals simp_all)

@[simp] theorem State.refreshOcc_keep (s : State) : (State.refreshOcc s).pending = s.pending ∧ (State.refreshOcc s).fuse = s.fuse := by
  refine ⟨?_, ?_⟩ <;> (unfold State.refreshOcc; all_goals (try dsimp only); all_goals (repeat' split); all_goals simp_all)

@[simp] theorem State.stageWrite_keep (s : State) (x : StageSet) : (State.stageWrite s x).pending = s.pending ∧ (State.stageWrite s x).fuse = s.fuse := by
  refine ⟨?_, ?_⟩ <;> (unfold State.stageWrite; all_goals (try dsimp only); all_goals (repeat' split); all_goals simp_all)

@[simp] theorem State.stageApply_keep (s : State) : (State.stageApply s).pending = s.pending ∧ (State.stageApply s).fuse = s.fuse := by
  refine ⟨?_, ?_⟩ <;> (unfold State.stageApply; all_goals (try dsimp only); all_goals (repeat' split); all_goals simp_all)

end Sys2Proof.Machine
end

