-- ==== Sys2Proof/Laws/KeepTalq.lean ====
section
/-! SUPPORT. No operation of Machine/Talq.lean touches the queue of commands or the fuses. -/

set_option linter.unusedTactic false
set_option linter.unreachableTactic false
set_option linter.unnecessarySeqFocus false

namespace Sys2Proof.Machine

@[simp] theorem State.talqOcc_keep (s : State) (q : Nat) : (State.talqOcc s q).pending = s.pending ∧ (State.talqOcc s q).fuse = s.fuse := by
  refine ⟨?_, ?_⟩ <;> (unfold State.talqOcc; all_goals (try dsimp only); all_goals (repeat' split); all_goals simp_all)

@[simp] theorem State.arm_keep (s : State) (q : Nat) (w0 w1 : Word) : (State.arm s q w0 w1).1.pending = s.pending ∧ (State.arm s q w0 w1).1.fuse = s.fuse := by
  refine ⟨?_, ?_⟩ <;> (unfold State.arm; all_goals (try dsimp only); all_goals (repeat' split); all_goals simp_all)

@[simp] theorem State.talqCancel_keep (s : State) (q tag : Nat) : (State.talqCancel s q tag).1.pending = s.pending ∧ (State.talqCancel s q tag).1.fuse = s.fuse := by
  refine ⟨?_, ?_⟩ <;> (unfold State.talqCancel; all_goals (try dsimp only); all_goals (repeat' split); all_goals simp_all)

@[simp] theorem State.talqLaunch_keep (s : State) (q action : Nat) (k : State → TalqEntry → State) (h_k : ∀ (y0 : State) (y1 : TalqEntry), (k y0 y1).pending = y0.pending ∧ (k y0 y1).fuse = y0.fuse) : (State.talqLaunch s q action k).pending = s.pending ∧ (State.talqLaunch s q action k).fuse = s.fuse := by
  refine ⟨?_, ?_⟩ <;> (unfold State.talqLaunch; all_goals (try dsimp only); all_goals (repeat' split); all_goals simp_all)

end Sys2Proof.Machine
end

