-- ==== Sys2Proof/Laws/KeepCkpOps.lean ====
section
/-! SUPPORT. No operation of Machine/CkpOps.lean touches the queue of commands or the fuses. -/

set_option linter.unusedTactic false
set_option linter.unreachableTactic false
set_option linter.unnecessarySeqFocus false

namespace Sys2Proof.Machine

@[simp] theorem State.setCkpPhase_keep (s : State) (x : Nat) : (State.setCkpPhase s x).pending = s.pending ∧ (State.setCkpPhase s x).fuse = s.fuse := by
  refine ⟨?_, ?_⟩ <;> (unfold State.setCkpPhase; all_goals (try dsimp only); all_goals (repeat' split); all_goals simp_all)

@[simp] theorem State.ckpResult_keep (s : State) (result : Nat) (restore : Bool) : (State.ckpResult s result restore).pending = s.pending ∧ (State.ckpResult s result restore).fuse = s.fuse := by
  refine ⟨?_, ?_⟩ <;> (unfold State.ckpResult; all_goals (try dsimp only); all_goals (repeat' split); all_goals simp_all)

@[simp] theorem State.ckpPartEnd_keep (s : State) (result : Nat) : (State.ckpPartEnd s result).pending = s.pending ∧ (State.ckpPartEnd s result).fuse = s.fuse := by
  refine ⟨?_, ?_⟩ <;> (unfold State.ckpPartEnd; all_goals (try dsimp only); all_goals (repeat' split); all_goals simp_all)

@[simp] theorem State.cutAbandon_keep (s : State) (result : Nat) : (State.cutAbandon s result).pending = s.pending ∧ (State.cutAbandon s result).fuse = s.fuse := by
  refine ⟨?_, ?_⟩ <;> (unfold State.cutAbandon; all_goals (try dsimp only); all_goals (repeat' split); all_goals simp_all)

@[simp] theorem State.cutHoldBegin_keep (s : State) : (State.cutHoldBegin s).pending = s.pending ∧ (State.cutHoldBegin s).fuse = s.fuse := by
  refine ⟨?_, ?_⟩ <;> (unfold State.cutHoldBegin; all_goals (try dsimp only); all_goals (repeat' split); all_goals simp_all)

@[simp] theorem State.ckpTickEnd_keep (s : State) : (State.ckpTickEnd s).pending = s.pending ∧ (State.ckpTickEnd s).fuse = s.fuse := by
  refine ⟨?_, ?_⟩ <;> (unfold State.ckpTickEnd; all_goals (try dsimp only); all_goals (repeat' split); all_goals simp_all)

end Sys2Proof.Machine
end

