-- ==== Sys2Proof/Laws/KeepPortOps.lean ====
section
/-! SUPPORT. No operation of Machine/PortOps.lean touches the queue of commands or the fuses. -/

set_option linter.unusedTactic false
set_option linter.unreachableTactic false
set_option linter.unnecessarySeqFocus false

namespace Sys2Proof.Machine

@[simp] theorem State.setPort_keep (s : State) (p : Nat) (x : PortSt) : (State.setPort s p x).pending = s.pending ∧ (State.setPort s p x).fuse = s.fuse := by
  refine ⟨?_, ?_⟩ <;> (unfold State.setPort; all_goals (try dsimp only); all_goals (repeat' split); all_goals simp_all)

@[simp] theorem State.calStart_keep (s : State) (p : Nat) : (State.calStart s p).pending = s.pending ∧ (State.calStart s p).fuse = s.fuse := by
  refine ⟨?_, ?_⟩ <;> (unfold State.calStart; all_goals (try dsimp only); all_goals (repeat' split); all_goals simp_all)

@[simp] theorem State.calEnd_keep (s : State) (p : Nat) : (State.calEnd s p).pending = s.pending ∧ (State.calEnd s p).fuse = s.fuse := by
  refine ⟨?_, ?_⟩ <;> (unfold State.calEnd; all_goals (try dsimp only); all_goals (repeat' split); all_goals simp_all)

@[simp] theorem State.calQuiet1_keep (s : State) (p : Nat) : (State.calQuiet1 s p).pending = s.pending ∧ (State.calQuiet1 s p).fuse = s.fuse := by
  refine ⟨?_, ?_⟩ <;> (unfold State.calQuiet1; all_goals (try dsimp only); all_goals (repeat' split); all_goals simp_all)

@[simp] theorem State.calQuiet_keep (s : State) : (State.calQuiet s).pending = s.pending ∧ (State.calQuiet s).fuse = s.fuse := by
  refine ⟨?_, ?_⟩ <;> (unfold State.calQuiet; all_goals (try dsimp only); all_goals (repeat' split); all_goals simp_all)

@[simp] theorem State.calIdle_keep (s : State) : (State.calIdle s).pending = s.pending ∧ (State.calIdle s).fuse = s.fuse := by
  refine ⟨?_, ?_⟩ <;> (unfold State.calIdle; all_goals (try dsimp only); all_goals (repeat' split); all_goals simp_all)

@[simp] theorem State.creditBack_keep (s : State) (q c n : Nat) : (State.creditBack s q c n).pending = s.pending ∧ (State.creditBack s q c n).fuse = s.fuse := by
  refine ⟨?_, ?_⟩ <;> (unfold State.creditBack; all_goals (try dsimp only); all_goals (repeat' split); all_goals simp_all)

@[simp] theorem State.creditFree_keep (s : State) (q : Option Nat) (k : Packet) : (State.creditFree s q k).pending = s.pending ∧ (State.creditFree s q k).fuse = s.fuse := by
  refine ⟨?_, ?_⟩ <;> (unfold State.creditFree; all_goals (try dsimp only); all_goals (repeat' split); all_goals simp_all)

@[simp] theorem State.creditHold_keep (s : State) (q : Option Nat) (k : Packet) : (State.creditHold s q k).pending = s.pending ∧ (State.creditHold s q k).fuse = s.fuse := by
  refine ⟨?_, ?_⟩ <;> (unfold State.creditHold; all_goals (try dsimp only); all_goals (repeat' split); all_goals simp_all)

@[simp] theorem State.rxTake_keep (s : State) (k : Packet) : (State.rxTake s k).pending = s.pending ∧ (State.rxTake s k).fuse = s.fuse := by
  refine ⟨?_, ?_⟩ <;> (unfold State.rxTake; all_goals (try dsimp only); all_goals (repeat' split); all_goals simp_all)

@[simp] theorem State.creditGone_keep (s : State) (p : Nat) : (State.creditGone s p).pending = s.pending ∧ (State.creditGone s p).fuse = s.fuse := by
  refine ⟨?_, ?_⟩ <;> (unfold State.creditGone; all_goals (try dsimp only); all_goals (repeat' split); all_goals simp_all)

end Sys2Proof.Machine
end

