-- ==== Sys2Proof/Laws/KeepHwsHome.lean ====
section
/-! SUPPORT. No operation of Machine/HwsHome.lean touches the queue of commands or the fuses. -/

set_option linter.unusedTactic false
set_option linter.unreachableTactic false
set_option linter.unnecessarySeqFocus false

namespace Sys2Proof.Machine

@[simp] theorem State.respond_keep (s : State) (p : Packet) (type status : Nat) (data : List Byte) : (State.respond s p type status data).pending = s.pending ∧ (State.respond s p type status data).fuse = s.fuse := by
  refine ⟨?_, ?_⟩ <;> (unfold State.respond; all_goals (try dsimp only); all_goals (repeat' split); all_goals simp_all)

@[simp] theorem State.replayOcc_keep (s : State) : (State.replayOcc s).pending = s.pending ∧ (State.replayOcc s).fuse = s.fuse := by
  refine ⟨?_, ?_⟩ <;> (unfold State.replayOcc; all_goals (try dsimp only); all_goals (repeat' split); all_goals simp_all)

@[simp] theorem State.journalAdd_keep (s : State) (e : ReplayEntry) : (State.journalAdd s e).pending = s.pending ∧ (State.journalAdd s e).fuse = s.fuse := by
  refine ⟨?_, ?_⟩ <;> (unfold State.journalAdd; all_goals (try dsimp only); all_goals (repeat' split); all_goals simp_all)

@[simp] theorem State.cacheFree_keep (s : State) (hit : ReplayEntry → Bool) (log : Bool) : (State.cacheFree s hit log).pending = s.pending ∧ (State.cacheFree s hit log).fuse = s.fuse := by
  refine ⟨?_, ?_⟩ <;> (unfold State.cacheFree; all_goals (try dsimp only); all_goals (repeat' split); all_goals simp_all)

@[simp] theorem State.tagSeen_keep (s : State) (src sport tag : Nat) : (State.tagSeen s src sport tag).2.pending = s.pending ∧ (State.tagSeen s src sport tag).2.fuse = s.fuse := by
  refine ⟨?_, ?_⟩ <;> (unfold State.tagSeen; all_goals (try dsimp only); all_goals (repeat' split); all_goals simp_all)

@[simp] theorem State.hwsAccept_keep (s : State) (p : Packet) : (State.hwsAccept s p).1.pending = s.pending ∧ (State.hwsAccept s p).1.fuse = s.fuse := by
  refine ⟨?_, ?_⟩ <;> (unfold State.hwsAccept; all_goals (try dsimp only); all_goals (repeat' split); all_goals simp_all)

@[simp] theorem State.ingressXlat_keep (s : State) (p : Packet) : (State.ingressXlat s p).1.pending = s.pending ∧ (State.ingressXlat s p).1.fuse = s.fuse := by
  refine ⟨?_, ?_⟩ <;> (unfold State.ingressXlat; all_goals (try dsimp only); all_goals (repeat' split); all_goals simp_all)

@[simp] theorem State.ingressPoison_keep (s : State) (line : Nat) : (State.ingressPoison s line).1.pending = s.pending ∧ (State.ingressPoison s line).1.fuse = s.fuse := by
  refine ⟨?_, ?_⟩ <;> (unfold State.ingressPoison; all_goals (try dsimp only); all_goals (repeat' split); all_goals simp_all)

@[simp] theorem State.applyRd_keep (s : State) (pa n : Nat) : (State.applyRd s pa n).1.pending = s.pending ∧ (State.applyRd s pa n).1.fuse = s.fuse := by
  refine ⟨?_, ?_⟩ <;> (unfold State.applyRd; all_goals (try dsimp only); all_goals (repeat' split); all_goals simp_all)

@[simp] theorem State.applyWr_keep (s : State) (pa : Nat) (bs : List Byte) : (State.applyWr s pa bs).1.pending = s.pending ∧ (State.applyWr s pa bs).1.fuse = s.fuse := by
  refine ⟨?_, ?_⟩ <;> (unfold State.applyWr; all_goals (try dsimp only); all_goals (repeat' split); all_goals simp_all)

@[simp] theorem State.applyAtomic_keep (s : State) (pa n op : Nat) (x : List Byte) : (State.applyAtomic s pa n op x).1.pending = s.pending ∧ (State.applyAtomic s pa n op x).1.fuse = s.fuse := by
  refine ⟨?_, ?_⟩ <;> (unfold State.applyAtomic; all_goals (try dsimp only); all_goals (repeat' split); all_goals simp_all)

@[simp] theorem State.applyAcc_keep (s : State) (pa f : Nat) (x : List Byte) : (State.applyAcc s pa f x).1.pending = s.pending ∧ (State.applyAcc s pa f x).1.fuse = s.fuse := by
  refine ⟨?_, ?_⟩ <;> (unfold State.applyAcc; all_goals (try dsimp only); all_goals (repeat' split); all_goals simp_all)

@[simp] theorem State.applyHold_keep (s : State) (p : Packet) (pa : Nat) : (State.applyHold s p pa).1.pending = s.pending ∧ (State.applyHold s p pa).1.fuse = s.fuse := by
  refine ⟨?_, ?_⟩ <;> (unfold State.applyHold; all_goals (try dsimp only); all_goals (repeat' split); all_goals simp_all)

@[simp] theorem State.stagePut_keep (s : State) (x : StageSet) : (State.stagePut s x).pending = s.pending ∧ (State.stagePut s x).fuse = s.fuse := by
  refine ⟨?_, ?_⟩ <;> (unfold State.stagePut; all_goals (try dsimp only); all_goals (repeat' split); all_goals simp_all)

@[simp] theorem State.markSeen_keep (s : State) (p : Packet) : (State.markSeen s p).pending = s.pending ∧ (State.markSeen s p).fuse = s.fuse := by
  refine ⟨?_, ?_⟩ <;> (unfold State.markSeen; all_goals (try dsimp only); all_goals (repeat' split); all_goals simp_all)

@[simp] theorem State.applyRefresh_keep (s : State) (p : Packet) (pa : Nat) : (State.applyRefresh s p pa).1.pending = s.pending ∧ (State.applyRefresh s p pa).1.fuse = s.fuse := by
  refine ⟨?_, ?_⟩ <;> (unfold State.applyRefresh; all_goals (try dsimp only); all_goals (repeat' split); all_goals simp_all)

@[simp] theorem State.applyFence_keep (s : State) (p : Packet) : (State.applyFence s p).1.pending = s.pending ∧ (State.applyFence s p).1.fuse = s.fuse := by
  refine ⟨?_, ?_⟩ <;> (unfold State.applyFence; all_goals (try dsimp only); all_goals (repeat' split); all_goals simp_all)

@[simp] theorem State.hwsEffect_keep (s : State) (p : Packet) (pa : Nat) : (State.hwsEffect s p pa).1.pending = s.pending ∧ (State.hwsEffect s p pa).1.fuse = s.fuse := by
  refine ⟨?_, ?_⟩ <;> (unfold State.hwsEffect; all_goals (try dsimp only); all_goals (repeat' split); all_goals simp_all)

@[simp] theorem hwsAnswer_keep (p : Packet) (ext : Nat) (r : Applied) : (hwsAnswer p ext r).pending = r.1.pending ∧ (hwsAnswer p ext r).fuse = r.1.fuse := by
  refine ⟨?_, ?_⟩ <;> (unfold hwsAnswer; all_goals (try dsimp only); all_goals (repeat' split); all_goals simp_all)

@[simp] theorem State.park_keep (s : State) (q : Option Nat) (p : Packet) : (State.park s q p).pending = s.pending ∧ (State.park s q p).fuse = s.fuse := by
  refine ⟨?_, ?_⟩ <;> (unfold State.park; all_goals (try dsimp only); all_goals (repeat' split); all_goals simp_all)

@[simp] theorem State.hwsServe_keep (s : State) (q : Option Nat) (p : Packet) : (State.hwsServe s q p).pending = s.pending ∧ (State.hwsServe s q p).fuse = s.fuse := by
  refine ⟨?_, ?_⟩ <;> (unfold State.hwsServe; all_goals (try dsimp only); all_goals (repeat' split); all_goals simp_all)

@[simp] theorem State.unpark_keep (s : State) : (State.unpark s).pending = s.pending ∧ (State.unpark s).fuse = s.fuse := by
  refine ⟨?_, ?_⟩ <;> (unfold State.unpark; all_goals (try dsimp only); all_goals (repeat' split); all_goals simp_all)

@[simp] theorem State.tagFirst_keep (s : State) (p : Packet) : (State.tagFirst s p).pending = s.pending ∧ (State.tagFirst s p).fuse = s.fuse := by
  refine ⟨?_, ?_⟩ <;> (unfold State.tagFirst; all_goals (try dsimp only); all_goals (repeat' split); all_goals simp_all)

@[simp] theorem State.refreshGoes_keep (s : State) (p : Packet) : (State.refreshGoes s p).pending = s.pending ∧ (State.refreshGoes s p).fuse = s.fuse := by
  refine ⟨?_, ?_⟩ <;> (unfold State.refreshGoes; all_goals (try dsimp only); all_goals (repeat' split); all_goals simp_all)

@[simp] theorem State.hwsTake_keep (s : State) (q : Option Nat) (p : Packet) : (State.hwsTake s q p).pending = s.pending ∧ (State.hwsTake s q p).fuse = s.fuse := by
  refine ⟨?_, ?_⟩ <;> (unfold State.hwsTake; all_goals (try dsimp only); all_goals (repeat' split); all_goals simp_all)

@[simp] theorem State.hwsRequest_keep (s : State) (type : Nat) (p : Packet) : (State.hwsRequest s type p).pending = s.pending ∧ (State.hwsRequest s type p).fuse = s.fuse := by
  refine ⟨?_, ?_⟩ <;> (unfold State.hwsRequest; all_goals (try dsimp only); all_goals (repeat' split); all_goals simp_all)

@[simp] theorem execRd_keep (p : Packet) (s : State) : s.kept (execRd p s) := by
  unfold execRd; all_goals (try dsimp only); all_goals (repeat' split); all_goals simp_all

@[simp] theorem execWr_keep (p : Packet) (s : State) : s.kept (execWr p s) := by
  unfold execWr; all_goals (try dsimp only); all_goals (repeat' split); all_goals simp_all

@[simp] theorem execAtomic_keep (p : Packet) (s : State) : s.kept (execAtomic p s) := by
  unfold execAtomic; all_goals (try dsimp only); all_goals (repeat' split); all_goals simp_all

@[simp] theorem execAcc_keep (p : Packet) (s : State) : s.kept (execAcc p s) := by
  unfold execAcc; all_goals (try dsimp only); all_goals (repeat' split); all_goals simp_all

@[simp] theorem execRefresh_keep (p : Packet) (s : State) : s.kept (execRefresh p s) := by
  unfold execRefresh; all_goals (try dsimp only); all_goals (repeat' split); all_goals simp_all

@[simp] theorem execTfence_keep (p : Packet) (s : State) : s.kept (execTfence p s) := by
  unfold execTfence; all_goals (try dsimp only); all_goals (repeat' split); all_goals simp_all

@[simp] theorem execRelease_keep (p : Packet) (s : State) : s.kept (execRelease p s) := by
  unfold execRelease; all_goals (try dsimp only); all_goals (repeat' split); all_goals simp_all

@[simp] theorem execReplayLeaseExpiry_keep (src sport tag : Nat) (s : State) : s.kept (execReplayLeaseExpiry src sport tag s) := by
  unfold execReplayLeaseExpiry; all_goals (try dsimp only); all_goals (repeat' split); all_goals simp_all

@[simp] theorem execToApplyComplete_keep (s : State) : s.kept (execToApplyComplete s) := by
  unfold execToApplyComplete; all_goals (try dsimp only); all_goals (repeat' split); all_goals simp_all

@[simp] theorem execReplicaApplyComplete_keep (win : Nat) (s : State) : s.kept (execReplicaApplyComplete win s) := by
  unfold execReplicaApplyComplete; all_goals (try dsimp only); all_goals (repeat' split); all_goals simp_all

@[simp] theorem State.writeWinCfg_keep (s : State) (w : Nat) (value : Word) : (State.writeWinCfg s w value).pending = s.pending ∧ (State.writeWinCfg s w value).fuse = s.fuse := by
  refine ⟨?_, ?_⟩ <;> (unfold State.writeWinCfg; all_goals (try dsimp only); all_goals (repeat' split); all_goals simp_all)

@[simp] theorem execHwsWinCfg_keep (agent : Agent) (win : Nat) (value : Word) (s : State) : s.kept (execHwsWinCfg agent win value s) := by
  unfold execHwsWinCfg; all_goals (try dsimp only); all_goals (repeat' split); all_goals simp_all

@[simp] theorem State.winOffApply_keep (s : State) : (State.winOffApply s).pending = s.pending ∧ (State.winOffApply s).fuse = s.fuse := by
  refine ⟨?_, ?_⟩ <;> (unfold State.winOffApply; all_goals (try dsimp only); all_goals (repeat' split); all_goals simp_all)

end Sys2Proof.Machine
end

