-- ==== Sys2Proof/Laws/KeepHartOps.lean ====
section
/-! SUPPORT. No operation of Machine/HartOps.lean touches the queue of commands or the fuses. -/

set_option linter.unusedTactic false
set_option linter.unreachableTactic false
set_option linter.unnecessarySeqFocus false

namespace Sys2Proof.Machine

@[simp] theorem State.setHart_keep (s : State) (h : Nat) (x : HartSt) : (State.setHart s h x).pending = s.pending ∧ (State.setHart s h x).fuse = s.fuse := by
  refine ⟨?_, ?_⟩ <;> (unfold State.setHart; all_goals (try dsimp only); all_goals (repeat' split); all_goals simp_all)

@[simp] theorem State.setXreg_keep (s : State) (h i : Nat) (v : Word) : (State.setXreg s h i v).pending = s.pending ∧ (State.setXreg s h i v).fuse = s.fuse := by
  refine ⟨?_, ?_⟩ <;> (unfold State.setXreg; all_goals (try dsimp only); all_goals (repeat' split); all_goals simp_all)

@[simp] theorem State.setVelem_keep (s : State) (h v n i x : Nat) : (State.setVelem s h v n i x).pending = s.pending ∧ (State.setVelem s h v n i x).fuse = s.fuse := by
  refine ⟨?_, ?_⟩ <;> (unfold State.setVelem; all_goals (try dsimp only); all_goals (repeat' split); all_goals simp_all)

@[simp] theorem State.retire_keep (s : State) (h : Nat) : (State.retire s h).pending = s.pending ∧ (State.retire s h).fuse = s.fuse := by
  refine ⟨?_, ?_⟩ <;> (unfold State.retire; all_goals (try dsimp only); all_goals (repeat' split); all_goals simp_all)

@[simp] theorem State.hartTrap_keep (s : State) (h cause : Nat) (tval : Word) (xf : Option Word) : (State.hartTrap s h cause tval xf).pending = s.pending ∧ (State.hartTrap s h cause tval xf).fuse = s.fuse := by
  refine ⟨?_, ?_⟩ <;> (unfold State.hartTrap; all_goals (try dsimp only); all_goals (repeat' split); all_goals simp_all)

@[simp] theorem State.accessFault_keep (s : State) (h : Nat) (store : Bool) (va : Word) (reason : Nat) (tag port : Nat := 0) : (State.accessFault s h store va reason tag port).pending = s.pending ∧ (State.accessFault s h store va reason tag port).fuse = s.fuse := by
  refine ⟨?_, ?_⟩ <;> (unfold State.accessFault; all_goals (try dsimp only); all_goals (repeat' split); all_goals simp_all)

@[simp] theorem State.hartIllegal_keep (s : State) (h : Nat) (w : BitVec 32) : (State.hartIllegal s h w).pending = s.pending ∧ (State.hartIllegal s h w).fuse = s.fuse := by
  refine ⟨?_, ?_⟩ <;> (unfold State.hartIllegal; all_goals (try dsimp only); all_goals (repeat' split); all_goals simp_all)

@[simp] theorem State.svareot_keep (s : State) (h : Nat) (w : BitVec 32) (f3 : Nat) (mine may ok : Bool) (k : State → State) (h_k : ∀ (y0 : State), (k y0).pending = y0.pending ∧ (k y0).fuse = y0.fuse) : (State.svareot s h w f3 mine may ok k).pending = s.pending ∧ (State.svareot s h w f3 mine may ok k).fuse = s.fuse := by
  refine ⟨?_, ?_⟩ <;> (unfold State.svareot; all_goals (try dsimp only); all_goals (repeat' split); all_goals simp_all)

@[simp] theorem State.hartWaitEnd_keep (s : State) (h rd code : Nat) : (State.hartWaitEnd s h rd code).pending = s.pending ∧ (State.hartWaitEnd s h rd code).fuse = s.fuse := by
  refine ⟨?_, ?_⟩ <;> (unfold State.hartWaitEnd; all_goals (try dsimp only); all_goals (repeat' split); all_goals simp_all)

@[simp] theorem State.hartLate_keep (s : State) (h rd : Nat) : (State.hartLate s h rd).pending = s.pending ∧ (State.hartLate s h rd).fuse = s.fuse := by
  refine ⟨?_, ?_⟩ <;> (unfold State.hartLate; all_goals (try dsimp only); all_goals (repeat' split); all_goals simp_all)

@[simp] theorem State.hartsJudge_keep (s : State) : (State.hartsJudge s).pending = s.pending ∧ (State.hartsJudge s).fuse = s.fuse := by
  unfold State.hartsJudge
  refine ⟨foldl_pending _ _ _ fun t e => ?_, foldl_fuse _ _ _ fun t e => ?_⟩ <;> ((repeat' split) <;> simp)

@[simp] theorem State.addFflags_keep (s : State) (h fl : Nat) : (State.addFflags s h fl).pending = s.pending ∧ (State.addFflags s h fl).fuse = s.fuse := by
  refine ⟨?_, ?_⟩ <;> (unfold State.addFflags; all_goals (try dsimp only); all_goals (repeat' split); all_goals simp_all)

end Sys2Proof.Machine
end

