-- ==== Sys2Proof/Laws/KeepSeq.lean ====
section
/-! SUPPORT. No operation of Machine/Seq.lean touches the queue of commands or the fuses. -/

set_option linter.unusedTactic false
set_option linter.unreachableTactic false
set_option linter.unnecessarySeqFocus false

namespace Sys2Proof.Machine

@[simp] theorem State.setCoreState_keep (s : State) (w x : Nat) : (State.setCoreState s w x).pending = s.pending ∧ (State.setCoreState s w x).fuse = s.fuse := by
  refine ⟨?_, ?_⟩ <;> (unfold State.setCoreState; all_goals (try dsimp only); all_goals (repeat' split); all_goals simp_all)

@[simp] theorem State.setWaitKind_keep (s : State) (w x : Nat) : (State.setWaitKind s w x).pending = s.pending ∧ (State.setWaitKind s w x).fuse = s.fuse := by
  refine ⟨?_, ?_⟩ <;> (unfold State.setWaitKind; all_goals (try dsimp only); all_goals (repeat' split); all_goals simp_all)

@[simp] theorem State.setCore_keep (s : State) (c : Nat) (x : CoreSt) : (State.setCore s c x).pending = s.pending ∧ (State.setCore s c x).fuse = s.fuse := by
  refine ⟨?_, ?_⟩ <;> (unfold State.setCore; all_goals (try dsimp only); all_goals (repeat' split); all_goals simp_all)

@[simp] theorem State.setSreg_keep (s : State) (w n : Nat) (v : Word) : (State.setSreg s w n v).pending = s.pending ∧ (State.setSreg s w n v).fuse = s.fuse := by
  refine ⟨?_, ?_⟩ <;> (unfold State.setSreg; all_goals (try dsimp only); all_goals (repeat' split); all_goals simp_all)

@[simp] theorem State.pmStore_keep (s : State) (c o : Nat) (v : Word) : (State.pmStore s c o v).pending = s.pending ∧ (State.pmStore s c o v).fuse = s.fuse := by
  refine ⟨?_, ?_⟩ <;> (unfold State.pmStore; all_goals (try dsimp only); all_goals (repeat' split); all_goals simp_all)

@[simp] theorem State.postCore_keep (s : State) (c q type code : Nat) (a b : Word) : (State.postCore s c q type code a b).1.pending = s.pending ∧ (State.postCore s c q type code a b).1.fuse = s.fuse := by
  refine ⟨?_, ?_⟩ <;> (unfold State.postCore; all_goals (try dsimp only); all_goals (repeat' split); all_goals simp_all)

@[simp] theorem State.dropSemWait_keep (s : State) (c : Nat) : (State.dropSemWait s c).pending = s.pending ∧ (State.dropSemWait s c).fuse = s.fuse := by
  refine ⟨?_, ?_⟩ <;> (unfold State.dropSemWait; all_goals (try dsimp only); all_goals (repeat' split); all_goals simp_all)

@[simp] theorem State.recordFault_keep (s : State) (c : Nat) (f : FaultRec) : (State.recordFault s c f).pending = s.pending ∧ (State.recordFault s c f).fuse = s.fuse := by
  refine ⟨?_, ?_⟩ <;> (unfold State.recordFault; all_goals (try dsimp only); all_goals (repeat' split); all_goals simp_all)

@[simp] theorem State.takeFault_keep (s : State) (c : Nat) (f : FaultRec) : (State.takeFault s c f).pending = s.pending ∧ (State.takeFault s c f).fuse = s.fuse := by
  refine ⟨?_, ?_⟩ <;> (unfold State.takeFault; all_goals (try dsimp only); all_goals (repeat' split); all_goals simp_all)

@[simp] theorem State.seqFault_keep (s : State) (c code detail : Nat) (addr word : Word) : (State.seqFault s c code detail addr word).pending = s.pending ∧ (State.seqFault s c code detail addr word).fuse = s.fuse := by
  refine ⟨?_, ?_⟩ <;> (unfold State.seqFault; all_goals (try dsimp only); all_goals (repeat' split); all_goals simp_all)

@[simp] theorem State.goTo_keep (s : State) (c t : Nat) : (State.goTo s c t).pending = s.pending ∧ (State.goTo s c t).fuse = s.fuse := by
  refine ⟨?_, ?_⟩ <;> (unfold State.goTo; all_goals (try dsimp only); all_goals (repeat' split); all_goals simp_all)

@[simp] theorem State.setLoops_keep (s : State) (c : Nat) (l : List LoopFrame) : (State.setLoops s c l).pending = s.pending ∧ (State.setLoops s c l).fuse = s.fuse := by
  refine ⟨?_, ?_⟩ <;> (unfold State.setLoops; all_goals (try dsimp only); all_goals (repeat' split); all_goals simp_all)

@[simp] theorem State.advance_keep (s : State) (c : Nat) : (State.advance s c).pending = s.pending ∧ (State.advance s c).fuse = s.fuse := by
  refine ⟨?_, ?_⟩ <;> (unfold State.advance; all_goals (try dsimp only); all_goals (repeat' split); all_goals simp_all)

@[simp] theorem State.jump_keep (s : State) (c : Nat) (t : Int) : (State.jump s c t).pending = s.pending ∧ (State.jump s c t).fuse = s.fuse := by
  refine ⟨?_, ?_⟩ <;> (unfold State.jump; all_goals (try dsimp only); all_goals (repeat' split); all_goals simp_all)

@[simp] theorem State.issue_keep (s : State) (c : Nat) (word : Word) (legal : Bool) (k : State → State) (h_k : ∀ (y0 : State), (k y0).pending = y0.pending ∧ (k y0).fuse = y0.fuse) : (State.issue s c word legal k).pending = s.pending ∧ (State.issue s c word legal k).fuse = s.fuse := by
  refine ⟨?_, ?_⟩ <;> (unfold State.issue; all_goals (try dsimp only); all_goals (repeat' split); all_goals simp_all)

end Sys2Proof.Machine
end

