-- ==== Sys2Proof/Laws/KeepSync.lean ====
section
/-! SUPPORT. No operation of Machine/Sync.lean touches the queue of commands or the fuses. -/

set_option linter.unusedTactic false
set_option linter.unreachableTactic false
set_option linter.unnecessarySeqFocus false

namespace Sys2Proof.Machine

@[simp] theorem State.block_keep (s : State) (c kind : Nat) (x : CoreWait) : (State.block s c kind x).pending = s.pending ∧ (State.block s c kind x).fuse = s.fuse := by
  refine ⟨?_, ?_⟩ <;> (unfold State.block; all_goals (try dsimp only); all_goals (repeat' split); all_goals simp_all)

@[simp] theorem State.unblock_keep (s : State) (c : Nat) : (State.unblock s c).pending = s.pending ∧ (State.unblock s c).fuse = s.fuse := by
  refine ⟨?_, ?_⟩ <;> (unfold State.unblock; all_goals (try dsimp only); all_goals (repeat' split); all_goals simp_all)

@[simp] theorem State.resume_keep (s : State) (c : Nat) : (State.resume s c).pending = s.pending ∧ (State.resume s c).fuse = s.fuse := by
  refine ⟨?_, ?_⟩ <;> (unfold State.resume; all_goals (try dsimp only); all_goals (repeat' split); all_goals simp_all)

@[simp] theorem State.twaitLate_keep (s : State) (c sd : Nat) : (State.twaitLate s c sd).pending = s.pending ∧ (State.twaitLate s c sd).fuse = s.fuse := by
  refine ⟨?_, ?_⟩ <;> (unfold State.twaitLate; all_goals (try dsimp only); all_goals (repeat' split); all_goals simp_all)

@[simp] theorem State.twait_keep (s : State) (c : Nat) (word : Word) (st p sd : Nat) (joining : CoreWait) : (State.twait s c word st p sd joining).pending = s.pending ∧ (State.twait s c word st p sd joining).fuse = s.fuse := by
  refine ⟨?_, ?_⟩ <;> (unfold State.twait; all_goals (try dsimp only); all_goals (repeat' split); all_goals simp_all)

@[simp] theorem execTwaita_keep (core : Nat) (rest : Rest) (s : State) : s.kept (execTwaita core rest s) := by
  unfold execTwaita
  rw [kept_next]
  refine State.issue_keep _ _ _ _ _ fun t => ?_
  constructor <;> (all_goals (try dsimp only); all_goals (repeat' split); all_goals simp_all)

@[simp] theorem execTwaitn_keep (core : Nat) (rest : Rest) (s : State) : s.kept (execTwaitn core rest s) := by
  unfold execTwaitn
  rw [kept_next]
  refine State.issue_keep _ _ _ _ _ fun t => ?_
  constructor <;> (all_goals (try dsimp only); all_goals (repeat' split); all_goals simp_all)

@[simp] theorem execTwaitMoment_keep (core : Nat) (s : State) : s.kept (execTwaitMoment core s) := by
  unfold execTwaitMoment; all_goals (try dsimp only); all_goals (repeat' split); all_goals simp_all

@[simp] theorem State.twaitNoTick_keep (s : State) (c : Nat) : (State.twaitNoTick s c).pending = s.pending ∧ (State.twaitNoTick s c).fuse = s.fuse := by
  refine ⟨?_, ?_⟩ <;> (unfold State.twaitNoTick; all_goals (try dsimp only); all_goals (repeat' split); all_goals simp_all)

@[simp] theorem State.twaitsNoTick_keep (s : State) : (State.twaitsNoTick s).pending = s.pending ∧ (State.twaitsNoTick s).fuse = s.fuse := by
  unfold State.twaitsNoTick
  refine ⟨foldl_pending _ _ _ fun t e => ?_, foldl_fuse _ _ _ fun t e => ?_⟩ <;> ((repeat' split) <;> simp)

@[simp] theorem State.twaitJudge_keep (s : State) (c st p sd : Nat) : (State.twaitJudge s c st p sd).pending = s.pending ∧ (State.twaitJudge s c st p sd).fuse = s.fuse := by
  refine ⟨?_, ?_⟩ <;> (unfold State.twaitJudge; all_goals (try dsimp only); all_goals (repeat' split); all_goals simp_all)

@[simp] theorem State.joinJudge_keep (s : State) (c next : Nat) (w : CoreWait) : (State.joinJudge s c next w).pending = s.pending ∧ (State.joinJudge s c next w).fuse = s.fuse := by
  unfold State.joinJudge
  refine ⟨?_, ?_⟩ <;> (split <;> simp)

@[simp] theorem State.twaitsJudge_keep (s : State) : (State.twaitsJudge s).pending = s.pending ∧ (State.twaitsJudge s).fuse = s.fuse := by
  unfold State.twaitsJudge
  exact ⟨foldl_pending _ _ _ fun t e => (State.joinJudge_keep _ _ _ _).1, foldl_fuse _ _ _ fun t e => (State.joinJudge_keep _ _ _ _).2⟩

@[simp] theorem execHalt_keep (core : Nat) (rest : Rest) (s : State) : s.kept (execHalt core rest s) := by
  unfold execHalt
  rw [kept_next]
  refine State.issue_keep _ _ _ _ _ fun t => ?_
  constructor <;> (all_goals (try dsimp only); all_goals (repeat' split); all_goals simp_all)

@[simp] theorem execDone_keep (core : Nat) (rest : Rest) (s : State) : s.kept (execDone core rest s) := by
  unfold execDone
  rw [kept_next]
  refine State.issue_keep _ _ _ _ _ fun t => ?_
  constructor <;> (all_goals (try dsimp only); all_goals (repeat' split); all_goals simp_all)

@[simp] theorem State.endProgram_keep (s : State) (c : Nat) : (State.endProgram s c).pending = s.pending ∧ (State.endProgram s c).fuse = s.fuse := by
  refine ⟨?_, ?_⟩ <;> (unfold State.endProgram; all_goals (try dsimp only); all_goals (repeat' split); all_goals simp_all)

@[simp] theorem execDoneSignal_keep (core : Nat) (s : State) : s.kept (execDoneSignal core s) := by
  unfold execDoneSignal; all_goals (try dsimp only); all_goals (repeat' split); all_goals simp_all

@[simp] theorem State.setSem_keep (s : State) (n v : Nat) : (State.setSem s n v).pending = s.pending ∧ (State.setSem s n v).fuse = s.fuse := by
  refine ⟨?_, ?_⟩ <;> (unfold State.setSem; all_goals (try dsimp only); all_goals (repeat' split); all_goals simp_all)

@[simp] theorem State.semServe_keep (s : State) (n : Nat) (x0 : Nat) : (State.semServe s n x0).pending = s.pending ∧ (State.semServe s n x0).fuse = s.fuse := by
  induction x0 generalizing s n with
  | zero => simp [State.semServe]
  | succ k ih => refine ⟨?_, ?_⟩ <;> (unfold State.semServe; all_goals (try dsimp only); all_goals (repeat' split); all_goals simp_all)

@[simp] theorem State.semInc_keep (s : State) (n amount : Nat) : (State.semInc s n amount).pending = s.pending ∧ (State.semInc s n amount).fuse = s.fuse := by
  refine ⟨?_, ?_⟩ <;> (unfold State.semInc; all_goals (try dsimp only); all_goals (repeat' split); all_goals simp_all)

@[simp] theorem State.semIncDo_keep (s : State) (c n amount : Nat) : (State.semIncDo s c n amount).pending = s.pending ∧ (State.semIncDo s c n amount).fuse = s.fuse := by
  refine ⟨?_, ?_⟩ <;> (unfold State.semIncDo; all_goals (try dsimp only); all_goals (repeat' split); all_goals simp_all)

@[simp] theorem execSeminc_keep (core : Nat) (rest : Rest) (s : State) : s.kept (execSeminc core rest s) := by
  unfold execSeminc
  rw [kept_next]
  refine State.issue_keep _ _ _ _ _ fun t => ?_
  constructor <;> (all_goals (try dsimp only); all_goals (repeat' split); all_goals simp_all)

@[simp] theorem execSemwait_keep (core : Nat) (rest : Rest) (s : State) : s.kept (execSemwait core rest s) := by
  unfold execSemwait
  rw [kept_next]
  refine State.issue_keep _ _ _ _ _ fun t => ?_
  constructor <;> (all_goals (try dsimp only); all_goals (repeat' split); all_goals simp_all)

@[simp] theorem execSemread_keep (core : Nat) (rest : Rest) (s : State) : s.kept (execSemread core rest s) := by
  unfold execSemread
  rw [kept_next]
  refine State.issue_keep _ _ _ _ _ fun t => ?_
  constructor <;> (all_goals (try dsimp only); all_goals (repeat' split); all_goals simp_all)

@[simp] theorem execFence_keep (core : Nat) (rest : Rest) (s : State) : s.kept (execFence core rest s) := by
  unfold execFence
  rw [kept_next]
  refine State.issue_keep _ _ _ _ _ fun t => ?_
  constructor <;> (all_goals (try dsimp only); all_goals (repeat' split); all_goals simp_all)

@[simp] theorem State.fidProgress_keep (s : State) (c : Nat) : (State.fidProgress s c).pending = s.pending ∧ (State.fidProgress s c).fuse = s.fuse := by
  refine ⟨?_, ?_⟩ <;> (unfold State.fidProgress; all_goals (try dsimp only); all_goals (repeat' split); all_goals simp_all)

@[simp] theorem execArm_keep (core : Nat) (rest : Rest) (s : State) : s.kept (execArm core rest s) := by
  unfold execArm
  rw [kept_next]
  refine State.issue_keep _ _ _ _ _ fun t => ?_
  constructor <;> (all_goals (try dsimp only); all_goals (repeat' split); all_goals simp_all)

@[simp] theorem State.sysValue_keep (s : State) (c n : Nat) : (State.sysValue s c n).2.pending = s.pending ∧ (State.sysValue s c n).2.fuse = s.fuse := by
  refine ⟨?_, ?_⟩ <;> (unfold State.sysValue; all_goals (try dsimp only); all_goals (repeat' split); all_goals simp_all)

@[simp] theorem execReadsys_keep (core : Nat) (rest : Rest) (s : State) : s.kept (execReadsys core rest s) := by
  unfold execReadsys
  rw [kept_next]
  refine State.issue_keep _ _ _ _ _ fun t => ?_
  constructor <;> (all_goals (try dsimp only); all_goals (repeat' split); all_goals simp_all)

@[simp] theorem execEvpost_keep (core : Nat) (rest : Rest) (s : State) : s.kept (execEvpost core rest s) := by
  unfold execEvpost
  rw [kept_next]
  refine State.issue_keep _ _ _ _ _ fun t => ?_
  constructor <;> (all_goals (try dsimp only); all_goals (repeat' split); all_goals simp_all)

@[simp] theorem execTrap_keep (core : Nat) (rest : Rest) (s : State) : s.kept (execTrap core rest s) := by
  unfold execTrap
  rw [kept_next]
  refine State.issue_keep _ _ _ _ _ fun t => ?_
  constructor <;> (all_goals (try dsimp only); all_goals (repeat' split); all_goals simp_all)

end Sys2Proof.Machine
end

