-- ==== Sys2Proof/Laws/KeepTick.lean ====
section
/-! SUPPORT. No operation of Machine/Tick.lean touches the queue of commands or the fuses. -/

set_option linter.unusedTactic false
set_option linter.unreachableTactic false
set_option linter.unnecessarySeqFocus false

namespace Sys2Proof.Machine

@[simp] theorem State.commitParams_keep (s : State) (v : Word) : (State.commitParams s v).pending = s.pending ∧ (State.commitParams s v).fuse = s.fuse := by
  refine ⟨?_, ?_⟩ <;> (unfold State.commitParams; all_goals (try dsimp only); all_goals (repeat' split); all_goals simp_all)

@[simp] theorem State.activate_keep (s : State) (t : TickParams) : (State.activate s t).pending = s.pending ∧ (State.activate s t).fuse = s.fuse := by
  refine ⟨?_, ?_⟩ <;> (unfold State.activate; all_goals (try dsimp only); all_goals (repeat' split); all_goals simp_all)

@[simp] theorem State.paramsStart_keep (s : State) (st : Nat) : (State.paramsStart s st).pending = s.pending ∧ (State.paramsStart s st).fuse = s.fuse := by
  refine ⟨?_, ?_⟩ <;> (unfold State.paramsStart; all_goals (try dsimp only); all_goals (repeat' split); all_goals simp_all)

@[simp] theorem State.clearDone_keep (s : State) : (State.clearDone s).pending = s.pending ∧ (State.clearDone s).fuse = s.fuse := by
  refine ⟨?_, ?_⟩ <;> (unfold State.clearDone; all_goals (try dsimp only); all_goals (repeat' split); all_goals simp_all)

@[simp] theorem State.takeMasks_keep (s : State) : (State.takeMasks s).pending = s.pending ∧ (State.takeMasks s).fuse = s.fuse := by
  refine ⟨?_, ?_⟩ <;> (unfold State.takeMasks; all_goals (try dsimp only); all_goals (repeat' split); all_goals simp_all)

@[simp] theorem State.doneAtStart_keep (s : State) : (State.doneAtStart s).pending = s.pending ∧ (State.doneAtStart s).fuse = s.fuse := by
  refine ⟨?_, ?_⟩ <;> (unfold State.doneAtStart; all_goals (try dsimp only); all_goals (repeat' split); all_goals simp_all)

@[simp] theorem State.beginTick_keep (s : State) (st b : Nat) (e : Option Nat) : (State.beginTick s st b e).pending = s.pending ∧ (State.beginTick s st b e).fuse = s.fuse := by
  refine ⟨?_, ?_⟩ <;> (unfold State.beginTick; all_goals (try dsimp only); all_goals (repeat' split); all_goals simp_all)

@[simp] theorem State.goLocal_keep (s : State) : (State.goLocal s).pending = s.pending ∧ (State.goLocal s).fuse = s.fuse := by
  refine ⟨?_, ?_⟩ <;> (unfold State.goLocal; all_goals (try dsimp only); all_goals (repeat' split); all_goals simp_all)

@[simp] theorem State.tickApply_keep (s : State) (st : Nat) : (State.tickApply s st).pending = s.pending ∧ (State.tickApply s st).fuse = s.fuse := by
  refine ⟨?_, ?_⟩ <;> (unfold State.tickApply; all_goals (try dsimp only); all_goals (repeat' split); all_goals simp_all)

@[simp] theorem State.endTick_keep (s : State) (a b : Nat) : (State.endTick s a b).pending = s.pending ∧ (State.endTick s a b).fuse = s.fuse := by
  refine ⟨?_, ?_⟩ <;> (unfold State.endTick; all_goals (try dsimp only); all_goals (repeat' split); all_goals simp_all)

@[simp] theorem State.sendFinal_keep (s : State) (a : Nat) : (State.sendFinal s a).pending = s.pending ∧ (State.sendFinal s a).fuse = s.fuse := by
  refine ⟨?_, ?_⟩ <;> (unfold State.sendFinal; all_goals (try dsimp only); all_goals (repeat' split); all_goals simp_all)

@[simp] theorem State.holdFault_keep (s : State) (a : Nat) : (State.holdFault s a).pending = s.pending ∧ (State.holdFault s a).fuse = s.fuse := by
  refine ⟨?_, ?_⟩ <;> (unfold State.holdFault; all_goals (try dsimp only); all_goals (repeat' split); all_goals simp_all)

@[simp] theorem State.tickGone_keep (s : State) : (State.tickGone s).pending = s.pending ∧ (State.tickGone s).fuse = s.fuse := by
  refine ⟨?_, ?_⟩ <;> (unfold State.tickGone; all_goals (try dsimp only); all_goals (repeat' split); all_goals simp_all)

@[simp] theorem State.goIdle_keep (s : State) : (State.goIdle s).pending = s.pending ∧ (State.goIdle s).fuse = s.fuse := by
  refine ⟨?_, ?_⟩ <;> (unfold State.goIdle; all_goals (try dsimp only); all_goals (repeat' split); all_goals simp_all)

@[simp] theorem State.discardTalq_keep (s : State) : (State.discardTalq s).pending = s.pending ∧ (State.discardTalq s).fuse = s.fuse := by
  refine ⟨?_, ?_⟩ <;> (unfold State.discardTalq; all_goals (try dsimp only); all_goals (repeat' split); all_goals simp_all)

@[simp] theorem State.joinDomain_keep (s : State) : (State.joinDomain s).pending = s.pending ∧ (State.joinDomain s).fuse = s.fuse := by
  refine ⟨?_, ?_⟩ <;> (unfold State.joinDomain; all_goals (try dsimp only); all_goals (repeat' split); all_goals simp_all)

@[simp] theorem State.writeHlyCtrl_keep (s : State) (v : Word) : (State.writeHlyCtrl s v).pending = s.pending ∧ (State.writeHlyCtrl s v).fuse = s.fuse := by
  refine ⟨?_, ?_⟩ <;> (unfold State.writeHlyCtrl; all_goals (try dsimp only); all_goals (repeat' split); all_goals simp_all)

@[simp] theorem State.leaveDomain_keep (s : State) : (State.leaveDomain s).pending = s.pending ∧ (State.leaveDomain s).fuse = s.fuse := by
  refine ⟨?_, ?_⟩ <;> (unfold State.leaveDomain; all_goals (try dsimp only); all_goals (repeat' split); all_goals simp_all)

end Sys2Proof.Machine
end

