-- ==== Sys2Proof/Laws/KeepCheckpoint.lean ====
section
/-! SUPPORT. No operation of Machine/Checkpoint.lean touches the queue of commands or the fuses. -/

set_option linter.unusedTactic false
set_option linter.unreachableTactic false
set_option linter.unnecessarySeqFocus false

namespace Sys2Proof.Machine

@[simp] theorem State.ckpClose_keep (s : State) (slot : Nat) : (State.ckpClose s slot).pending = s.pending ∧ (State.ckpClose s slot).fuse = s.fuse := by
  refine ⟨?_, ?_⟩ <;> (unfold State.ckpClose; all_goals (try dsimp only); all_goals (repeat' split); all_goals simp_all)

@[simp] theorem State.ckpWrs_keep (s : State) (slot tc node off : Nat) (bs : List Byte) (x0 : Nat) : (State.ckpWrs s slot tc node off bs x0).1.pending = s.pending ∧ (State.ckpWrs s slot tc node off bs x0).1.fuse = s.fuse := by
  induction x0 generalizing s slot tc node off bs with
  | zero => simp [State.ckpWrs]
  | succ k ih => refine ⟨?_, ?_⟩ <;> (unfold State.ckpWrs; all_goals (try dsimp only); all_goals (repeat' split); all_goals simp_all)

@[simp] theorem State.pcieStore_keep (s : State) (addr : Nat) (bs : List Byte) : (State.pcieStore s addr bs).pending = s.pending ∧ (State.pcieStore s addr bs).fuse = s.fuse := by
  refine ⟨?_, ?_⟩ <;> (unfold State.pcieStore; all_goals (try dsimp only); all_goals (repeat' split); all_goals simp_all)

@[simp] theorem State.ckpStore_keep (s : State) (slot kind addr : Nat) (bs : List Byte) : (State.ckpStore s slot kind addr bs).1.pending = s.pending ∧ (State.ckpStore s slot kind addr bs).1.fuse = s.fuse := by
  refine ⟨?_, ?_⟩ <;> (unfold State.ckpStore; all_goals (try dsimp only); all_goals (repeat' split); all_goals simp_all)

@[simp] theorem State.ckpRead_keep (s : State) (da n : Nat) : (State.ckpRead s da n).1.pending = s.pending ∧ (State.ckpRead s da n).1.fuse = s.fuse := by
  refine ⟨?_, ?_⟩ <;> (unfold State.ckpRead; all_goals (try dsimp only); all_goals (repeat' split); all_goals simp_all)

@[simp] theorem State.cutValidate_keep (s : State) : (State.cutValidate s).pending = s.pending ∧ (State.cutValidate s).fuse = s.fuse := by
  refine ⟨?_, ?_⟩ <;> (unfold State.cutValidate; all_goals (try dsimp only); all_goals (repeat' split); all_goals simp_all)

@[simp] theorem State.cutLaunch_keep (s : State) (e : TalqEntry) : (State.cutLaunch s e).pending = s.pending ∧ (State.cutLaunch s e).fuse = s.fuse := by
  refine ⟨?_, ?_⟩ <;> (unfold State.cutLaunch; all_goals (try dsimp only); all_goals (repeat' split); all_goals simp_all)

@[simp] theorem execCheckpointCut_keep (s : State) : s.kept (execCheckpointCut s) := by
  unfold execCheckpointCut; all_goals (try dsimp only); all_goals (repeat' split); all_goals simp_all

@[simp] theorem State.ckpNote_keep (s : State) (r : Nat) : (State.ckpNote s r).pending = s.pending ∧ (State.ckpNote s r).fuse = s.fuse := by
  refine ⟨?_, ?_⟩ <;> (unfold State.ckpNote; all_goals (try dsimp only); all_goals (repeat' split); all_goals simp_all)

@[simp] theorem State.ckpFenced_keep (s : State) : (State.ckpFenced s).pending = s.pending ∧ (State.ckpFenced s).fuse = s.fuse := by
  refine ⟨?_, ?_⟩ <;> (unfold State.ckpFenced; all_goals (try dsimp only); all_goals (repeat' split); all_goals simp_all)

@[simp] theorem State.ckpGatherSend_keep (s : State) : (State.ckpGatherSend s).pending = s.pending ∧ (State.ckpGatherSend s).fuse = s.fuse := by
  refine ⟨?_, ?_⟩ <;> (unfold State.ckpGatherSend; all_goals (try dsimp only); all_goals (repeat' split); all_goals simp_all)

@[simp] theorem State.ckpFailRec_keep (s : State) (id : Nat) (status : Option Nat) : (State.ckpFailRec s id status).pending = s.pending ∧ (State.ckpFailRec s id status).fuse = s.fuse := by
  refine ⟨?_, ?_⟩ <;> (unfold State.ckpFailRec; all_goals (try dsimp only); all_goals (repeat' split); all_goals simp_all)

@[simp] theorem State.ckpFail_keep (s : State) (slot result : Nat) (status : Option Nat) : (State.ckpFail s slot result status).pending = s.pending ∧ (State.ckpFail s slot result status).fuse = s.fuse := by
  refine ⟨?_, ?_⟩ <;> (unfold State.ckpFail; all_goals (try dsimp only); all_goals (repeat' split); all_goals simp_all)

@[simp] theorem State.ckpBegin_keep (s : State) (slot kind addr : Nat) (x : List Byte × Nat × Nat) : (State.ckpBegin s slot kind addr x).pending = s.pending ∧ (State.ckpBegin s slot kind addr x).fuse = s.fuse := by
  refine ⟨?_, ?_⟩ <;> (unfold State.ckpBegin; all_goals (try dsimp only); all_goals (repeat' split); all_goals simp_all)

@[simp] theorem State.shardBegin_keep (s : State) (i : Nat) : (State.shardBegin s i).pending = s.pending ∧ (State.shardBegin s i).fuse = s.fuse := by
  refine ⟨?_, ?_⟩ <;> (unfold State.shardBegin; all_goals (try dsimp only); all_goals (repeat' split); all_goals simp_all)

@[simp] theorem State.shardFill_keep (s : State) (x0 : Nat) : (State.shardFill s x0).pending = s.pending ∧ (State.shardFill s x0).fuse = s.fuse := by
  induction x0 generalizing s with
  | zero => simp [State.shardFill]
  | succ k ih => refine ⟨?_, ?_⟩ <;> (unfold State.shardFill; all_goals (try dsimp only); all_goals (repeat' split); all_goals simp_all)

@[simp] theorem State.manStage_keep (s : State) (stage addr : Nat) (bs : List Byte) : (State.manStage s stage addr bs).pending = s.pending ∧ (State.manStage s stage addr bs).fuse = s.fuse := by
  refine ⟨?_, ?_⟩ <;> (unfold State.manStage; all_goals (try dsimp only); all_goals (repeat' split); all_goals simp_all)

@[simp] theorem State.manNext_keep (s : State) : (State.manNext s).pending = s.pending ∧ (State.manNext s).fuse = s.fuse := by
  refine ⟨?_, ?_⟩ <;> (unfold State.manNext; all_goals (try dsimp only); all_goals (repeat' split); all_goals simp_all)

@[simp] theorem State.manRead_keep (s : State) (ok : Bool) : (State.manRead s ok).pending = s.pending ∧ (State.manRead s ok).fuse = s.fuse := by
  refine ⟨?_, ?_⟩ <;> (unfold State.manRead; all_goals (try dsimp only); all_goals (repeat' split); all_goals simp_all)

@[simp] theorem State.manBegin_keep (s : State) (stage addr : Nat) (body : List Byte) : (State.manBegin s stage addr body).pending = s.pending ∧ (State.manBegin s stage addr body).fuse = s.fuse :=
  ⟨(State.manStage_keep _ _ _ _).1, (State.manStage_keep _ _ _ _).2⟩

@[simp] theorem State.shardsOver_keep (s : State) : (State.shardsOver s).pending = s.pending ∧ (State.shardsOver s).fuse = s.fuse := by
  refine ⟨?_, ?_⟩ <;> (unfold State.shardsOver; all_goals (try dsimp only); all_goals (repeat' split); all_goals simp_all)

@[simp] theorem execCutDrained_keep (s : State) : s.kept (execCutDrained s) := by
  unfold execCutDrained; all_goals (try dsimp only); all_goals (repeat' split); all_goals simp_all

@[simp] theorem execShardWritten_keep (slot : Nat) (pcieOk : Bool) (s : State) : s.kept (execShardWritten slot pcieOk s) := by
  unfold execShardWritten; all_goals (try dsimp only); all_goals (repeat' split); all_goals simp_all

@[simp] theorem execNodeManifestCommit_keep (s : State) : s.kept (execNodeManifestCommit s) := by
  unfold execNodeManifestCommit; all_goals (try dsimp only); all_goals (repeat' split); all_goals simp_all

@[simp] theorem State.gatherRead_keep (s : State) (i : Nat) : (State.gatherRead s i).1.pending = s.pending ∧ (State.gatherRead s i).1.fuse = s.fuse := by
  refine ⟨?_, ?_⟩ <;> (unfold State.gatherRead; all_goals (try dsimp only); all_goals (repeat' split); all_goals simp_all)

@[simp] theorem State.gatherAll_keep (s : State) (i : Nat) (x0 : Nat) : (State.gatherAll s i x0).1.pending = s.pending ∧ (State.gatherAll s i x0).1.fuse = s.fuse := by
  induction x0 generalizing s i with
  | zero => simp [State.gatherAll]
  | succ k ih => refine ⟨?_, ?_⟩ <;> (unfold State.gatherAll; all_goals (try dsimp only); all_goals (repeat' split); all_goals simp_all)

@[simp] theorem execPartitionManifestCommit_keep (slot0 slot1 : List Byte) (s : State) : s.kept (execPartitionManifestCommit slot0 slot1 s) := by
  unfold execPartitionManifestCommit; all_goals (try dsimp only); all_goals (repeat' split); all_goals simp_all

@[simp] theorem execGatherTimeout_keep (s : State) : s.kept (execGatherTimeout s) := by
  unfold execGatherTimeout; all_goals (try dsimp only); all_goals (repeat' split); all_goals simp_all

@[simp] theorem execCutTimeout_keep (s : State) : s.kept (execCutTimeout s) := by
  unfold execCutTimeout; all_goals (try dsimp only); all_goals (repeat' split); all_goals simp_all

@[simp] theorem State.ckpAnswer_keep (s : State) (slot st : Nat) : (State.ckpAnswer s slot st).pending = s.pending ∧ (State.ckpAnswer s slot st).fuse = s.fuse := by
  refine ⟨?_, ?_⟩ <;> (unfold State.ckpAnswer; all_goals (try dsimp only); all_goals (repeat' split); all_goals simp_all)

@[simp] theorem execCutHoldEnd_keep (s : State) : s.kept (execCutHoldEnd s) := by
  unfold execCutHoldEnd; all_goals (try dsimp only); all_goals (repeat' split); all_goals simp_all

@[simp] theorem execChildSilence_keep (child : Nat) (s : State) : s.kept (execChildSilence child s) := by
  unfold execChildSilence; all_goals (try dsimp only); all_goals (repeat' split); all_goals simp_all

@[simp] theorem State.restoreEnd_keep (s : State) (result : Nat) : (State.restoreEnd s result).pending = s.pending ∧ (State.restoreEnd s result).fuse = s.fuse := by
  refine ⟨?_, ?_⟩ <;> (unfold State.restoreEnd; all_goals (try dsimp only); all_goals (repeat' split); all_goals simp_all)

@[simp] theorem State.restoreCheck_keep (s : State) (m : List Byte) : (State.restoreCheck s m).pending = s.pending ∧ (State.restoreCheck s m).fuse = s.fuse := by
  refine ⟨?_, ?_⟩ <;> (unfold State.restoreCheck; all_goals (try dsimp only); all_goals (repeat' split); all_goals simp_all)

@[simp] theorem execCkpRestore_keep (agent : Agent) (value : Word) (man : List Byte) (s : State) : s.kept (execCkpRestore agent value man s) := by
  unfold execCkpRestore; all_goals (try dsimp only); all_goals (repeat' split); all_goals simp_all

@[simp] theorem State.restoreShard_keep (s : State) (w : List Word) (b : List Byte) : (State.restoreShard s w b).1.pending = s.pending ∧ (State.restoreShard s w b).1.fuse = s.fuse := by
  refine ⟨?_, ?_⟩ <;> (unfold State.restoreShard; all_goals (try dsimp only); all_goals (repeat' split); all_goals simp_all)

@[simp] theorem State.restoreHeld_keep (s : State) (w : List Word) (b : List Byte) : (State.restoreHeld s w b).1.pending = s.pending ∧ (State.restoreHeld s w b).1.fuse = s.fuse := by
  refine ⟨?_, ?_⟩ <;> (unfold State.restoreHeld; all_goals (try dsimp only); all_goals (repeat' split); all_goals simp_all)

@[simp] theorem State.restoreAll_keep (s : State) (x0 : List ManRec) (x1 : List (List Byte)) : (State.restoreAll s x0 x1).1.pending = s.pending ∧ (State.restoreAll s x0 x1).1.fuse = s.fuse := by
  induction x0 generalizing s x1 with
  | nil => simp [State.restoreAll]
  | cons a r ih => refine ⟨?_, ?_⟩ <;> (unfold State.restoreAll; all_goals (try dsimp only); all_goals (repeat' split); all_goals simp_all)

@[simp] theorem execRestoreComplete_keep (data : List (List Byte)) (s : State) : s.kept (execRestoreComplete data s) := by
  unfold execRestoreComplete; all_goals (try dsimp only); all_goals (repeat' split); all_goals simp_all

@[simp] theorem execCkpRelease_keep (agent : Agent) (s : State) : s.kept (execCkpRelease agent s) := by
  unfold execCkpRelease; all_goals (try dsimp only); all_goals (repeat' split); all_goals simp_all

end Sys2Proof.Machine
end

