-- ==== Sys2Proof/Laws/KeepCoreEvents.lean ====
section
/-! SUPPORT. No operation of Machine/CoreEvents.lean touches the queue of commands or the fuses. -/

set_option linter.unusedTactic false
set_option linter.unreachableTactic false
set_option linter.unnecessarySeqFocus false

namespace Sys2Proof.Machine

@[simp] theorem State.coreRead_keep (s : State) (c da n : Nat) (acc : Access) : (State.coreRead s c da n acc).1.pending = s.pending ∧ (State.coreRead s c da n acc).1.fuse = s.fuse := by
  refine ⟨?_, ?_⟩ <;> (unfold State.coreRead; all_goals (try dsimp only); all_goals (repeat' split); all_goals simp_all)

@[simp] theorem State.launchCheck_keep (s : State) (c desc : Nat) : (State.launchCheck s c desc).1.pending = s.pending ∧ (State.launchCheck s c desc).1.fuse = s.fuse := by
  refine ⟨?_, ?_⟩ <;> (unfold State.launchCheck; all_goals (try dsimp only); all_goals (repeat' split); all_goals simp_all)

@[simp] theorem State.launchRefused_keep (s : State) (c code desc : Nat) : (State.launchRefused s c code desc).pending = s.pending ∧ (State.launchRefused s c code desc).fuse = s.fuse := by
  refine ⟨?_, ?_⟩ <;> (unfold State.launchRefused; all_goals (try dsimp only); all_goals (repeat' split); all_goals simp_all)

@[simp] theorem State.launch_keep (s : State) (c desc : Nat) : (State.launch s c desc).1.pending = s.pending ∧ (State.launch s c desc).1.fuse = s.fuse := by
  refine ⟨?_, ?_⟩ <;> (unfold State.launch; all_goals (try dsimp only); all_goals (repeat' split); all_goals simp_all)

@[simp] theorem execTcDoorbell_keep (agent : Agent) (die phys : Nat) (value : Word) (s : State) : s.kept (execTcDoorbell agent die phys value s) := by
  unfold execTcDoorbell; all_goals (try dsimp only); all_goals (repeat' split); all_goals simp_all

@[simp] theorem execProgramStart_keep (die : Nat) (s : State) : s.kept (execProgramStart die s) := by
  unfold execProgramStart; all_goals (try dsimp only); all_goals (repeat' split); all_goals simp_all

@[simp] theorem State.pmStores_keep (s : State) (c o : Nat) (x0 : List Word) : (State.pmStores s c o x0).pending = s.pending ∧ (State.pmStores s c o x0).fuse = s.fuse := by
  induction x0 generalizing s c o with
  | nil => simp [State.pmStores]
  | cons a r ih => refine ⟨?_, ?_⟩ <;> (unfold State.pmStores; all_goals (try dsimp only); all_goals (repeat' split); all_goals simp_all)

@[simp] theorem State.loadImage_keep (s : State) (c src dst len : Nat) (x0 : Nat) : (State.loadImage s c src dst len x0).1.pending = s.pending ∧ (State.loadImage s c src dst len x0).1.fuse = s.fuse := by
  induction x0 generalizing s c src dst len with
  | zero => simp [State.loadImage]
  | succ k ih => refine ⟨?_, ?_⟩ <;> (unfold State.loadImage; all_goals (try dsimp only); all_goals (repeat' split); all_goals simp_all)

@[simp] theorem State.clearS_keep (s : State) (w : Nat) : (State.clearS s w).pending = s.pending ∧ (State.clearS s w).fuse = s.fuse := by
  refine ⟨?_, ?_⟩ <;> (unfold State.clearS; all_goals (try dsimp only); all_goals (repeat' split); all_goals simp_all)

@[simp] theorem State.startProgram_keep (s : State) (c : Nat) (d : List Word) : (State.startProgram s c d).pending = s.pending ∧ (State.startProgram s c d).fuse = s.fuse := by
  refine ⟨?_, ?_⟩ <;> (unfold State.startProgram; all_goals (try dsimp only); all_goals (repeat' split); all_goals simp_all)

@[simp] theorem execProgramLoadComplete_keep (core : Nat) (s : State) : s.kept (execProgramLoadComplete core s) := by
  unfold execProgramLoadComplete; all_goals (try dsimp only); all_goals (repeat' split); all_goals simp_all

@[simp] theorem State.clearEngines_keep (s : State) (w : Nat) : (State.clearEngines s w).pending = s.pending ∧ (State.clearEngines s w).fuse = s.fuse := by
  refine ⟨?_, ?_⟩ <;> (unfold State.clearEngines; all_goals (try dsimp only); all_goals (repeat' split); all_goals simp_all)

@[simp] theorem State.fidDrop_keep (s : State) (c : Nat) : (State.fidDrop s c).pending = s.pending ∧ (State.fidDrop s c).fuse = s.fuse := by
  refine ⟨?_, ?_⟩ <;> (unfold State.fidDrop; all_goals (try dsimp only); all_goals (repeat' split); all_goals simp_all)

@[simp] theorem State.enterScrub_keep (s : State) (w : Nat) : (State.enterScrub s w).pending = s.pending ∧ (State.enterScrub s w).fuse = s.fuse := by
  refine ⟨?_, ?_⟩ <;> (unfold State.enterScrub; all_goals (try dsimp only); all_goals (repeat' split); all_goals simp_all)

@[simp] theorem State.takeCtx_keep (s : State) (w : Nat) (value : Word) : (State.takeCtx s w value).pending = s.pending ∧ (State.takeCtx s w value).fuse = s.fuse := by
  refine ⟨?_, ?_⟩ <;> (unfold State.takeCtx; all_goals (try dsimp only); all_goals (repeat' split); all_goals simp_all)

@[simp] theorem State.writeCtx_keep (s : State) (die phys : Nat) (value : Word) : (State.writeCtx s die phys value).pending = s.pending ∧ (State.writeCtx s die phys value).fuse = s.fuse := by
  refine ⟨?_, ?_⟩ <;> (unfold State.writeCtx; all_goals (try dsimp only); all_goals (repeat' split); all_goals simp_all)

@[simp] theorem execTcCtx_keep (agent : Agent) (die phys : Nat) (value : Word) (s : State) : s.kept (execTcCtx agent die phys value s) := by
  unfold execTcCtx; all_goals (try dsimp only); all_goals (repeat' split); all_goals simp_all

@[simp] theorem State.ctxRelease_keep (s : State) (c : Nat) : (State.ctxRelease s c).pending = s.pending ∧ (State.ctxRelease s c).fuse = s.fuse := by
  refine ⟨?_, ?_⟩ <;> (unfold State.ctxRelease; all_goals (try dsimp only); all_goals (repeat' split); all_goals simp_all)

@[simp] theorem State.zeroCore_keep (s : State) (c : Nat) : (State.zeroCore s c).pending = s.pending ∧ (State.zeroCore s c).fuse = s.fuse := by
  refine ⟨?_, ?_⟩ <;> (unfold State.zeroCore; all_goals (try dsimp only); all_goals (repeat' split); all_goals simp_all)

@[simp] theorem execScrubComplete_keep (die phys : Nat) (s : State) : s.kept (execScrubComplete die phys s) := by
  unfold execScrubComplete; all_goals (try dsimp only); all_goals (repeat' split); all_goals simp_all

@[simp] theorem State.stopCore_keep (s : State) (c : Nat) : (State.stopCore s c).pending = s.pending ∧ (State.stopCore s c).fuse = s.fuse := by
  refine ⟨?_, ?_⟩ <;> (unfold State.stopCore; all_goals (try dsimp only); all_goals (repeat' split); all_goals simp_all)

@[simp] theorem execStop_keep (agent : Agent) (die phys : Nat) (s : State) : s.kept (execStop agent die phys s) := by
  unfold execStop; all_goals (try dsimp only); all_goals (repeat' split); all_goals simp_all

@[simp] theorem execStopComplete_keep (core : Nat) (s : State) : s.kept (execStopComplete core s) := by
  unfold execStopComplete; all_goals (try dsimp only); all_goals (repeat' split); all_goals simp_all

@[simp] theorem execClearFault_keep (agent : Agent) (die phys : Nat) (s : State) : s.kept (execClearFault agent die phys s) := by
  unfold execClearFault; all_goals (try dsimp only); all_goals (repeat' split); all_goals simp_all

@[simp] theorem State.loseCore_keep (s : State) (c : Nat) : (State.loseCore s c).pending = s.pending ∧ (State.loseCore s c).fuse = s.fuse := by
  refine ⟨?_, ?_⟩ <;> (unfold State.loseCore; all_goals (try dsimp only); all_goals (repeat' split); all_goals simp_all)

@[simp] theorem State.strandClear_keep (s : State) (d st : Nat) : (State.strandClear s d st).pending = s.pending ∧ (State.strandClear s d st).fuse = s.fuse := by
  refine ⟨?_, ?_⟩ <;> (unfold State.strandClear; all_goals (try dsimp only); all_goals (repeat' split); all_goals simp_all)

@[simp] theorem State.strandLose_keep (s : State) (die strand : Nat) : (State.strandLose s die strand).pending = s.pending ∧ (State.strandLose s die strand).fuse = s.fuse := by
  refine ⟨?_, ?_⟩ <;> (unfold State.strandLose; all_goals (try dsimp only); all_goals (repeat' split); all_goals simp_all)

@[simp] theorem execStrandLost_keep (die strand : Nat) (s : State) : s.kept (execStrandLost die strand s) := by
  unfold execStrandLost; all_goals (try dsimp only); all_goals (repeat' split); all_goals simp_all

@[simp] theorem State.strandWatch_keep (s : State) (core : Nat) : (State.strandWatch s core).pending = s.pending ∧ (State.strandWatch s core).fuse = s.fuse := by
  refine ⟨?_, ?_⟩ <;> (unfold State.strandWatch; all_goals (try dsimp only); all_goals (repeat' split); all_goals simp_all)

@[simp] theorem execTcSemValue_keep (agent : Agent) (die sem : Nat) (value : Word) (s : State) : s.kept (execTcSemValue agent die sem value s) := by
  unfold execTcSemValue; all_goals (try dsimp only); all_goals (repeat' split); all_goals simp_all

@[simp] theorem execTcSemOwner_keep (agent : Agent) (die sem : Nat) (value : Word) (s : State) : s.kept (execTcSemOwner agent die sem value s) := by
  unfold execTcSemOwner; all_goals (try dsimp only); all_goals (repeat' split); all_goals simp_all

@[simp] theorem execTcEvqOwner_keep (agent : Agent) (die queue : Nat) (value : Word) (s : State) : s.kept (execTcEvqOwner agent die queue value s) := by
  unfold execTcEvqOwner; all_goals (try dsimp only); all_goals (repeat' split); all_goals simp_all

@[simp] theorem State.writeEvqBase_keep (s : State) (w : Nat) (value : Word) : (State.writeEvqBase s w value).pending = s.pending ∧ (State.writeEvqBase s w value).fuse = s.fuse := by
  refine ⟨?_, ?_⟩ <;> (unfold State.writeEvqBase; all_goals (try dsimp only); all_goals (repeat' split); all_goals simp_all)

@[simp] theorem State.writeEvqCtrl_keep (s : State) (w : Nat) (value : Word) : (State.writeEvqCtrl s w value).pending = s.pending ∧ (State.writeEvqCtrl s w value).fuse = s.fuse := by
  refine ⟨?_, ?_⟩ <;> (unfold State.writeEvqCtrl; all_goals (try dsimp only); all_goals (repeat' split); all_goals simp_all)

@[simp] theorem execTcEvqBase_keep (agent : Agent) (die queue : Nat) (value : Word) (s : State) : s.kept (execTcEvqBase agent die queue value s) := by
  unfold execTcEvqBase; all_goals (try dsimp only); all_goals (repeat' split); all_goals simp_all

@[simp] theorem execTcEvqCtrl_keep (agent : Agent) (die queue : Nat) (value : Word) (s : State) : s.kept (execTcEvqCtrl agent die queue value s) := by
  unfold execTcEvqCtrl; all_goals (try dsimp only); all_goals (repeat' split); all_goals simp_all

end Sys2Proof.Machine
end

