-- ==== Sys2Proof/Laws/KeepEngine.lean ====
section
/-! SUPPORT. No operation of Machine/Engine.lean touches the queue of commands or the fuses. -/

set_option linter.unusedTactic false
set_option linter.unreachableTactic false
set_option linter.unnecessarySeqFocus false

namespace Sys2Proof.Machine

@[simp] theorem State.engine_keep (s : State) (c : Nat) (word : Word) (legal : Bool) (check : State → Option IssueFault) (foot : State → List Range) (k : State → State) (h_k : ∀ (y0 : State), (k y0).pending = y0.pending ∧ (k y0).fuse = y0.fuse) : (State.engine s c word legal check foot k).pending = s.pending ∧ (State.engine s c word legal check foot k).fuse = s.fuse := by
  unfold State.engine State.issue
  refine ⟨?_, ?_⟩ <;> ((try dsimp only); (repeat' split) <;> simp_all)

@[simp] theorem State.engineFault_keep (s : State) (c source code : Nat) (addr : Nat) (word : Word) : (State.engineFault s c source code addr word).pending = s.pending ∧ (State.engineFault s c source code addr word).fuse = s.fuse := by
  refine ⟨?_, ?_⟩ <;> (unfold State.engineFault; all_goals (try dsimp only); all_goals (repeat' split); all_goals simp_all)

@[simp] theorem State.tsWrite_keep (s : State) (c o : Nat) (bs : List Byte) : (State.tsWrite s c o bs).pending = s.pending ∧ (State.tsWrite s c o bs).fuse = s.fuse := by
  refine ⟨?_, ?_⟩ <;> (unfold State.tsWrite; all_goals (try dsimp only); all_goals (repeat' split); all_goals simp_all)

@[simp] theorem State.enginePoison_keep (s : State) (c source off : Nat) (word : Word) : (State.enginePoison s c source off word).pending = s.pending ∧ (State.enginePoison s c source off word).fuse = s.fuse := by
  refine ⟨?_, ?_⟩ <;> (unfold State.enginePoison; all_goals (try dsimp only); all_goals (repeat' split); all_goals simp_all)

@[simp] theorem State.raise_keep (s : State) (a fl : Nat) : (State.raise s a fl).pending = s.pending ∧ (State.raise s a fl).fuse = s.fuse := by
  refine ⟨?_, ?_⟩ <;> (unfold State.raise; all_goals (try dsimp only); all_goals (repeat' split); all_goals simp_all)

@[simp] theorem State.histAdd_keep (s : State) (a word n : Nat) : (State.histAdd s a word n).pending = s.pending ∧ (State.histAdd s a word n).fuse = s.fuse := by
  refine ⟨?_, ?_⟩ <;> (unfold State.histAdd; all_goals (try dsimp only); all_goals (repeat' split); all_goals simp_all)

@[simp] theorem State.histOne_keep (s : State) (a : Nat) (e : Nat × Nat) : (State.histOne s a e).pending = s.pending ∧ (State.histOne s a e).fuse = s.fuse := by
  refine ⟨?_, ?_⟩ <;> (unfold State.histOne; all_goals (try dsimp only); all_goals (repeat' split); all_goals simp_all)

@[simp] theorem State.histAll_keep (s : State) (a : Nat) (x0 : List (Nat × Nat)) : (State.histAll s a x0).pending = s.pending ∧ (State.histAll s a x0).fuse = s.fuse := by
  induction x0 generalizing s a with
  | nil => simp [State.histAll]
  | cons a r ih => refine ⟨?_, ?_⟩ <;> (unfold State.histAll; all_goals (try dsimp only); all_goals (repeat' split); all_goals simp_all)

@[simp] theorem State.histClear_keep (s : State) (a : Nat) : (State.histClear s a).pending = s.pending ∧ (State.histClear s a).fuse = s.fuse := by
  refine ⟨?_, ?_⟩ <;> (unfold State.histClear; all_goals (try dsimp only); all_goals (repeat' split); all_goals simp_all)

@[simp] theorem State.engineCtrl_keep (s : State) (agent : Agent) (die phys : Nat) (k : State → Nat → State) (h_k : ∀ (y0 : State) (y1 : Nat), (k y0 y1).pending = y0.pending ∧ (k y0 y1).fuse = y0.fuse) : (State.engineCtrl s agent die phys k).pending = s.pending ∧ (State.engineCtrl s agent die phys k).fuse = s.fuse := by
  refine ⟨?_, ?_⟩ <;> (unfold State.engineCtrl; all_goals (try dsimp only); all_goals (repeat' split); all_goals simp_all)

end Sys2Proof.Machine
end

