-- ==== Sys2Proof/Laws/KeepFidOps.lean ====
section
/-! SUPPORT. No operation of Machine/FidOps.lean touches the queue of commands or the fuses. -/

set_option linter.unusedTactic false
set_option linter.unreachableTactic false
set_option linter.unnecessarySeqFocus false

namespace Sys2Proof.Machine

@[simp] theorem State.fidXlat_keep (s : State) (c da : Nat) (acc : Access) : (State.fidXlat s c da acc).1.pending = s.pending ∧ (State.fidXlat s c da acc).1.fuse = s.fuse := by
  refine ⟨?_, ?_⟩ <;> (unfold State.fidXlat; all_goals (try dsimp only); all_goals (repeat' split); all_goals simp_all)

@[simp] theorem State.fidPieces_keep (s : State) (c : Nat) (a : FidAccess) (acc : Access) (x0 : List (Nat × Nat × Nat)) : (State.fidPieces s c a acc x0).1.pending = s.pending ∧ (State.fidPieces s c a acc x0).1.fuse = s.fuse := by
  induction x0 generalizing s c a acc with
  | nil => simp [State.fidPieces]
  | cons a r ih => refine ⟨?_, ?_⟩ <;> (unfold State.fidPieces; all_goals (try dsimp only); all_goals (repeat' split); all_goals simp_all)

@[simp] theorem State.fidCheck_keep (s : State) (c : Nat) (a : FidAccess) (acc : Access) : (State.fidCheck s c a acc).1.pending = s.pending ∧ (State.fidCheck s c a acc).1.fuse = s.fuse := by
  refine ⟨?_, ?_⟩ <;> (unfold State.fidCheck; all_goals (try dsimp only); all_goals (repeat' split); all_goals simp_all)

@[simp] theorem State.fidReadPieces_keep (s : State) (c : Nat) (a : FidAccess) (x0 : List (Nat × Nat × Nat)) : (State.fidReadPieces s c a x0).1.pending = s.pending ∧ (State.fidReadPieces s c a x0).1.fuse = s.fuse := by
  induction x0 generalizing s c a with
  | nil => simp [State.fidReadPieces]
  | cons a r ih => refine ⟨?_, ?_⟩ <;> (unfold State.fidReadPieces; all_goals (try dsimp only); all_goals (repeat' split); all_goals simp_all)

@[simp] theorem State.fidRead_keep (s : State) (c : Nat) (a : FidAccess) : (State.fidRead s c a).1.pending = s.pending ∧ (State.fidRead s c a).1.fuse = s.fuse := by
  refine ⟨?_, ?_⟩ <;> (unfold State.fidRead; all_goals (try dsimp only); all_goals (repeat' split); all_goals simp_all)

@[simp] theorem State.fidReads_keep (s : State) (c : Nat) (x0 : List FidAccess) : (State.fidReads s c x0).1.pending = s.pending ∧ (State.fidReads s c x0).1.fuse = s.fuse := by
  induction x0 generalizing s c with
  | nil => simp [State.fidReads]
  | cons a r ih => refine ⟨?_, ?_⟩ <;> (unfold State.fidReads; all_goals (try dsimp only); all_goals (repeat' split); all_goals simp_all)

@[simp] theorem State.fidDstFaults_keep (s : State) (c : Nat) (x0 : List FidAccess) : (State.fidDstFaults s c x0).1.pending = s.pending ∧ (State.fidDstFaults s c x0).1.fuse = s.fuse := by
  induction x0 generalizing s c with
  | nil => simp [State.fidDstFaults]
  | cons a r ih => refine ⟨?_, ?_⟩ <;> (unfold State.fidDstFaults; all_goals (try dsimp only); all_goals (repeat' split); all_goals simp_all)

@[simp] theorem State.fidPutPieces_keep (s : State) (bs : List Byte) (x0 : List (Nat × Nat × Nat)) : (State.fidPutPieces s bs x0).pending = s.pending ∧ (State.fidPutPieces s bs x0).fuse = s.fuse := by
  induction x0 generalizing s bs with
  | nil => simp [State.fidPutPieces]
  | cons a r ih => refine ⟨?_, ?_⟩ <;> (unfold State.fidPutPieces; all_goals (try dsimp only); all_goals (repeat' split); all_goals simp_all)

@[simp] theorem State.fidWrite_keep (s : State) (c : Nat) (a : FidAccess) (bs : List Byte) : (State.fidWrite s c a bs).pending = s.pending ∧ (State.fidWrite s c a bs).fuse = s.fuse := by
  refine ⟨?_, ?_⟩ <;> (unfold State.fidWrite; all_goals (try dsimp only); all_goals (repeat' split); all_goals simp_all)

@[simp] theorem State.fidIssue_keep (s : State) (x : Xfer) (write : Bool) (p : FidPut) (n : Nat) : (State.fidIssue s x write p n).1.pending = s.pending ∧ (State.fidIssue s x write p n).1.fuse = s.fuse := by
  refine ⟨?_, ?_⟩ <;> (unfold State.fidIssue; all_goals (try dsimp only); all_goals (repeat' split); all_goals simp_all)

@[simp] theorem State.fidStore_keep (s : State) (x : Xfer) (b : List Byte) : (State.fidStore s x b).1.pending = s.pending ∧ (State.fidStore s x b).1.fuse = s.fuse := by
  refine ⟨?_, ?_⟩ <;> (unfold State.fidStore; all_goals (try dsimp only); all_goals (repeat' split); all_goals simp_all)

@[simp] theorem State.fidUnitFault_keep (s : State) (x : Xfer) (fs : List FidFault) : (State.fidUnitFault s x fs).1.pending = s.pending ∧ (State.fidUnitFault s x fs).1.fuse = s.fuse := by
  refine ⟨?_, ?_⟩ <;> (unfold State.fidUnitFault; all_goals (try dsimp only); all_goals (repeat' split); all_goals simp_all)

@[simp] theorem State.fidUnitLocal_keep (s : State) (x : Xfer) : (State.fidUnitLocal s x).1.pending = s.pending ∧ (State.fidUnitLocal s x).1.fuse = s.fuse := by
  refine ⟨?_, ?_⟩ <;> (unfold State.fidUnitLocal; all_goals (try dsimp only); all_goals (repeat' split); all_goals simp_all)

@[simp] theorem State.fidUnitRemote_keep (s : State) (x : Xfer) : (State.fidUnitRemote s x).1.pending = s.pending ∧ (State.fidUnitRemote s x).1.fuse = s.fuse := by
  refine ⟨?_, ?_⟩ <;> (unfold State.fidUnitRemote; all_goals (try dsimp only); all_goals (repeat' split); all_goals simp_all)

@[simp] theorem State.fidGo_keep (s : State) (x : Xfer) (x0 : Nat) : (State.fidGo s x x0).1.pending = s.pending ∧ (State.fidGo s x x0).1.fuse = s.fuse := by
  induction x0 generalizing s x with
  | zero => simp [State.fidGo]
  | succ k ih => refine ⟨?_, ?_⟩ <;> (unfold State.fidGo; all_goals (try dsimp only); all_goals (repeat' split); all_goals simp_all)

@[simp] theorem State.fidStatus_keep (s : State) (c : Nat) : (State.fidStatus s c).pending = s.pending ∧ (State.fidStatus s c).fuse = s.fuse := by
  refine ⟨?_, ?_⟩ <;> (unfold State.fidStatus; all_goals (try dsimp only); all_goals (repeat' split); all_goals simp_all)

@[simp] theorem State.fidEnter_keep (s : State) (x : Xfer) : (State.fidEnter s x).pending = s.pending ∧ (State.fidEnter s x).fuse = s.fuse := by
  refine ⟨?_, ?_⟩ <;> (unfold State.fidEnter; all_goals (try dsimp only); all_goals (repeat' split); all_goals simp_all)

@[simp] theorem State.fidCoreFault_keep (s : State) (x : Xfer) (code detail : Nat) (addr : Word) : (State.fidCoreFault s x code detail addr).pending = s.pending ∧ (State.fidCoreFault s x code detail addr).fuse = s.fuse := by
  refine ⟨?_, ?_⟩ <;> (unfold State.fidCoreFault; all_goals (try dsimp only); all_goals (repeat' split); all_goals simp_all)

@[simp] theorem State.fidFault_keep (s : State) (x : Xfer) (f : FidFault) : (State.fidFault s x f).pending = s.pending ∧ (State.fidFault s x f).fuse = s.fuse := by
  refine ⟨?_, ?_⟩ <;> (unfold State.fidFault; all_goals (try dsimp only); all_goals (repeat' split); all_goals simp_all)

@[simp] theorem State.fidSettle_keep (s : State) (o : FidOut) : (State.fidSettle s o).pending = s.pending ∧ (State.fidSettle s o).fuse = s.fuse := by
  refine ⟨?_, ?_⟩ <;> (unfold State.fidSettle; all_goals (try dsimp only); all_goals (repeat' split); all_goals simp_all)

@[simp] theorem State.fidDesc_keep (s : State) (c : Nat) (a : Nat) : (State.fidDesc s c a).1.pending = s.pending ∧ (State.fidDesc s c a).1.fuse = s.fuse := by
  refine ⟨?_, ?_⟩ <;> (unfold State.fidDesc; all_goals (try dsimp only); all_goals (repeat' split); all_goals simp_all)

@[simp] theorem State.fidCounted_keep (s : State) : (State.fidCounted s).pending = s.pending ∧ (State.fidCounted s).fuse = s.fuse := by
  refine ⟨?_, ?_⟩ <;> (unfold State.fidCounted; all_goals (try dsimp only); all_goals (repeat' split); all_goals simp_all)

@[simp] theorem State.fidBegin_keep (s : State) (i : FidInsn) : (State.fidBegin s i).pending = s.pending ∧ (State.fidBegin s i).fuse = s.fuse := by
  refine ⟨?_, ?_⟩ <;> (unfold State.fidBegin; all_goals (try dsimp only); all_goals (repeat' split); all_goals simp_all)

@[simp] theorem State.fidClearFlags_keep (s : State) (w : Nat) : (State.fidClearFlags s w).pending = s.pending ∧ (State.fidClearFlags s w).fuse = s.fuse := by
  refine ⟨?_, ?_⟩ <;> (unfold State.fidClearFlags; all_goals (try dsimp only); all_goals (repeat' split); all_goals simp_all)

@[simp] theorem State.fidClearExc_keep (s : State) (w : Nat) : (State.fidClearExc s w).pending = s.pending ∧ (State.fidClearExc s w).fuse = s.fuse := by
  refine ⟨?_, ?_⟩ <;> (unfold State.fidClearExc; all_goals (try dsimp only); all_goals (repeat' split); all_goals simp_all)

@[simp] theorem State.fidClearHist_keep (s : State) (w : Nat) : (State.fidClearHist s w).pending = s.pending ∧ (State.fidClearHist s w).fuse = s.fuse := by
  refine ⟨?_, ?_⟩ <;> (unfold State.fidClearHist; all_goals (try dsimp only); all_goals (repeat' split); all_goals simp_all)

@[simp] theorem State.fidRec_keep (s : State) (i : FidInsn) : (State.fidRec s i).pending = s.pending ∧ (State.fidRec s i).fuse = s.fuse := by
  refine ⟨?_, ?_⟩ <;> (unfold State.fidRec; all_goals (try dsimp only); all_goals (repeat' split); all_goals simp_all)

@[simp] theorem State.fidRun_keep (s : State) (c : Nat) (x0 : Nat) : (State.fidRun s c x0).pending = s.pending ∧ (State.fidRun s c x0).fuse = s.fuse := by
  induction x0 generalizing s c with
  | zero => simp [State.fidRun]
  | succ k ih => refine ⟨?_, ?_⟩ <;> (unfold State.fidRun; all_goals (try dsimp only); all_goals (repeat' split); all_goals simp_all)

@[simp] theorem State.fidAfter_keep (s : State) (c : Nat) : (State.fidAfter s c).pending = s.pending ∧ (State.fidAfter s c).fuse = s.fuse := by
  refine ⟨?_, ?_⟩ <;> (unfold State.fidAfter; all_goals (try dsimp only); all_goals (repeat' split); all_goals simp_all)

@[simp] theorem State.fidAnswer_keep (s : State) (x : Xfer) (st : Nat) (data : List Byte) : (State.fidAnswer s x st data).pending = s.pending ∧ (State.fidAnswer s x st data).fuse = s.fuse := by
  refine ⟨?_, ?_⟩ <;> (unfold State.fidAnswer; all_goals (try dsimp only); all_goals (repeat' split); all_goals simp_all)

end Sys2Proof.Machine
end

