-- ==== Sys2Proof/Laws/KeepFid.lean ====
section
/-! SUPPORT. No operation of Machine/Fid.lean touches the queue of commands or the fuses. -/

set_option linter.unusedTactic false
set_option linter.unreachableTactic false
set_option linter.unnecessarySeqFocus false

namespace Sys2Proof.Machine

@[simp] theorem State.fidEnqueue_keep (s s1 : State) (c : Nat) (i : FidInsn) (count : Bool) (h1 : s1.pending = s.pending) (h2 : s1.fuse = s.fuse) : (State.fidEnqueue s s1 c i count).pending = s.pending ∧ (State.fidEnqueue s s1 c i count).fuse = s.fuse := by
  refine ⟨?_, ?_⟩ <;> (unfold State.fidEnqueue; all_goals (try dsimp only); all_goals (repeat' split); all_goals simp_all)

@[simp] theorem execFxfer_keep (core : Nat) (rest : Rest) (s : State) : s.kept (execFxfer core rest s) := by
  unfold execFxfer State.issue
  (try dsimp only); (repeat' split) <;> simp_all

@[simp] theorem execFrec_keep (core : Nat) (rest : Rest) (s : State) : s.kept (execFrec core rest s) := by
  unfold execFrec State.issue
  (try dsimp only); (repeat' split) <;> simp_all

@[simp] theorem State.fidComplete_keep (s : State) (x : Xfer) : (State.fidComplete s x).pending = s.pending ∧ (State.fidComplete s x).fuse = s.fuse := by
  refine ⟨?_, ?_⟩ <;> (unfold State.fidComplete; all_goals (try dsimp only); all_goals (repeat' split); all_goals simp_all)

@[simp] theorem execFxferComplete_keep (core : Nat) (s : State) : s.kept (execFxferComplete core s) := by
  unfold execFxferComplete; all_goals (try dsimp only); all_goals (repeat' split); all_goals simp_all

@[simp] theorem execArmedTransferStart_keep (core : Nat) (s : State) : s.kept (execArmedTransferStart core s) := by
  unfold execArmedTransferStart; all_goals (try dsimp only); all_goals (repeat' split); all_goals simp_all

@[simp] theorem State.fidLaunchCheck_keep (s : State) (c desc : Nat) : (State.fidLaunchCheck s c desc).1.pending = s.pending ∧ (State.fidLaunchCheck s c desc).1.fuse = s.fuse := by
  refine ⟨?_, ?_⟩ <;> (unfold State.fidLaunchCheck; all_goals (try dsimp only); all_goals (repeat' split); all_goals simp_all)

@[simp] theorem State.fidLaunch_keep (s : State) (c desc : Nat) : (State.fidLaunch s c desc).pending = s.pending ∧ (State.fidLaunch s c desc).fuse = s.fuse := by
  refine ⟨?_, ?_⟩ <;> (unfold State.fidLaunch; all_goals (try dsimp only); all_goals (repeat' split); all_goals simp_all)

@[simp] theorem execFidTransfer_keep (die : Nat) (s : State) : s.kept (execFidTransfer die s) := by
  unfold execFidTransfer; all_goals (try dsimp only); all_goals (repeat' split); all_goals simp_all

@[simp] theorem execFidClearFlags_keep (agent : Agent) (die phys : Nat) (s : State) : s.kept (execFidClearFlags agent die phys s) := by
  unfold execFidClearFlags; all_goals (try dsimp only); all_goals (repeat' split); all_goals simp_all

@[simp] theorem execFidClearExc_keep (agent : Agent) (die phys : Nat) (s : State) : s.kept (execFidClearExc agent die phys s) := by
  unfold execFidClearExc; all_goals (try dsimp only); all_goals (repeat' split); all_goals simp_all

@[simp] theorem execFidClearHist_keep (agent : Agent) (die phys : Nat) (s : State) : s.kept (execFidClearHist agent die phys s) := by
  unfold execFidClearHist; all_goals (try dsimp only); all_goals (repeat' split); all_goals simp_all

end Sys2Proof.Machine
end

