-- ==== Sys2Proof/Laws/KeepFlash.lean ====
section
/-! SUPPORT. No operation of Machine/Flash.lean touches the queue of commands or the fuses. -/

set_option linter.unusedTactic false
set_option linter.unreachableTactic false
set_option linter.unnecessarySeqFocus false

namespace Sys2Proof.Machine

@[simp] theorem State.flashErase_keep (s : State) (o n : Nat) : (State.flashErase s o n).pending = s.pending ∧ (State.flashErase s o n).fuse = s.fuse := by
  refine ⟨?_, ?_⟩ <;> (unfold State.flashErase; all_goals (try dsimp only); all_goals (repeat' split); all_goals simp_all)

@[simp] theorem State.flashWrite_keep (s : State) (o : Nat) (bs : List Byte) : (State.flashWrite s o bs).pending = s.pending ∧ (State.flashWrite s o bs).fuse = s.fuse := by
  refine ⟨?_, ?_⟩ <;> (unfold State.flashWrite; all_goals (try dsimp only); all_goals (repeat' split); all_goals simp_all)

@[simp] theorem State.flashLoad_keep (s : State) (o : Nat) (bs : List Byte) : (State.flashLoad s o bs).pending = s.pending ∧ (State.flashLoad s o bs).fuse = s.fuse := by
  refine ⟨?_, ?_⟩ <;> (unfold State.flashLoad; all_goals (try dsimp only); all_goals (repeat' split); all_goals simp_all)

@[simp] theorem State.nvmLater_keep (s : State) (j : NvmJob) : (State.nvmLater s j).pending = s.pending ∧ (State.nvmLater s j).fuse = s.fuse := by
  refine ⟨?_, ?_⟩ <;> (unfold State.nvmLater; all_goals (try dsimp only); all_goals (repeat' split); all_goals simp_all)

@[simp] theorem State.bootPut_keep (s : State) (ok : Bool) (r : BootRec) : (State.bootPut s ok r).pending = s.pending ∧ (State.bootPut s ok r).fuse = s.fuse := by
  refine ⟨?_, ?_⟩ <;> (unfold State.bootPut; all_goals (try dsimp only); all_goals (repeat' split); all_goals simp_all)

@[simp] theorem State.bootWrite_keep (s : State) (ok : Bool) (r : BootRec) : (State.bootWrite s ok r).pending = s.pending ∧ (State.bootWrite s ok r).fuse = s.fuse := by
  refine ⟨?_, ?_⟩ <;> (unfold State.bootWrite; all_goals (try dsimp only); all_goals (repeat' split); all_goals simp_all)

@[simp] theorem State.bootShow_keep (s : State) : (State.bootShow s).pending = s.pending ∧ (State.bootShow s).fuse = s.fuse := by
  refine ⟨?_, ?_⟩ <;> (unfold State.bootShow; all_goals (try dsimp only); all_goals (repeat' split); all_goals simp_all)

@[simp] theorem State.fatalPut_keep (s : State) (ok : Bool) (r : FatalRec) : (State.fatalPut s ok r).pending = s.pending ∧ (State.fatalPut s ok r).fuse = s.fuse := by
  refine ⟨?_, ?_⟩ <;> (unfold State.fatalPut; all_goals (try dsimp only); all_goals (repeat' split); all_goals simp_all)

@[simp] theorem State.fatalWrite_keep (s : State) (ok : Bool) (cause : Nat) : (State.fatalWrite s ok cause).pending = s.pending ∧ (State.fatalWrite s ok cause).fuse = s.fuse := by
  refine ⟨?_, ?_⟩ <;> (unfold State.fatalWrite; all_goals (try dsimp only); all_goals (repeat' split); all_goals simp_all)

end Sys2Proof.Machine
end

