-- ==== Sys2Proof/Laws/KeepHost.lean ====
section
/-! SUPPORT. No operation of Machine/Host.lean touches the queue of commands or the fuses. -/

set_option linter.unusedTactic false
set_option linter.unreachableTactic false
set_option linter.unnecessarySeqFocus false

namespace Sys2Proof.Machine

@[simp] theorem execTickRd_keep (hart : Nat) (word : BitVec 32) (s : State) : s.kept (execTickRd hart word s) := by
  unfold execTickRd; all_goals (try dsimp only); all_goals (repeat' split); all_goals simp_all

@[simp] theorem execTickWait_keep (hart : Nat) (word : BitVec 32) (s : State) : s.kept (execTickWait hart word s) := by
  unfold execTickWait; all_goals (try dsimp only); all_goals (repeat' split); all_goals simp_all

@[simp] theorem execTickWaitEnd_keep (hart : Nat) (s : State) : s.kept (execTickWaitEnd hart s) := by
  unfold execTickWaitEnd; all_goals (try dsimp only); all_goals (repeat' split); all_goals simp_all

@[simp] theorem execTickWaitInterrupt_keep (hart : Nat) (lvl : HartLevel) (cause : Nat) (s : State) : s.kept (execTickWaitInterrupt hart lvl cause s) := by
  unfold execTickWaitInterrupt; all_goals (try dsimp only); all_goals (repeat' split); all_goals simp_all

@[simp] theorem execTickDone_keep (hart : Nat) (word : BitVec 32) (s : State) : s.kept (execTickDone hart word s) := by
  unfold execTickDone; all_goals (try dsimp only); all_goals (repeat' split); all_goals simp_all

@[simp] theorem execFwait_keep (hart : Nat) (word : BitVec 32) (s : State) : s.kept (execFwait hart word s) := by
  unfold execFwait; all_goals (try dsimp only); all_goals (repeat' split); all_goals simp_all

@[simp] theorem execTickDoneDrained_keep (hart : Nat) (s : State) : s.kept (execTickDoneDrained hart s) := by
  unfold execTickDoneDrained; all_goals (try dsimp only); all_goals (repeat' split); all_goals simp_all

@[simp] theorem State.postedFail_keep (s : State) (h pa status : Nat) : (State.postedFail s h pa status).pending = s.pending ∧ (State.postedFail s h pa status).fuse = s.fuse := by
  refine ⟨?_, ?_⟩ <;> (unfold State.postedFail; all_goals (try dsimp only); all_goals (repeat' split); all_goals simp_all)

@[simp] theorem State.apertureFault_keep (s : State) (h : Nat) (store : Bool) (va : Word) : (State.apertureFault s h store va).pending = s.pending ∧ (State.apertureFault s h store va).fuse = s.fuse := by
  refine ⟨?_, ?_⟩ <;> (unfold State.apertureFault; all_goals (try dsimp only); all_goals (repeat' split); all_goals simp_all)

@[simp] theorem State.sendPosted_keep (s : State) (h pa : Nat) (r : Req) : (State.sendPosted s h pa r).pending = s.pending ∧ (State.sendPosted s h pa r).fuse = s.fuse := by
  refine ⟨?_, ?_⟩ <;> (unfold State.sendPosted; all_goals (try dsimp only); all_goals (repeat' split); all_goals simp_all)

@[simp] theorem State.facc_keep (s : State) (h : Nat) (w : BitVec 32) (x : HartXlat) (n fmt : Nat) : (State.facc s h w x n fmt).pending = s.pending ∧ (State.facc s h w x n fmt).fuse = s.fuse := by
  refine ⟨?_, ?_⟩ <;> (unfold State.facc; all_goals (try dsimp only); all_goals (repeat' split); all_goals simp_all)

@[simp] theorem execFaccD_keep (hart : Nat) (word : BitVec 32) (xlat : HartXlat) (s : State) : s.kept (execFaccD hart word xlat s) := by
  unfold execFaccD; all_goals (try dsimp only); all_goals (repeat' split); all_goals simp_all

@[simp] theorem execFaccS_keep (hart : Nat) (word : BitVec 32) (xlat : HartXlat) (s : State) : s.kept (execFaccS hart word xlat s) := by
  unfold execFaccS; all_goals (try dsimp only); all_goals (repeat' split); all_goals simp_all

@[simp] theorem State.remoteFault_keep (s : State) (h : Nat) (store : Bool) (va : Word) (st tag port : Nat) : (State.remoteFault s h store va st tag port).pending = s.pending ∧ (State.remoteFault s h store va st tag port).fuse = s.fuse := by
  refine ⟨?_, ?_⟩ <;> (unfold State.remoteFault; all_goals (try dsimp only); all_goals (repeat' split); all_goals simp_all)

@[simp] theorem State.sendRemote_keep (s : State) (h : Nat) (va : Word) (rd n : Nat) (signed amo : Bool) (r : Req) : (State.sendRemote s h va rd n signed amo r).pending = s.pending ∧ (State.sendRemote s h va rd n signed amo r).fuse = s.fuse := by
  refine ⟨?_, ?_⟩ <;> (unfold State.sendRemote; all_goals (try dsimp only); all_goals (repeat' split); all_goals simp_all)

@[simp] theorem State.accessAperture_keep (s : State) (h : Nat) (va : Word) (pa : Nat) (a : HartAccess) : (State.accessAperture s h va pa a).pending = s.pending ∧ (State.accessAperture s h va pa a).fuse = s.fuse := by
  refine ⟨?_, ?_⟩ <;> (unfold State.accessAperture; all_goals (try dsimp only); all_goals (repeat' split); all_goals simp_all)

@[simp] theorem State.resvDrop_keep (s : State) (h pa n : Nat) : (State.resvDrop s h pa n).pending = s.pending ∧ (State.resvDrop s h pa n).fuse = s.fuse := by
  refine ⟨?_, ?_⟩ <;> (unfold State.resvDrop; all_goals (try dsimp only); all_goals (repeat' split); all_goals simp_all)

@[simp] theorem State.hartStore_keep (s : State) (h pa : Nat) (bs : List Byte) : (State.hartStore s h pa bs).1.pending = s.pending ∧ (State.hartStore s h pa bs).1.fuse = s.fuse := by
  refine ⟨?_, ?_⟩ <;> (unfold State.hartStore; all_goals (try dsimp only); all_goals (repeat' split); all_goals simp_all)

@[simp] theorem State.accessVec_keep (s : State) (h : Nat) (st vm : Bool) (n v : Nat) (i : Nat) (l : List (Word × Nat)) : (State.accessVec s h st vm n v i l).pending = s.pending ∧ (State.accessVec s h st vm n v i l).fuse = s.fuse := by
  induction l generalizing s i with
  | nil => simp [State.accessVec]
  | cons a r ih => refine ⟨?_, ?_⟩ <;> (unfold State.accessVec; (try dsimp only); (repeat' split) <;> simp [(ih _ _).1, (ih _ _).2])

@[simp] theorem State.accessLocal_keep (s : State) (h : Nat) (va : Word) (pa : Nat) (a : HartAccess) : (State.accessLocal s h va pa a).pending = s.pending ∧ (State.accessLocal s h va pa a).fuse = s.fuse := by
  refine ⟨?_, ?_⟩ <;> (unfold State.accessLocal; all_goals (try dsimp only); all_goals (repeat' split); all_goals simp_all)

@[simp] theorem State.hartAccess_keep (s : State) (h : Nat) (va : Word) (pa : Nat) (a : HartAccess) : (State.hartAccess s h va pa a).pending = s.pending ∧ (State.hartAccess s h va pa a).fuse = s.fuse := by
  refine ⟨?_, ?_⟩ <;> (unfold State.hartAccess; all_goals (try dsimp only); all_goals (repeat' split); all_goals simp_all)

@[simp] theorem execApertureAccess_keep (hart : Nat) (va : Word) (pa : Nat) (access : HartAccess) (s : State) : s.kept (execApertureAccess hart va pa access s) := by
  unfold execApertureAccess; all_goals (try dsimp only); all_goals (repeat' split); all_goals simp_all

@[simp] theorem State.hartAnswer_keep (s : State) (h op pa : Nat) (r : Req) (st : Nat) (data : List Byte) : (State.hartAnswer s h op pa r st data).pending = s.pending ∧ (State.hartAnswer s h op pa r st data).fuse = s.fuse := by
  refine ⟨?_, ?_⟩ <;> (unfold State.hartAnswer; all_goals (try dsimp only); all_goals (repeat' split); all_goals simp_all)

@[simp] theorem State.vretire_keep (s : State) (h : Nat) : (State.vretire s h).pending = s.pending ∧ (State.vretire s h).fuse = s.fuse := by
  refine ⟨?_, ?_⟩ <;> (unfold State.vretire; all_goals (try dsimp only); all_goals (repeat' split); all_goals simp_all)

@[simp] theorem State.redusum_keep (s : State) (h : Nat) (w : BitVec 32) (f6 : Nat) (fmts : Nat → Option (Nat × Nat)) : (State.redusum s h w f6 fmts).pending = s.pending ∧ (State.redusum s h w f6 fmts).fuse = s.fuse := by
  refine ⟨?_, ?_⟩ <;> (unfold State.redusum; all_goals (try dsimp only); all_goals (repeat' split); all_goals simp_all)

@[simp] theorem execVfredusum_keep (hart : Nat) (word : BitVec 32) (s : State) : s.kept (execVfredusum hart word s) := by
  unfold execVfredusum; all_goals (try dsimp only); all_goals (repeat' split); all_goals simp_all

@[simp] theorem execVfwredusum_keep (hart : Nat) (word : BitVec 32) (s : State) : s.kept (execVfwredusum hart word s) := by
  unfold execVfwredusum; all_goals (try dsimp only); all_goals (repeat' split); all_goals simp_all

@[simp] theorem State.xumdot_keep (s : State) (h : Nat) (w : BitVec 32) (f6 n : Nat) (lane : Nat → Nat → Nat → Nat → Nat × Nat) : (State.xumdot s h w f6 n lane).pending = s.pending ∧ (State.xumdot s h w f6 n lane).fuse = s.fuse := by
  refine ⟨?_, ?_⟩ <;> (unfold State.xumdot; all_goals (try dsimp only); all_goals (repeat' split); all_goals simp_all)

@[simp] theorem execVdot4I8_keep (hart : Nat) (word : BitVec 32) (s : State) : s.kept (execVdot4I8 hart word s) := by
  unfold execVdot4I8; all_goals (try dsimp only); all_goals (repeat' split); all_goals simp_all

@[simp] theorem execVdot4E4m3_keep (hart : Nat) (word : BitVec 32) (s : State) : s.kept (execVdot4E4m3 hart word s) := by
  unfold execVdot4E4m3; all_goals (try dsimp only); all_goals (repeat' split); all_goals simp_all

@[simp] theorem execVdot4E5m2_keep (hart : Nat) (word : BitVec 32) (s : State) : s.kept (execVdot4E5m2 hart word s) := by
  unfold execVdot4E5m2; all_goals (try dsimp only); all_goals (repeat' split); all_goals simp_all

@[simp] theorem execVdot2Bf16_keep (hart : Nat) (word : BitVec 32) (s : State) : s.kept (execVdot2Bf16 hart word s) := by
  unfold execVdot2Bf16; all_goals (try dsimp only); all_goals (repeat' split); all_goals simp_all

@[simp] theorem execVdot2WS_keep (hart : Nat) (word : BitVec 32) (s : State) : s.kept (execVdot2WS hart word s) := by
  unfold execVdot2WS; all_goals (try dsimp only); all_goals (repeat' split); all_goals simp_all

@[simp] theorem State.putFtCache_keep (s : State) (i : Nat) (value : Word) : (State.putFtCache s i value).pending = s.pending ∧ (State.putFtCache s i value).fuse = s.fuse := by
  refine ⟨?_, ?_⟩ <;> (unfold State.putFtCache; all_goals (try dsimp only); all_goals (repeat' split); all_goals simp_all)

@[simp] theorem execHostFtCache_keep (agent : Agent) (index : Nat) (value : Word) (s : State) : s.kept (execHostFtCache agent index value s) := by
  unfold execHostFtCache; all_goals (try dsimp only); all_goals (repeat' split); all_goals simp_all

@[simp] theorem State.hartStart_keep (s : State) (h : Nat) : (State.hartStart s h).pending = s.pending ∧ (State.hartStart s h).fuse = s.fuse := by
  refine ⟨?_, ?_⟩ <;> (unfold State.hartStart; all_goals (try dsimp only); all_goals (repeat' split); all_goals simp_all)

@[simp] theorem execHostHartRelease_keep (agent : Agent) (index : Nat) (value : Word) (s : State) : s.kept (execHostHartRelease agent index value s) := by
  unfold execHostHartRelease; all_goals (try dsimp only); all_goals (repeat' split); all_goals simp_all

end Sys2Proof.Machine
end

