-- ==== Sys2Proof/Laws/KeepImage.lean ====
section
/-! SUPPORT. No operation of Machine/Image.lean touches the queue of commands or the fuses. -/

set_option linter.unusedTactic false
set_option linter.unreachableTactic false
set_option linter.unnecessarySeqFocus false

namespace Sys2Proof.Machine

@[simp] theorem State.stageHead_keep (s : State) (st len : Nat) : (State.stageHead s st len).pending = s.pending ∧ (State.stageHead s st len).fuse = s.fuse := by
  refine ⟨?_, ?_⟩ <;> (unfold State.stageHead; all_goals (try dsimp only); all_goals (repeat' split); all_goals simp_all)

end Sys2Proof.Machine
end

