-- ==== Sys2Proof/Laws/KeepMemEvents.lean ====
section
/-! SUPPORT. No operation of Machine/MemEvents.lean touches the queue of commands or the fuses. -/

set_option linter.unusedTactic false
set_option linter.unreachableTactic false
set_option linter.unnecessarySeqFocus false

namespace Sys2Proof.Machine

@[simp] theorem State.freeLine_keep (s : State) : (State.freeLine s).2.pending = s.pending ∧ (State.freeLine s).2.fuse = s.fuse := by
  refine ⟨?_, ?_⟩ <;> (unfold State.freeLine; all_goals (try dsimp only); all_goals (repeat' split); all_goals simp_all)

@[simp] theorem State.errBeyond_keep (s : State) (line : Nat) (detected : State → State) (h_detected : ∀ (y0 : State), (detected y0).pending = y0.pending ∧ (detected y0).fuse = y0.fuse) : (State.errBeyond s line detected).pending = s.pending ∧ (State.errBeyond s line detected).fuse = s.fuse := by
  refine ⟨?_, ?_⟩ <;> (unfold State.errBeyond; all_goals (try dsimp only); all_goals (repeat' split); all_goals simp_all)

@[simp] theorem State.tileBad_keep (s : State) (line core : Nat) : (State.tileBad s line core).pending = s.pending ∧ (State.tileBad s line core).fuse = s.fuse := by
  refine ⟨?_, ?_⟩ <;> (unfold State.tileBad; all_goals (try dsimp only); all_goals (repeat' split); all_goals simp_all)

@[simp] theorem State.tileFound_keep (s : State) (line core : Nat) (x0 : CodeOut) : (State.tileFound s line core x0).pending = s.pending ∧ (State.tileFound s line core x0).fuse = s.fuse := by
  refine ⟨?_, ?_⟩ <;> (unfold State.tileFound; all_goals (try dsimp only); all_goals (repeat' split); all_goals simp_all)

@[simp] theorem State.errFound_keep (s : State) (line : Nat) (e : LaneErr) : (State.errFound s line e).pending = s.pending ∧ (State.errFound s line e).fuse = s.fuse := by
  refine ⟨?_, ?_⟩ <;> (unfold State.errFound; all_goals (try dsimp only); all_goals (repeat' split); all_goals simp_all)

@[simp] theorem execMemoryRead_keep (line : Nat) (err : LaneErr) (s : State) : s.kept (execMemoryRead line err s) := by
  unfold execMemoryRead; all_goals (try dsimp only); all_goals (repeat' split); all_goals simp_all

@[simp] theorem execMemoryWrite_keep (addr : Nat) (data : List Byte) (err : LaneErr) (s : State) : s.kept (execMemoryWrite addr data err s) := by
  unfold execMemoryWrite; all_goals (try dsimp only); all_goals (repeat' split); all_goals simp_all

@[simp] theorem execWcAgeExpiry_keep (line : Nat) (s : State) : s.kept (execWcAgeExpiry line s) := by
  unfold execWcAgeExpiry; all_goals (try dsimp only); all_goals (repeat' split); all_goals simp_all

@[simp] theorem State.wcFlushAsked_keep (s : State) : (State.wcFlushAsked s).pending = s.pending ∧ (State.wcFlushAsked s).fuse = s.fuse := by
  refine ⟨?_, ?_⟩ <;> (unfold State.wcFlushAsked; all_goals (try dsimp only); all_goals (repeat' split); all_goals simp_all)

@[simp] theorem execMemcWcFlush_keep (agent : Agent) (s : State) : s.kept (execMemcWcFlush agent s) := by
  unfold execMemcWcFlush; all_goals (try dsimp only); all_goals (repeat' split); all_goals simp_all

@[simp] theorem execWcFlushComplete_keep (s : State) : s.kept (execWcFlushComplete s) := by
  unfold execWcFlushComplete; all_goals (try dsimp only); all_goals (repeat' split); all_goals simp_all

@[simp] theorem execDramRefresh_keep (unit : Nat) (s : State) : s.kept (execDramRefresh unit s) := by
  unfold execDramRefresh; all_goals (try dsimp only); all_goals (repeat' split); all_goals simp_all

@[simp] theorem State.scrubLine_keep (s : State) (u line : Nat) : (State.scrubLine s u line).pending = s.pending ∧ (State.scrubLine s u line).fuse = s.fuse := by
  refine ⟨?_, ?_⟩ <;> (unfold State.scrubLine; all_goals (try dsimp only); all_goals (repeat' split); all_goals simp_all)

@[simp] theorem execScrubRead_keep (unit : Nat) (err : LaneErr) (s : State) : s.kept (execScrubRead unit err s) := by
  unfold execScrubRead; all_goals (try dsimp only); all_goals (repeat' split); all_goals simp_all

@[simp] theorem execScrubPeriodEnd_keep (unit : Nat) (s : State) : s.kept (execScrubPeriodEnd unit s) := by
  unfold execScrubPeriodEnd; all_goals (try dsimp only); all_goals (repeat' split); all_goals simp_all

@[simp] theorem execMemoryFail_keep (unit : Nat) (s : State) : s.kept (execMemoryFail unit s) := by
  unfold execMemoryFail; all_goals (try dsimp only); all_goals (repeat' split); all_goals simp_all

end Sys2Proof.Machine
end

