-- ==== Sys2Proof/Laws/KeepPuts.lean ====
section
/-! SUPPORT. No operation of Machine/Puts.lean touches the queue of commands or the fuses. -/

set_option linter.unusedTactic false
set_option linter.unreachableTactic false
set_option linter.unnecessarySeqFocus false

namespace Sys2Proof.Machine

@[simp] theorem State.putFailed_keep (s : State) (f tag status done : Nat) : (State.putFailed s f tag status done).pending = s.pending ∧ (State.putFailed s f tag status done).fuse = s.fuse := by
  refine ⟨?_, ?_⟩ <;> (unfold State.putFailed; all_goals (try dsimp only); all_goals (repeat' split); all_goals simp_all)

@[simp] theorem State.putEnd_keep (s : State) (j : PutJob) : (State.putEnd s j).pending = s.pending ∧ (State.putEnd s j).fuse = s.fuse := by
  refine ⟨?_, ?_⟩ <;> (unfold State.putEnd; all_goals (try dsimp only); all_goals (repeat' split); all_goals simp_all)

@[simp] theorem State.putKeep_keep (s : State) (j : PutJob) : (State.putKeep s j).pending = s.pending ∧ (State.putKeep s j).fuse = s.fuse := by
  refine ⟨?_, ?_⟩ <;> (unfold State.putKeep; all_goals (try dsimp only); all_goals (repeat' split); all_goals simp_all)

@[simp] theorem State.putRead_keep (s : State) (f da n : Nat) : (State.putRead s f da n).1.pending = s.pending ∧ (State.putRead s f da n).1.fuse = s.fuse := by
  refine ⟨?_, ?_⟩ <;> (unfold State.putRead; all_goals (try dsimp only); all_goals (repeat' split); all_goals simp_all)

@[simp] theorem State.putFetch_keep (s : State) (f da n : Nat) : (State.putFetch s f da n).1.pending = s.pending ∧ (State.putFetch s f da n).1.fuse = s.fuse := by
  refine ⟨?_, ?_⟩ <;> (unfold State.putFetch; all_goals (try dsimp only); all_goals (repeat' split); all_goals simp_all)

@[simp] theorem State.putSource_keep (s : State) (f da n : Nat) (x0 : Nat) : (State.putSource s f da n x0).1.pending = s.pending ∧ (State.putSource s f da n x0).1.fuse = s.fuse := by
  induction x0 generalizing s f da n with
  | zero => simp [State.putSource]
  | succ k ih => refine ⟨?_, ?_⟩ <;> (unfold State.putSource; all_goals (try dsimp only); all_goals (repeat' split); all_goals simp_all)

@[simp] theorem State.putSend_keep (s : State) (j : PutJob) (tc node off da n : Nat) (x0 : Nat) : (State.putSend s j tc node off da n x0).1.pending = s.pending ∧ (State.putSend s j tc node off da n x0).1.fuse = s.fuse := by
  induction x0 generalizing s j tc node off da n with
  | zero => simp [State.putSend]
  | succ k ih => refine ⟨?_, ?_⟩ <;> (unfold State.putSend; all_goals (try dsimp only); all_goals (repeat' split); all_goals simp_all)

@[simp] theorem State.putLaunch_keep (s : State) (f : Nat) (e : TalqEntry) : (State.putLaunch s f e).pending = s.pending ∧ (State.putLaunch s f e).fuse = s.fuse := by
  refine ⟨?_, ?_⟩ <;> (unfold State.putLaunch; all_goals (try dsimp only); all_goals (repeat' split); all_goals simp_all)

@[simp] theorem execFabricPut_keep (f : Nat) (s : State) : s.kept (execFabricPut f s) := by
  unfold execFabricPut; all_goals (try dsimp only); all_goals (repeat' split); all_goals simp_all

@[simp] theorem State.putDone_keep (s : State) (id st n : Nat) : (State.putDone s id st n).pending = s.pending ∧ (State.putDone s id st n).fuse = s.fuse := by
  refine ⟨?_, ?_⟩ <;> (unfold State.putDone; all_goals (try dsimp only); all_goals (repeat' split); all_goals simp_all)

@[simp] theorem State.setFullDue_keep (s : State) (w r : Nat) (b : Bool) : (State.setFullDue s w r b).pending = s.pending ∧ (State.setFullDue s w r b).fuse = s.fuse := by
  refine ⟨?_, ?_⟩ <;> (unfold State.setFullDue; all_goals (try dsimp only); all_goals (repeat' split); all_goals simp_all)

@[simp] theorem State.refreshRead_keep (s : State) (w : Nat) (all : Bool) (x0 : List Nat) : (State.refreshRead s w all x0).1.pending = s.pending ∧ (State.refreshRead s w all x0).1.fuse = s.fuse := by
  induction x0 generalizing s w all with
  | nil => simp [State.refreshRead]
  | cons i r ih => refine ⟨?_, ?_⟩ <;> (unfold State.refreshRead; dsimp only; (repeat' split) <;> simp [ih])

@[simp] theorem State.refreshSend_keep (s : State) (j : RefreshJob) (r off n : Nat) (b : List Byte) (mark : Option Nat) : (State.refreshSend s j r off n b mark).1.pending = s.pending ∧ (State.refreshSend s j r off n b mark).1.fuse = s.fuse := by
  refine ⟨?_, ?_⟩ <;> (unfold State.refreshSend; all_goals (try dsimp only); all_goals (repeat' split); all_goals simp_all)

@[simp] theorem State.refreshBlock_keep (s : State) (j : RefreshJob) (r : Nat) (lines : List (Nat × Bool × List Byte)) (n : Nat) : (State.refreshBlock s j r lines n).1.pending = s.pending ∧ (State.refreshBlock s j r lines n).1.fuse = s.fuse := by
  unfold State.refreshBlock
  dsimp only
  exact foldl_keeps (P := fun x : State × RefreshJob × Nat => x.1.pending = s.pending ∧ x.1.fuse = s.fuse) (fun b x h => by simp [h.1, h.2]) _ ⟨rfl, rfl⟩

@[simp] theorem State.refreshReps_keep (s : State) (j : RefreshJob) (lines : List (Nat × Bool × List Byte)) (ns : List Nat) : (State.refreshReps s j lines ns).1.pending = s.pending ∧ (State.refreshReps s j lines ns).1.fuse = s.fuse := by
  unfold State.refreshReps
  exact foldl_keeps (P := fun x : State × RefreshJob × List Nat => x.1.pending = s.pending ∧ x.1.fuse = s.fuse) (fun b x h => by simp [h.1, h.2]) _ ⟨rfl, rfl⟩

@[simp] theorem State.refreshRun_keep (s : State) (j : RefreshJob) (b : Nat) (ns : List Nat) (x0 : Nat) : (State.refreshRun s j b ns x0).1.pending = s.pending ∧ (State.refreshRun s j b ns x0).1.fuse = s.fuse := by
  induction x0 generalizing s j b ns with
  | zero => simp [State.refreshRun]
  | succ k ih => refine ⟨?_, ?_⟩ <;> (unfold State.refreshRun; all_goals (try dsimp only); all_goals (repeat' split); all_goals simp_all)

@[simp] theorem State.refreshMarks_keep (s : State) (j : RefreshJob) (ns : List Nat) : (State.refreshMarks s j ns).1.pending = s.pending ∧ (State.refreshMarks s j ns).1.fuse = s.fuse := by
  unfold State.refreshMarks
  dsimp only
  exact foldl_keeps (P := fun x : State × RefreshJob × Nat => x.1.pending = s.pending ∧ x.1.fuse = s.fuse) (fun b x h => by simp [h.1, h.2]) _ ⟨rfl, rfl⟩

@[simp] theorem State.refreshPoison_keep (s : State) (w reps : Nat) : (State.refreshPoison s w reps).pending = s.pending ∧ (State.refreshPoison s w reps).fuse = s.fuse := by
  refine ⟨?_, ?_⟩ <;> (unfold State.refreshPoison; all_goals (try dsimp only); all_goals (repeat' split); all_goals simp_all)

@[simp] theorem State.refreshKeep_keep (s : State) (j : RefreshJob) : (State.refreshKeep s j).pending = s.pending ∧ (State.refreshKeep s j).fuse = s.fuse := by
  refine ⟨?_, ?_⟩ <;> (unfold State.refreshKeep; all_goals (try dsimp only); all_goals (repeat' split); all_goals simp_all)

@[simp] theorem State.refreshLaunch_keep (s : State) (f : Nat) (e : TalqEntry) : (State.refreshLaunch s f e).pending = s.pending ∧ (State.refreshLaunch s f e).fuse = s.fuse := by
  refine ⟨?_, ?_⟩ <;> (unfold State.refreshLaunch; all_goals (try dsimp only); all_goals (repeat' split); all_goals simp_all)

@[simp] theorem execReplicaRefresh_keep (f : Nat) (s : State) : s.kept (execReplicaRefresh f s) := by
  unfold execReplicaRefresh; all_goals (try dsimp only); all_goals (repeat' split); all_goals simp_all

@[simp] theorem State.refreshDone_keep (s : State) (id r st op : Nat) : (State.refreshDone s id r st op).pending = s.pending ∧ (State.refreshDone s id r st op).fuse = s.fuse := by
  refine ⟨?_, ?_⟩ <;> (unfold State.refreshDone; all_goals (try dsimp only); all_goals (repeat' split); all_goals simp_all)

end Sys2Proof.Machine
end

