-- ==== Sys2Proof/Laws/KeepRequester.lean ====
section
/-! SUPPORT. No operation of Machine/Requester.lean touches the queue of commands or the fuses. -/

set_option linter.unusedTactic false
set_option linter.unreachableTactic false
set_option linter.unnecessarySeqFocus false

namespace Sys2Proof.Machine

@[simp] theorem State.finishReq_keep (s : State) (r : Req) (st : Nat) (data : List Byte) : (State.finishReq s r st data).pending = s.pending ∧ (State.finishReq s r st data).fuse = s.fuse := by
  refine ⟨?_, ?_⟩ <;> (unfold State.finishReq; all_goals (try dsimp only); all_goals (repeat' split); all_goals simp_all)

@[simp] theorem State.flushList_keep (s : State) (x0 : List Req) (x1 : List Req) : (State.flushList s x0 x1).1.pending = s.pending ∧ (State.flushList s x0 x1).1.fuse = s.fuse := by
  induction x0 generalizing s x1 with
  | nil => simp [State.flushList]
  | cons a r ih => refine ⟨?_, ?_⟩ <;> (unfold State.flushList; all_goals (try dsimp only); all_goals (repeat' split); all_goals simp_all)

@[simp] theorem State.flushHeld_keep (s : State) : (State.flushHeld s).pending = s.pending ∧ (State.flushHeld s).fuse = s.fuse := by
  refine ⟨?_, ?_⟩ <;> (unfold State.flushHeld; all_goals (try dsimp only); all_goals (repeat' split); all_goals simp_all)

@[simp] theorem State.releaseSend_keep (s : State) (dst : Nat) : (State.releaseSend s dst).pending = s.pending ∧ (State.releaseSend s dst).fuse = s.fuse := by
  refine ⟨?_, ?_⟩ <;> (unfold State.releaseSend; all_goals (try dsimp only); all_goals (repeat' split); all_goals simp_all)

@[simp] theorem State.releaseAdd_keep (s : State) (dst sport tag : Nat) : (State.releaseAdd s dst sport tag).pending = s.pending ∧ (State.releaseAdd s dst sport tag).fuse = s.fuse := by
  refine ⟨?_, ?_⟩ <;> (unfold State.releaseAdd; all_goals (try dsimp only); all_goals (repeat' split); all_goals simp_all)

@[simp] theorem execReleaseSend_keep (dst : Nat) (s : State) : s.kept (execReleaseSend dst s) := by
  unfold execReleaseSend; all_goals (try dsimp only); all_goals (repeat' split); all_goals simp_all

@[simp] theorem State.dropReq_keep (s : State) (r : Req) : (State.dropReq s r).pending = s.pending ∧ (State.dropReq s r).fuse = s.fuse := by
  refine ⟨?_, ?_⟩ <;> (unfold State.dropReq; all_goals (try dsimp only); all_goals (repeat' split); all_goals simp_all)

@[simp] theorem State.hwsResponse_keep (s : State) (type : Nat) (p : Packet) : (State.hwsResponse s type p).pending = s.pending ∧ (State.hwsResponse s type p).fuse = s.fuse := by
  refine ⟨?_, ?_⟩ <;> (unfold State.hwsResponse; all_goals (try dsimp only); all_goals (repeat' split); all_goals simp_all)

@[simp] theorem execCpl_keep (p : Packet) (s : State) : s.kept (execCpl p s) := by
  unfold execCpl; all_goals (try dsimp only); all_goals (repeat' split); all_goals simp_all

@[simp] theorem execRdData_keep (p : Packet) (s : State) : s.kept (execRdData p s) := by
  unfold execRdData; all_goals (try dsimp only); all_goals (repeat' split); all_goals simp_all

@[simp] theorem execAtomicData_keep (p : Packet) (s : State) : s.kept (execAtomicData p s) := by
  unfold execAtomicData; all_goals (try dsimp only); all_goals (repeat' split); all_goals simp_all

@[simp] theorem execBackoffExpiry_keep (agent dst line : Nat) (s : State) : s.kept (execBackoffExpiry agent dst line s) := by
  unfold execBackoffExpiry; all_goals (try dsimp only); all_goals (repeat' split); all_goals simp_all

@[simp] theorem execRequestRetry_keep (port tag : Nat) (s : State) : s.kept (execRequestRetry port tag s) := by
  unfold execRequestRetry; all_goals (try dsimp only); all_goals (repeat' split); all_goals simp_all

@[simp] theorem execRequestFailure_keep (port tag : Nat) (s : State) : s.kept (execRequestFailure port tag s) := by
  unfold execRequestFailure; all_goals (try dsimp only); all_goals (repeat' split); all_goals simp_all

@[simp] theorem State.setPart_keep (s : State) (v : Word) : (State.setPart s v).pending = s.pending ∧ (State.setPart s v).fuse = s.fuse := by
  refine ⟨?_, ?_⟩ <;> (unfold State.setPart; all_goals (try dsimp only); all_goals (repeat' split); all_goals simp_all)

end Sys2Proof.Machine
end

