-- ==== Sys2Proof/Laws/KeepLinkOps.lean ====
section
/-! SUPPORT. No operation of Machine/LinkOps.lean touches the queue of commands or the fuses. -/

set_option linter.unusedTactic false
set_option linter.unreachableTactic false
set_option linter.unnecessarySeqFocus false

namespace Sys2Proof.Machine

@[simp] theorem State.rxPacket_keep (s : State) (p : Nat) (k : Packet) : (State.rxPacket s p k).pending = s.pending ∧ (State.rxPacket s p k).fuse = s.fuse := by
  refine ⟨?_, ?_⟩ <;> (unfold State.rxPacket; all_goals (try dsimp only); all_goals (repeat' split); all_goals simp_all)

@[simp] theorem State.setRx_keep (s : State) (p l role st : Nat) : (State.setRx s p l role st).pending = s.pending ∧ (State.setRx s p l role st).fuse = s.fuse := by
  refine ⟨?_, ?_⟩ <;> (unfold State.setRx; all_goals (try dsimp only); all_goals (repeat' split); all_goals simp_all)

@[simp] theorem State.setTx_keep (s : State) (p l role : Nat) : (State.setTx s p l role).pending = s.pending ∧ (State.setTx s p l role).fuse = s.fuse := by
  refine ⟨?_, ?_⟩ <;> (unfold State.setTx; all_goals (try dsimp only); all_goals (repeat' split); all_goals simp_all)

@[simp] theorem State.widthService_keep (s : State) (p : Nat) : (State.widthService s p).pending = s.pending ∧ (State.widthService s p).fuse = s.fuse := by
  refine ⟨?_, ?_⟩ <;> (unfold State.widthService; all_goals (try dsimp only); all_goals (repeat' split); all_goals simp_all)

@[simp] theorem State.setOpt_keep (s : State) (p st : Nat) : (State.setOpt s p st).pending = s.pending ∧ (State.setOpt s p st).fuse = s.fuse := by
  refine ⟨?_, ?_⟩ <;> (unfold State.setOpt; all_goals (try dsimp only); all_goals (repeat' split); all_goals simp_all)

@[simp] theorem State.linkClear_keep (s : State) (p : Nat) : (State.linkClear s p).pending = s.pending ∧ (State.linkClear s p).fuse = s.fuse := by
  refine ⟨?_, ?_⟩ <;> (unfold State.linkClear; all_goals (try dsimp only); all_goals (repeat' split); all_goals simp_all)

@[simp] theorem State.trainBegin_keep (s : State) (p : Nat) : (State.trainBegin s p).pending = s.pending ∧ (State.trainBegin s p).fuse = s.fuse := by
  refine ⟨?_, ?_⟩ <;> (unfold State.trainBegin; all_goals (try dsimp only); all_goals (repeat' split); all_goals simp_all)

@[simp] theorem State.linkDown_keep (s : State) (p : Nat) : (State.linkDown s p).pending = s.pending ∧ (State.linkDown s p).fuse = s.fuse := by
  refine ⟨?_, ?_⟩ <;> (unfold State.linkDown; all_goals (try dsimp only); all_goals (repeat' split); all_goals simp_all)

@[simp] theorem State.trainFail_keep (s : State) (p : Nat) : (State.trainFail s p).pending = s.pending ∧ (State.trainFail s p).fuse = s.fuse := by
  refine ⟨?_, ?_⟩ <;> (unfold State.trainFail; all_goals (try dsimp only); all_goals (repeat' split); all_goals simp_all)

@[simp] theorem State.rxLoss_keep (s : State) (p : Nat) : (State.rxLoss s p).pending = s.pending ∧ (State.rxLoss s p).fuse = s.fuse := by
  refine ⟨?_, ?_⟩ <;> (unfold State.rxLoss; all_goals (try dsimp only); all_goals (repeat' split); all_goals simp_all)

@[simp] theorem State.takeAck_keep (s : State) (p : Nat) (f : Flit) : (State.takeAck s p f).pending = s.pending ∧ (State.takeAck s p f).fuse = s.fuse := by
  refine ⟨?_, ?_⟩ <;> (unfold State.takeAck; all_goals (try dsimp only); all_goals (repeat' split); all_goals simp_all)

@[simp] theorem State.takeCredit_keep (s : State) (p : Nat) (f : Flit) : (State.takeCredit s p f).pending = s.pending ∧ (State.takeCredit s p f).fuse = s.fuse := by
  refine ⟨?_, ?_⟩ <;> (unfold State.takeCredit; all_goals (try dsimp only); all_goals (repeat' split); all_goals simp_all)

@[simp] theorem State.rxTurn_keep (s : State) (p k : Nat) : (State.rxTurn s p k).pending = s.pending ∧ (State.rxTurn s p k).fuse = s.fuse := by
  refine ⟨?_, ?_⟩ <;> (unfold State.rxTurn; all_goals (try dsimp only); all_goals (repeat' split); all_goals simp_all)

@[simp] theorem State.flitIn_keep (s : State) (p l errs : Nat) (f : Flit) (type : Nat) (k : Bool → State → State) (h_k : ∀ (y0 : Bool) (y1 : State), (k y0 y1).pending = y1.pending ∧ (k y0 y1).fuse = y1.fuse) : (State.flitIn s p l errs f type k).pending = s.pending ∧ (State.flitIn s p l errs f type k).fuse = s.fuse := by
  unfold State.flitIn
  refine ⟨?_, ?_⟩ <;> ((try dsimp only); (repeat' split) <;> (try rw [(h_k _ _).1]) <;> (try rw [(h_k _ _).2]) <;> simp)

@[simp] theorem State.rxData_keep (s : State) (p : Nat) (f : Flit) : (State.rxData s p f).pending = s.pending ∧ (State.rxData s p f).fuse = s.fuse := by
  refine ⟨?_, ?_⟩ <;> (unfold State.rxData; all_goals (try dsimp only); all_goals (repeat' split); all_goals simp_all)

@[simp] theorem State.replayFrom_keep (s : State) (p i : Nat) : (State.replayFrom s p i).pending = s.pending ∧ (State.replayFrom s p i).fuse = s.fuse := by
  refine ⟨?_, ?_⟩ <;> (unfold State.replayFrom; all_goals (try dsimp only); all_goals (repeat' split); all_goals simp_all)

@[simp] theorem State.rxNak_keep (s : State) (p : Nat) (f : Flit) : (State.rxNak s p f).pending = s.pending ∧ (State.rxNak s p f).fuse = s.fuse := by
  refine ⟨?_, ?_⟩ <;> (unfold State.rxNak; all_goals (try dsimp only); all_goals (repeat' split); all_goals simp_all)

@[simp] theorem State.flitSend_keep (s : State) (p l ftype seq : Nat) (payload : List Byte) (times : List Nat := []) : (State.flitSend s p l ftype seq payload times).pending = s.pending ∧ (State.flitSend s p l ftype seq payload times).fuse = s.fuse := by
  refine ⟨?_, ?_⟩ <;> (unfold State.flitSend; all_goals (try dsimp only); all_goals (repeat' split); all_goals simp_all)

@[simp] theorem State.openPayload_keep (s : State) (ftype : Nat) : (State.openPayload s ftype).2.pending = s.pending ∧ (State.openPayload s ftype).2.fuse = s.fuse := by
  refine ⟨?_, ?_⟩ <;> (unfold State.openPayload; all_goals (try dsimp only); all_goals (repeat' split); all_goals simp_all)

@[simp] theorem State.flitOpen_keep (s : State) (p l ftype seq : Nat) (times : List Nat := []) : (State.flitOpen s p l ftype seq times).pending = s.pending ∧ (State.flitOpen s p l ftype seq times).fuse = s.fuse := by
  refine ⟨?_, ?_⟩ <;> (unfold State.flitOpen; all_goals (try dsimp only); all_goals (repeat' split); all_goals simp_all)

@[simp] theorem State.placed_keep (s : State) (p : Nat) (k : Packet) : (State.placed s p k).pending = s.pending ∧ (State.placed s p k).fuse = s.fuse := by
  refine ⟨?_, ?_⟩ <;> (unfold State.placed; all_goals (try dsimp only); all_goals (repeat' split); all_goals simp_all)

@[simp] theorem State.fillFlit_keep (s : State) (p : Nat) (b : List Byte) (x0 : Nat) : (State.fillFlit s p b x0).2.pending = s.pending ∧ (State.fillFlit s p b x0).2.fuse = s.fuse := by
  induction x0 generalizing s p b with
  | zero => simp [State.fillFlit]
  | succ k ih => refine ⟨?_, ?_⟩ <;> (unfold State.fillFlit; all_goals (try dsimp only); all_goals (repeat' split); all_goals simp_all)

@[simp] theorem State.stamp_keep (s : State) (e : SentSymbol) : (State.stamp s e).2.pending = s.pending ∧ (State.stamp s e).2.fuse = s.fuse := by
  refine ⟨?_, ?_⟩ <;> (unfold State.stamp; all_goals (try dsimp only); all_goals (repeat' split); all_goals simp_all)

@[simp] theorem State.sendTick_keep (s : State) (p l : Nat) (e : SentSymbol) : (State.sendTick s p l e).pending = s.pending ∧ (State.sendTick s p l e).fuse = s.fuse := by
  refine ⟨?_, ?_⟩ <;> (unfold State.sendTick; all_goals (try dsimp only); all_goals (repeat' split); all_goals simp_all)

@[simp] theorem State.sendAgain_keep (s : State) (p l : Nat) : (State.sendAgain s p l).pending = s.pending ∧ (State.sendAgain s p l).fuse = s.fuse := by
  refine ⟨?_, ?_⟩ <;> (unfold State.sendAgain; all_goals (try dsimp only); all_goals (repeat' split); all_goals simp_all)

@[simp] theorem State.sendNew_keep (s : State) (p l : Nat) : (State.sendNew s p l).pending = s.pending ∧ (State.sendNew s p l).fuse = s.fuse := by
  refine ⟨?_, ?_⟩ <;> (unfold State.sendNew; all_goals (try dsimp only); all_goals (repeat' split); all_goals simp_all)

@[simp] theorem State.sendSlot_keep (s : State) (p l : Nat) : (State.sendSlot s p l).pending = s.pending ∧ (State.sendSlot s p l).fuse = s.fuse := by
  refine ⟨?_, ?_⟩ <;> (unfold State.sendSlot; all_goals (try dsimp only); all_goals (repeat' split); all_goals simp_all)

end Sys2Proof.Machine
end

