-- ==== Sys2Proof/Laws/KeepPorts.lean ====
section
/-! SUPPORT. No operation of Machine/Ports.lean touches the queue of commands or the fuses. -/

set_option linter.unusedTactic false
set_option linter.unreachableTactic false
set_option linter.unnecessarySeqFocus false

namespace Sys2Proof.Machine

@[simp] theorem execIdleFlit_keep (port lane errs : Nat) (flit : Flit) (s : State) : s.kept (execIdleFlit port lane errs flit s) := by
  unfold execIdleFlit; all_goals (try dsimp only); all_goals (repeat' split); all_goals simp_all

@[simp] theorem execDataFlit_keep (port lane errs : Nat) (flit : Flit) (s : State) : s.kept (execDataFlit port lane errs flit s) := by
  unfold execDataFlit; all_goals (try dsimp only); all_goals (repeat' split); all_goals simp_all

@[simp] theorem execTickFlit_keep (port lane errs : Nat) (flit : Flit) (s : State) : s.kept (execTickFlit port lane errs flit s) := by
  unfold execTickFlit; all_goals (try dsimp only); all_goals (repeat' split); all_goals simp_all

@[simp] theorem execNakFlit_keep (port lane errs : Nat) (flit : Flit) (s : State) : s.kept (execNakFlit port lane errs flit s) := by
  unfold execNakFlit; all_goals (try dsimp only); all_goals (repeat' split); all_goals simp_all

@[simp] theorem State.takeCaps_keep (s : State) (p : Nat) (d : List Word) : (State.takeCaps s p d).pending = s.pending ∧ (State.takeCaps s p d).fuse = s.fuse := by
  refine ⟨?_, ?_⟩ <;> (unfold State.takeCaps; all_goals (try dsimp only); all_goals (repeat' split); all_goals simp_all)

@[simp] theorem State.tripDone_keep (s : State) (p rx tx : Nat) : (State.tripDone s p rx tx).pending = s.pending ∧ (State.tripDone s p rx tx).fuse = s.fuse := by
  refine ⟨?_, ?_⟩ <;> (unfold State.tripDone; all_goals (try dsimp only); all_goals (repeat' split); all_goals simp_all)

@[simp] theorem execTrainFlit_keep (port lane errs : Nat) (flit : Flit) (body : TrainBody) (s : State) : s.kept (execTrainFlit port lane errs flit body s) := by
  unfold execTrainFlit; all_goals (try dsimp only); all_goals (repeat' split); all_goals simp_all

@[simp] theorem execCalFlit_keep (port lane errs : Nat) (flit : Flit) (s : State) : s.kept (execCalFlit port lane errs flit s) := by
  unfold execCalFlit; all_goals (try dsimp only); all_goals (repeat' split); all_goals simp_all

@[simp] theorem execRemapFlit_keep (port lane errs : Nat) (flit : Flit) (logical : Nat) (spare : Option Nat) (period : Nat) (s : State) : s.kept (execRemapFlit port lane errs flit logical spare period s) := by
  unfold execRemapFlit; all_goals (try dsimp only); all_goals (repeat' split); all_goals simp_all

@[simp] theorem State.slotSend_keep (s : State) (p k : Nat) : (State.slotSend s p k).pending = s.pending ∧ (State.slotSend s p k).fuse = s.fuse := by
  refine ⟨?_, ?_⟩ <;> (unfold State.slotSend; all_goals (try dsimp only); all_goals (repeat' split); all_goals simp_all)

@[simp] theorem State.sendAnswer_keep (s : State) (p : Nat) : (State.sendAnswer s p).pending = s.pending ∧ (State.sendAnswer s p).fuse = s.fuse := by
  refine ⟨?_, ?_⟩ <;> (unfold State.sendAnswer; all_goals (try dsimp only); all_goals (repeat' split); all_goals simp_all)

@[simp] theorem State.sendAsk_keep (s : State) (p : Nat) : (State.sendAsk s p).pending = s.pending ∧ (State.sendAsk s p).fuse = s.fuse := by
  refine ⟨?_, ?_⟩ <;> (unfold State.sendAsk; all_goals (try dsimp only); all_goals (repeat' split); all_goals simp_all)

@[simp] theorem State.sendTimed_keep (s : State) (p : Nat) : (State.sendTimed s p).pending = s.pending ∧ (State.sendTimed s p).fuse = s.fuse := by
  refine ⟨?_, ?_⟩ <;> (unfold State.sendTimed; all_goals (try dsimp only); all_goals (repeat' split); all_goals simp_all)

@[simp] theorem execFlitTransmit_keep (port : Nat) (s : State) : s.kept (execFlitTransmit port s) := by
  unfold execFlitTransmit; all_goals (try dsimp only); all_goals (repeat' split); all_goals simp_all

@[simp] theorem execNakResend_keep (port : Nat) (s : State) : s.kept (execNakResend port s) := by
  unfold execNakResend; all_goals (try dsimp only); all_goals (repeat' split); all_goals simp_all

@[simp] theorem execReplayTimeout_keep (port : Nat) (s : State) : s.kept (execReplayTimeout port s) := by
  unfold execReplayTimeout; all_goals (try dsimp only); all_goals (repeat' split); all_goals simp_all

@[simp] theorem State.setLasers_keep (s : State) (p : Nat) (l : List Nat) : (State.setLasers s p l).pending = s.pending ∧ (State.setLasers s p l).fuse = s.fuse := by
  refine ⟨?_, ?_⟩ <;> (unfold State.setLasers; all_goals (try dsimp only); all_goals (repeat' split); all_goals simp_all)

@[simp] theorem State.laserEvent_keep (s : State) (p : Nat) : (State.laserEvent s p).pending = s.pending ∧ (State.laserEvent s p).fuse = s.fuse := by
  refine ⟨?_, ?_⟩ <;> (unfold State.laserEvent; all_goals (try dsimp only); all_goals (repeat' split); all_goals simp_all)

@[simp] theorem State.measure_keep (s : State) (p : Nat) (m : List (Nat × Nat)) : (State.measure s p m).pending = s.pending ∧ (State.measure s p m).fuse = s.fuse := by
  refine ⟨?_, ?_⟩ <;> (unfold State.measure; all_goals (try dsimp only); all_goals (repeat' split); all_goals simp_all)

@[simp] theorem State.setRxRoles_keep (s : State) (p : Nat) (q : List Nat) (w : Nat) : (State.setRxRoles s p q w).pending = s.pending ∧ (State.setRxRoles s p q w).fuse = s.fuse := by
  refine ⟨?_, ?_⟩ <;> (unfold State.setRxRoles; all_goals (try dsimp only); all_goals (repeat' split); all_goals simp_all)

@[simp] theorem State.setTxRoles_keep (s : State) (p : Nat) (m sp : List Nat) : (State.setTxRoles s p m sp).pending = s.pending ∧ (State.setTxRoles s p m sp).fuse = s.fuse := by
  refine ⟨?_, ?_⟩ <;> (unfold State.setTxRoles; all_goals (try dsimp only); all_goals (repeat' split); all_goals simp_all)

@[simp] theorem State.setRoles_keep (s : State) (p n : Nat) : (State.setRoles s p n).pending = s.pending ∧ (State.setRoles s p n).fuse = s.fuse := by
  refine ⟨?_, ?_⟩ <;> (unfold State.setRoles; all_goals (try dsimp only); all_goals (repeat' split); all_goals simp_all)

@[simp] theorem State.stepMap_keep (s : State) (p : Nat) : (State.stepMap s p).pending = s.pending ∧ (State.stepMap s p).fuse = s.fuse := by
  refine ⟨?_, ?_⟩ <;> (unfold State.stepMap; all_goals (try dsimp only); all_goals (repeat' split); all_goals simp_all)

@[simp] theorem State.stepNegotiate_keep (s : State) (p : Nat) : (State.stepNegotiate s p).pending = s.pending ∧ (State.stepNegotiate s p).fuse = s.fuse := by
  refine ⟨?_, ?_⟩ <;> (unfold State.stepNegotiate; all_goals (try dsimp only); all_goals (repeat' split); all_goals simp_all)

@[simp] theorem State.median_keep (s : State) (l : List Nat) : (State.median s l).2.pending = s.pending ∧ (State.median s l).2.fuse = s.fuse := by
  refine ⟨?_, ?_⟩ <;> (unfold State.median; all_goals (try dsimp only); all_goals (repeat' split); all_goals simp_all)

@[simp] theorem State.psToNs_keep (s : State) (x : Int) : (State.psToNs s x).2.pending = s.pending ∧ (State.psToNs s x).2.fuse = s.fuse := by
  refine ⟨?_, ?_⟩ <;> (unfold State.psToNs; all_goals (try dsimp only); all_goals (repeat' split); all_goals simp_all)

@[simp] theorem State.stepDelay_keep (s : State) (p : Nat) : (State.stepDelay s p).pending = s.pending ∧ (State.stepDelay s p).fuse = s.fuse := by
  refine ⟨?_, ?_⟩ <;> (unfold State.stepDelay; all_goals (try dsimp only); all_goals (repeat' split); all_goals simp_all)

@[simp] theorem State.windowBegin_keep (s : State) (p : Nat) : (State.windowBegin s p).pending = s.pending ∧ (State.windowBegin s p).fuse = s.fuse := by
  refine ⟨?_, ?_⟩ <;> (unfold State.windowBegin; all_goals (try dsimp only); all_goals (repeat' split); all_goals simp_all)

@[simp] theorem State.stepUp_keep (s : State) (p : Nat) : (State.stepUp s p).pending = s.pending ∧ (State.stepUp s p).fuse = s.fuse := by
  refine ⟨?_, ?_⟩ <;> (unfold State.stepUp; all_goals (try dsimp only); all_goals (repeat' split); all_goals simp_all)

@[simp] theorem State.scramSync_keep (s : State) (p : Nat) : (State.scramSync s p).pending = s.pending ∧ (State.scramSync s p).fuse = s.fuse := by
  refine ⟨?_, ?_⟩ <;> (unfold State.scramSync; all_goals (try dsimp only); all_goals (repeat' split); all_goals simp_all)

@[simp] theorem execTrainingStepDone_keep (port : Nat) (lasers : List Nat) (lanes : List (Nat × Nat)) (s : State) : s.kept (execTrainingStepDone port lasers lanes s) := by
  unfold execTrainingStepDone; all_goals (try dsimp only); all_goals (repeat' split); all_goals simp_all

@[simp] theorem execTrainingStepTimeout_keep (port : Nat) (silent : Bool) (s : State) : s.kept (execTrainingStepTimeout port silent s) := by
  unfold execTrainingStepTimeout; all_goals (try dsimp only); all_goals (repeat' split); all_goals simp_all

@[simp] theorem execTrainingRetry_keep (port : Nat) (s : State) : s.kept (execTrainingRetry port s) := by
  unfold execTrainingRetry; all_goals (try dsimp only); all_goals (repeat' split); all_goals simp_all

@[simp] theorem State.remapAnnounce_keep (s : State) (p logical : Nat) (spare : Option Nat) : (State.remapAnnounce s p logical spare).pending = s.pending ∧ (State.remapAnnounce s p logical spare).fuse = s.fuse := by
  refine ⟨?_, ?_⟩ <;> (unfold State.remapAnnounce; all_goals (try dsimp only); all_goals (repeat' split); all_goals simp_all)

@[simp] theorem State.degrade_keep (s : State) (p k : Nat) : (State.degrade s p k).pending = s.pending ∧ (State.degrade s p k).fuse = s.fuse := by
  refine ⟨?_, ?_⟩ <;> (unfold State.degrade; all_goals (try dsimp only); all_goals (repeat' split); all_goals simp_all)

@[simp] theorem State.degradeAll_keep (s : State) (p : Nat) (bad : Nat → Bool) : (State.degradeAll s p bad).pending = s.pending ∧ (State.degradeAll s p bad).fuse = s.fuse := by
  refine ⟨?_, ?_⟩ <;> (unfold State.degradeAll; all_goals (try dsimp only); all_goals (repeat' split); all_goals simp_all)

@[simp] theorem execLaneWindowEnd_keep (port : Nat) (s : State) : s.kept (execLaneWindowEnd port s) := by
  unfold execLaneWindowEnd; all_goals (try dsimp only); all_goals (repeat' split); all_goals simp_all

@[simp] theorem State.spareFail_keep (s : State) (p : Nat) (lanes : List Nat) : (State.spareFail s p lanes).pending = s.pending ∧ (State.spareFail s p lanes).fuse = s.fuse := by
  refine ⟨?_, ?_⟩ <;> (unfold State.spareFail; all_goals (try dsimp only); all_goals (repeat' split); all_goals simp_all)

@[simp] theorem execLaneSignalLoss_keep (port : Nat) (lanes : List Nat) (s : State) : s.kept (execLaneSignalLoss port lanes s) := by
  unfold execLaneSignalLoss; all_goals (try dsimp only); all_goals (repeat' split); all_goals simp_all

@[simp] theorem State.narrowRx_keep (s : State) (p k : Nat) : (State.narrowRx s p k).pending = s.pending ∧ (State.narrowRx s p k).fuse = s.fuse := by
  refine ⟨?_, ?_⟩ <;> (unfold State.narrowRx; all_goals (try dsimp only); all_goals (repeat' split); all_goals simp_all)

@[simp] theorem State.narrowTx_keep (s : State) (p k : Nat) : (State.narrowTx s p k).pending = s.pending ∧ (State.narrowTx s p k).fuse = s.fuse := by
  refine ⟨?_, ?_⟩ <;> (unfold State.narrowTx; all_goals (try dsimp only); all_goals (repeat' split); all_goals simp_all)

@[simp] theorem State.spareRx_keep (s : State) (p k l : Nat) : (State.spareRx s p k l).pending = s.pending ∧ (State.spareRx s p k l).fuse = s.fuse := by
  refine ⟨?_, ?_⟩ <;> (unfold State.spareRx; all_goals (try dsimp only); all_goals (repeat' split); all_goals simp_all)

@[simp] theorem State.spareTx_keep (s : State) (p k l : Nat) : (State.spareTx s p k l).pending = s.pending ∧ (State.spareTx s p k l).fuse = s.fuse := by
  refine ⟨?_, ?_⟩ <;> (unfold State.spareTx; all_goals (try dsimp only); all_goals (repeat' split); all_goals simp_all)

@[simp] theorem execLaserInputChange_keep (port : Nat) (lasers : List Nat) (s : State) : s.kept (execLaserInputChange port lasers s) := by
  unfold execLaserInputChange; all_goals (try dsimp only); all_goals (repeat' split); all_goals simp_all

@[simp] theorem execRemapTakeEffect_keep (port : Nat) (rx : Bool) (s : State) : s.kept (execRemapTakeEffect port rx s) := by
  unfold execRemapTakeEffect; all_goals (try dsimp only); all_goals (repeat' split); all_goals simp_all

@[simp] theorem execCalDue_keep (port : Nat) (s : State) : s.kept (execCalDue port s) := by
  unfold execCalDue; all_goals (try dsimp only); all_goals (repeat' split); all_goals simp_all

@[simp] theorem execCalBurstEnd_keep (port : Nat) (s : State) : s.kept (execCalBurstEnd port s) := by
  unfold execCalBurstEnd; all_goals (try dsimp only); all_goals (repeat' split); all_goals simp_all

@[simp] theorem execOpticalEngineFail_keep (port : Nat) (s : State) : s.kept (execOpticalEngineFail port s) := by
  unfold execOpticalEngineFail; all_goals (try dsimp only); all_goals (repeat' split); all_goals simp_all

@[simp] theorem State.writePortCtrl_keep (s : State) (p : Nat) (v : Word) : (State.writePortCtrl s p v).pending = s.pending ∧ (State.writePortCtrl s p v).fuse = s.fuse := by
  refine ⟨?_, ?_⟩ <;> (unfold State.writePortCtrl; all_goals (try dsimp only); all_goals (repeat' split); all_goals simp_all)

@[simp] theorem execRetrain_keep (agent : Agent) (port : Nat) (s : State) : s.kept (execRetrain agent port s) := by
  unfold execRetrain; all_goals (try dsimp only); all_goals (repeat' split); all_goals simp_all

@[simp] theorem execMgmtOnly_keep (agent : Agent) (port : Nat) (on : Bool) (s : State) : s.kept (execMgmtOnly agent port on s) := by
  unfold execMgmtOnly; all_goals (try dsimp only); all_goals (repeat' split); all_goals simp_all

end Sys2Proof.Machine
end

