-- ==== Sys2Proof/Laws/KeepRse.lean ====
section
/-! SUPPORT. No operation of Machine/Rse.lean touches the queue of commands or the fuses. -/

set_option linter.unusedTactic false
set_option linter.unreachableTactic false
set_option linter.unnecessarySeqFocus false

namespace Sys2Proof.Machine

@[simp] theorem State.setSlot_keep (s : State) (k : Nat) (x : RseSlot) : (State.setSlot s k x).pending = s.pending ∧ (State.setSlot s k x).fuse = s.fuse := by
  refine ⟨?_, ?_⟩ <;> (unfold State.setSlot; all_goals (try dsimp only); all_goals (repeat' split); all_goals simp_all)

@[simp] theorem State.setSlotState_keep (s : State) (k v : Nat) : (State.setSlotState s k v).pending = s.pending ∧ (State.setSlotState s k v).fuse = s.fuse := by
  refine ⟨?_, ?_⟩ <;> (unfold State.setSlotState; all_goals (try dsimp only); all_goals (repeat' split); all_goals simp_all)

@[simp] theorem State.emptySlot_keep (s : State) (k : Nat) : (State.emptySlot s k).pending = s.pending ∧ (State.emptySlot s k).fuse = s.fuse := by
  refine ⟨?_, ?_⟩ <;> (unfold State.emptySlot; all_goals (try dsimp only); all_goals (repeat' split); all_goals simp_all)

@[simp] theorem State.emptySlots_keep (s : State) : (State.emptySlots s).pending = s.pending ∧ (State.emptySlots s).fuse = s.fuse := by
  refine ⟨?_, ?_⟩ <;> (unfold State.emptySlots; all_goals (try dsimp only); all_goals (repeat' split); all_goals simp_all)

@[simp] theorem State.rseStatus_keep (s : State) : (State.rseStatus s).pending = s.pending ∧ (State.rseStatus s).fuse = s.fuse := by
  refine ⟨?_, ?_⟩ <;> (unfold State.rseStatus; all_goals (try dsimp only); all_goals (repeat' split); all_goals simp_all)

@[simp] theorem State.rseAccept_keep (s : State) (pa tag : Nat) : (State.rseAccept s pa tag).1.pending = s.pending ∧ (State.rseAccept s pa tag).1.fuse = s.fuse := by
  refine ⟨?_, ?_⟩ <;> (unfold State.rseAccept; all_goals (try dsimp only); all_goals (repeat' split); all_goals simp_all)

@[simp] theorem execRseSubmit_keep (s : State) : s.kept (execRseSubmit s) := by
  unfold execRseSubmit; all_goals (try dsimp only); all_goals (repeat' split); all_goals simp_all

@[simp] theorem execRseSubmitInsn_keep (hart : Nat) (word : BitVec 32) (xlat : HartXlat) (s : State) : s.kept (execRseSubmitInsn hart word xlat s) := by
  unfold execRseSubmitInsn; all_goals (try dsimp only); all_goals (repeat' split); all_goals simp_all

@[simp] theorem State.rseRead_keep (s : State) (da n : Nat) : (State.rseRead s da n).1.pending = s.pending ∧ (State.rseRead s da n).1.fuse = s.fuse := by
  refine ⟨?_, ?_⟩ <;> (unfold State.rseRead; all_goals (try dsimp only); all_goals (repeat' split); all_goals simp_all)

@[simp] theorem State.rsePut_keep (s : State) (da : Nat) (bs : List Byte) : (State.rsePut s da bs).1.pending = s.pending ∧ (State.rsePut s da bs).1.fuse = s.fuse := by
  refine ⟨?_, ?_⟩ <;> (unfold State.rsePut; all_goals (try dsimp only); all_goals (repeat' split); all_goals simp_all)

@[simp] theorem State.rseArray_keep (s : State) (da w n : Nat) : (State.rseArray s da w n).1.pending = s.pending ∧ (State.rseArray s da w n).1.fuse = s.fuse := by
  refine ⟨?_, ?_⟩ <;> (unfold State.rseArray; all_goals (try dsimp only); all_goals (repeat' split); all_goals simp_all)

@[simp] theorem State.cplFault_keep (s : State) : (State.cplFault s).pending = s.pending ∧ (State.cplFault s).fuse = s.fuse := by
  refine ⟨?_, ?_⟩ <;> (unfold State.cplFault; all_goals (try dsimp only); all_goals (repeat' split); all_goals simp_all)

@[simp] theorem State.rseRecord_keep (s : State) (c : RseCmd) (r : RseRes) : (State.rseRecord s c r).pending = s.pending ∧ (State.rseRecord s c r).fuse = s.fuse := by
  refine ⟨?_, ?_⟩ <;> (unfold State.rseRecord; all_goals (try dsimp only); all_goals (repeat' split); all_goals simp_all)

@[simp] theorem State.rseSem_keep (s : State) (c : RseCmd) : (State.rseSem s c).pending = s.pending ∧ (State.rseSem s c).fuse = s.fuse := by
  refine ⟨?_, ?_⟩ <;> (unfold State.rseSem; all_goals (try dsimp only); all_goals (repeat' split); all_goals simp_all)

@[simp] theorem State.rseEntry_keep (s : State) (c : RseCmd) (r : RseRes) : (State.rseEntry s c r).pending = s.pending ∧ (State.rseEntry s c r).fuse = s.fuse := by
  refine ⟨?_, ?_⟩ <;> (unfold State.rseEntry; all_goals (try dsimp only); all_goals (repeat' split); all_goals simp_all)

@[simp] theorem State.rseComplete_keep (s : State) (c : RseCmd) (r : RseRes) : (State.rseComplete s c r).pending = s.pending ∧ (State.rseComplete s c r).fuse = s.fuse := by
  refine ⟨?_, ?_⟩ <;> (unfold State.rseComplete; all_goals (try dsimp only); all_goals (repeat' split); all_goals simp_all)

@[simp] theorem State.rseRun_keep (s : State) (cmd : Nat) (k : State → RseCmd → State × RseRes) (h_k : ∀ (y0 : State) (y1 : RseCmd), (k y0 y1).1.pending = y0.pending ∧ (k y0 y1).1.fuse = y0.fuse) : (State.rseRun s cmd k).pending = s.pending ∧ (State.rseRun s cmd k).fuse = s.fuse := by
  refine ⟨?_, ?_⟩ <;> (unfold State.rseRun; all_goals (try dsimp only); all_goals (repeat' split); all_goals simp_all)

@[simp] theorem State.setupRun_keep (s : State) (c : RseCmd) : (State.setupRun s c).1.pending = s.pending ∧ (State.setupRun s c).1.fuse = s.fuse := by
  refine ⟨?_, ?_⟩ <;> (unfold State.setupRun; all_goals (try dsimp only); all_goals (repeat' split); all_goals simp_all)

@[simp] theorem execSetup_keep (s : State) : s.kept (execSetup s) := by
  unfold execSetup; all_goals (try dsimp only); all_goals (repeat' split); all_goals simp_all

@[simp] theorem State.updateRun_keep (s : State) (c : RseCmd) : (State.updateRun s c).1.pending = s.pending ∧ (State.updateRun s c).1.fuse = s.fuse := by
  refine ⟨?_, ?_⟩ <;> (unfold State.updateRun; all_goals (try dsimp only); all_goals (repeat' split); all_goals simp_all)

@[simp] theorem execUpdate_keep (s : State) : s.kept (execUpdate s) := by
  unfold execUpdate; all_goals (try dsimp only); all_goals (repeat' split); all_goals simp_all

@[simp] theorem State.importRead_keep (s : State) (c : RseCmd) : (State.importRead s c).1.pending = s.pending ∧ (State.importRead s c).1.fuse = s.fuse := by
  refine ⟨?_, ?_⟩ <;> (unfold State.importRead; all_goals (try dsimp only); all_goals (repeat' split); all_goals simp_all)

@[simp] theorem State.importRun_keep (s : State) (c : RseCmd) : (State.importRun s c).1.pending = s.pending ∧ (State.importRun s c).1.fuse = s.fuse := by
  refine ⟨?_, ?_⟩ <;> (unfold State.importRun; all_goals (try dsimp only); all_goals (repeat' split); all_goals simp_all)

@[simp] theorem State.factorise_keep (s : State) (c : RseCmd) : (State.factorise s c).1.pending = s.pending ∧ (State.factorise s c).1.fuse = s.fuse := by
  refine ⟨?_, ?_⟩ <;> (unfold State.factorise; all_goals (try dsimp only); all_goals (repeat' split); all_goals simp_all)

@[simp] theorem State.slotBack_keep (s t : State) (k : Nat) : (State.slotBack s t k).pending = s.pending ∧ (State.slotBack s t k).fuse = s.fuse := by
  refine ⟨?_, ?_⟩ <;> (unfold State.slotBack; all_goals (try dsimp only); all_goals (repeat' split); all_goals simp_all)

@[simp] theorem State.factorRun_keep (s : State) (c : RseCmd) : (State.factorRun s c).1.pending = s.pending ∧ (State.factorRun s c).1.fuse = s.fuse := by
  refine ⟨?_, ?_⟩ <;> (unfold State.factorRun; all_goals (try dsimp only); all_goals (repeat' split); all_goals simp_all)

@[simp] theorem execFactor_keep (s : State) : s.kept (execFactor s) := by
  unfold execFactor; all_goals (try dsimp only); all_goals (repeat' split); all_goals simp_all

@[simp] theorem State.rhs_keep (s : State) (da n : Nat) : (State.rhs s da n).1.pending = s.pending ∧ (State.rhs s da n).1.fuse = s.fuse := by
  refine ⟨?_, ?_⟩ <;> (unfold State.rhs; all_goals (try dsimp only); all_goals (repeat' split); all_goals simp_all)

@[simp] theorem State.solveFrom_keep (s : State) (c : RseCmd) (b : List Nat) (j : Nat) (x0 : Nat) : (State.solveFrom s c b j x0).1.pending = s.pending ∧ (State.solveFrom s c b j x0).1.fuse = s.fuse := by
  induction x0 generalizing s c b j with
  | zero => simp [State.solveFrom]
  | succ k ih => refine ⟨?_, ?_⟩ <;> (unfold State.solveFrom; all_goals (try dsimp only); all_goals (repeat' split); all_goals simp_all)

@[simp] theorem State.solveRun_keep (s : State) (c : RseCmd) : (State.solveRun s c).1.pending = s.pending ∧ (State.solveRun s c).1.fuse = s.fuse := by
  refine ⟨?_, ?_⟩ <;> (unfold State.solveRun; all_goals (try dsimp only); all_goals (repeat' split); all_goals simp_all)

@[simp] theorem execSolve_keep (s : State) : s.kept (execSolve s) := by
  unfold execSolve; all_goals (try dsimp only); all_goals (repeat' split); all_goals simp_all

@[simp] theorem State.guess_keep (s : State) (k da : Nat) : (State.guess s k da).1.pending = s.pending ∧ (State.guess s k da).1.fuse = s.fuse := by
  refine ⟨?_, ?_⟩ <;> (unfold State.guess; all_goals (try dsimp only); all_goals (repeat' split); all_goals simp_all)

@[simp] theorem State.iterOut_keep (s : State) (c : RseCmd) (o : IterOut) (flags : Nat) : (State.iterOut s c o flags).1.pending = s.pending ∧ (State.iterOut s c o flags).1.fuse = s.fuse := by
  refine ⟨?_, ?_⟩ <;> (unfold State.iterOut; all_goals (try dsimp only); all_goals (repeat' split); all_goals simp_all)

@[simp] theorem State.iterRun_keep (s : State) (c : RseCmd) (use : Bool) (start : State → List Nat → Option (List Nat) → Nat → State × RseRes) (h_start : ∀ (y0 : State) (y1 : List Nat) (y2 : Option (List Nat)) (y3 : Nat), (start y0 y1 y2 y3).1.pending = y0.pending ∧ (start y0 y1 y2 y3).1.fuse = y0.fuse) : (State.iterRun s c use start).1.pending = s.pending ∧ (State.iterRun s c use start).1.fuse = s.fuse := by
  refine ⟨?_, ?_⟩ <;> (unfold State.iterRun; all_goals (try dsimp only); all_goals (repeat' split); all_goals simp_all)

@[simp] theorem State.refineRun_keep (s : State) (c : RseCmd) : (State.refineRun s c).1.pending = s.pending ∧ (State.refineRun s c).1.fuse = s.fuse := by
  unfold State.refineRun
  refine State.iterRun_keep _ _ _ _ fun t b g fl => ?_
  refine ⟨?_, ?_⟩ <;> ((try dsimp only); (repeat' split) <;> simp_all)

@[simp] theorem execRefine_keep (s : State) : s.kept (execRefine s) := by
  unfold execRefine; all_goals (try dsimp only); all_goals (repeat' split); all_goals simp_all

@[simp] theorem State.iterCmdRun_keep (s : State) (c : RseCmd) : (State.iterCmdRun s c).1.pending = s.pending ∧ (State.iterCmdRun s c).1.fuse = s.fuse := by
  refine ⟨?_, ?_⟩ <;> (unfold State.iterCmdRun; all_goals (try dsimp only); all_goals (repeat' split); all_goals simp_all)

@[simp] theorem execIter_keep (s : State) : s.kept (execIter s) := by
  unfold execIter; all_goals (try dsimp only); all_goals (repeat' split); all_goals simp_all

@[simp] theorem execRseRelease_keep (s : State) : s.kept (execRseRelease s) := by
  unfold execRseRelease; all_goals (try dsimp only); all_goals (repeat' split); all_goals simp_all

@[simp] theorem State.rseAbort_keep (s : State) (x0 : List RseCmd) : (State.rseAbort s x0).pending = s.pending ∧ (State.rseAbort s x0).fuse = s.fuse := by
  induction x0 generalizing s with
  | nil => simp [State.rseAbort]
  | cons a r ih => refine ⟨?_, ?_⟩ <;> (unfold State.rseAbort; all_goals (try dsimp only); all_goals (repeat' split); all_goals simp_all)

@[simp] theorem State.rsePartition_keep (s : State) : (State.rsePartition s).pending = s.pending ∧ (State.rsePartition s).fuse = s.fuse := by
  refine ⟨?_, ?_⟩ <;> (unfold State.rsePartition; all_goals (try dsimp only); all_goals (repeat' split); all_goals simp_all)

@[simp] theorem State.zeroRegion_keep (s : State) : (State.zeroRegion s).pending = s.pending ∧ (State.zeroRegion s).fuse = s.fuse := by
  refine ⟨?_, ?_⟩ <;> (unfold State.zeroRegion; all_goals (try dsimp only); all_goals (repeat' split); all_goals simp_all)

@[simp] theorem execRseZeroingDone_keep (s : State) : s.kept (execRseZeroingDone s) := by
  unfold execRseZeroingDone; all_goals (try dsimp only); all_goals (repeat' split); all_goals simp_all

@[simp] theorem execRseLost_keep (s : State) : s.kept (execRseLost s) := by
  unfold execRseLost; all_goals (try dsimp only); all_goals (repeat' split); all_goals simp_all

end Sys2Proof.Machine
end

