-- ==== Sys2Proof/Laws/KeepResetOps.lean ====
section
/-! SUPPORT. No operation of Machine/ResetOps.lean touches the queue of commands or the fuses. -/

set_option linter.unusedTactic false
set_option linter.unreachableTactic false
set_option linter.unnecessarySeqFocus false

namespace Sys2Proof.Machine

@[simp] theorem State.warm_keep (s : State) (keep : Bool) : (State.warm s keep).pending = s.pending ∧ (State.warm s keep).fuse = s.fuse := by
  refine ⟨?_, ?_⟩ <;> (unfold State.warm; all_goals (try dsimp only); all_goals (repeat' split); all_goals simp_all)

@[simp] theorem State.wcBeforeReset_keep (s : State) (srcs : List Nat) : (State.wcBeforeReset s srcs).pending = s.pending ∧ (State.wcBeforeReset s srcs).fuse = s.fuse := by
  refine ⟨?_, ?_⟩ <;> (unfold State.wcBeforeReset; all_goals (try dsimp only); all_goals (repeat' split); all_goals simp_all)

@[simp] theorem State.resetCauses_keep (s : State) (srcs : List Nat) : (State.resetCauses s srcs).pending = s.pending ∧ (State.resetCauses s srcs).fuse = s.fuse := by
  refine ⟨?_, ?_⟩ <;> (unfold State.resetCauses; all_goals (try dsimp only); all_goals (repeat' split); all_goals simp_all)

@[simp] theorem State.resetEffect_keep (s : State) (srcs : List Nat) : (State.resetEffect s srcs).pending = s.pending ∧ (State.resetEffect s srcs).fuse = s.fuse := by
  refine ⟨?_, ?_⟩ <;> (unfold State.resetEffect; all_goals (try dsimp only); all_goals (repeat' split); all_goals simp_all)

@[simp] theorem State.takeReset_keep (s : State) (srcs : List Nat) : (State.takeReset s srcs).pending = s.pending ∧ (State.takeReset s srcs).fuse = s.fuse := by
  refine ⟨?_, ?_⟩ <;> (unfold State.takeReset; all_goals (try dsimp only); all_goals (repeat' split); all_goals simp_all)

@[simp] theorem State.pinsFall_keep (s : State) (srcs : List Nat) : (State.pinsFall s srcs).pending = s.pending ∧ (State.pinsFall s srcs).fuse = s.fuse := by
  refine ⟨?_, ?_⟩ <;> (unfold State.pinsFall; all_goals (try dsimp only); all_goals (repeat' split); all_goals simp_all)

@[simp] theorem State.takeAll_keep (s : State) (src : Nat) (also : List Nat) : (State.takeAll s src also).pending = s.pending ∧ (State.takeAll s src also).fuse = s.fuse := by
  refine ⟨?_, ?_⟩ <;> (unfold State.takeAll; all_goals (try dsimp only); all_goals (repeat' split); all_goals simp_all)

@[simp] theorem State.powerOn_keep (s : State) (vsb : Bool) : (State.powerOn s vsb).pending = s.pending ∧ (State.powerOn s vsb).fuse = s.fuse := by
  refine ⟨?_, ?_⟩ <;> (unfold State.powerOn; all_goals (try dsimp only); all_goals (repeat' split); all_goals simp_all)

@[simp] theorem State.setPower_keep (s : State) (n : Nat) (on : Bool) : (State.setPower s n on).pending = s.pending ∧ (State.setPower s n on).fuse = s.fuse := by
  refine ⟨?_, ?_⟩ <;> (unfold State.setPower; all_goals (try dsimp only); all_goals (repeat' split); all_goals simp_all)

@[simp] theorem State.powerUp_keep (s : State) (l : List Nat) : (State.powerUp s l).pending = s.pending ∧ (State.powerUp s l).fuse = s.fuse := by
  refine ⟨?_, ?_⟩ <;> (unfold State.powerUp; all_goals (try dsimp only); all_goals (repeat' split); all_goals simp_all)

@[simp] theorem State.setCap_keep (s : State) (w : Nat) : (State.setCap s w).pending = s.pending ∧ (State.setCap s w).fuse = s.fuse := by
  refine ⟨?_, ?_⟩ <;> (unfold State.setCap; all_goals (try dsimp only); all_goals (repeat' split); all_goals simp_all)

@[simp] theorem State.setTelemetry_keep (s : State) (w : Nat) : (State.setTelemetry s w).pending = s.pending ∧ (State.setTelemetry s w).fuse = s.fuse := by
  refine ⟨?_, ?_⟩ <;> (unfold State.setTelemetry; all_goals (try dsimp only); all_goals (repeat' split); all_goals simp_all)

@[simp] theorem State.loadStandby_keep (s : State) : (State.loadStandby s).pending = s.pending ∧ (State.loadStandby s).fuse = s.fuse := by
  refine ⟨?_, ?_⟩ <;> (unfold State.loadStandby; all_goals (try dsimp only); all_goals (repeat' split); all_goals simp_all)

@[simp] theorem State.loadHalyard_keep (s : State) : (State.loadHalyard s).pending = s.pending ∧ (State.loadHalyard s).fuse = s.fuse := by
  refine ⟨?_, ?_⟩ <;> (unfold State.loadHalyard; all_goals (try dsimp only); all_goals (repeat' split); all_goals simp_all)

@[simp] theorem State.loadMemory_keep (s : State) : (State.loadMemory s).pending = s.pending ∧ (State.loadMemory s).fuse = s.fuse := by
  refine ⟨?_, ?_⟩ <;> (unfold State.loadMemory; all_goals (try dsimp only); all_goals (repeat' split); all_goals simp_all)

@[simp] theorem State.loadFabric_keep (s : State) : (State.loadFabric s).pending = s.pending ∧ (State.loadFabric s).fuse = s.fuse := by
  refine ⟨?_, ?_⟩ <;> (unfold State.loadFabric; all_goals (try dsimp only); all_goals (repeat' split); all_goals simp_all)

@[simp] theorem State.loadDelay_keep (s : State) (p : Nat) : (State.loadDelay s p).pending = s.pending ∧ (State.loadDelay s p).fuse = s.fuse := by
  refine ⟨?_, ?_⟩ <;> (unfold State.loadDelay; all_goals (try dsimp only); all_goals (repeat' split); all_goals simp_all)

@[simp] theorem State.loadPort_keep (s : State) (mgmt : Bool) (p : Nat) : (State.loadPort s mgmt p).pending = s.pending ∧ (State.loadPort s mgmt p).fuse = s.fuse := by
  refine ⟨?_, ?_⟩ <;> (unfold State.loadPort; all_goals (try dsimp only); all_goals (repeat' split); all_goals simp_all)

@[simp] theorem State.loadPorts_keep (s : State) (mgmt : Bool) : (State.loadPorts s mgmt).pending = s.pending ∧ (State.loadPorts s mgmt).fuse = s.fuse := by
  refine ⟨?_, ?_⟩ <;> (unfold State.loadPorts; all_goals (try dsimp only); all_goals (repeat' split); all_goals simp_all)

@[simp] theorem State.loadOptics_keep (s : State) (mgmt : Bool) : (State.loadOptics s mgmt).pending = s.pending ∧ (State.loadOptics s mgmt).fuse = s.fuse := by
  refine ⟨?_, ?_⟩ <;> (unfold State.loadOptics; all_goals (try dsimp only); all_goals (repeat' split); all_goals simp_all)

@[simp] theorem State.loadHost_keep (s : State) : (State.loadHost s).pending = s.pending ∧ (State.loadHost s).fuse = s.fuse := by
  refine ⟨?_, ?_⟩ <;> (unfold State.loadHost; all_goals (try dsimp only); all_goals (repeat' split); all_goals simp_all)

@[simp] theorem State.loadRegions_keep (s : State) : (State.loadRegions s).pending = s.pending ∧ (State.loadRegions s).fuse = s.fuse := by
  refine ⟨?_, ?_⟩ <;> (unfold State.loadRegions; all_goals (try dsimp only); all_goals (repeat' split); all_goals simp_all)

@[simp] theorem State.showKeys_keep (s : State) : (State.showKeys s).pending = s.pending ∧ (State.showKeys s).fuse = s.fuse := by
  refine ⟨?_, ?_⟩ <;> (unfold State.showKeys; all_goals (try dsimp only); all_goals (repeat' split); all_goals simp_all)

@[simp] theorem State.fuseSense_keep (s : State) : (State.fuseSense s).pending = s.pending ∧ (State.fuseSense s).fuse = s.fuse := by
  refine ⟨?_, ?_⟩ <;> (unfold State.fuseSense; all_goals (try dsimp only); all_goals (repeat' split); all_goals simp_all)

@[simp] theorem State.stackReady_keep (s : State) (f : Found) (k : Nat) : (State.stackReady s f k).pending = s.pending ∧ (State.stackReady s f k).fuse = s.fuse := by
  refine ⟨?_, ?_⟩ <;> (unfold State.stackReady; all_goals (try dsimp only); all_goals (repeat' split); all_goals simp_all)

@[simp] theorem State.chanReady_keep (s : State) (f : Found) (ref : Option (Nat × Nat × Nat × Nat × Nat)) (c : Nat) : (State.chanReady s f ref c).pending = s.pending ∧ (State.chanReady s f ref c).fuse = s.fuse := by
  refine ⟨?_, ?_⟩ <;> (unfold State.chanReady; all_goals (try dsimp only); all_goals (repeat' split); all_goals simp_all)

@[simp] theorem State.groupReady_keep (s : State) (g : Nat) : (State.groupReady s g).pending = s.pending ∧ (State.groupReady s g).fuse = s.fuse := by
  refine ⟨?_, ?_⟩ <;> (unfold State.groupReady; all_goals (try dsimp only); all_goals (repeat' split); all_goals simp_all)

@[simp] theorem State.setMaps_keep (s : State) (f : Found) (ref : Option (Nat × Nat × Nat × Nat × Nat)) : (State.setMaps s f ref).pending = s.pending ∧ (State.setMaps s f ref).fuse = s.fuse := by
  refine ⟨?_, ?_⟩ <;> (unfold State.setMaps; all_goals (try dsimp only); all_goals (repeat' split); all_goals simp_all)

@[simp] theorem State.relayCap_keep (s : State) : (State.relayCap s).pending = s.pending ∧ (State.relayCap s).fuse = s.fuse := by
  refine ⟨?_, ?_⟩ <;> (unfold State.relayCap; all_goals (try dsimp only); all_goals (repeat' split); all_goals simp_all)

@[simp] theorem State.sickLine_keep (s : State) (e : Nat × Nat) : (State.sickLine s e).pending = s.pending ∧ (State.sickLine s e).fuse = s.fuse := by
  refine ⟨?_, ?_⟩ <;> (unfold State.sickLine; all_goals (try dsimp only); all_goals (repeat' split); all_goals simp_all)

@[simp] theorem State.memoryReady_keep (s : State) (f : Found) : (State.memoryReady s f).pending = s.pending ∧ (State.memoryReady s f).fuse = s.fuse := by
  refine ⟨?_, ?_⟩ <;> (unfold State.memoryReady; all_goals (try dsimp only); all_goals (repeat' split); all_goals simp_all)

@[simp] theorem State.strandOn_keep (s : State) (d p l : Nat) : (State.strandOn s d p l).pending = s.pending ∧ (State.strandOn s d p l).fuse = s.fuse := by
  refine ⟨?_, ?_⟩ <;> (unfold State.strandOn; all_goals (try dsimp only); all_goals (repeat' split); all_goals simp_all)

@[simp] theorem State.strandOff_keep (s : State) (d p : Nat) : (State.strandOff s d p).pending = s.pending ∧ (State.strandOff s d p).fuse = s.fuse := by
  refine ⟨?_, ?_⟩ <;> (unfold State.strandOff; all_goals (try dsimp only); all_goals (repeat' split); all_goals simp_all)

@[simp] theorem State.spareShown_keep (s : State) (blk sp : Nat) (bad : List Nat) : (State.spareShown s blk sp bad).pending = s.pending ∧ (State.spareShown s blk sp bad).fuse = s.fuse := by
  refine ⟨?_, ?_⟩ <;> (unfold State.spareShown; all_goals (try dsimp only); all_goals (repeat' split); all_goals simp_all)

@[simp] theorem State.strandsPlaced_keep (s : State) (d : Nat) (place : Nat → Nat) (up : List Nat) : (State.strandsPlaced s d place up).pending = s.pending ∧ (State.strandsPlaced s d place up).fuse = s.fuse := by
  unfold State.strandsPlaced
  refine ⟨foldl_pending _ _ _ fun t e => ?_, foldl_fuse _ _ _ fun t e => ?_⟩ <;> ((repeat' split) <;> simp)

@[simp] theorem State.dieReady_keep (s : State) (f : Found) (d : Nat) : (State.dieReady s f d).pending = s.pending ∧ (State.dieReady s f d).fuse = s.fuse := by
  refine ⟨?_, ?_⟩ <;> (unfold State.dieReady; all_goals (try dsimp only); all_goals (repeat' split); all_goals simp_all)

@[simp] theorem State.strandsReady_keep (s : State) (f : Found) : (State.strandsReady s f).pending = s.pending ∧ (State.strandsReady s f).fuse = s.fuse := by
  refine ⟨?_, ?_⟩ <;> (unfold State.strandsReady; all_goals (try dsimp only); all_goals (repeat' split); all_goals simp_all)

@[simp] theorem State.scrubAll_keep (s : State) : (State.scrubAll s).pending = s.pending ∧ (State.scrubAll s).fuse = s.fuse := by
  refine ⟨?_, ?_⟩ <;> (unfold State.scrubAll; all_goals (try dsimp only); all_goals (repeat' split); all_goals simp_all)

@[simp] theorem State.engineReady_keep (s : State) (f : Found) (p : Nat) : (State.engineReady s f p).pending = s.pending ∧ (State.engineReady s f p).fuse = s.fuse := by
  refine ⟨?_, ?_⟩ <;> (unfold State.engineReady; all_goals (try dsimp only); all_goals (repeat' split); all_goals simp_all)

@[simp] theorem State.loadFdies_keep (s : State) : (State.loadFdies s).pending = s.pending ∧ (State.loadFdies s).fuse = s.fuse := by
  refine ⟨?_, ?_⟩ <;> (unfold State.loadFdies; all_goals (try dsimp only); all_goals (repeat' split); all_goals simp_all)

@[simp] theorem State.opticsReady_keep (s : State) (f : Found) : (State.opticsReady s f).pending = s.pending ∧ (State.opticsReady s f).fuse = s.fuse := by
  refine ⟨?_, ?_⟩ <;> (unfold State.opticsReady; all_goals (try dsimp only); all_goals (repeat' split); all_goals simp_all)

@[simp] theorem State.hostReady_keep (s : State) : (State.hostReady s).pending = s.pending ∧ (State.hostReady s).fuse = s.fuse := by
  refine ⟨?_, ?_⟩ <;> (unfold State.hostReady; all_goals (try dsimp only); all_goals (repeat' split); all_goals simp_all)

end Sys2Proof.Machine
end

