-- ==== Sys2Proof/Laws/KeepGovernor.lean ====
section
/-! SUPPORT. No operation of Machine/Governor.lean touches the queue of commands or the fuses. -/

set_option linter.unusedTactic false
set_option linter.unreachableTactic false
set_option linter.unnecessarySeqFocus false

namespace Sys2Proof.Machine

@[simp] theorem State.stackSample_keep (s : State) (k : Nat) (t : Int) : (State.stackSample s k t).pending = s.pending ∧ (State.stackSample s k t).fuse = s.fuse := by
  refine ⟨?_, ?_⟩ <;> (unfold State.stackSample; all_goals (try dsimp only); all_goals (repeat' split); all_goals simp_all)

@[simp] theorem State.stackSamples_keep (s : State) (k : Nat) (x0 : List Int) : (State.stackSamples s k x0).pending = s.pending ∧ (State.stackSamples s k x0).fuse = s.fuse := by
  induction x0 generalizing s k with
  | nil => simp [State.stackSamples]
  | cons a r ih => refine ⟨?_, ?_⟩ <;> (unfold State.stackSamples; all_goals (try dsimp only); all_goals (repeat' split); all_goals simp_all)

@[simp] theorem execSensorSample_keep (junction : List (List Int)) (stackT : List Int) (volt amp : Nat) (nvmOk : Bool) (s : State) : s.kept (execSensorSample junction stackT volt amp nvmOk s) := by
  unfold execSensorSample; all_goals (try dsimp only); all_goals (repeat' split); all_goals simp_all

@[simp] theorem State.govCompare_keep (s : State) : (State.govCompare s).pending = s.pending ∧ (State.govCompare s).fuse = s.fuse := by
  refine ⟨?_, ?_⟩ <;> (unfold State.govCompare; all_goals (try dsimp only); all_goals (repeat' split); all_goals simp_all)

@[simp] theorem State.thermCompare_keep (s : State) : (State.thermCompare s).pending = s.pending ∧ (State.thermCompare s).fuse = s.fuse := by
  refine ⟨?_, ?_⟩ <;> (unfold State.thermCompare; all_goals (try dsimp only); all_goals (repeat' split); all_goals simp_all)

@[simp] theorem State.setBoardHot_keep (s : State) (x : Bool) : (State.setBoardHot s x).pending = s.pending ∧ (State.setBoardHot s x).fuse = s.fuse := by
  refine ⟨?_, ?_⟩ <;> (unfold State.setBoardHot; all_goals (try dsimp only); all_goals (repeat' split); all_goals simp_all)

@[simp] theorem State.prochotSeen_keep (s : State) : (State.prochotSeen s).pending = s.pending ∧ (State.prochotSeen s).fuse = s.fuse := by
  refine ⟨?_, ?_⟩ <;> (unfold State.prochotSeen; all_goals (try dsimp only); all_goals (repeat' split); all_goals simp_all)

@[simp] theorem execProchotIn_keep (s : State) : s.kept (execProchotIn s) := by
  unfold execProchotIn; all_goals (try dsimp only); all_goals (repeat' split); all_goals simp_all

@[simp] theorem execProchotNRelease_keep (s : State) : s.kept (execProchotNRelease s) := by
  unfold execProchotNRelease; all_goals (try dsimp only); all_goals (repeat' split); all_goals simp_all

@[simp] theorem execGovernorCompare_keep (s : State) : s.kept (execGovernorCompare s) := by
  unfold execGovernorCompare; all_goals (try dsimp only); all_goals (repeat' split); all_goals simp_all

@[simp] theorem State.serviceClear_keep (s : State) (f : Field) : (State.serviceClear s f).pending = s.pending ∧ (State.serviceClear s f).fuse = s.fuse := by
  refine ⟨?_, ?_⟩ <;> (unfold State.serviceClear; all_goals (try dsimp only); all_goals (repeat' split); all_goals simp_all)

@[simp] theorem execCoolingCheck_keep (margin : Int) (s : State) : s.kept (execCoolingCheck margin s) := by
  unfold execCoolingCheck; all_goals (try dsimp only); all_goals (repeat' split); all_goals simp_all

end Sys2Proof.Machine
end

