-- ==== Sys2Proof/Laws/KeepLySession.lean ====
section
/-! SUPPORT. No operation of Machine/LySession.lean touches the queue of commands or the fuses. -/

set_option linter.unusedTactic false
set_option linter.unreachableTactic false
set_option linter.unnecessarySeqFocus false

namespace Sys2Proof.Machine

@[simp] theorem State.lySend_keep (s : State) (dst port len : Nat) (payload : List Byte → List Byte) : (State.lySend s dst port len payload).pending = s.pending ∧ (State.lySend s dst port len payload).fuse = s.fuse := by
  refine ⟨?_, ?_⟩ <;> (unfold State.lySend; all_goals (try dsimp only); all_goals (repeat' split); all_goals simp_all)

@[simp] theorem State.lyCloseSend_keep (s : State) (dst port session reason : Nat) : (State.lyCloseSend s dst port session reason).pending = s.pending ∧ (State.lyCloseSend s dst port session reason).fuse = s.fuse := by
  refine ⟨?_, ?_⟩ <;> (unfold State.lyCloseSend; all_goals (try dsimp only); all_goals (repeat' split); all_goals simp_all)

@[simp] theorem State.freeScalar_keep (s : State) : (State.freeScalar s).2.pending = s.pending ∧ (State.freeScalar s).2.fuse = s.fuse := by
  refine ⟨?_, ?_⟩ <;> (unfold State.freeScalar; all_goals (try dsimp only); all_goals (repeat' split); all_goals simp_all)

@[simp] theorem State.freeNonce_keep (s : State) : (State.freeNonce s).2.pending = s.pending ∧ (State.freeNonce s).2.fuse = s.fuse := by
  refine ⟨?_, ?_⟩ <;> (unfold State.freeNonce; all_goals (try dsimp only); all_goals (repeat' split); all_goals simp_all)

@[simp] theorem State.setSessions_keep (s : State) (l : List Session) : (State.setSessions s l).pending = s.pending ∧ (State.setSessions s l).fuse = s.fuse := by
  refine ⟨?_, ?_⟩ <;> (unfold State.setSessions; all_goals (try dsimp only); all_goals (repeat' split); all_goals simp_all)

@[simp] theorem State.setSession_keep (s : State) (x : Session) : (State.setSession s x).pending = s.pending ∧ (State.setSession s x).fuse = s.fuse := by
  refine ⟨?_, ?_⟩ <;> (unfold State.setSession; all_goals (try dsimp only); all_goals (repeat' split); all_goals simp_all)

@[simp] theorem State.dropSession_keep (s : State) (id : Nat) : (State.dropSession s id).pending = s.pending ∧ (State.dropSession s id).fuse = s.fuse := by
  refine ⟨?_, ?_⟩ <;> (unfold State.dropSession; all_goals (try dsimp only); all_goals (repeat' split); all_goals simp_all)

@[simp] theorem State.expire_keep (s : State) (x : Session) : (State.expire s x).pending = s.pending ∧ (State.expire s x).fuse = s.fuse := by
  refine ⟨?_, ?_⟩ <;> (unfold State.expire; all_goals (try dsimp only); all_goals (repeat' split); all_goals simp_all)

@[simp] theorem State.sessionSend_keep (s : State) (x : Session) (plain : List Byte) : (State.sessionSend s x plain).pending = s.pending ∧ (State.sessionSend s x plain).fuse = s.fuse := by
  refine ⟨?_, ?_⟩ <;> (unfold State.sessionSend; all_goals (try dsimp only); all_goals (repeat' split); all_goals simp_all)

end Sys2Proof.Machine
end

