-- ==== Sys2Proof/Laws/KeepTelemetry.lean ====
section
/-! SUPPORT. No operation of Machine/Telemetry.lean touches the queue of commands or the fuses. -/

set_option linter.unusedTactic false
set_option linter.unreachableTactic false
set_option linter.unnecessarySeqFocus false

namespace Sys2Proof.Machine

@[simp] theorem State.tlmDrop_keep (s : State) : (State.tlmDrop s).pending = s.pending ∧ (State.tlmDrop s).fuse = s.fuse := by
  refine ⟨?_, ?_⟩ <;> (unfold State.tlmDrop; all_goals (try dsimp only); all_goals (repeat' split); all_goals simp_all)

@[simp] theorem State.tlmSend_keep (s : State) (r : List Word) : (State.tlmSend s r).pending = s.pending ∧ (State.tlmSend s r).fuse = s.fuse := by
  unfold State.tlmSend
  dsimp only
  refine ⟨?_, ?_⟩ <;> split
  · simp
  · refine foldl_pending _ _ _ fun t i => ?_
    split <;> simp
  · simp
  · refine foldl_fuse _ _ _ fun t i => ?_
    split <;> simp

@[simp] theorem State.tlmFlush_keep (s : State) : (State.tlmFlush s).pending = s.pending ∧ (State.tlmFlush s).fuse = s.fuse := by
  refine ⟨?_, ?_⟩ <;> (unfold State.tlmFlush; all_goals (try dsimp only); all_goals (repeat' split); all_goals simp_all)

@[simp] theorem execTelemetryRecord_keep (s : State) : s.kept (execTelemetryRecord s) := by
  unfold execTelemetryRecord; all_goals (try dsimp only); all_goals (repeat' split); all_goals simp_all

end Sys2Proof.Machine
end

