-- ==== Sys2Proof/Laws/KeepHalyard.lean ====
section
/-! SUPPORT. No operation of Machine/Halyard.lean touches the queue of commands or the fuses. -/

set_option linter.unusedTactic false
set_option linter.unreachableTactic false
set_option linter.unnecessarySeqFocus false

namespace Sys2Proof.Machine

@[simp] theorem State.takeSym_keep (s : State) (type : Nat) (y : TickSymbol) : (State.takeSym s type y).pending = s.pending ∧ (State.takeSym s type y).fuse = s.fuse := by
  refine ⟨?_, ?_⟩ <;> (unfold State.takeSym; all_goals (try dsimp only); all_goals (repeat' split); all_goals simp_all)

@[simp] theorem State.symbol_keep (s : State) (type : Nat) (y : TickSymbol) (k : State → State) (h_k : ∀ (y0 : State), (k y0).pending = y0.pending ∧ (k y0).fuse = y0.fuse) : (State.symbol s type y k).pending = s.pending ∧ (State.symbol s type y k).fuse = s.fuse := by
  refine ⟨?_, ?_⟩ <;> (unfold State.symbol; all_goals (try dsimp only); all_goals (repeat' split); all_goals simp_all)

@[simp] theorem State.tickSymbol_keep (s : State) (type : Nat) (y : TickSymbol) (k : State → State) (h_k : ∀ (y0 : State), (k y0).pending = y0.pending ∧ (k y0).fuse = y0.fuse) : (State.tickSymbol s type y k).pending = s.pending ∧ (State.tickSymbol s type y k).fuse = s.fuse := by
  refine ⟨?_, ?_⟩ <;> (unfold State.tickSymbol; all_goals (try dsimp only); all_goals (repeat' split); all_goals simp_all)

@[simp] theorem State.takeOver_keep (s : State) : (State.takeOver s).pending = s.pending ∧ (State.takeOver s).fuse = s.fuse := by
  refine ⟨?_, ?_⟩ <;> (unfold State.takeOver; all_goals (try dsimp only); all_goals (repeat' split); all_goals simp_all)

@[simp] theorem State.parentLost_keep (s : State) : (State.parentLost s).pending = s.pending ∧ (State.parentLost s).fuse = s.fuse := by
  refine ⟨?_, ?_⟩ <;> (unfold State.parentLost; all_goals (try dsimp only); all_goals (repeat' split); all_goals simp_all)

@[simp] theorem State.sendReqTime_keep (s : State) : (State.sendReqTime s).pending = s.pending ∧ (State.sendReqTime s).fuse = s.fuse := by
  refine ⟨?_, ?_⟩ <;> (unfold State.sendReqTime; all_goals (try dsimp only); all_goals (repeat' split); all_goals simp_all)

@[simp] theorem execTimeExchange_keep (s : State) : s.kept (execTimeExchange s) := by
  unfold execTimeExchange; all_goals (try dsimp only); all_goals (repeat' split); all_goals simp_all

@[simp] theorem State.attach_keep (s : State) (n : Nat) : (State.attach s n).pending = s.pending ∧ (State.attach s n).fuse = s.fuse := by
  refine ⟨?_, ?_⟩ <;> (unfold State.attach; all_goals (try dsimp only); all_goals (repeat' split); all_goals simp_all)

@[simp] theorem execTimeReq_keep (src : Nat) (sym : TickSymbol) (s : State) : s.kept (execTimeReq src sym s) := by
  unfold execTimeReq; all_goals (try dsimp only); all_goals (repeat' split); all_goals simp_all

@[simp] theorem State.half_keep (s : State) (x : Int) : (State.half s x).2.pending = s.pending ∧ (State.half s x).2.fuse = s.fuse := by
  refine ⟨?_, ?_⟩ <;> (unfold State.half; all_goals (try dsimp only); all_goals (repeat' split); all_goals simp_all)

@[simp] theorem State.stepTime_keep (s : State) (d : Int) : (State.stepTime s d).pending = s.pending ∧ (State.stepTime s d).fuse = s.fuse := by
  refine ⟨?_, ?_⟩ <;> (unfold State.stepTime; all_goals (try dsimp only); all_goals (repeat' split); all_goals simp_all)

@[simp] theorem State.lockJudge_keep (s : State) (d : Int) : (State.lockJudge s d).pending = s.pending ∧ (State.lockJudge s d).fuse = s.fuse := by
  refine ⟨?_, ?_⟩ <;> (unfold State.lockJudge; all_goals (try dsimp only); all_goals (repeat' split); all_goals simp_all)

@[simp] theorem execTimeResp_keep (src : Nat) (sym : TickSymbol) (s : State) : s.kept (execTimeResp src sym s) := by
  unfold execTimeResp; all_goals (try dsimp only); all_goals (repeat' split); all_goals simp_all

@[simp] theorem execSlipState_keep (src : Nat) (sym : TickSymbol) (s : State) : s.kept (execSlipState src sym s) := by
  unfold execSlipState; all_goals (try dsimp only); all_goals (repeat' split); all_goals simp_all

@[simp] theorem State.slipsTo_keep (s : State) (n : Nat) : (State.slipsTo s n).pending = s.pending ∧ (State.slipsTo s n).fuse = s.fuse := by
  refine ⟨?_, ?_⟩ <;> (unfold State.slipsTo; all_goals (try dsimp only); all_goals (repeat' split); all_goals simp_all)

@[simp] theorem State.unholdLate_keep (s : State) : (State.unholdLate s).pending = s.pending ∧ (State.unholdLate s).fuse = s.fuse := by
  refine ⟨?_, ?_⟩ <;> (unfold State.unholdLate; all_goals (try dsimp only); all_goals (repeat' split); all_goals simp_all)

@[simp] theorem execTickExtend_keep (sym : TickSymbol) (s : State) : s.kept (execTickExtend sym s) := by
  unfold execTickExtend; all_goals (try dsimp only); all_goals (repeat' split); all_goals simp_all

@[simp] theorem State.genCheck_keep (s : State) (y : TickSymbol) : (State.genCheck s y).pending = s.pending ∧ (State.genCheck s y).fuse = s.fuse := by
  refine ⟨?_, ?_⟩ <;> (unfold State.genCheck; all_goals (try dsimp only); all_goals (repeat' split); all_goals simp_all)

@[simp] theorem State.takeFinal_keep (s : State) (y : TickSymbol) : (State.takeFinal s y).pending = s.pending ∧ (State.takeFinal s y).fuse = s.fuse := by
  refine ⟨?_, ?_⟩ <;> (unfold State.takeFinal; all_goals (try dsimp only); all_goals (repeat' split); all_goals simp_all)

@[simp] theorem execTickFinal_keep (sym : TickSymbol) (s : State) : s.kept (execTickFinal sym s) := by
  unfold execTickFinal; all_goals (try dsimp only); all_goals (repeat' split); all_goals simp_all

@[simp] theorem execTickFault_keep (sym : TickSymbol) (s : State) : s.kept (execTickFault sym s) := by
  unfold execTickFault; all_goals (try dsimp only); all_goals (repeat' split); all_goals simp_all

@[simp] theorem State.dropPast_keep (s : State) : (State.dropPast s).pending = s.pending ∧ (State.dropPast s).fuse = s.fuse := by
  refine ⟨?_, ?_⟩ <;> (unfold State.dropPast; all_goals (try dsimp only); all_goals (repeat' split); all_goals simp_all)

@[simp] theorem execJoinComplete_keep (s : State) : s.kept (execJoinComplete s) := by
  unfold execJoinComplete; all_goals (try dsimp only); all_goals (repeat' split); all_goals simp_all

@[simp] theorem execGuardPoint_keep (s : State) : s.kept (execGuardPoint s) := by
  unfold execGuardPoint; all_goals (try dsimp only); all_goals (repeat' split); all_goals simp_all

@[simp] theorem State.grantSlip_keep (s : State) : (State.grantSlip s).pending = s.pending ∧ (State.grantSlip s).fuse = s.fuse := by
  refine ⟨?_, ?_⟩ <;> (unfold State.grantSlip; all_goals (try dsimp only); all_goals (repeat' split); all_goals simp_all)

@[simp] theorem State.faultTick_keep (s : State) : (State.faultTick s).pending = s.pending ∧ (State.faultTick s).fuse = s.fuse := by
  refine ⟨?_, ?_⟩ <;> (unfold State.faultTick; all_goals (try dsimp only); all_goals (repeat' split); all_goals simp_all)

@[simp] theorem execDecisionPoint_keep (s : State) : s.kept (execDecisionPoint s) := by
  unfold execDecisionPoint; all_goals (try dsimp only); all_goals (repeat' split); all_goals simp_all

@[simp] theorem execTickEnd_keep (s : State) : s.kept (execTickEnd s) := by
  unfold execTickEnd; all_goals (try dsimp only); all_goals (repeat' split); all_goals simp_all

@[simp] theorem execBoundaryHold_keep (s : State) : s.kept (execBoundaryHold s) := by
  unfold execBoundaryHold; all_goals (try dsimp only); all_goals (repeat' split); all_goals simp_all

@[simp] theorem execQuietBandStart_keep (s : State) : s.kept (execQuietBandStart s) := by
  unfold execQuietBandStart; all_goals (try dsimp only); all_goals (repeat' split); all_goals simp_all

@[simp] theorem execHlyCtrl_keep (agent : Agent) (value : Word) (s : State) : s.kept (execHlyCtrl agent value s) := by
  unfold execHlyCtrl; all_goals (try dsimp only); all_goals (repeat' split); all_goals simp_all

@[simp] theorem execHlyParam_keep (agent : Agent) (value : Word) (s : State) : s.kept (execHlyParam agent value s) := by
  unfold execHlyParam; all_goals (try dsimp only); all_goals (repeat' split); all_goals simp_all

@[simp] theorem execHlyHostDone_keep (agent : Agent) (value : Word) (s : State) : s.kept (execHlyHostDone agent value s) := by
  unfold execHlyHostDone; all_goals (try dsimp only); all_goals (repeat' split); all_goals simp_all

@[simp] theorem execHlyTalqArm1_keep (agent : Agent) (queue : Nat) (value : Word) (s : State) : s.kept (execHlyTalqArm1 agent queue value s) := by
  unfold execHlyTalqArm1; all_goals (try dsimp only); all_goals (repeat' split); all_goals simp_all

@[simp] theorem execHlyTalqCancel_keep (agent : Agent) (queue : Nat) (value : Word) (s : State) : s.kept (execHlyTalqCancel agent queue value s) := by
  unfold execHlyTalqCancel; all_goals (try dsimp only); all_goals (repeat' split); all_goals simp_all

@[simp] theorem State.hostEvent_keep (s : State) (e : TalqEntry) : (State.hostEvent s e).pending = s.pending ∧ (State.hostEvent s e).fuse = s.fuse := by
  refine ⟨?_, ?_⟩ <;> (unfold State.hostEvent; all_goals (try dsimp only); all_goals (repeat' split); all_goals simp_all)

@[simp] theorem execHostEvent_keep (s : State) : s.kept (execHostEvent s) := by
  unfold execHostEvent; all_goals (try dsimp only); all_goals (repeat' split); all_goals simp_all

@[simp] theorem execFdieDone_keep (f : Nat) (s : State) : s.kept (execFdieDone f s) := by
  unfold execFdieDone; all_goals (try dsimp only); all_goals (repeat' split); all_goals simp_all

end Sys2Proof.Machine
end

