-- ==== Sys2Proof/Laws/KeepJtag.lean ====
section
/-! SUPPORT. No operation of Machine/Jtag.lean touches the queue of commands or the fuses. -/

set_option linter.unusedTactic false
set_option linter.unreachableTactic false
set_option linter.unnecessarySeqFocus false

namespace Sys2Proof.Machine

@[simp] theorem State.tap_keep (s : State) (ir : Nat) (out : Option (BitVec 32)) : (State.tap s ir out).pending = s.pending ∧ (State.tap s ir out).fuse = s.fuse := by
  refine ⟨?_, ?_⟩ <;> (unfold State.tap; all_goals (try dsimp only); all_goals (repeat' split); all_goals simp_all)

@[simp] theorem State.tapGuarded_keep (s : State) (ir : Nat) : (State.tapGuarded s ir).pending = s.pending ∧ (State.tapGuarded s ir).fuse = s.fuse := by
  refine ⟨?_, ?_⟩ <;> (unfold State.tapGuarded; all_goals (try dsimp only); all_goals (repeat' split); all_goals simp_all)

@[simp] theorem execExtest_keep (s : State) : s.kept (execExtest s) := by
  unfold execExtest; all_goals (try dsimp only); all_goals (repeat' split); all_goals simp_all

@[simp] theorem execHighz_keep (s : State) : s.kept (execHighz s) := by
  unfold execHighz; all_goals (try dsimp only); all_goals (repeat' split); all_goals simp_all

@[simp] theorem execClamp_keep (s : State) : s.kept (execClamp s) := by
  unfold execClamp; all_goals (try dsimp only); all_goals (repeat' split); all_goals simp_all

@[simp] theorem execSamplePreload_keep (s : State) : s.kept (execSamplePreload s) := by
  unfold execSamplePreload; all_goals (try dsimp only); all_goals (repeat' split); all_goals simp_all

@[simp] theorem execIdcode_keep (s : State) : s.kept (execIdcode s) := by
  unfold execIdcode; all_goals (try dsimp only); all_goals (repeat' split); all_goals simp_all

@[simp] theorem execBypass_keep (s : State) : s.kept (execBypass s) := by
  unfold execBypass; all_goals (try dsimp only); all_goals (repeat' split); all_goals simp_all

end Sys2Proof.Machine
end

