-- ==== Sys2Proof/Laws/KeepLyOps.lean ====
section
/-! SUPPORT. No operation of Machine/LyOps.lean touches the queue of commands or the fuses. -/

set_option linter.unusedTactic false
set_option linter.unreachableTactic false
set_option linter.unnecessarySeqFocus false

namespace Sys2Proof.Machine

@[simp] theorem State.mailboxShow_keep (s : State) (r : List Byte) : (State.mailboxShow s r).pending = s.pending ∧ (State.mailboxShow s r).fuse = s.fuse := by
  refine ⟨?_, ?_⟩ <;> (unfold State.mailboxShow; all_goals (try dsimp only); all_goals (repeat' split); all_goals simp_all)

@[simp] theorem State.lyReply_keep (s : State) (via : Option Nat) (r : List Byte) : (State.lyReply s via r).pending = s.pending ∧ (State.lyReply s via r).fuse = s.fuse := by
  refine ⟨?_, ?_⟩ <;> (unfold State.lyReply; all_goals (try dsimp only); all_goals (repeat' split); all_goals simp_all)

@[simp] theorem State.lyKeep_keep (s : State) (via : Option Nat) (req : Nat) (r : List Byte) : (State.lyKeep s via req r).pending = s.pending ∧ (State.lyKeep s via req r).fuse = s.fuse := by
  refine ⟨?_, ?_⟩ <;> (unfold State.lyKeep; all_goals (try dsimp only); all_goals (repeat' split); all_goals simp_all)

@[simp] theorem State.lySetAnswered_keep (s : State) : (State.lySetAnswered s).pending = s.pending ∧ (State.lySetAnswered s).fuse = s.fuse := by
  refine ⟨?_, ?_⟩ <;> (unfold State.lySetAnswered; all_goals (try dsimp only); all_goals (repeat' split); all_goals simp_all)

@[simp] theorem State.lyAnswer_keep (s : State) (c : LyCmd) (status : Nat) (data : List Byte) : (State.lyAnswer s c status data).pending = s.pending ∧ (State.lyAnswer s c status data).fuse = s.fuse := by
  refine ⟨?_, ?_⟩ <;> (unfold State.lyAnswer; all_goals (try dsimp only); all_goals (repeat' split); all_goals simp_all)

@[simp] theorem State.lyDrain_keep (s : State) (x0 : List LyCmd) : (State.lyDrain s x0).pending = s.pending ∧ (State.lyDrain s x0).fuse = s.fuse := by
  induction x0 generalizing s with
  | nil => simp [State.lyDrain]
  | cons a r ih => refine ⟨?_, ?_⟩ <;> (unfold State.lyDrain; all_goals (try dsimp only); all_goals (repeat' split); all_goals simp_all)

@[simp] theorem State.lyArrive_keep (s : State) (via : Option Nat) (plain : List Byte) : (State.lyArrive s via plain).pending = s.pending ∧ (State.lyArrive s via plain).fuse = s.fuse := by
  refine ⟨?_, ?_⟩ <;> (unfold State.lyArrive; all_goals (try dsimp only); all_goals (repeat' split); all_goals simp_all)

@[simp] theorem State.mailboxGo_keep (s : State) : (State.mailboxGo s).pending = s.pending ∧ (State.mailboxGo s).fuse = s.fuse := by
  refine ⟨?_, ?_⟩ <;> (unfold State.mailboxGo; all_goals (try dsimp only); all_goals (repeat' split); all_goals simp_all)

theorem State.lyFront_keep {s : State} {cmd : Nat} {c : LyCmd} {t : State} (h : s.lyFront cmd = some (c, t)) :
    t.pending = s.pending ∧ t.fuse = s.fuse := by
  unfold State.lyFront at h
  split at h
  · cases h
  · split at h
    · cases h; simp
    · cases h

@[simp] theorem State.lyRun_keep (s : State) (cmd : Nat) (f : State → LyCmd → State × Nat × List Byte) (h_f : ∀ (y0 : State) (y1 : LyCmd), (f y0 y1).1.pending = y0.pending ∧ (f y0 y1).1.fuse = y0.fuse) : (State.lyRun s cmd f).pending = s.pending ∧ (State.lyRun s cmd f).fuse = s.fuse := by
  unfold State.lyRun
  dsimp only
  cases h : s.lyFront cmd with
  | none => simp
  | some x =>
    obtain ⟨c, t⟩ := x
    have k := State.lyFront_keep h
    simp only [k.1.symm, k.2.symm]
    refine ⟨?_, ?_⟩ <;> ((try dsimp only); (repeat' split) <;> simp_all)

@[simp] theorem lyArgs_keep (n : Nat) (f : State → LyCmd → State × Nat × List Byte) (s : State) (c : LyCmd) (h_f : ∀ (y0 : State) (y1 : LyCmd), (f y0 y1).1.pending = y0.pending ∧ (f y0 y1).1.fuse = y0.fuse) : (lyArgs n f s c).1.pending = s.pending ∧ (lyArgs n f s c).1.fuse = s.fuse := by
  refine ⟨?_, ?_⟩ <;> (unfold lyArgs; all_goals (try dsimp only); all_goals (repeat' split); all_goals simp_all)

end Sys2Proof.Machine
end

