-- ==== Sys2Proof/Laws/KeepMatrix.lean ====
section
/-! SUPPORT. No operation of Machine/Matrix.lean touches the queue of commands or the fuses. -/

set_option linter.unusedTactic false
set_option linter.unreachableTactic false
set_option linter.unnecessarySeqFocus false

namespace Sys2Proof.Machine

@[simp] theorem State.matrixRecord_keep (s : State) (c : Nat) (k : Nat) (f : Nat) (hx : Bool) (l : List (Nat × Nat × Elem)) : (State.matrixRecord s c k f hx l).pending = s.pending ∧ (State.matrixRecord s c k f hx l).fuse = s.fuse := by
  refine ⟨?_, ?_⟩ <;> (unfold State.matrixRecord; all_goals (try dsimp only); all_goals (repeat' split); all_goals simp_all)

@[simp] theorem execMma_keep (core : Nat) (rest : Rest) (s : State) : s.kept (execMma core rest s) := by
  unfold execMma
  rw [kept_next]
  refine State.engine_keep _ _ _ _ _ _ _ fun t => ?_
  constructor <;> (all_goals (try dsimp only); all_goals (repeat' split); all_goals simp_all)

@[simp] theorem State.mcombRun_keep (s : State) (core : Nat) (rest : Rest) (o : McombOps) : (State.mcombRun s core rest o).pending = s.pending ∧ (State.mcombRun s core rest o).fuse = s.fuse := by
  refine ⟨?_, ?_⟩ <;> (unfold State.mcombRun; all_goals (try dsimp only); all_goals (repeat' split); all_goals simp_all)

@[simp] theorem execMcomb_keep (core : Nat) (rest : Rest) (s : State) : s.kept (execMcomb core rest s) := by
  unfold execMcomb
  rw [kept_next]
  refine State.engine_keep _ _ _ _ _ _ _ fun t => ?_
  constructor <;> (all_goals (try dsimp only); all_goals (repeat' split); all_goals simp_all)

@[simp] theorem State.meClearFlags_keep (s : State) (w : Nat) : (State.meClearFlags s w).pending = s.pending ∧ (State.meClearFlags s w).fuse = s.fuse := by
  refine ⟨?_, ?_⟩ <;> (unfold State.meClearFlags; all_goals (try dsimp only); all_goals (repeat' split); all_goals simp_all)

@[simp] theorem State.meClearExc_keep (s : State) (w : Nat) : (State.meClearExc s w).pending = s.pending ∧ (State.meClearExc s w).fuse = s.fuse := by
  refine ⟨?_, ?_⟩ <;> (unfold State.meClearExc; all_goals (try dsimp only); all_goals (repeat' split); all_goals simp_all)

@[simp] theorem State.meClearHist_keep (s : State) (w : Nat) : (State.meClearHist s w).pending = s.pending ∧ (State.meClearHist s w).fuse = s.fuse := by
  refine ⟨?_, ?_⟩ <;> (unfold State.meClearHist; all_goals (try dsimp only); all_goals (repeat' split); all_goals simp_all)

@[simp] theorem execMrec_keep (core : Nat) (rest : Rest) (s : State) : s.kept (execMrec core rest s) := by
  unfold execMrec
  rw [kept_next]
  refine State.engine_keep _ _ _ _ _ _ _ fun t => ?_
  constructor <;> (all_goals (try dsimp only); all_goals (repeat' split); all_goals simp_all)

@[simp] theorem execMeClearFlags_keep (agent : Agent) (die phys : Nat) (s : State) : s.kept (execMeClearFlags agent die phys s) := by
  unfold execMeClearFlags; all_goals (try dsimp only); all_goals (repeat' split); all_goals simp_all

@[simp] theorem execMeClearExc_keep (agent : Agent) (die phys : Nat) (s : State) : s.kept (execMeClearExc agent die phys s) := by
  unfold execMeClearExc; all_goals (try dsimp only); all_goals (repeat' split); all_goals simp_all

@[simp] theorem execMeClearHist_keep (agent : Agent) (die phys : Nat) (s : State) : s.kept (execMeClearHist agent die phys s) := by
  unfold execMeClearHist; all_goals (try dsimp only); all_goals (repeat' split); all_goals simp_all

end Sys2Proof.Machine
end

