-- ==== Sys2Proof/Laws/KeepPcie.lean ====
section
/-! SUPPORT. No operation of Machine/Pcie.lean touches the queue of commands or the fuses. -/

set_option linter.unusedTactic false
set_option linter.unreachableTactic false
set_option linter.unnecessarySeqFocus false

namespace Sys2Proof.Machine

@[simp] theorem State.pciePut_keep (s : State) (x : PcieOut) : (State.pciePut s x).pending = s.pending ∧ (State.pciePut s x).fuse = s.fuse := by
  refine ⟨?_, ?_⟩ <;> (unfold State.pciePut; all_goals (try dsimp only); all_goals (repeat' split); all_goals simp_all)

@[simp] theorem State.pcieWrite_keep (s : State) (a : Nat) (v : Word) : (State.pcieWrite s a v).pending = s.pending ∧ (State.pcieWrite s a v).fuse = s.fuse := by
  refine ⟨?_, ?_⟩ <;> (unfold State.pcieWrite; all_goals (try dsimp only); all_goals (repeat' split); all_goals simp_all)

@[simp] theorem State.pcieRead_keep (s : State) (a : Nat) (cpl : PcieCpl) (data : Word) : (State.pcieRead s a cpl data).1.pending = s.pending ∧ (State.pcieRead s a cpl data).1.fuse = s.fuse := by
  refine ⟨?_, ?_⟩ <;> (unfold State.pcieRead; all_goals (try dsimp only); all_goals (repeat' split); all_goals simp_all)

@[simp] theorem State.pcieAccess_keep (s : State) (h : Nat) (va : Word) (a : Nat) (access : HartAccess) (cpl : PcieCpl) (data : Word) : (State.pcieAccess s h va a access cpl data).pending = s.pending ∧ (State.pcieAccess s h va a access cpl data).fuse = s.fuse := by
  refine ⟨?_, ?_⟩ <;> (unfold State.pcieAccess; all_goals (try dsimp only); all_goals (repeat' split); all_goals simp_all)

@[simp] theorem execPcieConfigAccess_keep (hart : Nat) (va : Word) (off : Nat) (access : HartAccess) (cpl : PcieCpl) (data : Word) (s : State) : s.kept (execPcieConfigAccess hart va off access cpl data s) := by
  unfold execPcieConfigAccess; all_goals (try dsimp only); all_goals (repeat' split); all_goals simp_all

@[simp] theorem execPcieMemoryAccess_keep (hart : Nat) (va : Word) (off : Nat) (access : HartAccess) (cpl : PcieCpl) (data : Word) (s : State) : s.kept (execPcieMemoryAccess hart va off access cpl data s) := by
  unfold execPcieMemoryAccess; all_goals (try dsimp only); all_goals (repeat' split); all_goals simp_all

@[simp] theorem execPcieDmaRead_keep (addr n : Nat) (s : State) : s.kept (execPcieDmaRead addr n s) := by
  unfold execPcieDmaRead; all_goals (try dsimp only); all_goals (repeat' split); all_goals simp_all

@[simp] theorem execPcieDmaWrite_keep (addr : Nat) (data : List Byte) (ep : Bool) (s : State) : s.kept (execPcieDmaWrite addr data ep s) := by
  unfold execPcieDmaWrite; all_goals (try dsimp only); all_goals (repeat' split); all_goals simp_all

end Sys2Proof.Machine
end

