-- ==== Sys2Proof/Laws/KeepReset.lean ====
section
/-! SUPPORT. No operation of Machine/Reset.lean touches the queue of commands or the fuses. -/

set_option linter.unusedTactic false
set_option linter.unreachableTactic false
set_option linter.unnecessarySeqFocus false

namespace Sys2Proof.Machine

@[simp] theorem execSbpor_keep (s : State) : s.kept (execSbpor s) := by
  unfold execSbpor; all_goals (try dsimp only); all_goals (repeat' split); all_goals simp_all

@[simp] theorem execVsb33Low_keep (s : State) : s.kept (execVsb33Low s) := by
  unfold execVsb33Low; all_goals (try dsimp only); all_goals (repeat' split); all_goals simp_all

@[simp] theorem execPwrok_keep (also : List Nat) (s : State) : s.kept (execPwrok also s) := by
  unfold execPwrok; all_goals (try dsimp only); all_goals (repeat' split); all_goals simp_all

@[simp] theorem execPwrOkRise_keep (s : State) : s.kept (execPwrOkRise s) := by
  unfold execPwrOkRise; all_goals (try dsimp only); all_goals (repeat' split); all_goals simp_all

@[simp] theorem execVin48OutOfRange_keep (s : State) : s.kept (execVin48OutOfRange s) := by
  unfold execVin48OutOfRange; all_goals (try dsimp only); all_goals (repeat' split); all_goals simp_all

@[simp] theorem execVin48Recovered_keep (s : State) : s.kept (execVin48Recovered s) := by
  unfold execVin48Recovered; all_goals (try dsimp only); all_goals (repeat' split); all_goals simp_all

@[simp] theorem execPin_keep (also : List Nat) (s : State) : s.kept (execPin also s) := by
  unfold execPin; all_goals (try dsimp only); all_goals (repeat' split); all_goals simp_all

@[simp] theorem execResetNRelease_keep (bootSrc clkMode sbAddr : Nat) (s : State) : s.kept (execResetNRelease bootSrc clkMode sbAddr s) := by
  unfold execResetNRelease; all_goals (try dsimp only); all_goals (repeat' split); all_goals simp_all

@[simp] theorem execThermRestart_keep (s : State) : s.kept (execThermRestart s) := by
  unfold execThermRestart; all_goals (try dsimp only); all_goals (repeat' split); all_goals simp_all

@[simp] theorem execPePerstDeassert_keep (s : State) : s.kept (execPePerstDeassert s) := by
  unfold execPePerstDeassert; all_goals (try dsimp only); all_goals (repeat' split); all_goals simp_all

@[simp] theorem execReleaseRequest_keep (step : Nat) (s : State) : s.kept (execReleaseRequest step s) := by
  unfold execReleaseRequest; all_goals (try dsimp only); all_goals (repeat' split); all_goals simp_all

@[simp] theorem State.releaseEffect_keep (s : State) (k : Nat) : (State.releaseEffect s k).pending = s.pending ∧ (State.releaseEffect s k).fuse = s.fuse := by
  refine ⟨?_, ?_⟩ <;> (unfold State.releaseEffect; all_goals (try dsimp only); all_goals (repeat' split); all_goals simp_all)

@[simp] theorem execReleaseStep_keep (s : State) : s.kept (execReleaseStep s) := by
  unfold execReleaseStep; all_goals (try dsimp only); all_goals (repeat' split); all_goals simp_all

@[simp] theorem execStepReady_keep (step : Nat) (found : Found) (s : State) : s.kept (execStepReady step found s) := by
  unfold execStepReady; all_goals (try dsimp only); all_goals (repeat' split); all_goals simp_all

@[simp] theorem execStepTimeout_keep (nvmOk : Bool) (s : State) : s.kept (execStepTimeout nvmOk s) := by
  unfold execStepTimeout; all_goals (try dsimp only); all_goals (repeat' split); all_goals simp_all

@[simp] theorem State.enterBelay_keep (s : State) (cause result : Nat) : (State.enterBelay s cause result).pending = s.pending ∧ (State.enterBelay s cause result).fuse = s.fuse := by
  refine ⟨?_, ?_⟩ <;> (unfold State.enterBelay; all_goals (try dsimp only); all_goals (repeat' split); all_goals simp_all)

@[simp] theorem State.useImage_keep (s : State) (m : List Byte) (c : ImgCheck) (source result : Nat) (fallback : Bool) : (State.useImage s m c source result fallback).pending = s.pending ∧ (State.useImage s m c source result fallback).fuse = s.fuse := by
  refine ⟨?_, ?_⟩ <;> (unfold State.useImage; all_goals (try dsimp only); all_goals (repeat' split); all_goals simp_all)

@[simp] theorem State.showCopy_keep (s : State) (a : Nat) (m : List Byte) (c : ImgCheck) : (State.showCopy s a m c).pending = s.pending ∧ (State.showCopy s a m c).fuse = s.fuse := by
  refine ⟨?_, ?_⟩ <;> (unfold State.showCopy; all_goals (try dsimp only); all_goals (repeat' split); all_goals simp_all)

@[simp] theorem State.showCopies_keep (s : State) : (State.showCopies s).pending = s.pending ∧ (State.showCopies s).fuse = s.fuse := by
  refine ⟨?_, ?_⟩ <;> (unfold State.showCopies; all_goals (try dsimp only); all_goals (repeat' split); all_goals simp_all)

@[simp] theorem State.copiesUnread_keep (s : State) : (State.copiesUnread s).pending = s.pending ∧ (State.copiesUnread s).fuse = s.fuse := by
  refine ⟨?_, ?_⟩ <;> (unfold State.copiesUnread; all_goals (try dsimp only); all_goals (repeat' split); all_goals simp_all)

@[simp] theorem State.chooseFlash_keep (s : State) (nvmOk : Bool) (ok none_ : Nat) : (State.chooseFlash s nvmOk ok none_).pending = s.pending ∧ (State.chooseFlash s nvmOk ok none_).fuse = s.fuse := by
  refine ⟨?_, ?_⟩ <;> (unfold State.chooseFlash; all_goals (try dsimp only); all_goals (repeat' split); all_goals simp_all)

@[simp] theorem State.showNvm_keep (s : State) : (State.showNvm s).pending = s.pending ∧ (State.showNvm s).fuse = s.fuse := by
  refine ⟨?_, ?_⟩ <;> (unfold State.showNvm; all_goals (try dsimp only); all_goals (repeat' split); all_goals simp_all)

@[simp] theorem execConfigurationChoice_keep (nvmOk : Bool) (s : State) : s.kept (execConfigurationChoice nvmOk s) := by
  unfold execConfigurationChoice; all_goals (try dsimp only); all_goals (repeat' split); all_goals simp_all

@[simp] theorem State.reload_keep (s : State) : (State.reload s).pending = s.pending ∧ (State.reload s).fuse = s.fuse := by
  refine ⟨?_, ?_⟩ <;> (unfold State.reload; all_goals (try dsimp only); all_goals (repeat' split); all_goals simp_all)

@[simp] theorem State.fabricAsk_keep (s : State) (p : Nat) : (State.fabricAsk s p).pending = s.pending ∧ (State.fabricAsk s p).fuse = s.fuse := by
  refine ⟨?_, ?_⟩ <;> (unfold State.fabricAsk; all_goals (try dsimp only); all_goals (repeat' split); all_goals simp_all)

@[simp] theorem execFabricConfigRequest_keep (images : List (Nat × List Byte)) (s : State) : s.kept (execFabricConfigRequest images s) := by
  unfold execFabricConfigRequest; all_goals (try dsimp only); all_goals (repeat' split); all_goals simp_all

@[simp] theorem execFabricConfigTimeout_keep (nvmOk : Bool) (s : State) : s.kept (execFabricConfigTimeout nvmOk s) := by
  unfold execFabricConfigTimeout; all_goals (try dsimp only); all_goals (repeat' split); all_goals simp_all

@[simp] theorem State.chooseFirmware_keep (s : State) (nvmOk : Bool) : (State.chooseFirmware s nvmOk).1.pending = s.pending ∧ (State.chooseFirmware s nvmOk).1.fuse = s.fuse := by
  refine ⟨?_, ?_⟩ <;> (unfold State.chooseFirmware; all_goals (try dsimp only); all_goals (repeat' split); all_goals simp_all)

@[simp] theorem execFirmwareEntry_keep (nvmOk : Bool) (s : State) : s.kept (execFirmwareEntry nvmOk s) := by
  unfold execFirmwareEntry; all_goals (try dsimp only); all_goals (repeat' split); all_goals simp_all

@[simp] theorem execWatchdogExpiry_keep (also : List Nat) (s : State) : s.kept (execWatchdogExpiry also s) := by
  unfold execWatchdogExpiry; all_goals (try dsimp only); all_goals (repeat' split); all_goals simp_all

@[simp] theorem State.writeWdog_keep (s : State) (agent : Agent) (v : Word) : (State.writeWdog s agent v).pending = s.pending ∧ (State.writeWdog s agent v).fuse = s.fuse := by
  refine ⟨?_, ?_⟩ <;> (unfold State.writeWdog; all_goals (try dsimp only); all_goals (repeat' split); all_goals simp_all)

@[simp] theorem execWdogKick_keep (agent : Agent) (value : Word) (s : State) : s.kept (execWdogKick agent value s) := by
  unfold execWdogKick; all_goals (try dsimp only); all_goals (repeat' split); all_goals simp_all

@[simp] theorem State.confirm_pending (s : State) (nvmOk : Bool) : (State.confirm s nvmOk).pending = s.pending := by
  unfold State.confirm; (try dsimp only); (repeat' split) <;> simp

/-- Confirming health leaves the fuses alone or blows those the confirmed firmware names. -/
theorem State.confirm_fuse (s : State) (nvmOk : Bool) :
    (State.confirm s nvmOk).fuse = s.fuse ∨ ∃ u, (State.confirm s nvmOk).fuse = s.fuse.confirm u := by
  unfold State.confirm; (try dsimp only)
  split
  · rename_i u hu
    split
    · exact Or.inr ⟨u, by simp⟩
    · exact Or.inl (by simp)
  · exact Or.inl (by simp)

/-- HEALTH_CONFIRM keeps the queue, and the fuses but for those a confirmation blows. -/
theorem execHealthConfirm_keep (agent : Agent) (value : Word) (nvmOk : Bool) (s : State) :
    ∃ t, execHealthConfirm agent value nvmOk s = .next t ∧ t.pending = s.pending ∧ (t.fuse = s.fuse ∨ ∃ u, t.fuse = s.fuse.confirm u) := by
  unfold execHealthConfirm
  split
  · exact ⟨_, rfl, by simp, s.confirm_fuse nvmOk⟩
  · exact ⟨_, rfl, rfl, Or.inl rfl⟩

@[simp] theorem execOtherSlotCheck_keep (s : State) : s.kept (execOtherSlotCheck s) := by
  unfold execOtherSlotCheck; all_goals (try dsimp only); all_goals (repeat' split); all_goals simp_all

@[simp] theorem State.writeRstCtrl_keep (s : State) (agent : Agent) (v : Word) (also : List Nat) : (State.writeRstCtrl s agent v also).pending = s.pending ∧ (State.writeRstCtrl s agent v also).fuse = s.fuse := by
  refine ⟨?_, ?_⟩ <;> (unfold State.writeRstCtrl; all_goals (try dsimp only); all_goals (repeat' split); all_goals simp_all)

@[simp] theorem execRstCtrlReset_keep (agent : Agent) (value : Word) (also : List Nat) (s : State) : s.kept (execRstCtrlReset agent value also s) := by
  unfold execRstCtrlReset; all_goals (try dsimp only); all_goals (repeat' split); all_goals simp_all

@[simp] theorem State.belayExit_keep (s : State) (nvmOk : Bool) : (State.belayExit s nvmOk).1.pending = s.pending ∧ (State.belayExit s nvmOk).1.fuse = s.fuse := by
  refine ⟨?_, ?_⟩ <;> (unfold State.belayExit; all_goals (try dsimp only); all_goals (repeat' split); all_goals simp_all)

@[simp] theorem execFatalError_keep (causes : List (Nat × Nat)) (recorded : Bool) (s : State) : s.kept (execFatalError causes recorded s) := by
  unfold execFatalError; all_goals (try dsimp only); all_goals (repeat' split); all_goals simp_all

@[simp] theorem execFatalRecordTimeout_keep (s : State) : s.kept (execFatalRecordTimeout s) := by
  unfold execFatalRecordTimeout; all_goals (try dsimp only); all_goals (repeat' split); all_goals simp_all

@[simp] theorem execDomainPowerDown_keep (domain : Nat) (s : State) : s.kept (execDomainPowerDown domain s) := by
  unfold execDomainPowerDown; all_goals (try dsimp only); all_goals (repeat' split); all_goals simp_all

@[simp] theorem State.coreFresh_keep (s : State) (d p : Nat) : (State.coreFresh s d p).pending = s.pending ∧ (State.coreFresh s d p).fuse = s.fuse := by
  refine ⟨?_, ?_⟩ <;> (unfold State.coreFresh; all_goals (try dsimp only); all_goals (repeat' split); all_goals simp_all)

@[simp] theorem State.talqFresh_keep (s : State) (q : Nat) : (State.talqFresh s q).pending = s.pending ∧ (State.talqFresh s q).fuse = s.fuse := by
  refine ⟨?_, ?_⟩ <;> (unfold State.talqFresh; all_goals (try dsimp only); all_goals (repeat' split); all_goals simp_all)

@[simp] theorem State.windowFresh_keep (s : State) (a : Nat) (keep : List Nat) : (State.windowFresh s a keep).pending = s.pending ∧ (State.windowFresh s a keep).fuse = s.fuse := by
  refine ⟨?_, ?_⟩ <;> (unfold State.windowFresh; all_goals (try dsimp only); all_goals (repeat' split); all_goals simp_all)

@[simp] theorem State.strandFresh_keep (s : State) (d k : Nat) : (State.strandFresh s d k).pending = s.pending ∧ (State.strandFresh s d k).fuse = s.fuse := by
  refine ⟨?_, ?_⟩ <;> (unfold State.strandFresh; all_goals (try dsimp only); all_goals (repeat' split); all_goals simp_all)

@[simp] theorem State.stackFresh_keep (s : State) (st : Nat) : (State.stackFresh s st).pending = s.pending ∧ (State.stackFresh s st).fuse = s.fuse := by
  refine ⟨?_, ?_⟩ <;> (unfold State.stackFresh; all_goals (try dsimp only); all_goals (repeat' split); all_goals simp_all)

@[simp] theorem State.controlFresh_keep (s : State) (d : Nat) : (State.controlFresh s d).pending = s.pending ∧ (State.controlFresh s d).fuse = s.fuse := by
  refine ⟨?_, ?_⟩ <;> (unfold State.controlFresh; all_goals (try dsimp only); all_goals (repeat' split); all_goals simp_all)

@[simp] theorem State.tdieFresh_keep (s : State) (d k : Nat) : (State.tdieFresh s d k).pending = s.pending ∧ (State.tdieFresh s d k).fuse = s.fuse := by
  refine ⟨?_, ?_⟩ <;> (unfold State.tdieFresh; all_goals (try dsimp only); all_goals (repeat' split); all_goals simp_all)

@[simp] theorem State.clusterFresh_keep (s : State) (k : Nat) : (State.clusterFresh s k).pending = s.pending ∧ (State.clusterFresh s k).fuse = s.fuse := by
  refine ⟨?_, ?_⟩ <;> (unfold State.clusterFresh; all_goals (try dsimp only); all_goals (repeat' split); all_goals simp_all)

@[simp] theorem State.serviceFresh_keep (s : State) : (State.serviceFresh s).pending = s.pending ∧ (State.serviceFresh s).fuse = s.fuse := by
  refine ⟨?_, ?_⟩ <;> (unfold State.serviceFresh; all_goals (try dsimp only); all_goals (repeat' split); all_goals simp_all)

@[simp] theorem State.rseFresh_keep (s : State) : (State.rseFresh s).pending = s.pending ∧ (State.rseFresh s).fuse = s.fuse := by
  refine ⟨?_, ?_⟩ <;> (unfold State.rseFresh; all_goals (try dsimp only); all_goals (repeat' split); all_goals simp_all)

@[simp] theorem State.chansFresh_keep (s : State) (k : Nat) : (State.chansFresh s k).pending = s.pending ∧ (State.chansFresh s k).fuse = s.fuse := by
  refine ⟨?_, ?_⟩ <;> (unfold State.chansFresh; all_goals (try dsimp only); all_goals (repeat' split); all_goals simp_all)

@[simp] theorem State.halyardFresh_keep (s : State) : (State.halyardFresh s).pending = s.pending ∧ (State.halyardFresh s).fuse = s.fuse := by
  refine ⟨?_, ?_⟩ <;> (unfold State.halyardFresh; all_goals (try dsimp only); all_goals (repeat' split); all_goals simp_all)

@[simp] theorem State.pdieFresh_keep (s : State) (n : Nat) : (State.pdieFresh s n).pending = s.pending ∧ (State.pdieFresh s n).fuse = s.fuse := by
  refine ⟨?_, ?_⟩ <;> (unfold State.pdieFresh; all_goals (try dsimp only); all_goals (repeat' split); all_goals simp_all)

@[simp] theorem State.portFresh_keep (s : State) (p : Nat) : (State.portFresh s p).pending = s.pending ∧ (State.portFresh s p).fuse = s.fuse := by
  refine ⟨?_, ?_⟩ <;> (unfold State.portFresh; all_goals (try dsimp only); all_goals (repeat' split); all_goals simp_all)

@[simp] theorem State.fdieFresh_keep (s : State) (n : Nat) : (State.fdieFresh s n).pending = s.pending ∧ (State.fdieFresh s n).fuse = s.fuse := by
  refine ⟨?_, ?_⟩ <;> (unfold State.fdieFresh; all_goals (try dsimp only); all_goals (repeat' split); all_goals simp_all)

@[simp] theorem State.unitFresh_keep (s : State) (n : Nat) : (State.unitFresh s n).pending = s.pending ∧ (State.unitFresh s n).fuse = s.fuse := by
  refine ⟨?_, ?_⟩ <;> (unfold State.unitFresh; all_goals (try dsimp only); all_goals (repeat' split); all_goals simp_all)

@[simp] theorem execDomainPowerUp_keep (domain : Nat) (s : State) : s.kept (execDomainPowerUp domain s) := by
  unfold execDomainPowerUp; all_goals (try dsimp only); all_goals (repeat' split); all_goals simp_all

end Sys2Proof.Machine
end

