-- ==== Sys2Proof/Laws/KeepVecOps.lean ====
section
/-! SUPPORT. No operation of Machine/VecOps.lean touches the queue of commands or the fuses. -/

set_option linter.unusedTactic false
set_option linter.unreachableTactic false
set_option linter.unnecessarySeqFocus false

namespace Sys2Proof.Machine

@[simp] theorem State.tPut_keep (s : State) (c t r b : Nat) (l : List Byte) : (State.tPut s c t r b l).pending = s.pending ∧ (State.tPut s c t r b l).fuse = s.fuse := by
  refine ⟨?_, ?_⟩ <;> (unfold State.tPut; all_goals (try dsimp only); all_goals (repeat' split); all_goals simp_all)

@[simp] theorem State.setMask_keep (s : State) (c m v : Nat) : (State.setMask s c m v).pending = s.pending ∧ (State.setMask s c m v).fuse = s.fuse := by
  refine ⟨?_, ?_⟩ <;> (unfold State.setMask; all_goals (try dsimp only); all_goals (repeat' split); all_goals simp_all)

@[simp] theorem State.vWrite_keep (s : State) (c td w : Nat) (x0 : List VRes) : (State.vWrite s c td w x0).pending = s.pending ∧ (State.vWrite s c td w x0).fuse = s.fuse := by
  induction x0 generalizing s c td w with
  | nil => simp [State.vWrite]
  | cons a r ih => refine ⟨?_, ?_⟩ <;> (unfold State.vWrite; all_goals (try dsimp only); all_goals (repeat' split); all_goals simp_all)

@[simp] theorem State.rowsFresh_keep (s : State) (c td : Nat) (masked : Bool) : (State.rowsFresh s c td masked).pending = s.pending ∧ (State.rowsFresh s c td masked).fuse = s.fuse := by
  refine ⟨?_, ?_⟩ <;> (unfold State.rowsFresh; all_goals (try dsimp only); all_goals (repeat' split); all_goals simp_all)

@[simp] theorem State.vRecord_keep (s : State) (c seq : Nat) (l : List VRes) : (State.vRecord s c seq l).pending = s.pending ∧ (State.vRecord s c seq l).fuse = s.fuse := by
  refine ⟨?_, ?_⟩ <;> (unfold State.vRecord; all_goals (try dsimp only); all_goals (repeat' split); all_goals simp_all)

@[simp] theorem State.vector_keep (s : State) (c cls op : Nat) (r : Rest) (legal : Bool) (check : State → Option IssueFault) (foot reads : State → List Range) (rows : State → List (Nat × Nat)) (body : State → State × List VRes) (h_body : ∀ (y0 : State), (body y0).1.pending = y0.pending ∧ (body y0).1.fuse = y0.fuse) : (State.vector s c cls op r legal check foot reads rows body).pending = s.pending ∧ (State.vector s c cls op r legal check foot reads rows body).fuse = s.fuse := by
  unfold State.vector
  refine State.engine_keep _ _ _ _ _ _ _ fun t => ?_
  refine ⟨?_, ?_⟩ <;> ((try dsimp only); (repeat' split) <;> simp_all)

@[simp] theorem State.vecRegs_keep (s : State) (c cls op : Nat) (r : Rest) (legal : Bool) (rows : State → List (Nat × Nat)) (body : State → State × List VRes) (h_body : ∀ (y0 : State), (body y0).1.pending = y0.pending ∧ (body y0).1.fuse = y0.fuse) : (State.vecRegs s c cls op r legal rows body).pending = s.pending ∧ (State.vecRegs s c cls op r legal rows body).fuse = s.fuse := by
  refine ⟨?_, ?_⟩ <;> (unfold State.vecRegs; all_goals (try dsimp only); all_goals (repeat' split); all_goals simp_all)

@[simp] theorem State.vMap_keep (s : State) (c : Nat) (r : Rest) (f : Nat) (g : Nat → Nat → Nat × Nat × Nat) : (State.vMap s c r f g).1.pending = s.pending ∧ (State.vMap s c r f g).1.fuse = s.fuse := by
  refine ⟨?_, ?_⟩ <;> (unfold State.vMap; all_goals (try dsimp only); all_goals (repeat' split); all_goals simp_all)

@[simp] theorem State.tsWriteRuns_keep (s : State) (c o : Nat) (run : List Byte) (x0 : List (Option Byte)) : (State.tsWriteRuns s c o run x0).pending = s.pending ∧ (State.tsWriteRuns s c o run x0).fuse = s.fuse := by
  induction x0 generalizing s c o run with
  | nil => simp [State.tsWriteRuns]
  | cons a r ih => refine ⟨?_, ?_⟩ <;> (unfold State.tsWriteRuns; all_goals (try dsimp only); all_goals (repeat' split); all_goals simp_all)

end Sys2Proof.Machine
end

