-- ==== Sys2Proof/Laws/KeepVector.lean ====
section
/-! SUPPORT. No operation of Machine/Vector.lean touches the queue of commands or the fuses. -/

set_option linter.unusedTactic false
set_option linter.unreachableTactic false
set_option linter.unnecessarySeqFocus false

namespace Sys2Proof.Machine

@[simp] theorem State.vBinary_keep (s : State) (c op : Nat) (r : Rest) (legal : Bool) (g : State → Nat → Nat → Nat → Nat × Nat × Nat) : (State.vBinary s c op r legal g).pending = s.pending ∧ (State.vBinary s c op r legal g).fuse = s.fuse := by
  refine ⟨?_, ?_⟩ <;> (unfold State.vBinary; all_goals (try dsimp only); all_goals (repeat' split); all_goals simp_all)

@[simp] theorem State.vArith_keep (s : State) (c op : Nat) (r : Rest) (fl : Num → Num → Num × Nat) (int : Int → Int → Int) : (State.vArith s c op r fl int).pending = s.pending ∧ (State.vArith s c op r fl int).fuse = s.fuse := by
  refine ⟨?_, ?_⟩ <;> (unfold State.vArith; all_goals (try dsimp only); all_goals (repeat' split); all_goals simp_all)

@[simp] theorem execVadd_keep (core : Nat) (rest : Rest) (s : State) : s.kept (execVadd core rest s) := by
  unfold execVadd; all_goals (try dsimp only); all_goals (repeat' split); all_goals simp_all

@[simp] theorem execVsub_keep (core : Nat) (rest : Rest) (s : State) : s.kept (execVsub core rest s) := by
  unfold execVsub; all_goals (try dsimp only); all_goals (repeat' split); all_goals simp_all

@[simp] theorem execVmul_keep (core : Nat) (rest : Rest) (s : State) : s.kept (execVmul core rest s) := by
  unfold execVmul; all_goals (try dsimp only); all_goals (repeat' split); all_goals simp_all

@[simp] theorem State.vFused_keep (s : State) (c op : Nat) (r : Rest) (neg : Bool) : (State.vFused s c op r neg).pending = s.pending ∧ (State.vFused s c op r neg).fuse = s.fuse := by
  refine ⟨?_, ?_⟩ <;> (unfold State.vFused; all_goals (try dsimp only); all_goals (repeat' split); all_goals simp_all)

@[simp] theorem execVfma_keep (core : Nat) (rest : Rest) (s : State) : s.kept (execVfma core rest s) := by
  unfold execVfma; all_goals (try dsimp only); all_goals (repeat' split); all_goals simp_all

@[simp] theorem execVfnma_keep (core : Nat) (rest : Rest) (s : State) : s.kept (execVfnma core rest s) := by
  unfold execVfnma; all_goals (try dsimp only); all_goals (repeat' split); all_goals simp_all

@[simp] theorem State.vMinMax_keep (s : State) (c op : Nat) (r : Rest) (max : Bool) : (State.vMinMax s c op r max).pending = s.pending ∧ (State.vMinMax s c op r max).fuse = s.fuse := by
  refine ⟨?_, ?_⟩ <;> (unfold State.vMinMax; all_goals (try dsimp only); all_goals (repeat' split); all_goals simp_all)

@[simp] theorem execVmin_keep (core : Nat) (rest : Rest) (s : State) : s.kept (execVmin core rest s) := by
  unfold execVmin; all_goals (try dsimp only); all_goals (repeat' split); all_goals simp_all

@[simp] theorem execVmax_keep (core : Nat) (rest : Rest) (s : State) : s.kept (execVmax core rest s) := by
  unfold execVmax; all_goals (try dsimp only); all_goals (repeat' split); all_goals simp_all

@[simp] theorem State.vUnary_keep (s : State) (c op : Nat) (r : Rest) (g : Nat → Nat × Nat × Nat) : (State.vUnary s c op r g).pending = s.pending ∧ (State.vUnary s c op r g).fuse = s.fuse := by
  refine ⟨?_, ?_⟩ <;> (unfold State.vUnary; all_goals (try dsimp only); all_goals (repeat' split); all_goals simp_all)

@[simp] theorem execVabs_keep (core : Nat) (rest : Rest) (s : State) : s.kept (execVabs core rest s) := by
  unfold execVabs; all_goals (try dsimp only); all_goals (repeat' split); all_goals simp_all

@[simp] theorem execVneg_keep (core : Nat) (rest : Rest) (s : State) : s.kept (execVneg core rest s) := by
  unfold execVneg; all_goals (try dsimp only); all_goals (repeat' split); all_goals simp_all

@[simp] theorem State.vLogic_keep (s : State) (c op : Nat) (r : Rest) (g : Nat → Nat → Nat → Nat) : (State.vLogic s c op r g).pending = s.pending ∧ (State.vLogic s c op r g).fuse = s.fuse := by
  refine ⟨?_, ?_⟩ <;> (unfold State.vLogic; all_goals (try dsimp only); all_goals (repeat' split); all_goals simp_all)

@[simp] theorem execVand_keep (core : Nat) (rest : Rest) (s : State) : s.kept (execVand core rest s) := by
  unfold execVand; all_goals (try dsimp only); all_goals (repeat' split); all_goals simp_all

@[simp] theorem execVor_keep (core : Nat) (rest : Rest) (s : State) : s.kept (execVor core rest s) := by
  unfold execVor; all_goals (try dsimp only); all_goals (repeat' split); all_goals simp_all

@[simp] theorem execVxor_keep (core : Nat) (rest : Rest) (s : State) : s.kept (execVxor core rest s) := by
  unfold execVxor; all_goals (try dsimp only); all_goals (repeat' split); all_goals simp_all

@[simp] theorem execVsll_keep (core : Nat) (rest : Rest) (s : State) : s.kept (execVsll core rest s) := by
  unfold execVsll; all_goals (try dsimp only); all_goals (repeat' split); all_goals simp_all

@[simp] theorem execVsrl_keep (core : Nat) (rest : Rest) (s : State) : s.kept (execVsrl core rest s) := by
  unfold execVsrl; all_goals (try dsimp only); all_goals (repeat' split); all_goals simp_all

@[simp] theorem execVsra_keep (core : Nat) (rest : Rest) (s : State) : s.kept (execVsra core rest s) := by
  unfold execVsra; all_goals (try dsimp only); all_goals (repeat' split); all_goals simp_all

@[simp] theorem execVred_keep (core : Nat) (rest : Rest) (s : State) : s.kept (execVred core rest s) := by
  unfold execVred; all_goals (try dsimp only); all_goals (repeat' split); all_goals simp_all

@[simp] theorem State.vcmpBody_keep (s : State) (core : Nat) (rest : Rest) : (State.vcmpBody s core rest).1.pending = s.pending ∧ (State.vcmpBody s core rest).1.fuse = s.fuse := by
  refine ⟨?_, ?_⟩ <;> (unfold State.vcmpBody; all_goals (try dsimp only); all_goals (repeat' split); all_goals simp_all)

@[simp] theorem execVcmp_keep (core : Nat) (rest : Rest) (s : State) : s.kept (execVcmp core rest s) := by
  unfold execVcmp; all_goals (try dsimp only); all_goals (repeat' split); all_goals simp_all

@[simp] theorem execVsel_keep (core : Nat) (rest : Rest) (s : State) : s.kept (execVsel core rest s) := by
  unfold execVsel; all_goals (try dsimp only); all_goals (repeat' split); all_goals simp_all

@[simp] theorem State.vMove_keep (s : State) (c op : Nat) (r : Rest) (legal : Bool) (rows : State → List (Nat × Nat)) (g : State → Nat → Nat → Nat) : (State.vMove s c op r legal rows g).pending = s.pending ∧ (State.vMove s c op r legal rows g).fuse = s.fuse := by
  refine ⟨?_, ?_⟩ <;> (unfold State.vMove; all_goals (try dsimp only); all_goals (repeat' split); all_goals simp_all)

@[simp] theorem execVmov_keep (core : Nat) (rest : Rest) (s : State) : s.kept (execVmov core rest s) := by
  unfold execVmov; all_goals (try dsimp only); all_goals (repeat' split); all_goals simp_all

@[simp] theorem execVsplat_keep (core : Nat) (rest : Rest) (s : State) : s.kept (execVsplat core rest s) := by
  unfold execVsplat; all_goals (try dsimp only); all_goals (repeat' split); all_goals simp_all

@[simp] theorem execViota_keep (core : Nat) (rest : Rest) (s : State) : s.kept (execViota core rest s) := by
  unfold execViota; all_goals (try dsimp only); all_goals (repeat' split); all_goals simp_all

@[simp] theorem execVrot_keep (core : Nat) (rest : Rest) (s : State) : s.kept (execVrot core rest s) := by
  unfold execVrot; all_goals (try dsimp only); all_goals (repeat' split); all_goals simp_all

@[simp] theorem State.vMaskOp_keep (s : State) (c op : Nat) (r : Rest) (used : List VUse) (legal : Bool) (regs : List Nat) (g : State → Nat) : (State.vMaskOp s c op r used legal regs g).pending = s.pending ∧ (State.vMaskOp s c op r used legal regs g).fuse = s.fuse := by
  refine ⟨?_, ?_⟩ <;> (unfold State.vMaskOp; all_goals (try dsimp only); all_goals (repeat' split); all_goals simp_all)

@[simp] theorem State.vMask2_keep (s : State) (c op : Nat) (r : Rest) (g : Nat → Nat → Nat) : (State.vMask2 s c op r g).pending = s.pending ∧ (State.vMask2 s c op r g).fuse = s.fuse := by
  refine ⟨?_, ?_⟩ <;> (unfold State.vMask2; all_goals (try dsimp only); all_goals (repeat' split); all_goals simp_all)

@[simp] theorem execVmand_keep (core : Nat) (rest : Rest) (s : State) : s.kept (execVmand core rest s) := by
  unfold execVmand; all_goals (try dsimp only); all_goals (repeat' split); all_goals simp_all

@[simp] theorem execVmor_keep (core : Nat) (rest : Rest) (s : State) : s.kept (execVmor core rest s) := by
  unfold execVmor; all_goals (try dsimp only); all_goals (repeat' split); all_goals simp_all

@[simp] theorem execVmxor_keep (core : Nat) (rest : Rest) (s : State) : s.kept (execVmxor core rest s) := by
  unfold execVmxor; all_goals (try dsimp only); all_goals (repeat' split); all_goals simp_all

@[simp] theorem execVmandn_keep (core : Nat) (rest : Rest) (s : State) : s.kept (execVmandn core rest s) := by
  unfold execVmandn; all_goals (try dsimp only); all_goals (repeat' split); all_goals simp_all

@[simp] theorem execVmset_keep (core : Nat) (rest : Rest) (s : State) : s.kept (execVmset core rest s) := by
  unfold execVmset; all_goals (try dsimp only); all_goals (repeat' split); all_goals simp_all

@[simp] theorem execVmnot_keep (core : Nat) (rest : Rest) (s : State) : s.kept (execVmnot core rest s) := by
  unfold execVmnot; all_goals (try dsimp only); all_goals (repeat' split); all_goals simp_all

@[simp] theorem State.vcvtBody_keep (s : State) (core : Nat) (rest : Rest) : (State.vcvtBody s core rest).1.pending = s.pending ∧ (State.vcvtBody s core rest).1.fuse = s.fuse := by
  refine ⟨?_, ?_⟩ <;> (unfold State.vcvtBody; all_goals (try dsimp only); all_goals (repeat' split); all_goals simp_all)

@[simp] theorem execVcvt_keep (core : Nat) (rest : Rest) (s : State) : s.kept (execVcvt core rest s) := by
  unfold execVcvt; all_goals (try dsimp only); all_goals (repeat' split); all_goals simp_all

@[simp] theorem State.vpackBody_keep (s : State) (core : Nat) (rest : Rest) : (State.vpackBody s core rest).1.pending = s.pending ∧ (State.vpackBody s core rest).1.fuse = s.fuse := by
  refine ⟨?_, ?_⟩ <;> (unfold State.vpackBody; all_goals (try dsimp only); all_goals (repeat' split); all_goals simp_all)

@[simp] theorem execVpack_keep (core : Nat) (rest : Rest) (s : State) : s.kept (execVpack core rest s) := by
  unfold execVpack; all_goals (try dsimp only); all_goals (repeat' split); all_goals simp_all

@[simp] theorem execVunpack_keep (core : Nat) (rest : Rest) (s : State) : s.kept (execVunpack core rest s) := by
  unfold execVunpack; all_goals (try dsimp only); all_goals (repeat' split); all_goals simp_all

@[simp] theorem State.vSeed_keep (s : State) (c op : Nat) (r : Rest) : (State.vSeed s c op r).pending = s.pending ∧ (State.vSeed s c op r).fuse = s.fuse := by
  refine ⟨?_, ?_⟩ <;> (unfold State.vSeed; all_goals (try dsimp only); all_goals (repeat' split); all_goals simp_all)

@[simp] theorem execRcps_keep (core : Nat) (rest : Rest) (s : State) : s.kept (execRcps core rest s) := by
  unfold execRcps; all_goals (try dsimp only); all_goals (repeat' split); all_goals simp_all

@[simp] theorem execRsqs_keep (core : Nat) (rest : Rest) (s : State) : s.kept (execRsqs core rest s) := by
  unfold execRsqs; all_goals (try dsimp only); all_goals (repeat' split); all_goals simp_all

@[simp] theorem execExp2s_keep (core : Nat) (rest : Rest) (s : State) : s.kept (execExp2s core rest s) := by
  unfold execExp2s; all_goals (try dsimp only); all_goals (repeat' split); all_goals simp_all

@[simp] theorem execVrand_keep (core : Nat) (rest : Rest) (s : State) : s.kept (execVrand core rest s) := by
  unfold execVrand; all_goals (try dsimp only); all_goals (repeat' split); all_goals simp_all

@[simp] theorem State.vRows_keep (s : State) (c op : Nat) (r : Rest) (legal : Bool) (n : Nat) (reads : State → List Range) (rows : State → List (Nat × Nat)) (body : State → State × List VRes) (h_body : ∀ (y0 : State), (body y0).1.pending = y0.pending ∧ (body y0).1.fuse = y0.fuse) : (State.vRows s c op r legal n reads rows body).pending = s.pending ∧ (State.vRows s c op r legal n reads rows body).fuse = s.fuse := by
  refine ⟨?_, ?_⟩ <;> (unfold State.vRows; all_goals (try dsimp only); all_goals (repeat' split); all_goals simp_all)

@[simp] theorem execVld_keep (core : Nat) (rest : Rest) (s : State) : s.kept (execVld core rest s) := by
  unfold execVld; all_goals (try dsimp only); all_goals (repeat' split); all_goals simp_all

@[simp] theorem State.vStoreRows_keep (s : State) (c a str n : Nat) (act : Nat → Nat → Bool) (w : Nat) (code : Nat → Nat → Nat) : (State.vStoreRows s c a str n act w code).pending = s.pending ∧ (State.vStoreRows s c a str n act w code).fuse = s.fuse := by
  refine ⟨?_, ?_⟩ <;> (unfold State.vStoreRows; all_goals (try dsimp only); all_goals (repeat' split); all_goals simp_all)

@[simp] theorem State.vstBody_keep (s : State) (core : Nat) (rest : Rest) : (State.vstBody s core rest).1.pending = s.pending ∧ (State.vstBody s core rest).1.fuse = s.fuse := by
  refine ⟨?_, ?_⟩ <;> (unfold State.vstBody; all_goals (try dsimp only); all_goals (repeat' split); all_goals simp_all)

@[simp] theorem execVst_keep (core : Nat) (rest : Rest) (s : State) : s.kept (execVst core rest s) := by
  unfold execVst; all_goals (try dsimp only); all_goals (repeat' split); all_goals simp_all

@[simp] theorem State.vstcBody_keep (s : State) (core : Nat) (rest : Rest) : (State.vstcBody s core rest).1.pending = s.pending ∧ (State.vstcBody s core rest).1.fuse = s.fuse := by
  refine ⟨?_, ?_⟩ <;> (unfold State.vstcBody; all_goals (try dsimp only); all_goals (repeat' split); all_goals simp_all)

@[simp] theorem execVstc_keep (core : Nat) (rest : Rest) (s : State) : s.kept (execVstc core rest s) := by
  unfold execVstc; all_goals (try dsimp only); all_goals (repeat' split); all_goals simp_all

@[simp] theorem execVmld_keep (core : Nat) (rest : Rest) (s : State) : s.kept (execVmld core rest s) := by
  unfold execVmld; all_goals (try dsimp only); all_goals (repeat' split); all_goals simp_all

@[simp] theorem execVmst_keep (core : Nat) (rest : Rest) (s : State) : s.kept (execVmst core rest s) := by
  unfold execVmst; all_goals (try dsimp only); all_goals (repeat' split); all_goals simp_all

@[simp] theorem State.veClearFlags_keep (s : State) (w : Nat) : (State.veClearFlags s w).pending = s.pending ∧ (State.veClearFlags s w).fuse = s.fuse := by
  refine ⟨?_, ?_⟩ <;> (unfold State.veClearFlags; all_goals (try dsimp only); all_goals (repeat' split); all_goals simp_all)

@[simp] theorem State.veClearExc_keep (s : State) (w : Nat) : (State.veClearExc s w).pending = s.pending ∧ (State.veClearExc s w).fuse = s.fuse := by
  refine ⟨?_, ?_⟩ <;> (unfold State.veClearExc; all_goals (try dsimp only); all_goals (repeat' split); all_goals simp_all)

@[simp] theorem State.veClearHist_keep (s : State) (w : Nat) : (State.veClearHist s w).pending = s.pending ∧ (State.veClearHist s w).fuse = s.fuse := by
  refine ⟨?_, ?_⟩ <;> (unfold State.veClearHist; all_goals (try dsimp only); all_goals (repeat' split); all_goals simp_all)

@[simp] theorem State.vhrecBody_keep (s : State) (core : Nat) (rest : Rest) : (State.vhrecBody s core rest).1.pending = s.pending ∧ (State.vhrecBody s core rest).1.fuse = s.fuse := by
  refine ⟨?_, ?_⟩ <;> (unfold State.vhrecBody; all_goals (try dsimp only); all_goals (repeat' split); all_goals simp_all)

@[simp] theorem execVhrec_keep (core : Nat) (rest : Rest) (s : State) : s.kept (execVhrec core rest s) := by
  unfold execVhrec; all_goals (try dsimp only); all_goals (repeat' split); all_goals simp_all

@[simp] theorem execVeClearFlags_keep (agent : Agent) (die phys : Nat) (s : State) : s.kept (execVeClearFlags agent die phys s) := by
  unfold execVeClearFlags; all_goals (try dsimp only); all_goals (repeat' split); all_goals simp_all

@[simp] theorem execVeClearExc_keep (agent : Agent) (die phys : Nat) (s : State) : s.kept (execVeClearExc agent die phys s) := by
  unfold execVeClearExc; all_goals (try dsimp only); all_goals (repeat' split); all_goals simp_all

@[simp] theorem execVeClearHist_keep (agent : Agent) (die phys : Nat) (s : State) : s.kept (execVeClearHist agent die phys s) := by
  unfold execVeClearHist; all_goals (try dsimp only); all_goals (repeat' split); all_goals simp_all

end Sys2Proof.Machine
end

