-- ==== Sys2Proof/Laws/KeepRegWrite.lean ====
section
/-! SUPPORT. No operation of Machine/RegWrite.lean touches the queue of commands or the fuses. -/

set_option linter.unusedTactic false
set_option linter.unreachableTactic false
set_option linter.unnecessarySeqFocus false

namespace Sys2Proof.Machine

@[simp] theorem State.after_pending (s : State) (o : Host.Outcome State Fault Refusal) (h : s.kept o) : (s.after o).pending = s.pending := by
  cases o with
  | next t => exact h.1
  | fault f => rfl
  | refused r => rfl

@[simp] theorem State.after_fuse (s : State) (o : Host.Outcome State Fault Refusal) (h : s.kept o) : (s.after o).fuse = s.fuse := by
  cases o with
  | next t => exact h.2
  | fault f => rfl
  | refused r => rfl

@[simp] theorem State.coded_keep (s : State) (a : Nat) (v : Word) : (State.coded s a v).pending = s.pending ∧ (State.coded s a v).fuse = s.fuse := by
  refine ⟨?_, ?_⟩ <;> (unfold State.coded; all_goals (try dsimp only); all_goals (repeat' split); all_goals simp_all)

@[simp] theorem State.codedPriv_keep (s : State) (agent : Agent) (a : Nat) (v : Word) : (State.codedPriv s agent a v).pending = s.pending ∧ (State.codedPriv s agent a v).fuse = s.fuse := by
  refine ⟨?_, ?_⟩ <;> (unfold State.codedPriv; all_goals (try dsimp only); all_goals (repeat' split); all_goals simp_all)

@[simp] theorem State.codedJoin_keep (s : State) (agent : Agent) (a : Nat) (v : Word) : (State.codedJoin s agent a v).pending = s.pending ∧ (State.codedJoin s agent a v).fuse = s.fuse := by
  refine ⟨?_, ?_⟩ <;> (unfold State.codedJoin; all_goals (try dsimp only); all_goals (repeat' split); all_goals simp_all)

@[simp] theorem State.writeTalq_keep (s : State) (agent : Agent) (q : Nat) (o : Nat) (v : Word) : (State.writeTalq s agent q o v).pending = s.pending ∧ (State.writeTalq s agent q o v).fuse = s.fuse := by
  refine ⟨?_, ?_⟩ <;> (unfold State.writeTalq; all_goals (try dsimp only); all_goals (repeat' split); all_goals simp_all)

@[simp] theorem State.writeMask_keep (s : State) (a : Nat) (v : Word) : (State.writeMask s a v).pending = s.pending ∧ (State.writeMask s a v).fuse = s.fuse := by
  refine ⟨?_, ?_⟩ <;> (unfold State.writeMask; all_goals (try dsimp only); all_goals (repeat' split); all_goals simp_all)

@[simp] theorem State.writeHly_keep (s : State) (agent : Agent) (a : Nat) (v : Word) : (State.writeHly s agent a v).pending = s.pending ∧ (State.writeHly s agent a v).fuse = s.fuse := by
  refine ⟨?_, ?_⟩ <;> (unfold State.writeHly; all_goals (try dsimp only); all_goals (repeat' split); all_goals simp_all)

@[simp] theorem State.writeMbxCtrl_keep (s : State) (v : Word) : (State.writeMbxCtrl s v).pending = s.pending ∧ (State.writeMbxCtrl s v).fuse = s.fuse := by
  refine ⟨?_, ?_⟩ <;> (unfold State.writeMbxCtrl; all_goals (try dsimp only); all_goals (repeat' split); all_goals simp_all)

@[simp] theorem State.writeBwl_pending (s : State) (agent : Agent) (a : Nat) (v : Word) (nvmOk : Bool) :
    (State.writeBwl s agent a v nvmOk).pending = s.pending := by
  unfold State.writeBwl
  split
  · obtain ⟨t, e, h, -⟩ := execHealthConfirm_keep agent v nvmOk s
    rw [e]; exact h
  · (repeat' split) <;> simp

/-- A write of Bowline's block blows no fuse but by a confirmation, which only Bowline gives. -/
theorem State.writeBwl_fuse (s : State) (agent : Agent) (a : Nat) (v : Word) (nvmOk : Bool) :
    (State.writeBwl s agent a v nvmOk).fuse = s.fuse ∨ ∃ u, (State.writeBwl s agent a v nvmOk).fuse = s.fuse.confirm u := by
  unfold State.writeBwl
  split
  · obtain ⟨t, e, -, h⟩ := execHealthConfirm_keep agent v nvmOk s
    rw [e]; exact h
  · left; (repeat' split) <;> simp

@[simp] theorem State.writeBwl_lanyard (s : State) (a : Nat) (v : Word) (nvmOk : Bool) : (State.writeBwl s .lanyard a v nvmOk).fuse = s.fuse := by
  unfold State.writeBwl
  split
  · unfold execHealthConfirm
    rw [if_neg (by simp)]
    rfl
  · (repeat' split) <;> simp

@[simp] theorem State.trigger_keep (s : State) (f : Field) (v : Word) (op : State → Host.Outcome State Fault Refusal) (h : ∀ t : State, t.kept (op t)) :
    (s.trigger f v op).pending = s.pending ∧ (s.trigger f v op).fuse = s.fuse := by
  unfold State.trigger
  split
  · exact ⟨State.after_pending _ _ (h s), State.after_fuse _ _ (h s)⟩
  · exact ⟨rfl, rfl⟩

@[simp] theorem State.writeCore_keep (s : State) (agent : Agent) (d p o : Nat) (v : Word) : (State.writeCore s agent d p o v).pending = s.pending ∧ (State.writeCore s agent d p o v).fuse = s.fuse := by
  refine ⟨?_, ?_⟩ <;> (unfold State.writeCore; all_goals (try dsimp only); all_goals (repeat' split); all_goals simp_all)

@[simp] theorem State.writeDie_keep (s : State) (agent : Agent) (d o : Nat) (v : Word) : (State.writeDie s agent d o v).pending = s.pending ∧ (State.writeDie s agent d o v).fuse = s.fuse := by
  refine ⟨?_, ?_⟩ <;> (unfold State.writeDie; all_goals (try dsimp only); all_goals (repeat' split); all_goals simp_all)

@[simp] theorem State.writeTdie_keep (s : State) (agent : Agent) (d o : Nat) (v : Word) : (State.writeTdie s agent d o v).pending = s.pending ∧ (State.writeTdie s agent d o v).fuse = s.fuse := by
  refine ⟨?_, ?_⟩ <;> (unfold State.writeTdie; all_goals (try dsimp only); all_goals (repeat' split); all_goals simp_all)

@[simp] theorem State.writeHost_keep (s : State) (agent : Agent) (a : Nat) (v : Word) : (State.writeHost s agent a v).pending = s.pending ∧ (State.writeHost s agent a v).fuse = s.fuse := by
  refine ⟨?_, ?_⟩ <;> (unfold State.writeHost; all_goals (try dsimp only); all_goals (repeat' split); all_goals simp_all)

@[simp] theorem State.writeMem_keep (s : State) (agent : Agent) (a : Nat) (v : Word) : (State.writeMem s agent a v).pending = s.pending ∧ (State.writeMem s agent a v).fuse = s.fuse := by
  refine ⟨?_, ?_⟩ <;> (unfold State.writeMem; all_goals (try dsimp only); all_goals (repeat' split); all_goals simp_all)

@[simp] theorem State.writeRoute_keep (s : State) (n : Nat) (v : Word) : (State.writeRoute s n v).pending = s.pending ∧ (State.writeRoute s n v).fuse = s.fuse := by
  refine ⟨?_, ?_⟩ <;> (unfold State.writeRoute; all_goals (try dsimp only); all_goals (repeat' split); all_goals simp_all)

@[simp] theorem State.writeNode_keep (s : State) (v : Word) : (State.writeNode s v).pending = s.pending ∧ (State.writeNode s v).fuse = s.fuse := by
  refine ⟨?_, ?_⟩ <;> (unfold State.writeNode; all_goals (try dsimp only); all_goals (repeat' split); all_goals simp_all)

@[simp] theorem State.writePart_keep (s : State) (v : Word) : (State.writePart s v).pending = s.pending ∧ (State.writePart s v).fuse = s.fuse := by
  refine ⟨?_, ?_⟩ <;> (unfold State.writePart; all_goals (try dsimp only); all_goals (repeat' split); all_goals simp_all)

@[simp] theorem State.writeHws_keep (s : State) (agent : Agent) (o : Nat) (v : Word) : (State.writeHws s agent o v).pending = s.pending ∧ (State.writeHws s agent o v).fuse = s.fuse := by
  refine ⟨?_, ?_⟩ <;> (unfold State.writeHws; all_goals (try dsimp only); all_goals (repeat' split); all_goals simp_all)

@[simp] theorem State.writePort_keep (s : State) (agent : Agent) (p o : Nat) (v : Word) : (State.writePort s agent p o v).pending = s.pending ∧ (State.writePort s agent p o v).fuse = s.fuse := by
  refine ⟨?_, ?_⟩ <;> (unfold State.writePort; all_goals (try dsimp only); all_goals (repeat' split); all_goals simp_all)

@[simp] theorem State.writeFdie_keep (s : State) (agent : Agent) (f o : Nat) (v : Word) : (State.writeFdie s agent f o v).pending = s.pending ∧ (State.writeFdie s agent f o v).fuse = s.fuse := by
  refine ⟨?_, ?_⟩ <;> (unfold State.writeFdie; all_goals (try dsimp only); all_goals (repeat' split); all_goals simp_all)

@[simp] theorem State.writeCkp_keep (s : State) (agent : Agent) (a : Nat) (v : Word) (man : List Byte) : (State.writeCkp s agent a v man).pending = s.pending ∧ (State.writeCkp s agent a v man).fuse = s.fuse := by
  refine ⟨?_, ?_⟩ <;> (unfold State.writeCkp; all_goals (try dsimp only); all_goals (repeat' split); all_goals simp_all)

@[simp] theorem State.regOther_keep (s : State) (agent : Agent) (a : Nat) (v : Word) (man : List Byte) : (State.regOther s agent a v man).pending = s.pending ∧ (State.regOther s agent a v man).fuse = s.fuse := by
  unfold State.regOther
  refine ⟨?_, ?_⟩ <;> ((try dsimp only); (repeat' split) <;> simp)

@[simp] theorem State.regWrite_pending (s : State) (agent : Agent) (a : Nat) (v : Word) (man : List Byte) (nvmOk : Bool) :
    (State.regWrite s agent a v man nvmOk).pending = s.pending := by
  unfold State.regWrite; (try dsimp only); (repeat' split) <;> simp

/-- A register write blows no fuse but by a confirmation. -/
theorem State.regWrite_fuse (s : State) (agent : Agent) (a : Nat) (v : Word) (man : List Byte) (nvmOk : Bool) :
    (State.regWrite s agent a v man nvmOk).fuse = s.fuse ∨ ∃ u, (State.regWrite s agent a v man nvmOk).fuse = s.fuse.confirm u := by
  unfold State.regWrite
  split
  · exact State.writeBwl_fuse _ _ _ _ _
  · left; simp

@[simp] theorem State.regWrite_lanyard (s : State) (a : Nat) (v : Word) (man : List Byte) (nvmOk : Bool) :
    (State.regWrite s .lanyard a v man nvmOk).fuse = s.fuse := by
  unfold State.regWrite; (try dsimp only); (repeat' split) <;> simp

/-- REGISTER_WRITE keeps the queue, and the fuses but for those a confirmation blows. -/
theorem execRegisterWrite_keep (agent : Agent) (addr : Nat) (value : Word) (man : List Byte) (nvmOk : Bool) (s : State) :
    ∃ t, execRegisterWrite agent addr value man nvmOk s = .next t ∧ t.pending = s.pending ∧ (t.fuse = s.fuse ∨ ∃ u, t.fuse = s.fuse.confirm u) :=
  ⟨_, rfl, by simp, s.regWrite_fuse agent addr value man nvmOk⟩

@[simp] theorem execMailboxGo_keep (agent : Agent) (value : Word) (s : State) : s.kept (execMailboxGo agent value s) := by
  unfold execMailboxGo; all_goals (try dsimp only); all_goals (repeat' split); all_goals simp_all

end Sys2Proof.Machine
end

