-- ==== Sys2Proof/Laws/KeepLanyard.lean ====
section
/-! SUPPORT. No operation of Machine/Lanyard.lean touches the queue of commands or the fuses. -/

set_option linter.unusedTactic false
set_option linter.unreachableTactic false
set_option linter.unnecessarySeqFocus false

namespace Sys2Proof.Machine

@[simp] theorem State.lyTake_keep (s : State) (p : Packet) : (State.lyTake s p).1.pending = s.pending ∧ (State.lyTake s p).1.fuse = s.fuse := by
  refine ⟨?_, ?_⟩ <;> (unfold State.lyTake; all_goals (try dsimp only); all_goals (repeat' split); all_goals simp_all)

@[simp] theorem State.lyPacket_keep (s : State) (p : Packet) (kind : Nat) (k : State → State) (h_k : ∀ (y0 : State), (k y0).pending = y0.pending ∧ (k y0).fuse = y0.fuse) : (State.lyPacket s p kind k).pending = s.pending ∧ (State.lyPacket s p kind k).fuse = s.fuse := by
  refine ⟨?_, ?_⟩ <;> (unfold State.lyPacket; all_goals (try dsimp only); all_goals (repeat' split); all_goals simp_all)

@[simp] theorem State.hello1_keep (s : State) (port : Nat) (p : Packet) : (State.hello1 s port p).pending = s.pending ∧ (State.hello1 s port p).fuse = s.fuse := by
  refine ⟨?_, ?_⟩ <;> (unfold State.hello1; all_goals (try dsimp only); all_goals (repeat' split); all_goals simp_all)

@[simp] theorem execHello1_keep (port : Nat) (p : Packet) (s : State) : s.kept (execHello1 port p s) := by
  unfold execHello1; all_goals (try dsimp only); all_goals (repeat' split); all_goals simp_all

@[simp] theorem State.hello3_keep (s : State) (port : Nat) (p : Packet) : (State.hello3 s port p).pending = s.pending ∧ (State.hello3 s port p).fuse = s.fuse := by
  refine ⟨?_, ?_⟩ <;> (unfold State.hello3; all_goals (try dsimp only); all_goals (repeat' split); all_goals simp_all)

@[simp] theorem execHello3_keep (port : Nat) (p : Packet) (s : State) : s.kept (execHello3 port p s) := by
  unfold execHello3; all_goals (try dsimp only); all_goals (repeat' split); all_goals simp_all

@[simp] theorem State.rateOver_keep (s : State) : (State.rateOver s).1.pending = s.pending ∧ (State.rateOver s).1.fuse = s.fuse := by
  refine ⟨?_, ?_⟩ <;> (unfold State.rateOver; all_goals (try dsimp only); all_goals (repeat' split); all_goals simp_all)

@[simp] theorem State.lyDataIn_keep (s : State) (p : Packet) : (State.lyDataIn s p).pending = s.pending ∧ (State.lyDataIn s p).fuse = s.fuse := by
  refine ⟨?_, ?_⟩ <;> (unfold State.lyDataIn; all_goals (try dsimp only); all_goals (repeat' split); all_goals simp_all)

@[simp] theorem execDataCmd_keep (p : Packet) (s : State) : s.kept (execDataCmd p s) := by
  unfold execDataCmd; all_goals (try dsimp only); all_goals (repeat' split); all_goals simp_all

@[simp] theorem execCloseCmd_keep (p : Packet) (s : State) : s.kept (execCloseCmd p s) := by
  unfold execCloseCmd; all_goals (try dsimp only); all_goals (repeat' split); all_goals simp_all

@[simp] theorem execFreset_keep (p : Packet) (s : State) : s.kept (execFreset p s) := by
  unfold execFreset; all_goals (try dsimp only); all_goals (repeat' split); all_goals simp_all

@[simp] theorem execSessionTimeout_keep (session : Nat) (s : State) : s.kept (execSessionTimeout session s) := by
  unfold execSessionTimeout; all_goals (try dsimp only); all_goals (repeat' split); all_goals simp_all

@[simp] theorem execCommandProgressTimeout_keep (via : Option Nat) (req : Nat) (s : State) : s.kept (execCommandProgressTimeout via req s) := by
  unfold execCommandProgressTimeout; all_goals (try dsimp only); all_goals (repeat' split); all_goals simp_all

@[simp] theorem execGetInfo_keep (s : State) : s.kept (execGetInfo s) := by
  unfold execGetInfo; all_goals (try dsimp only); all_goals (repeat' split); all_goals simp_all

@[simp] theorem State.lyRegs_keep (s : State) (a : Nat) (pcie : List Word) (x0 : Nat) : (State.lyRegs s a pcie x0).1.pending = s.pending ∧ (State.lyRegs s a pcie x0).1.fuse = s.fuse := by
  induction x0 generalizing s a pcie with
  | zero => simp [State.lyRegs]
  | succ k ih => refine ⟨?_, ?_⟩ <;> (unfold State.lyRegs; all_goals (try dsimp only); all_goals (repeat' split); all_goals simp_all)

@[simp] theorem execRegRead_keep (pcie : List Word) (s : State) : s.kept (execRegRead pcie s) := by
  unfold execRegRead; all_goals (try dsimp only); all_goals (repeat' split); all_goals simp_all

@[simp] theorem execRegWrite_keep (man : List Byte) (s : State) : s.kept (execRegWrite man s) := by
  unfold execRegWrite; all_goals (try dsimp only); all_goals (repeat' split); all_goals simp_all

@[simp] theorem execCloseSession_keep (s : State) : s.kept (execCloseSession s) := by
  unfold execCloseSession
  rw [kept_next]
  dsimp only
  cases h : s.lyFront 0x04 with
  | none => simp
  | some x =>
    obtain ⟨c, t⟩ := x
    have k := State.lyFront_keep h
    simp only [k.1.symm, k.2.symm]
    refine ⟨?_, ?_⟩ <;> ((try dsimp only); (repeat' split) <;> simp_all)

@[simp] theorem execSetNode_keep (s : State) : s.kept (execSetNode s) := by
  unfold execSetNode; all_goals (try dsimp only); all_goals (repeat' split); all_goals simp_all

@[simp] theorem execSetEpoch_keep (s : State) : s.kept (execSetEpoch s) := by
  unfold execSetEpoch; all_goals (try dsimp only); all_goals (repeat' split); all_goals simp_all

@[simp] theorem State.semOwnerSet_keep (s : State) (valid : Nat) (part : Option Nat) (d i : Nat) : (State.semOwnerSet s valid part d i).pending = s.pending ∧ (State.semOwnerSet s valid part d i).fuse = s.fuse := by
  refine ⟨?_, ?_⟩ <;> (unfold State.semOwnerSet; all_goals (try dsimp only); all_goals (repeat' split); all_goals simp_all)

@[simp] theorem State.evqOwnerSet_keep (s : State) (valid : Nat) (part : Option Nat) (d q : Nat) : (State.evqOwnerSet s valid part d q).pending = s.pending ∧ (State.evqOwnerSet s valid part d q).fuse = s.fuse := by
  refine ⟨?_, ?_⟩ <;> (unfold State.evqOwnerSet; all_goals (try dsimp only); all_goals (repeat' split); all_goals simp_all)

@[simp] theorem State.allOwners_keep (s : State) (valid : Nat) (part : Option Nat) : (State.allOwners s valid part).pending = s.pending ∧ (State.allOwners s valid part).fuse = s.fuse := by
  refine ⟨?_, ?_⟩ <;> (unfold State.allOwners; all_goals (try dsimp only); all_goals (repeat' split); all_goals simp_all)

@[simp] theorem State.assignBegin_keep (s : State) (hws host : Word) : (State.assignBegin s hws host).pending = s.pending ∧ (State.assignBegin s hws host).fuse = s.fuse := by
  refine ⟨?_, ?_⟩ <;> (unfold State.assignBegin; all_goals (try dsimp only); all_goals (repeat' split); all_goals simp_all)

@[simp] theorem State.putRoot_keep (s : State) (a : Nat) (root : Option Nat) : (State.putRoot s a root).pending = s.pending ∧ (State.putRoot s a root).fuse = s.fuse := by
  refine ⟨?_, ?_⟩ <;> (unfold State.putRoot; all_goals (try dsimp only); all_goals (repeat' split); all_goals simp_all)

@[simp] theorem State.assignWrite_keep (s : State) (valid : Nat) (part : Option Nat) (root ingress put rse : Option Nat) : (State.assignWrite s valid part root ingress put rse).pending = s.pending ∧ (State.assignWrite s valid part root ingress put rse).fuse = s.fuse := by
  refine ⟨?_, ?_⟩ <;> (unfold State.assignWrite; all_goals (try dsimp only); all_goals (repeat' split); all_goals simp_all)

@[simp] theorem LyCmd.assignWrite_keep (c : LyCmd) (s : State) : (LyCmd.assignWrite c s).pending = s.pending ∧ (LyCmd.assignWrite c s).fuse = s.fuse := by
  refine ⟨?_, ?_⟩ <;> (unfold LyCmd.assignWrite; all_goals (try dsimp only); all_goals (repeat' split); all_goals simp_all)

@[simp] theorem State.putRunning_keep (s : State) (l : List LyCmd) : (State.putRunning s l).pending = s.pending ∧ (State.putRunning s l).fuse = s.fuse := by
  refine ⟨?_, ?_⟩ <;> (unfold State.putRunning; all_goals (try dsimp only); all_goals (repeat' split); all_goals simp_all)

@[simp] theorem State.assignGo_keep (s : State) (c : LyCmd) : (State.assignGo s c).pending = s.pending ∧ (State.assignGo s c).fuse = s.fuse := by
  refine ⟨?_, ?_⟩ <;> (unfold State.assignGo; all_goals (try dsimp only); all_goals (repeat' split); all_goals simp_all)

@[simp] theorem State.lyAssign_keep (s : State) (cmd n : Nat) (bad : LyCmd → Bool) (hws host : State → LyCmd → Word) : (State.lyAssign s cmd n bad hws host).pending = s.pending ∧ (State.lyAssign s cmd n bad hws host).fuse = s.fuse := by
  unfold State.lyAssign
  split
  · (try dsimp only); (repeat' split) <;> simp [*]
  · dsimp only
    cases h : s.lyFront cmd with
    | none => simp
    | some x =>
      obtain ⟨c, t⟩ := x
      have k := State.lyFront_keep h
      simp only [k.1.symm, k.2.symm]
      refine ⟨?_, ?_⟩ <;> ((try dsimp only); (repeat' split) <;> simp_all)

@[simp] theorem execAssign_keep (s : State) : s.kept (execAssign s) := by
  unfold execAssign; all_goals (try dsimp only); all_goals (repeat' split); all_goals simp_all

@[simp] theorem execUnassign_keep (s : State) : s.kept (execUnassign s) := by
  unfold execUnassign; all_goals (try dsimp only); all_goals (repeat' split); all_goals simp_all

@[simp] theorem execJoin_keep (s : State) : s.kept (execJoin s) := by
  unfold execJoin; all_goals (try dsimp only); all_goals (repeat' split); all_goals simp_all

@[simp] theorem execLeave_keep (s : State) : s.kept (execLeave s) := by
  unfold execLeave; all_goals (try dsimp only); all_goals (repeat' split); all_goals simp_all

@[simp] theorem execTickParams_keep (s : State) : s.kept (execTickParams s) := by
  unfold execTickParams; all_goals (try dsimp only); all_goals (repeat' split); all_goals simp_all

@[simp] theorem execResume_keep (s : State) : s.kept (execResume s) := by
  unfold execResume; all_goals (try dsimp only); all_goals (repeat' split); all_goals simp_all

@[simp] theorem execRoute_keep (s : State) : s.kept (execRoute s) := by
  unfold execRoute; all_goals (try dsimp only); all_goals (repeat' split); all_goals simp_all

@[simp] theorem execSetCap_keep (s : State) : s.kept (execSetCap s) := by
  unfold execSetCap; all_goals (try dsimp only); all_goals (repeat' split); all_goals simp_all

@[simp] theorem execJournal_keep (s : State) : s.kept (execJournal s) := by
  unfold execJournal; all_goals (try dsimp only); all_goals (repeat' split); all_goals simp_all

@[simp] theorem execTelemetry_keep (s : State) : s.kept (execTelemetry s) := by
  unfold execTelemetry; all_goals (try dsimp only); all_goals (repeat' split); all_goals simp_all

@[simp] theorem execLogRead_keep (s : State) : s.kept (execLogRead s) := by
  unfold execLogRead; all_goals (try dsimp only); all_goals (repeat' split); all_goals simp_all

@[simp] theorem execFatalRead_keep (s : State) : s.kept (execFatalRead s) := by
  unfold execFatalRead; all_goals (try dsimp only); all_goals (repeat' split); all_goals simp_all

@[simp] theorem execLossRead_keep (s : State) : s.kept (execLossRead s) := by
  unfold execLossRead; all_goals (try dsimp only); all_goals (repeat' split); all_goals simp_all

@[simp] theorem execLossClear_keep (nvmOk : Bool) (s : State) : s.kept (execLossClear nvmOk s) := by
  unfold execLossClear; all_goals (try dsimp only); all_goals (repeat' split); all_goals simp_all

@[simp] theorem State.putBuf_keep (s : State) (b : Option (List (Nat × List Byte))) : (State.putBuf s b).pending = s.pending ∧ (State.putBuf s b).fuse = s.fuse := by
  refine ⟨?_, ?_⟩ <;> (unfold State.putBuf; all_goals (try dsimp only); all_goals (repeat' split); all_goals simp_all)

@[simp] theorem State.cfgBegin_keep (s : State) (n : Nat) : (State.cfgBegin s n).1.pending = s.pending ∧ (State.cfgBegin s n).1.fuse = s.fuse := by
  refine ⟨?_, ?_⟩ <;> (unfold State.cfgBegin; all_goals (try dsimp only); all_goals (repeat' split); all_goals simp_all)

@[simp] theorem State.cfgData_keep (s : State) (o : Nat) (b : List Byte) : (State.cfgData s o b).1.pending = s.pending ∧ (State.cfgData s o b).1.fuse = s.fuse := by
  refine ⟨?_, ?_⟩ <;> (unfold State.cfgData; all_goals (try dsimp only); all_goals (repeat' split); all_goals simp_all)

@[simp] theorem State.cfgCommit_keep (s : State) (l : List (Nat × List Byte)) : (State.cfgCommit s l).1.pending = s.pending ∧ (State.cfgCommit s l).1.fuse = s.fuse := by
  refine ⟨?_, ?_⟩ <;> (unfold State.cfgCommit; all_goals (try dsimp only); all_goals (repeat' split); all_goals simp_all)

@[simp] theorem execCfgBegin_keep (s : State) : s.kept (execCfgBegin s) := by
  unfold execCfgBegin; all_goals (try dsimp only); all_goals (repeat' split); all_goals simp_all

@[simp] theorem execCfgData_keep (s : State) : s.kept (execCfgData s) := by
  unfold execCfgData; all_goals (try dsimp only); all_goals (repeat' split); all_goals simp_all

@[simp] theorem execCfgCommit_keep (s : State) : s.kept (execCfgCommit s) := by
  unfold execCfgCommit
  rw [kept_next]
  dsimp only
  cases h : s.lyFront 0x72 with
  | none => simp
  | some x =>
    obtain ⟨c, t⟩ := x
    have k := State.lyFront_keep h
    simp only [k.1.symm, k.2.symm]
    refine ⟨?_, ?_⟩ <;> ((try dsimp only); (repeat' split) <;> simp_all)

@[simp] theorem State.fwFail_keep (s : State) : (State.fwFail s).1.pending = s.pending ∧ (State.fwFail s).1.fuse = s.fuse := by
  refine ⟨?_, ?_⟩ <;> (unfold State.fwFail; all_goals (try dsimp only); all_goals (repeat' split); all_goals simp_all)

@[simp] theorem State.fwBegin_keep (s : State) (n : Nat) (ok : Bool) : (State.fwBegin s n ok).1.pending = s.pending ∧ (State.fwBegin s n ok).1.fuse = s.fuse := by
  refine ⟨?_, ?_⟩ <;> (unfold State.fwBegin; all_goals (try dsimp only); all_goals (repeat' split); all_goals simp_all)

@[simp] theorem State.fwData_keep (s : State) (o : Nat) (b : List Byte) (ok : Bool) : (State.fwData s o b ok).1.pending = s.pending ∧ (State.fwData s o b ok).1.fuse = s.fuse := by
  refine ⟨?_, ?_⟩ <;> (unfold State.fwData; all_goals (try dsimp only); all_goals (repeat' split); all_goals simp_all)

@[simp] theorem State.fwCommit_keep (s : State) (ok : Bool) : (State.fwCommit s ok).1.pending = s.pending ∧ (State.fwCommit s ok).1.fuse = s.fuse := by
  refine ⟨?_, ?_⟩ <;> (unfold State.fwCommit; all_goals (try dsimp only); all_goals (repeat' split); all_goals simp_all)

@[simp] theorem State.fwCancel_keep (s : State) (ok : Bool) : (State.fwCancel s ok).1.pending = s.pending ∧ (State.fwCancel s ok).1.fuse = s.fuse := by
  refine ⟨?_, ?_⟩ <;> (unfold State.fwCancel; all_goals (try dsimp only); all_goals (repeat' split); all_goals simp_all)

@[simp] theorem State.smbStage_keep (s : State) (code : Nat) (data : List Byte) (ok : Bool) : (State.smbStage s code data ok).pending = s.pending ∧ (State.smbStage s code data ok).fuse = s.fuse := by
  refine ⟨?_, ?_⟩ <;> (unfold State.smbStage; all_goals (try dsimp only); all_goals (repeat' split); all_goals simp_all)

@[simp] theorem State.smbResume_keep (s : State) : (State.smbResume s).pending = s.pending ∧ (State.smbResume s).fuse = s.fuse := by
  refine ⟨?_, ?_⟩ <;> (unfold State.smbResume; all_goals (try dsimp only); all_goals (repeat' split); all_goals simp_all)

@[simp] theorem State.nvmRun_keep (s : State) (x0 : List NvmJob) : (State.nvmRun s x0).pending = s.pending ∧ (State.nvmRun s x0).fuse = s.fuse := by
  induction x0 generalizing s with
  | nil => simp [State.nvmRun]
  | cons a r ih => refine ⟨?_, ?_⟩ <;> (unfold State.nvmRun; all_goals (try dsimp only); all_goals (repeat' split); all_goals simp_all)

@[simp] theorem State.nvmFree_keep (s : State) : (State.nvmFree s).pending = s.pending ∧ (State.nvmFree s).fuse = s.fuse := by
  refine ⟨?_, ?_⟩ <;> (unfold State.nvmFree; all_goals (try dsimp only); all_goals (repeat' split); all_goals simp_all)

@[simp] theorem State.fwRun_keep (s : State) (cmd : Nat) (f : State → LyCmd → State × Nat × List Byte) (h_f : ∀ (y0 : State) (y1 : LyCmd), (f y0 y1).1.pending = y0.pending ∧ (f y0 y1).1.fuse = y0.fuse) : (State.fwRun s cmd f).pending = s.pending ∧ (State.fwRun s cmd f).fuse = s.fuse := by
  refine ⟨?_, ?_⟩ <;> (unfold State.fwRun; all_goals (try dsimp only); all_goals (repeat' split); all_goals simp_all)

@[simp] theorem execFwBegin_keep (nvmOk : Bool) (s : State) : s.kept (execFwBegin nvmOk s) := by
  unfold execFwBegin; all_goals (try dsimp only); all_goals (repeat' split); all_goals simp_all

@[simp] theorem execFwData_keep (nvmOk : Bool) (s : State) : s.kept (execFwData nvmOk s) := by
  unfold execFwData; all_goals (try dsimp only); all_goals (repeat' split); all_goals simp_all

@[simp] theorem execFwCommit_keep (nvmOk : Bool) (s : State) : s.kept (execFwCommit nvmOk s) := by
  unfold execFwCommit; all_goals (try dsimp only); all_goals (repeat' split); all_goals simp_all

@[simp] theorem execFwCancel_keep (nvmOk : Bool) (s : State) : s.kept (execFwCancel nvmOk s) := by
  unfold execFwCancel; all_goals (try dsimp only); all_goals (repeat' split); all_goals simp_all

@[simp] theorem execCfgWriteDone_keep (nvmOk : Bool) (flaws : List (Nat × Byte)) (s : State) : s.kept (execCfgWriteDone nvmOk flaws s) := by
  unfold execCfgWriteDone; all_goals (try dsimp only); all_goals (repeat' split); all_goals simp_all

@[simp] theorem State.lyReset_keep (s : State) (cmd : Nat) (st : LyCmd → Nat) (go : State → State) (h_go : ∀ (y0 : State), (go y0).pending = y0.pending ∧ (go y0).fuse = y0.fuse) : (State.lyReset s cmd st go).pending = s.pending ∧ (State.lyReset s cmd st go).fuse = s.fuse := by
  unfold State.lyReset
  split
  · (try dsimp only); (repeat' split) <;> simp [*]
  · dsimp only
    cases h : s.lyFront cmd with
    | none => simp
    | some x =>
      obtain ⟨c, t⟩ := x
      have k := State.lyFront_keep h
      simp only [k.1.symm, k.2.symm]
      refine ⟨?_, ?_⟩ <;> ((try dsimp only); (repeat' split) <;> simp_all)

@[simp] theorem execResetCmd_keep (s : State) : s.kept (execResetCmd s) := by
  unfold execResetCmd; all_goals (try dsimp only); all_goals (repeat' split); all_goals simp_all

@[simp] theorem execBelayExit_keep (nvmOk : Bool) (s : State) : s.kept (execBelayExit nvmOk s) := by
  unfold execBelayExit; all_goals (try dsimp only); all_goals (repeat' split); all_goals simp_all

@[simp] theorem execAttest_keep (s : State) : s.kept (execAttest s) := by
  unfold execAttest; all_goals (try dsimp only); all_goals (repeat' split); all_goals simp_all

end Sys2Proof.Machine
end

