-- ==== Sys2Proof/Laws/KeepScalar.lean ====
section
/-! SUPPORT. No operation of Machine/Scalar.lean touches the queue of commands or the fuses. -/

set_option linter.unusedTactic false
set_option linter.unreachableTactic false
set_option linter.unnecessarySeqFocus false

namespace Sys2Proof.Machine

@[simp] theorem State.scalar_keep (s : State) (core op : Nat) (immForm : Bool) (r : Rest) (f : Word → Word → Word) : (State.scalar s core op immForm r f).pending = s.pending ∧ (State.scalar s core op immForm r f).fuse = s.fuse := by
  refine ⟨?_, ?_⟩ <;> (unfold State.scalar; all_goals (try dsimp only); all_goals (repeat' split); all_goals simp_all)

@[simp] theorem execAdd_keep (core : Nat) (immForm : Bool) (rest : Rest) (s : State) : s.kept (execAdd core immForm rest s) := by
  unfold execAdd; all_goals (try dsimp only); all_goals (repeat' split); all_goals simp_all

@[simp] theorem execSub_keep (core : Nat) (immForm : Bool) (rest : Rest) (s : State) : s.kept (execSub core immForm rest s) := by
  unfold execSub; all_goals (try dsimp only); all_goals (repeat' split); all_goals simp_all

@[simp] theorem execAnd_keep (core : Nat) (immForm : Bool) (rest : Rest) (s : State) : s.kept (execAnd core immForm rest s) := by
  unfold execAnd; all_goals (try dsimp only); all_goals (repeat' split); all_goals simp_all

@[simp] theorem execOr_keep (core : Nat) (immForm : Bool) (rest : Rest) (s : State) : s.kept (execOr core immForm rest s) := by
  unfold execOr; all_goals (try dsimp only); all_goals (repeat' split); all_goals simp_all

@[simp] theorem execXor_keep (core : Nat) (immForm : Bool) (rest : Rest) (s : State) : s.kept (execXor core immForm rest s) := by
  unfold execXor; all_goals (try dsimp only); all_goals (repeat' split); all_goals simp_all

@[simp] theorem execSll_keep (core : Nat) (immForm : Bool) (rest : Rest) (s : State) : s.kept (execSll core immForm rest s) := by
  unfold execSll; all_goals (try dsimp only); all_goals (repeat' split); all_goals simp_all

@[simp] theorem execSrl_keep (core : Nat) (immForm : Bool) (rest : Rest) (s : State) : s.kept (execSrl core immForm rest s) := by
  unfold execSrl; all_goals (try dsimp only); all_goals (repeat' split); all_goals simp_all

@[simp] theorem execSra_keep (core : Nat) (immForm : Bool) (rest : Rest) (s : State) : s.kept (execSra core immForm rest s) := by
  unfold execSra; all_goals (try dsimp only); all_goals (repeat' split); all_goals simp_all

@[simp] theorem execMul_keep (core : Nat) (immForm : Bool) (rest : Rest) (s : State) : s.kept (execMul core immForm rest s) := by
  unfold execMul; all_goals (try dsimp only); all_goals (repeat' split); all_goals simp_all

@[simp] theorem execMulhu_keep (core : Nat) (immForm : Bool) (rest : Rest) (s : State) : s.kept (execMulhu core immForm rest s) := by
  unfold execMulhu; all_goals (try dsimp only); all_goals (repeat' split); all_goals simp_all

@[simp] theorem execDivu_keep (core : Nat) (immForm : Bool) (rest : Rest) (s : State) : s.kept (execDivu core immForm rest s) := by
  unfold execDivu; all_goals (try dsimp only); all_goals (repeat' split); all_goals simp_all

@[simp] theorem execRemu_keep (core : Nat) (immForm : Bool) (rest : Rest) (s : State) : s.kept (execRemu core immForm rest s) := by
  unfold execRemu; all_goals (try dsimp only); all_goals (repeat' split); all_goals simp_all

@[simp] theorem execMin_keep (core : Nat) (immForm : Bool) (rest : Rest) (s : State) : s.kept (execMin core immForm rest s) := by
  unfold execMin; all_goals (try dsimp only); all_goals (repeat' split); all_goals simp_all

@[simp] theorem execMax_keep (core : Nat) (immForm : Bool) (rest : Rest) (s : State) : s.kept (execMax core immForm rest s) := by
  unfold execMax; all_goals (try dsimp only); all_goals (repeat' split); all_goals simp_all

@[simp] theorem execMinu_keep (core : Nat) (immForm : Bool) (rest : Rest) (s : State) : s.kept (execMinu core immForm rest s) := by
  unfold execMinu; all_goals (try dsimp only); all_goals (repeat' split); all_goals simp_all

@[simp] theorem execMaxu_keep (core : Nat) (immForm : Bool) (rest : Rest) (s : State) : s.kept (execMaxu core immForm rest s) := by
  unfold execMaxu; all_goals (try dsimp only); all_goals (repeat' split); all_goals simp_all

@[simp] theorem execSlt_keep (core : Nat) (immForm : Bool) (rest : Rest) (s : State) : s.kept (execSlt core immForm rest s) := by
  unfold execSlt; all_goals (try dsimp only); all_goals (repeat' split); all_goals simp_all

@[simp] theorem execSltu_keep (core : Nat) (immForm : Bool) (rest : Rest) (s : State) : s.kept (execSltu core immForm rest s) := by
  unfold execSltu; all_goals (try dsimp only); all_goals (repeat' split); all_goals simp_all

@[simp] theorem execSeq_keep (core : Nat) (immForm : Bool) (rest : Rest) (s : State) : s.kept (execSeq core immForm rest s) := by
  unfold execSeq; all_goals (try dsimp only); all_goals (repeat' split); all_goals simp_all

@[simp] theorem execSload_keep (core : Nat) (rest : Rest) (s : State) : s.kept (execSload core rest s) := by
  unfold execSload
  rw [kept_next]
  refine State.issue_keep _ _ _ _ _ fun t => ?_
  constructor <;> (all_goals (try dsimp only); all_goals (repeat' split); all_goals simp_all)

@[simp] theorem execSstore_keep (core : Nat) (rest : Rest) (s : State) : s.kept (execSstore core rest s) := by
  unfold execSstore
  rw [kept_next]
  refine State.issue_keep _ _ _ _ _ fun t => ?_
  constructor <;> (all_goals (try dsimp only); all_goals (repeat' split); all_goals simp_all)

@[simp] theorem execLil_keep (core : Nat) (rest : Rest) (s : State) : s.kept (execLil core rest s) := by
  unfold execLil
  rw [kept_next]
  refine State.issue_keep _ _ _ _ _ fun t => ?_
  constructor <;> (all_goals (try dsimp only); all_goals (repeat' split); all_goals simp_all)

@[simp] theorem execLih_keep (core : Nat) (rest : Rest) (s : State) : s.kept (execLih core rest s) := by
  unfold execLih
  rw [kept_next]
  refine State.issue_keep _ _ _ _ _ fun t => ?_
  constructor <;> (all_goals (try dsimp only); all_goals (repeat' split); all_goals simp_all)

@[simp] theorem State.branch_keep (s : State) (core op : Nat) (r : Rest) (p : Word → Word → Bool) : (State.branch s core op r p).pending = s.pending ∧ (State.branch s core op r p).fuse = s.fuse := by
  refine ⟨?_, ?_⟩ <;> (unfold State.branch; all_goals (try dsimp only); all_goals (repeat' split); all_goals simp_all)

@[simp] theorem execBeq_keep (core : Nat) (rest : Rest) (s : State) : s.kept (execBeq core rest s) := by
  unfold execBeq; all_goals (try dsimp only); all_goals (repeat' split); all_goals simp_all

@[simp] theorem execBne_keep (core : Nat) (rest : Rest) (s : State) : s.kept (execBne core rest s) := by
  unfold execBne; all_goals (try dsimp only); all_goals (repeat' split); all_goals simp_all

@[simp] theorem execBlt_keep (core : Nat) (rest : Rest) (s : State) : s.kept (execBlt core rest s) := by
  unfold execBlt; all_goals (try dsimp only); all_goals (repeat' split); all_goals simp_all

@[simp] theorem execBge_keep (core : Nat) (rest : Rest) (s : State) : s.kept (execBge core rest s) := by
  unfold execBge; all_goals (try dsimp only); all_goals (repeat' split); all_goals simp_all

@[simp] theorem execBltu_keep (core : Nat) (rest : Rest) (s : State) : s.kept (execBltu core rest s) := by
  unfold execBltu; all_goals (try dsimp only); all_goals (repeat' split); all_goals simp_all

@[simp] theorem execBgeu_keep (core : Nat) (rest : Rest) (s : State) : s.kept (execBgeu core rest s) := by
  unfold execBgeu; all_goals (try dsimp only); all_goals (repeat' split); all_goals simp_all

@[simp] theorem execJal_keep (core : Nat) (rest : Rest) (s : State) : s.kept (execJal core rest s) := by
  unfold execJal
  rw [kept_next]
  refine State.issue_keep _ _ _ _ _ fun t => ?_
  constructor <;> (all_goals (try dsimp only); all_goals (repeat' split); all_goals simp_all)

@[simp] theorem execJr_keep (core : Nat) (rest : Rest) (s : State) : s.kept (execJr core rest s) := by
  unfold execJr
  rw [kept_next]
  refine State.issue_keep _ _ _ _ _ fun t => ?_
  constructor <;> (all_goals (try dsimp only); all_goals (repeat' split); all_goals simp_all)

@[simp] theorem execLoop_keep (core : Nat) (rest : Rest) (s : State) : s.kept (execLoop core rest s) := by
  unfold execLoop
  rw [kept_next]
  refine State.issue_keep _ _ _ _ _ fun t => ?_
  constructor <;> (all_goals (try dsimp only); all_goals (repeat' split); all_goals simp_all)

end Sys2Proof.Machine
end

