-- ==== Sys2Proof/Laws/KeepSmbus.lean ====
section
/-! SUPPORT. No operation of Machine/Smbus.lean touches the queue of commands or the fuses. -/

set_option linter.unusedTactic false
set_option linter.unreachableTactic false
set_option linter.unnecessarySeqFocus false

namespace Sys2Proof.Machine

@[simp] theorem State.smbRead_keep (s : State) (d : List Byte) : (State.smbRead s d).pending = s.pending ∧ (State.smbRead s d).fuse = s.fuse := by
  refine ⟨?_, ?_⟩ <;> (unfold State.smbRead; all_goals (try dsimp only); all_goals (repeat' split); all_goals simp_all)

@[simp] theorem State.smbPec_keep (s : State) : (State.smbPec s).pending = s.pending ∧ (State.smbPec s).fuse = s.fuse := by
  refine ⟨?_, ?_⟩ <;> (unfold State.smbPec; all_goals (try dsimp only); all_goals (repeat' split); all_goals simp_all)

@[simp] theorem State.smb_keep (s : State) (pecOk : Bool) (f : State → State) (h_f : ∀ (y0 : State), (f y0).pending = y0.pending ∧ (f y0).fuse = y0.fuse) : (State.smb s pecOk f).pending = s.pending ∧ (State.smb s pecOk f).fuse = s.fuse := by
  refine ⟨?_, ?_⟩ <;> (unfold State.smb; all_goals (try dsimp only); all_goals (repeat' split); all_goals simp_all)

@[simp] theorem State.smbBelay_keep (s : State) (pecOk : Bool) (f : State → State) (h_f : ∀ (y0 : State), (f y0).pending = y0.pending ∧ (f y0).fuse = y0.fuse) : (State.smbBelay s pecOk f).pending = s.pending ∧ (State.smbBelay s pecOk f).fuse = s.fuse := by
  refine ⟨?_, ?_⟩ <;> (unfold State.smbBelay; all_goals (try dsimp only); all_goals (repeat' split); all_goals simp_all)

@[simp] theorem execSmbStatus_keep (s : State) : s.kept (execSmbStatus s) := by
  unfold execSmbStatus; all_goals (try dsimp only); all_goals (repeat' split); all_goals simp_all

@[simp] theorem execSmbIdentity_keep (s : State) : s.kept (execSmbIdentity s) := by
  unfold execSmbIdentity; all_goals (try dsimp only); all_goals (repeat' split); all_goals simp_all

@[simp] theorem State.smbEntry_keep (s : State) (n : Nat) : (State.smbEntry s n).pending = s.pending ∧ (State.smbEntry s n).fuse = s.fuse := by
  refine ⟨?_, ?_⟩ <;> (unfold State.smbEntry; all_goals (try dsimp only); all_goals (repeat' split); all_goals simp_all)

@[simp] theorem execSmbLog_keep (pecOk : Bool) (data : List Byte) (s : State) : s.kept (execSmbLog pecOk data s) := by
  unfold execSmbLog; all_goals (try dsimp only); all_goals (repeat' split); all_goals simp_all

@[simp] theorem execSmbFatal_keep (pecOk : Bool) (data : List Byte) (s : State) : s.kept (execSmbFatal pecOk data s) := by
  unfold execSmbFatal; all_goals (try dsimp only); all_goals (repeat' split); all_goals simp_all

@[simp] theorem execSmbCfgBegin_keep (pecOk : Bool) (data : List Byte) (s : State) : s.kept (execSmbCfgBegin pecOk data s) := by
  unfold execSmbCfgBegin; all_goals (try dsimp only); all_goals (repeat' split); all_goals simp_all

@[simp] theorem execSmbCfgData_keep (pecOk : Bool) (data : List Byte) (s : State) : s.kept (execSmbCfgData pecOk data s) := by
  unfold execSmbCfgData; all_goals (try dsimp only); all_goals (repeat' split); all_goals simp_all

@[simp] theorem State.smbCommit_keep (s : State) : (State.smbCommit s).pending = s.pending ∧ (State.smbCommit s).fuse = s.fuse := by
  refine ⟨?_, ?_⟩ <;> (unfold State.smbCommit; all_goals (try dsimp only); all_goals (repeat' split); all_goals simp_all)

@[simp] theorem execSmbCfgCommit_keep (pecOk : Bool) (s : State) : s.kept (execSmbCfgCommit pecOk s) := by
  unfold execSmbCfgCommit; all_goals (try dsimp only); all_goals (repeat' split); all_goals simp_all

@[simp] theorem execSmbCfgResult_keep (s : State) : s.kept (execSmbCfgResult s) := by
  unfold execSmbCfgResult; all_goals (try dsimp only); all_goals (repeat' split); all_goals simp_all

@[simp] theorem State.smbFwCmd_keep (s : State) (pecOk : Bool) (code : Nat) (data : List Byte) (nvmOk : Bool) : (State.smbFwCmd s pecOk code data nvmOk).pending = s.pending ∧ (State.smbFwCmd s pecOk code data nvmOk).fuse = s.fuse := by
  refine ⟨?_, ?_⟩ <;> (unfold State.smbFwCmd; all_goals (try dsimp only); all_goals (repeat' split); all_goals simp_all)

@[simp] theorem execSmbFwBegin_keep (pecOk : Bool) (data : List Byte) (nvmOk : Bool) (s : State) : s.kept (execSmbFwBegin pecOk data nvmOk s) := by
  unfold execSmbFwBegin; all_goals (try dsimp only); all_goals (repeat' split); all_goals simp_all

@[simp] theorem execSmbFwData_keep (pecOk : Bool) (data : List Byte) (nvmOk : Bool) (s : State) : s.kept (execSmbFwData pecOk data nvmOk s) := by
  unfold execSmbFwData; all_goals (try dsimp only); all_goals (repeat' split); all_goals simp_all

@[simp] theorem execSmbFwCommit_keep (pecOk nvmOk : Bool) (s : State) : s.kept (execSmbFwCommit pecOk nvmOk s) := by
  unfold execSmbFwCommit; all_goals (try dsimp only); all_goals (repeat' split); all_goals simp_all

@[simp] theorem execSmbFwResult_keep (s : State) : s.kept (execSmbFwResult s) := by
  unfold execSmbFwResult; all_goals (try dsimp only); all_goals (repeat' split); all_goals simp_all

@[simp] theorem execSmbBelayExit_keep (pecOk nvmOk : Bool) (s : State) : s.kept (execSmbBelayExit pecOk nvmOk s) := by
  unfold execSmbBelayExit; all_goals (try dsimp only); all_goals (repeat' split); all_goals simp_all

@[simp] theorem execSmbReset_keep (pecOk : Bool) (data : Byte) (s : State) : s.kept (execSmbReset pecOk data s) := by
  unfold execSmbReset; all_goals (try dsimp only); all_goals (repeat' split); all_goals simp_all

@[simp] theorem execSmbAlertResponse_keep (s : State) : s.kept (execSmbAlertResponse s) := by
  unfold execSmbAlertResponse; all_goals (try dsimp only); all_goals (repeat' split); all_goals simp_all

end Sys2Proof.Machine
end

