-- ==== Sys2Proof/Laws/Lanyard.lean ====
section
/-! SUPPORT. The front command of Lanyard runs and is answered; a Lanyard packet for this node is taken. -/

namespace Sys2Proof.Machine

/-- The command at the front is the first one that may begin. -/
theorem lyFront_of_first {s : State} {cmd : Nat} {c : LyCmd} {r : List LyCmd} (h : s.lyFirst cmd c r) : s.lyFront cmd = some (c, s.lyTaken r) := by
  obtain ⟨h1, h2, h3⟩ := h
  unfold State.lyFront; rw [h1]; dsimp only; rw [if_pos ⟨h2, h3⟩]; rfl

/-- It runs and ends with its answer. -/
theorem lyRun_of_first {s : State} {cmd : Nat} {c : LyCmd} {r : List LyCmd} (h : s.lyFirst cmd c r) (f : State → LyCmd → State × Nat × List Byte) :
    s.lyRun cmd f = (f (s.lyTaken r) c).1.lyEnds c (f (s.lyTaken r) c).2.1 (f (s.lyTaken r) c).2.2 := by
  unfold State.lyRun; rw [lyFront_of_first h]; rfl

/-- A command with arguments of its length runs. -/
theorem lyRun_of_args {s : State} {cmd n : Nat} {c : LyCmd} {r : List LyCmd} (h : s.lyFirst cmd c r) (g : c.has n = true) (f : State → LyCmd → State × Nat × List Byte) (x : State × Nat × List Byte) (hx : f (s.lyTaken r) c = x) :
    nextOf (s.lyRun cmd (lyArgs n f)) = .next (x.1.lyEnds c x.2.1 x.2.2) := by
  rw [lyRun_of_first h]; unfold lyArgs; rw [if_pos g, hx]

/-- Arguments of another length are answered BAD_ARGS. -/
theorem lyRun_bad_args {s : State} {cmd n : Nat} {c : LyCmd} {r : List LyCmd} (h : s.lyFirst cmd c r) (g : c.has n = false) (f : State → LyCmd → State × Nat × List Byte) :
    nextOf (s.lyRun cmd (lyArgs n f)) = .next ((s.lyTaken r).lyEnds c lyBAD_ARGS []) := by
  rw [lyRun_of_first h]; unfold lyArgs; rw [if_neg (by rw [g]; decide)]

/-- A Lanyard packet for this node, whole and of class 1, is taken. -/
theorem lyPacket_of_gets {s : State} {kind : Nat} {p : Packet} (h : s.lyGets kind p) (k : State → State) : s.lyPacket p kind k = k ((s.rxTake p).bump64 Reg.HWS_CNT_RX_BYTES (40 + p.payload.length)) := by
  obtain ⟨h1, h2, h3, h4, h5, h6⟩ := h
  have e : s.lyTake p = ((s.rxTake p).bump64 Reg.HWS_CNT_RX_BYTES (40 + p.payload.length), true) := by
    unfold State.lyTake; dsimp only; rw [if_neg (by rw [h4]; decide), if_neg]
    rintro (q | q)
    · exact q h5
    · refine q (h6.trans ?_)
      unfold State.ownNode State.fld; rw [rd_bump64, if_neg (by decide), rd_rxTake]
  unfold State.lyPacket; rw [if_neg (by rw [h1, h2, h3]; simp), e]; dsimp only; rw [if_pos rfl]

/-- An assignment that nothing forbids begins. -/
theorem lyAssign_begins {s : State} {cmd n : Nat} {c : LyCmd} {r : List LyCmd} (h : s.lyFirst cmd c r) (bad : LyCmd → Bool) (hws host : State → LyCmd → Word)
    (g : c.has n = true) (h1 : (s.lyTaken r).assigning = false) (h2 : (s.lyTaken r).flag Reg.HWS_NODE Fld.HWS_NODE_VALID = true)
    (h3 : (s.lyTaken r).flag Reg.HLY_DOMAIN Fld.HLY_DOMAIN_VALID = false) (h4 : ∀ x ∈ s.bwl.running, x.cmd ≠ c.cmd) (h5 : bad c = false) :
    s.lyAssign cmd n bad hws host =
      ((((s.lyTaken r).assignBegin (hws (s.lyTaken r) c) (host (s.lyTaken r) c)).putRunning (((s.lyTaken r).assignBegin (hws (s.lyTaken r) c) (host (s.lyTaken r) c)).bwl.running ++ [{ c with stage := 1 }])).assignGo { c with stage := 1 }).lyDrain ((((s.lyTaken r).assignBegin (hws (s.lyTaken r) c) (host (s.lyTaken r) c)).putRunning (((s.lyTaken r).assignBegin (hws (s.lyTaken r) c) (host (s.lyTaken r) c)).bwl.running ++ [{ c with stage := 1 }])).assignGo { c with stage := 1 }).bwl.cmds := by
  have e : s.bwl.running.find? (fun x => x.cmd == cmd) = none := by
    rw [List.find?_eq_none]; intro x hx q
    exact h4 x hx ((eq_of_beq q).trans h.2.1.symm)
  unfold State.lyAssign
  rw [e, lyFront_of_first h]
  dsimp only
  rw [show s.assigning = false from h1, show s.flag Reg.HWS_NODE Fld.HWS_NODE_VALID = true from h2, show s.flag Reg.HLY_DOMAIN Fld.HLY_DOMAIN_VALID = false from h3, if_neg (by decide), if_neg (by rw [g]; decide), if_neg (by decide), if_neg (by rw [h5]; decide)]

/-- A command that ends in a reset is answered, then resets once its answer has left. -/
theorem lyReset_begins {s : State} {cmd : Nat} {c : LyCmd} {r : List LyCmd} (h : s.lyFirst cmd c r) (st : LyCmd → Nat) (go : State → State) (h1 : st c = lyOK) (h2 : ∀ x ∈ s.bwl.running, x.cmd ≠ cmd) (told : State)
    (ht : told = ((s.lyTaken r).lyAnswer c lyOK []).putRunning (((s.lyTaken r).lyAnswer c lyOK []).bwl.running ++ [{ c with stage := 1 }])) :
    s.lyReset cmd st go = if told.lySent c.via then go told else told.lyDrain told.bwl.cmds := by
  have e : s.bwl.running.find? (fun x => x.cmd == cmd) = none := by
    rw [List.find?_eq_none]; intro x hx q
    exact h2 x hx (eq_of_beq q)
  unfold State.lyReset; rw [e, lyFront_of_first h]; dsimp only
  rw [if_neg (by rw [h1]; simp), h1, ht]

end Sys2Proof.Machine
end

