-- ==== Sys2Proof/Laws/Memory.lean ====
section
/-! SUPPORT. Memory operations: the place of a line, reads and writes of whole lines, and what a stored line reads as. -/

namespace Sys2Proof.Machine

theorem event_mem (s : State) (r : Nat) (f : Field) (c d : Nat) : (s.event r f c d).mem = s.mem := by
  rw [event_eq]

theorem capture_mem (s : State) (r l y : Nat) : (s.capture r l y).mem = s.mem := by
  unfold State.capture; split
  · rfl
  · unfold State.setFlds State.wr; rfl

/-- The place of a line rests on the two map registers. -/
theorem place_congr {s t : State} {l u : Nat} (hp : (s.place l).unit = some u) (h1 : t.rd Reg.MEMF_MAP = s.rd Reg.MEMF_MAP) (h2 : t.rd Reg.MEMC_MAP = s.rd Reg.MEMC_MAP) : t.place l = s.place l := by
  have e1 : t.fastSize = s.fastSize := by unfold State.fastSize State.fld; rw [h1]
  have e2 : t.capSize = s.capSize := by unfold State.capSize State.fld; rw [h2]
  have e3 : t.stackList = s.stackList := by unfold State.stackList State.fld; rw [h1]
  have e4 : t.chanList = s.chanList := by unfold State.chanList State.fld; rw [h2]
  have e5 : ∀ a, t.ftLocate a = s.ftLocate a := fun a => by unfold State.ftLocate; rw [e3]
  have e6 : ∀ a, t.capLocate a = s.capLocate a := fun a => by unfold State.capLocate; rw [e4]
  unfold State.place at hp ⊢
  rw [e1, e2, e5, e6]
  by_cases a1 : l < s.fastSize
  · rw [if_pos a1, if_pos a1]
  rw [if_neg a1, if_neg a1]; rw [if_neg a1] at hp
  by_cases a2 : l < capBase
  · rw [if_pos a2, if_pos a2]
  rw [if_neg a2, if_neg a2]; rw [if_neg a2] at hp
  by_cases a3 : l < capBase + s.capSize
  · rw [if_pos a3, if_pos a3]
  rw [if_neg a3, if_neg a3]; rw [if_neg a3] at hp
  exfalso
  split_ifs at hp <;> first | (simp [Place.unit] at hp; done) | (dsimp only at hp; split_ifs at hp <;> simp [Place.unit] at hp)

theorem place_unit_lt {s : State} {l u : Nat} (hp : (s.place l).unit = some u) : u < 28 ∧ (s.place l = .fast u ∧ u < 12 ∨ s.place l = .cap (u - 16) ∧ 16 ≤ u) := by
  have hl : ∀ (m n i : Nat), (ones m n).getD i 0 < max 1 n := by
    intro m n i
    by_cases h : i < (ones m n).length
    · rw [List.getD_eq_getElem _ _ h]
      have := List.getElem_mem h
      unfold ones at this
      have := (List.mem_range.1 (List.mem_filter.1 this).1)
      unfold ones; omega
    · rw [List.getD_eq_default _ _ (by omega)]; omega
  have h1 : ∀ a, (s.ftLocate a).1 < 12 := fun a => hl _ 12 _
  have h2 : ∀ a, (s.capLocate a).1 < 12 := fun a => hl _ 12 _
  cases e : s.place l with
  | fast k =>
    rw [e] at hp; cases hp
    have : u < 12 := by
      unfold State.place at e
      split_ifs at e <;> first | (cases e; exact h1 _) | cases e | (dsimp only at e; split_ifs at e)
    exact ⟨by omega, .inl ⟨rfl, this⟩⟩
  | cap c =>
    rw [e] at hp; cases hp
    have : c < 12 := by
      unfold State.place at e
      split_ifs at e <;> first | (cases e; exact h2 _) | cases e | (dsimp only at e; split_ifs at e)
    exact ⟨by omega, .inr ⟨by rw [Nat.add_sub_cancel_left], by omega⟩⟩
  | tile c => rw [e] at hp; cases hp
  | ctrl => rw [e] at hp; cases hp
  | absent => rw [e] at hp; cases hp

theorem unit_counters_ne : ∀ u, u < 28 → (Reg.MEMF_MAP ≠ cntRd u ∧ Reg.MEMC_MAP ≠ cntRd u) ∧ (Reg.MEMF_MAP ≠ cntWr u ∧ Reg.MEMC_MAP ≠ cntWr u) ∧ unitStatus u ≠ cntRd u ∧ unitStatus u ≠ cntWr u := by decide

theorem place_count_read {s : State} {l u : Nat} (hp : (s.place l).unit = some u) : (s.bump64 (cntRd u) 1).place l = s.place l :=
  have h := unit_counters_ne u (place_unit_lt hp).1
  place_congr hp (by rw [rd_bump64, if_neg h.1.1]) (by rw [rd_bump64, if_neg h.1.2])

theorem linesOf_line {l : Nat} (h : l % 64 = 0) : linesOf l 64 = [l] := by
  unfold linesOf
  rw [if_neg (by decide), h]
  show [l / 64 * 64 + 64 * 0] = [l]
  congr 1; omega

/-- A line without poison of a working unit is counted and read as its error allows. -/
theorem line_read {s : State} {l u : Nat} (h0 : l % 64 = 0) (hp : (s.place l).unit = some u) (hx : s.exists l 64 = true) (hu : s.unitFailed u = false) (hq : s.poisoned l = false) :
    let b := s.bump64 (cntRd u) 1
    (s.read l 64).st = match s.lineErr l with | .none => b | .ce y => b.corrected u l y | .ue y => b.ueRead u l y := by
  intro b
  have c := unit_counters_ne u (place_unit_lt hp).1
  have hb : b.readLine l = (match s.lineErr l with | .none => (b, false) | .ce y => (b.corrected u l y, false) | .ue y => (b.ueRead u l y, true)) := by
    unfold State.readLine
    rw [show b.place l = _ from place_count_read hp, hp]
    dsimp only
    have f1 : b.unitFailed u = false := by
      rw [← hu]; unfold State.unitFailed State.unitState State.fld
      rw [show b.rd (unitStatus u) = s.rd (unitStatus u) from by rw [show b = s.bump64 (cntRd u) 1 from rfl, rd_bump64, if_neg c.2.2.1]]
    have f2 : b.poisoned l = false := hq
    rw [if_neg (by rw [f1]; decide), if_neg (by rw [f2]; decide), show b.lineErr l = s.lineErr l from rfl]
    all_goals (cases s.lineErr l <;> rfl)
  have hr : s.readLines [l] = ((b.readLine l).1, if (b.readLine l).2 = true then some l else none) := by
    unfold State.readLines
    dsimp only
    rw [hp]
    rfl
  unfold State.read
  rw [if_pos hx]
  dsimp only
  rw [linesOf_line h0, hr, hb]
  cases s.lineErr l <;> rfl

theorem byte_congr {s t : State} (hd : t.mem.data = s.mem.data) (hw : t.mem.wc = s.mem.wc) (a : Nat) : t.byte a = s.byte a := by
  unfold State.byte State.wcOf; rw [hd, hw]

theorem bytes_eq_map (s : State) (f : Nat → Byte) : ∀ n a, (∀ i, i < n → s.byte (a + i) = f (a + i)) → s.bytes a n = (List.range n).map fun i => f (a + i)
  | 0, _, _ => rfl
  | n + 1, a, h => by
    rw [State.bytes, bytes_eq_map s f n (a + 1) (fun i hi => by rw [show a + 1 + i = a + (i + 1) by omega]; exact h _ (by omega)), List.range_succ_eq_map, List.map_cons, List.map_map]
    congr 1
    · exact h 0 (by omega)
    · refine List.map_congr_left fun i _ => ?_
      show f (a + 1 + i) = f (a + (i + 1))
      congr 1; omega

theorem mem_sSet {α : Type} [DecidableEq α] {d : Nat → α} {l : List (Nat × α)} {k : Nat} {v : α} {e : Nat × α} (h : e ∈ sSet d l k v) : e = (k, v) ∨ e ∈ l := by
  unfold sSet at h
  split at h
  · right
    exact (List.mem_filter.1 h).1
  · exact mem_sPut h

theorem homeWins_wr {s : State} {a : Nat} {v : Word} (h : s.homeWins = []) (ha : a < Reg.winWin 0 ∨ Reg.winWin 64 ≤ a) : (s.wr a v).homeWins = [] := by
  unfold State.homeWins at h ⊢
  rw [List.filterMap_eq_nil_iff] at h ⊢
  intro e he
  rcases mem_sSet he with rfl | he
  · exact if_neg (by dsimp only; omega)
  · exact h e he

theorem unit_counters_no_window : ∀ u, u < 28 → (cntWr u < Reg.winWin 0 ∨ Reg.winWin 64 ≤ cntWr u) ∧ (16 ≤ u → (Reg.MEMC_CH_STATUS (Reg.chanWin (u - 16)) < Reg.winWin 0 ∨ Reg.winWin 64 ≤ Reg.MEMC_CH_STATUS (Reg.chanWin (u - 16))) ∧ Reg.MEMC_CH_STATUS (Reg.chanWin (u - 16)) = unitStatus u) := by decide

theorem unitFailed_count {s : State} {l u : Nat} (hp : (s.place l).unit = some u) (n : Nat) : (s.bump64 (cntWr u) n).unitFailed u = s.unitFailed u := by
  have c := unit_counters_ne u (place_unit_lt hp).1
  unfold State.unitFailed State.unitState State.fld
  rw [rd_bump64, if_neg c.2.2.2]

theorem find_filter_line {l m : Nat} (w : List WcEntry) (h : m ≠ l) : (w.filter fun e => e.line != l).find? (fun e => e.line == m) = w.find? (fun e => e.line == m) := by
  induction w with
  | nil => rfl
  | cons x r ih =>
    rw [List.filter_cons]
    by_cases hx : x.line = l
    · rw [if_neg (by simp [hx]), List.find?_cons_of_neg (by simp; omega), ih]
    · rw [if_pos (by simp [hx])]
      by_cases hm : x.line = m
      · rw [List.find?_cons_of_pos (by simp [hm]), List.find?_cons_of_pos (by simp [hm])]
      · rw [List.find?_cons_of_neg (by simp [hm]), List.find?_cons_of_neg (by simp [hm]), ih]

/-- With no lane in error the code finds nothing. -/
theorem errFound_clean (s : State) (l : Nat) : s.errFound l ⟨[], false⟩ = s := by
  have h : s.codeOut l [] = .clean := by
    unfold State.codeOut
    cases s.place l <;> rfl
  unfold State.errFound
  split
  · rfl
  · rw [h]
    split <;> rfl

/-- The lanes found in a line of a unit make its stored error, or none. -/
theorem errFound_unit {s : State} {l u : Nat} (hp : (s.place l).unit = some u) (hq : s.poisoned l = false) (e : LaneErr) :
    (s.codeOut l e.lanes = .clean → s.errFound l e = s) ∧
    (s.codeOut l e.lanes = .corrects → s.errFound l e = s.setErr l (.ce (laneSymbol e true))) ∧
    (s.codeOut l e.lanes = .detects → s.errFound l e = s.setErr l (.ue (laneSymbol e e.located))) := by
  unfold State.errFound
  rw [hq, if_neg (by decide)]
  cases hx : s.place l with
  | tile c => rw [hx] at hp; cases hp
  | _ => exact ⟨fun h => by rw [h], fun h => by rw [h], fun h => by rw [h]⟩

/-- One lane in error is always corrected. -/
theorem codeOut_lane {s : State} {l u : Nat} (hp : (s.place l).unit = some u) {x : Nat} (h : x < 40) : s.codeOut l [x] = .corrects := by
  have d (w : Nat) : devices w [x] = 1 := by simp [devices, List.eraseDups_cons]
  unfold State.codeOut
  cases hx : s.place l with
  | fast k => simp [stackCode, d, show x < 72 by omega]
  | cap c =>
    simp only [chanCode, List.filter_cons, h, decide_true, if_true, List.filter_nil, d]
    split <;> simp_all
  | tile c => rw [hx] at hp; cases hp
  | ctrl => rw [hx] at hp; cases hp
  | absent => rw [hx] at hp; cases hp

/-- The losses that hold after the record is written are those written. -/
theorem losses_lossWrite (s : State) (l : List (Nat × Nat)) : (s.lossWrite l).losses = l := by
  have key (n : Nat) (hn : ∀ r, s.lossRec = some r → n = (r.rseq + 1) % 2 ^ 32) :
      State.losses (if s.lossOnB ∨ s.nvm.lossA = none then { s with nvm := { s.nvm with lossA := some ⟨n, s.serial, l⟩ } }
        else { s with nvm := { s.nvm with lossB := some ⟨n, s.serial, l⟩ } }) = l := by
    split
    · next h =>
      have : ¬ State.lossOnB { s with nvm := { s.nvm with lossA := some ⟨n, s.serial, l⟩ } } = true := by
        show ¬ (match (some ⟨n, s.serial, l⟩ : Option LossRec), s.nvm.lossB with
          | none, some _ => true
          | some a, some b => newer32 b.rseq a.rseq
          | _, none => false) = true
        cases hb : s.nvm.lossB with
        | none => simp
        | some b =>
          have hr : n = (b.rseq + 1) % 2 ^ 32 := by
            refine hn b ?_
            unfold State.lossRec
            rcases h with h | h
            · rw [if_pos h, hb]
            · rw [if_pos (by unfold State.lossOnB; rw [h, hb]), hb]
          dsimp only
          unfold newer32
          rw [Bool.and_eq_true, decide_eq_true_eq, decide_eq_true_eq]
          omega
      unfold State.losses State.lossRec
      rw [if_neg this]
      exact if_pos rfl
    · next h =>
      rw [not_or] at h
      have : State.lossOnB { s with nvm := { s.nvm with lossB := some ⟨n, s.serial, l⟩ } } = true := by
        show (match s.nvm.lossA, (some ⟨n, s.serial, l⟩ : Option LossRec) with
          | none, some _ => true
          | some a, some b => newer32 b.rseq a.rseq
          | _, none => false) = true
        cases ha : s.nvm.lossA with
        | none => exact absurd ha h.2
        | some a =>
          have hr : n = (a.rseq + 1) % 2 ^ 32 := hn a (by unfold State.lossRec; rw [if_neg h.1, ha])
          dsimp only
          unfold newer32
          rw [Bool.and_eq_true, decide_eq_true_eq, decide_eq_true_eq]
          omega
      unfold State.losses State.lossRec
      rw [if_pos this]
      exact if_pos rfl
  exact key _ fun r hr => by rw [hr]

/-- A capability that is cleared reads 0. -/
theorem working_capClear (s : State) (b : Nat) : (s.capClear b).working b = false := by
  have hv := (s.rd Reg.ID_CAPS_EFFECTIVE).isLt
  unfold State.capClear State.working
  rw [rd_wr_same, BitVec.toNat_ofNat, Nat.mod_eq_of_lt (by omega)]
  generalize (s.rd Reg.ID_CAPS_EFFECTIVE).toNat = v
  cases h : bit v b with
  | false => rw [if_neg (by decide), Nat.sub_zero]; exact h
  | true =>
    rw [if_pos rfl]
    unfold bit at h ⊢
    have : (v - 2 ^ b) / 2 ^ b = v / 2 ^ b - 1 := by
      have := Nat.sub_mul_div v (2 ^ b) 1
      rwa [Nat.mul_one] at this
    rw [this]
    simp only [beq_iff_eq, beq_eq_false_iff_ne, ne_eq] at h ⊢
    omega

/-- A loss writes no register but those of the log. -/
theorem rd_addLoss (s : State) (kind index a : Nat) (h1 : a ≠ Reg.BWL_LOG_STATUS) (h2 : a ≠ Reg.BWL_EVENT) (h3 : a ≠ Reg.BWL_CNT 0) :
    (s.addLoss kind index).rd a = s.rd a := by
  have w (t : State) (l : List (Nat × Nat)) : (t.lossWrite l).rd a = t.rd a := by
    unfold State.lossWrite
    dsimp only
    split <;> rfl
  unfold State.addLoss
  split
  · rfl
  · unfold State.putLoss
    dsimp only
    have key (t : State) (ht : t.rd a = s.rd a) (l : List (Nat × Nat)) (c : Prop) [Decidable c] : (if c then t else t.lossWrite l).rd a = s.rd a := by
      split
      · exact ht
      · exact (w _ _).trans ht
    refine key _ ?_ _ _
    have hg : (s.logCode 7 0).rd a = s.rd a := rd_log _ _ _ _ _ _ h1 h2 h3
    split
    · split
      · exact hg
      · rfl
    · rfl

/-- A loss holds once it is recorded: while no configuration is being written and the record has room. -/
theorem losses_addLoss (s : State) (kind index : Nat) (hc : s.bwl.cfgNew = none) (hl : s.losses.length < 1000) :
    (kind, index) ∈ (s.addLoss kind index).losses := by
  have hlog : (s.logCode 7 0).losses = s.losses := by
    have e : (s.logCode 7 0).serial = s.serial := by
      unfold State.serial State.logCode
      rw [rd_log _ _ _ _ _ _ (by decide) (by decide) (by decide)]
    have n : (s.logCode 7 0).nvm = s.nvm := by
      unfold State.logCode
      rw [log_eq]
    unfold State.losses State.lossRec State.lossOnB
    rw [e, n]
  unfold State.addLoss
  rw [hc, if_neg (by decide)]
  unfold State.putLoss
  dsimp only
  have key (t : State) (ht : t.losses = s.losses) :
      (kind, index) ∈ (if t.losses.contains (kind, index) ∨ 1000 ≤ t.losses.length then t else t.lossWrite (t.losses ++ [(kind, index)])).losses := by
    split
    · next h =>
      rcases h with h | h
      · exact List.contains_iff_mem.1 h
      · rw [ht] at h; omega
    · rw [losses_lossWrite]
      exact List.mem_append_right _ (List.mem_singleton.2 rfl)
  refine key _ ?_
  split
  · split
    · exact hlog
    · rfl
  · rfl

/-- A request for service sets its bit and writes no register but those of the request and its event. -/
theorem rd_service (s : State) (f : Field) (a : Nat) (h0 : a ≠ Reg.RAS_SERVICE_REQUEST) (h : a ≠ Reg.RAS_EVENT) (h' : a ≠ Reg.RAS_CNT_SERVICE)
    (h1 : a ≠ Reg.BWL_LOG_STATUS) (h2 : a ≠ Reg.BWL_EVENT) (h3 : a ≠ Reg.BWL_CNT 0) : (s.service f).rd a = s.rd a := by
  unfold State.service
  split
  · rfl
  · dsimp only
    rw [rd_event _ _ _ _ _ _ h h' h1 h2 h3, rd_setFlds, if_neg h0]

theorem flag_service (s : State) (f : Field) (hf : f.ok = true) (ha : Fld.RAS_SERVICE_REQUEST_ANY.apart f = true) (hw : f.hi = f.lo) :
    (s.service f).flag Reg.RAS_SERVICE_REQUEST f = true := by
  unfold State.service
  split
  · assumption
  · dsimp only
    unfold State.flag State.fld
    rw [rd_event _ _ _ _ _ _ (by decide) (by decide) (by decide) (by decide) (by decide), rd_setFlds, if_pos rfl]
    simp only [List.foldl_cons, List.foldl_nil]
    rw [getF_setF_apart _ _ _ _ (by decide) hf ha, getF_setF_same _ _ _ hf, hw, Nat.add_sub_cancel_left]
    rfl

theorem addLoss_mem (s : State) (kind index : Nat) : (s.addLoss kind index).mem = s.mem := by
  have w (t : State) (l : List (Nat × Nat)) : (t.lossWrite l).mem = t.mem := by
    unfold State.lossWrite
    dsimp only
    split <;> rfl
  have g : (s.logCode 7 0).mem = s.mem := State.log_mem _ _ _ _ _
  have key (t : State) (ht : t.mem = s.mem) (l : List (Nat × Nat)) (c : Prop) [Decidable c] : (if c then t else t.lossWrite l).mem = s.mem := by
    split
    · exact ht
    · exact (w _ _).trans ht
  unfold State.addLoss
  split
  · rfl
  · unfold State.putLoss
    refine key _ ?_ _ _
    split
    · split
      · exact g
      · rfl
    · rfl

/-- What a unit's failure records leaves the memory as it stands. -/
theorem unitFail_mem (s : State) (u : Nat) : (s.unitFail u).mem = s.mem := by
  unfold State.unitFail
  dsimp only
  split <;> rw [State.service_mem, addLoss_mem, event_mem, State.log_mem, State.setFld_mem, State.capClear, State.wr_mem, State.setFld_mem]

/-- What an uncorrectable read can do to the entries: it may lose those of a unit that fails. -/
theorem ueRead_wc (s : State) (u l y : Nat) : ∀ e ∈ (s.ueRead u l y).mem.wc, e ∈ s.mem.wc := by
  intro e he
  unfold State.ueRead at he
  have hu : (s.uncorrectable u l y).mem = s.mem := by
    unfold State.uncorrectable
    rw [capture_mem]
    exact event_mem _ _ _ _ _
  unfold State.ueWatch at he
  dsimp only at he
  split at he
  · rw [unitFail_mem] at he
    unfold State.unitWcLost at he
    split at he
    · exact hu ▸ he
    · exact hu ▸ (List.mem_filter.1 he).1
  · exact hu ▸ he

theorem corrected_wc (s : State) (u l y : Nat) : (s.corrected u l y).mem.wc = s.mem.wc := by
  show (State.capture _ _ _ _).mem.wc = _
  rw [capture_mem]
  exact congrArg MemSt.wc (event_mem _ _ _ _ _)

theorem wcOcc_mem (s : State) (c : Nat) : (s.wcOcc c).mem = s.mem := State.setFld_mem _ _ _ _

theorem wcStore_wc (s : State) (e : WcEntry) : (s.wcStore e).mem.wc = s.mem.wc := rfl

theorem setErr_wc (s : State) (l : Nat) (e : LineErr) : (s.setErr l e).mem.wc = s.mem.wc := rfl

theorem setPoison_wc (s : State) (l : Nat) (b : Bool) : (s.setPoison l b).mem.wc = s.mem.wc := rfl

/-- A write-back leaves no entry of its line, and makes none. -/
theorem wcFlush_wc (s : State) (e : WcEntry) : ∀ x ∈ (s.wcFlush e).mem.wc, x ∈ s.mem.wc ∧ x.line ≠ e.line := by
  have drop : ∀ x ∈ (s.wcDrop e.line).mem.wc, x ∈ s.mem.wc ∧ x.line ≠ e.line := by
    intro x hx
    have := List.mem_filter.1 hx
    exact ⟨this.1, by simpa using this.2⟩
  intro x hx
  unfold State.wcFlush at hx
  split at hx
  · refine drop x ?_
    dsimp only at hx
    rw [wcOcc_mem] at hx
    split at hx
    · exact hx
    · split at hx
      · rw [setErr_wc, setPoison_wc, State.bump64_mem, wcStore_wc] at hx
        exact hx
      · split at hx
        · rw [event_mem, State.bump64_mem] at hx
          exact hx
        · rw [event_mem] at hx
          have := ueRead_wc _ _ _ _ x hx
          rwa [State.bump64_mem] at this
        · rw [wcStore_wc, corrected_wc, State.bump64_mem] at hx
          exact hx
        · rw [wcStore_wc, State.bump64_mem] at hx
          exact hx
  · exact drop x hx

/-- Flushing a list of entries leaves none of their lines. -/
theorem wcFlushList_wc (l : List WcEntry) (s : State) : ∀ x ∈ (s.wcFlushList l).mem.wc, x ∈ s.mem.wc ∧ ∀ e ∈ l, x.line ≠ e.line := by
  induction l generalizing s with
  | nil => exact fun x hx => ⟨hx, fun e he => nomatch he⟩
  | cons a r ih =>
    intro x hx
    have h := ih (s.wcFlush a) x hx
    have g := wcFlush_wc s a x h.1
    refine ⟨g.1, fun e he => ?_⟩
    rcases List.mem_cons.1 he with rfl | he
    · exact g.2
    · exact h.2 e he

end Sys2Proof.Machine
end

