-- ==== Sys2Proof/Laws/Ports.lean ====
section
/-! SUPPORT. A flit on a lane that hears it is taken. -/

namespace Sys2Proof.Machine

/-- A flit that its lane hears, with its check and of the type, is handled where its control field does not take the link down. -/
theorem flitIn_accepted {s : State} {p l errs : Nat} {f : Flit} (h : s.laneHears p l) (type : Nat) (k : Bool → State → State) (ht : type ≤ ftREMAP)
    (h1 : errs ≤ 15) (h2 : f.crc = flitCrc f) (h3 : f.ftype = type) :
    s.flitIn p l errs f type k = let t := s.heard p l errs f; if t.portState p < optAlign then t else k (decide (s.rxRole p l < 16)) t := by
  obtain ⟨a1, a2, a3, a4, a5, a6⟩ := h
  unfold State.flitIn
  dsimp only
  rw [if_neg (by rw [a1, h3]; simp [a5, a6]; omega), if_neg (by omega), if_neg (by rw [h2, h3]; simp [ht])]
  rfl

/-- A codeword that its lane hears and that is beyond correction, or fails its check, is counted as lost. -/
theorem flitIn_lost {s : State} {p l errs : Nat} {f : Flit} (h : s.laneHears p l) (type : Nat) (k : Bool → State → State) :
    let w := Reg.laneWin p l
    let lost (t : State) : State := if decide (s.rxRole p l < 16) then t.rxLoss p else t
    (15 < errs → s.flitIn p l errs f type k = lost ((s.turned p l).bump48 (Reg.OPT_L_UNCORR w) 1)) ∧
      (errs ≤ 15 → f.crc ≠ flitCrc f →
        s.flitIn p l errs f type k = lost (((s.turned p l).bump48 (Reg.OPT_L_CORR w) errs).bump32 (Reg.OPT_CNT_CRC_FAIL (pw p)) 1)) := by
  obtain ⟨a1, a2, a3, a4, a5, a6⟩ := h
  refine ⟨fun h1 => ?_, fun h1 h2 => ?_⟩
  · unfold State.flitIn
    dsimp only
    rw [if_neg (by rw [a1, decide_eq_false (by omega : ¬ errs ≤ 15)]; simp [a5, a6]; omega), if_pos h1]
    rfl
  · have hc : (f.crc == flitCrc f) = false := by simpa using h2
    unfold State.flitIn
    dsimp only
    rw [if_neg (by rw [a1, hc]; simp [a5, a6]; omega), if_neg (by omega), if_pos (by rw [hc]; rfl)]
    rfl

end Sys2Proof.Machine
end

