-- ==== Sys2Proof/Laws/Reset.lean ====
section
/-! SUPPORT. What remains of registers under a filter, and the register tables of a core. -/

namespace Sys2Proof.Machine

/-- A key that a filter drops reads its default. -/
theorem sGet_filter_out {α : Type} (d : Nat → α) (p : Nat → Bool) (l : List (Nat × α)) (a : Nat) (h : p a = false) : sGet d (l.filter fun e => p e.1) a = d a := by
  induction l with
  | nil => rfl
  | cons e r ih =>
    obtain ⟨k, v⟩ := e
    rw [List.filter_cons]
    split
    · rename_i q
      rw [sGet, if_neg (by rintro rfl; rw [h] at q; exact Bool.noConfusion q), ih]
    · exact ih

/-- A key that a filter keeps reads as before. -/
theorem sGet_filter_kept {α : Type} {d : Nat → α} (l : List (Nat × α)) (q : Nat → Bool) (a : Nat) (h : q a = true) : sGet d (l.filter fun e => q e.1) a = sGet d l a := by
  induction l with
  | nil => rfl
  | cons x r ih =>
    rw [List.filter_cons]
    by_cases hx : q x.1 = true
    · rw [if_pos hx]; unfold sGet; rw [ih]
    · rw [if_neg hx, ih]
      show _ = sGet d (x :: r) a
      conv => rhs; unfold sGet
      have : x.1 ≠ a := fun e => hx (by rw [e]; exact h)
      split
      · exact absurd (by assumption) this
      · rfl

theorem rd_with_bwl (s : State) (b : BwlSt) (a : Nat) : State.rd { s with bwl := b } a = s.rd a := rfl

/-- The register at an offset of the window of a core. -/
theorem regSpec_coreWin (d p o : Nat) (hd : d < 4) (hp : p < 168) (ho : o < 0x10000) (h8 : o % 8 = 0) :
    regSpec (Reg.coreWin d p + o) = findReg Spec.coreRegs Spec.coreArrays o := by
  have e : Reg.coreWin d p + o = 0xF00010000000 + (0x1000000 * d + 0x10000 * p + o) := by unfold Reg.coreWin; omega
  generalize hx : 0x1000000 * d + 0x10000 * p + o = x at e
  rw [e]
  unfold regSpec
  rw [if_neg (by omega), if_neg (by omega), if_neg (by omega), if_neg (by omega), if_neg (by omega), if_neg (by omega), if_neg (by omega), if_pos (by omega)]
  have : past 0xF00010000000 (0xF00010000000 + x) = x := by unfold past; rw [if_pos (by omega)]; omega
  rw [this]
  unfold tdieSpec
  rw [if_pos (by omega)]
  congr 1
  omega

end Sys2Proof.Machine
end

