-- ==== Sys2Proof/Laws/Rse.lean ====
section
/-! SUPPORT. The front command of the Resident Solve Engine runs. -/

namespace Sys2Proof.Machine

/-- The front command of the queue, of the number asked for and not reserved, runs. -/
theorem rseRun_of_front {s : State} {q : RseCmd} {cmd : Nat} {k : State → RseCmd → State × RseRes} (hw : s.working capRse = true) (hq : s.rse.queue.head? = some q) (hc : 1 ≤ cmd ∧ cmd ≤ 7) :
    (q.poison = true → s.rseRun cmd k = s.rseComplete q (rseFail rsPoison)) ∧
    (q.poison = false → q.cmd = cmd → s.rseRun cmd k = if s.rseValid q = false then s.rseComplete q (rseFail rsInvalid)
          else if s.rseStateOk q = false then s.rseComplete q (rseFail rsSlotState) else (k s q).1.rseComplete q (k s q).2) := by
  obtain ⟨l, hl⟩ : ∃ l, s.rse.queue = q :: l := by
    cases e : s.rse.queue with
    | nil => rw [e] at hq; exact absurd hq (by simp)
    | cons a l => rw [e] at hq; simp at hq; exact ⟨l, by rw [hq]⟩
  unfold State.rseRun
  rw [if_neg (by rw [hw]; decide), hl]
  dsimp only
  refine ⟨fun h => if_pos h, fun h h2 => ?_⟩
  rw [if_neg (by rw [h]; decide), if_neg (by omega), if_neg (by simp [h2])]

end Sys2Proof.Machine
end

