-- ==== Sys2Proof/Machine/Package.lean ====
section
/-! DEFINITION. The package: the 9,216 lands with their names, regions and signals, the receptacles, and what of them an order has (R567,
R568, R570 to R576, R583). -/

namespace Sys2Proof.Machine

/-- A land by its row and column, each from 1 to 96 (R567). -/
structure Land where
  row : Nat
  col : Nat
  deriving DecidableEq, Repr

/-- A land of the grid. -/
def Land.valid (l : Land) : Bool := decide (1 ≤ l.row) && decide (l.row ≤ 96) && decide (1 ≤ l.col) && decide (l.col ≤ 96)

/-- Centre of a land in tenths of a millimetre, x and y, seen from the lid (R567). -/
def Land.centre (l : Land) : Int × Int := (10 * l.col - 485, 10 * l.row - 485)

/-- The nineteen row letters (R571). -/
def rowLetters : List Char :=
  ['A', 'B', 'C', 'D', 'E', 'F', 'G', 'H', 'J', 'K', 'L', 'M', 'N', 'P', 'T', 'U', 'V', 'W', 'Y']

def rowLetter (i : Nat) : Char := rowLetters.getD i 'A'

/-- The letters that name a row (R571). -/
def rowName (r : Nat) : List Char :=
  if r ≤ 19 then [rowLetter (r - 1)] else [rowLetter ((r - 20) / 19), rowLetter ((r - 20) % 19)]

/-- Signals of the sideband block (Table PKG-4). -/
inductive Sideband where
  | vsb33
  | refclkP
  | refclkN
  | resetN
  | pwrOk
  | serviceN
  | thermtripN
  | prochotN
  | alertN
  | smbClk
  | smbDat
  | bootSrc (i : Nat)
  | clkMode (i : Nat)
  | sbAddr (i : Nat)
  | pePerstN
  | peWakeN
  | uartTxd
  | uartRxd
  | spiClk
  | spiCsN
  | spiIo (i : Nat)
  | tck
  | tms
  | tdi
  | tdo
  | trstN
  | reserved
  deriving DecidableEq, Repr

/-- Electrical groups (Table PKG-9), with the power input and the clock. -/
inductive PinGroup where
  | power
  | refclk
  | s33
  | od33
  | p33
  | io18
  | none
  deriving DecidableEq, Repr

/-- Signals of a subchannel of a DDR5 block, and those of the whole channel (Table PKG-5). -/
inductive DdrPin where
  | dq (i : Nat)
  | dqsT (m : Nat)
  | dqsC (m : Nat)
  | dca (i : Nat)
  | dpar
  | dcsN (i : Nat)
  | dckT (slot : Nat)
  | dckC (slot : Nat)
  deriving DecidableEq, Repr

inductive DdrSignal where
  | sub (b : Bool) (p : DdrPin)
  | alertN
  | drstN
  | hscl
  | hsda
  | reserved
  deriving DecidableEq, Repr

/-- Signals of the PCIe block (R575): of a lane, of the reference clock, or none; `n` the negative member of the pair. -/
inductive PeSignal where
  | tx (lane : Nat) (n : Bool)
  | rx (lane : Nat) (n : Bool)
  | refclk (n : Bool)
  | reserved
  deriving DecidableEq, Repr

/-- What a land carries (R572). -/
inductive LandUse where
  | vin48
  | gnd
  | sideband (x : Sideband)
  | ddr (chan : Nat) (x : DdrSignal)
  | pcie (x : PeSignal)
  deriving DecidableEq, Repr

/-- Signal of index `k` of the sideband block (Table PKG-4). -/
def sidebandAt (k : Nat) : Sideband :=
  if k ≤ 7 then .vsb33
  else if k = 18 ∨ k = 19 then .bootSrc (k - 18)
  else if k = 20 ∨ k = 21 then .clkMode (k - 20)
  else if 22 ≤ k ∧ k ≤ 24 then .sbAddr (k - 22)
  else if 31 ≤ k ∧ k ≤ 34 then .spiIo (k - 31)
  else
    (([(8, .refclkP), (9, .refclkN), (10, .resetN), (11, .pwrOk), (12, .serviceN), (13, .thermtripN), (14, .prochotN), (15, .alertN),
        (16, .smbClk), (17, .smbDat), (25, .pePerstN), (26, .peWakeN), (27, .uartTxd), (28, .uartRxd), (29, .spiClk), (30, .spiCsN),
        (35, .tck), (36, .tms), (37, .tdi), (38, .tdo), (39, .trstN)] : List (Nat × Sideband)).lookup k).getD .reserved

/-- Electrical group of a sideband signal (Table PKG-4). -/
def Sideband.group : Sideband → PinGroup
  | .vsb33 => .power
  | .refclkP | .refclkN => .refclk
  | .resetN | .pwrOk | .bootSrc _ | .clkMode _ | .sbAddr _ => .s33
  | .serviceN | .thermtripN | .prochotN | .alertN | .smbClk | .smbDat | .peWakeN => .od33
  | .pePerstN => .p33
  | .uartTxd | .uartRxd | .spiClk | .spiCsN | .spiIo _ | .tck | .tms | .tdi | .tdo | .trstN => .io18
  | .reserved => .none

/-- Pin of index `k` below 76 of a subchannel (Table PKG-5). -/
def ddrPinAt (k : Nat) : DdrPin :=
  if k < 40 then .dq k
  else if k < 60 then if k % 2 = 0 then .dqsT ((k - 40) / 2) else .dqsC ((k - 40) / 2)
  else if k < 67 then .dca (k - 60)
  else if k = 67 then .dpar
  else if k < 72 then .dcsN (k - 68)
  else if k % 2 = 0 then .dckT ((k - 72) / 2)
  else .dckC ((k - 72) / 2)

/-- Signal of index `k` of a DDR5 block (Table PKG-5). -/
def ddrSignalAt (k : Nat) : DdrSignal :=
  if k < 76 then .sub false (ddrPinAt k)
  else if k < 152 then .sub true (ddrPinAt (k - 76))
  else if k = 152 then .alertN
  else if k = 153 then .drstN
  else if k = 154 then .hscl
  else if k = 155 then .hsda
  else .reserved

/-- Signal of index `k` of the PCIe block (R575). -/
def peSignalAt (k : Nat) : PeSignal :=
  if k < 32 then .tx (k / 2) (k % 2 == 1)
  else if k < 64 then .rx ((k - 32) / 2) (k % 2 == 1)
  else if k < 66 then .refclk (k == 65)
  else .reserved

/-- Index of the signal position at block-local row `i` and column `j`, of `w` a row; none for a GND land (R572). -/
def landIndex (w i j : Nat) : Option Nat := if (i + j) % 2 = 0 then none else some (w * i + j / 2)

/-- A block's land by its index. -/
def blockUse (w i j : Nat) (f : Nat → LandUse) : LandUse :=
  match landIndex w i j with
  | none => .gnd
  | some k => f k

/-- What a land carries (Table PKG-3, R573 to R575). -/
def Land.use (l : Land) : LandUse :=
  if l.row ≤ 6 ∧ 37 ≤ l.col ∧ l.col ≤ 60 then .vin48
  else if l.row ≤ 6 ∧ 21 ≤ l.col ∧ l.col ≤ 36 then blockUse 8 (l.row - 1) (l.col - 21) fun k => .sideband (sidebandAt k)
  else if l.col ≤ 20 then
    blockUse 10 ((l.row - 1) % 16) (l.col - 1) fun k => .ddr ((l.row - 1) / 16) (ddrSignalAt k)
  else if 77 ≤ l.col then
    blockUse 10 ((l.row - 1) % 16) (l.col - 77) fun k => .ddr (6 + (l.row - 1) / 16) (ddrSignalAt k)
  else if 91 ≤ l.row ∧ 37 ≤ l.col ∧ l.col ≤ 60 then blockUse 12 (l.row - 91) (l.col - 37) fun k => .pcie (peSignalAt k)
  else .gnd

/-- The fuses of the part report a unit present: what ID_CAPS reads once it is loaded (R597). -/
def State.fused (s : State) (b : Nat) : Bool := bit s.fuse.caps.toNat b

/-- A land is connected inside the package: those of an absent unit are not, and reserved ones carry nothing (R573 to R576). -/
def State.landConnected (s : State) (l : Land) : Bool :=
  match l.use with
  | .ddr c x => x != .reserved && s.fused (capChan c)
  | .pcie x => x != .reserved && s.fused capPcie
  | .sideband x => x != .reserved
  | .vin48 | .gnd => true

/-- A land that the boundary-scan chain covers (R583). -/
def State.landScanned (s : State) (l : Land) : Bool :=
  match l.use with
  | .sideband x =>
    (x.group == .s33 || x.group == .od33 || x.group == .p33 || x.group == .io18) &&
      !(x == .tck || x == .tms || x == .tdi || x == .tdo || x == .trstN)
  | .ddr _ _ => s.landConnected l
  | _ => false

/-- Centre of the receptacle of a port in millimetres, x, and the sign of the edge that it lies on (R568). -/
def receptacle (port : Nat) : Int × Int := (22 * (port % 4 : Nat) - 33, if port < 4 then -1 else 1)

/-- A receptacle is fitted: a port of an absent F-die has none (R570). -/
def State.receptacleFitted (s : State) (port : Nat) : Bool := s.fused (capPort port)

end Sys2Proof.Machine
end

