-- ==== Sys2Proof/WellFormed.lean ====
section
/-! DEFINITION. Operands that the hardware has: units by their numbers, and symbols, packets and flits whose fields fit. -/

namespace Sys2Proof

/-- A writer or reader of registers: a hart is one of 68 (R245). -/
def Agent.wf : Agent → Bool
  | .bowline => true
  | .lanyard => true
  | .hart h _ => decide (h < 68)

/-- Fields that fit a tick symbol (Table HLY-1). -/
def TickSymbol.wf (y : TickSymbol) : Bool :=
  decide (y.verMajor < 16) && decide (y.verMinor < 16) && decide (y.domain < 4096) && decide (y.gen < 256)
    && decide (y.slips < 256) && decide (y.children < 128) && decide (y.seq < 65536) && decide (y.level < 4) && decide (y.step < 2 ^ 48)
    && decide (y.timeA < 2 ^ 64) && decide (y.timeB < 2 ^ 64)

/-- A packet: a payload of at most 256 bytes (R347). -/
def Packet.wf (p : Packet) : Bool := decide (p.payload.length ≤ 256)

/-- A flit (Table OPT-4). -/
def Flit.wf (f : Flit) : Bool :=
  decide (f.seq < 4096) && decide (f.ftype < 16) && decide (f.rsv < 16) && decide (f.ackSeq < 4096) && decide (f.crTc < 8)
    && decide (f.crTotal < 4096) && decide (f.rsv2 < 16) && decide (f.payload.length = 632) && decide (f.crc < 2 ^ 32)

/-- A memory unit: stacks 0 to 11, and capacity channels 0 to 11 under 16 to 27 (R314, R323). -/
def memUnit (u : Nat) : Bool := decide (u < 12) || (decide (16 ≤ u) && decide (u < 28))

/-- The operands of a command name what the hardware has. -/
def Instr.wf : Instr → Bool
  | .add core _ _ => decide (core < 640)
  | .sub core _ _ => decide (core < 640)
  | .and core _ _ => decide (core < 640)
  | .or core _ _ => decide (core < 640)
  | .xor core _ _ => decide (core < 640)
  | .sll core _ _ => decide (core < 640)
  | .srl core _ _ => decide (core < 640)
  | .sra core _ _ => decide (core < 640)
  | .mul core _ _ => decide (core < 640)
  | .mulhu core _ _ => decide (core < 640)
  | .divu core _ _ => decide (core < 640)
  | .remu core _ _ => decide (core < 640)
  | .min core _ _ => decide (core < 640)
  | .max core _ _ => decide (core < 640)
  | .minu core _ _ => decide (core < 640)
  | .maxu core _ _ => decide (core < 640)
  | .slt core _ _ => decide (core < 640)
  | .sltu core _ _ => decide (core < 640)
  | .seq core _ _ => decide (core < 640)
  | .sload core _ => decide (core < 640)
  | .sstore core _ => decide (core < 640)
  | .lil core _ => decide (core < 640)
  | .lih core _ => decide (core < 640)
  | .beq core _ => decide (core < 640)
  | .bne core _ => decide (core < 640)
  | .blt core _ => decide (core < 640)
  | .bge core _ => decide (core < 640)
  | .bltu core _ => decide (core < 640)
  | .bgeu core _ => decide (core < 640)
  | .jal core _ => decide (core < 640)
  | .jr core _ => decide (core < 640)
  | .loop core _ => decide (core < 640)
  | .halt core _ => decide (core < 640)
  | .twaita core _ => decide (core < 640)
  | .twaitn core _ => decide (core < 640)
  | .twaitMoment core => decide (core < 640)
  | .done core _ => decide (core < 640)
  | .doneSignal core => decide (core < 640)
  | .seminc core _ => decide (core < 640)
  | .semwait core _ => decide (core < 640)
  | .semread core _ => decide (core < 640)
  | .fence core _ => decide (core < 640)
  | .arm core _ => decide (core < 640)
  | .readsys core _ => decide (core < 640)
  | .evpost core _ => decide (core < 640)
  | .trap core _ => decide (core < 640)
  | .tcDoorbell agent die phys _ => agent.wf && decide (die < 4) && decide (phys < 168)
  | .programLoadComplete core => decide (core < 640)
  | .tcCtx agent die phys _ => agent.wf && decide (die < 4) && decide (phys < 168)
  | .scrubComplete die phys => decide (die < 4) && decide (phys < 168)
  | .stop agent die phys => agent.wf && decide (die < 4) && decide (phys < 168)
  | .stopComplete core => decide (core < 640)
  | .clearFault agent die phys => agent.wf && decide (die < 4) && decide (phys < 168)
  | .strandLost die strand => decide (die < 4) && decide (strand < 21)
  | .tcSemValue agent die sem _ => agent.wf && decide (die < 4) && decide (sem < 256)
  | .tcSemOwner agent die sem _ => agent.wf && decide (die < 4) && decide (sem < 256)
  | .tcEvqOwner agent die queue _ => agent.wf && decide (die < 4) && decide (queue < 8)
  | .tcEvqBase agent die queue _ => agent.wf && decide (die < 4) && decide (queue < 8)
  | .tcEvqCtrl agent die queue _ => agent.wf && decide (die < 4) && decide (queue < 8)
  | .mma core _ => decide (core < 640)
  | .mcomb core _ => decide (core < 640)
  | .mrec core _ => decide (core < 640)
  | .meClearFlags agent die phys => agent.wf && decide (die < 4) && decide (phys < 168)
  | .meClearExc agent die phys => agent.wf && decide (die < 4) && decide (phys < 168)
  | .meClearHist agent die phys => agent.wf && decide (die < 4) && decide (phys < 168)
  | .vadd core _ => decide (core < 640)
  | .vsub core _ => decide (core < 640)
  | .vmul core _ => decide (core < 640)
  | .vfma core _ => decide (core < 640)
  | .vfnma core _ => decide (core < 640)
  | .vmin core _ => decide (core < 640)
  | .vmax core _ => decide (core < 640)
  | .vabs core _ => decide (core < 640)
  | .vneg core _ => decide (core < 640)
  | .vand core _ => decide (core < 640)
  | .vor core _ => decide (core < 640)
  | .vxor core _ => decide (core < 640)
  | .vsll core _ => decide (core < 640)
  | .vsrl core _ => decide (core < 640)
  | .vsra core _ => decide (core < 640)
  | .vred core _ => decide (core < 640)
  | .vcmp core _ => decide (core < 640)
  | .vsel core _ => decide (core < 640)
  | .vmov core _ => decide (core < 640)
  | .vsplat core _ => decide (core < 640)
  | .viota core _ => decide (core < 640)
  | .vrot core _ => decide (core < 640)
  | .vmand core _ => decide (core < 640)
  | .vmor core _ => decide (core < 640)
  | .vmxor core _ => decide (core < 640)
  | .vmandn core _ => decide (core < 640)
  | .vmset core _ => decide (core < 640)
  | .vmnot core _ => decide (core < 640)
  | .vcvt core _ => decide (core < 640)
  | .vpack core _ => decide (core < 640)
  | .vunpack core _ => decide (core < 640)
  | .rcps core _ => decide (core < 640)
  | .rsqs core _ => decide (core < 640)
  | .exp2s core _ => decide (core < 640)
  | .vrand core _ => decide (core < 640)
  | .vld core _ => decide (core < 640)
  | .vst core _ => decide (core < 640)
  | .vstc core _ => decide (core < 640)
  | .vmld core _ => decide (core < 640)
  | .vmst core _ => decide (core < 640)
  | .vhrec core _ => decide (core < 640)
  | .veClearFlags agent die phys => agent.wf && decide (die < 4) && decide (phys < 168)
  | .veClearExc agent die phys => agent.wf && decide (die < 4) && decide (phys < 168)
  | .veClearHist agent die phys => agent.wf && decide (die < 4) && decide (phys < 168)
  | .fxfer core _ => decide (core < 640)
  | .fxferComplete core => decide (core < 640)
  | .armedTransferStart core => decide (core < 640)
  | .frec core _ => decide (core < 640)
  | .fidClearFlags agent die phys => agent.wf && decide (die < 4) && decide (phys < 168)
  | .fidClearExc agent die phys => agent.wf && decide (die < 4) && decide (phys < 168)
  | .fidClearHist agent die phys => agent.wf && decide (die < 4) && decide (phys < 168)
  | .timeExchange => true
  | .timeReq src sym => decide (src < 65536) && sym.wf
  | .timeResp src sym => decide (src < 65536) && sym.wf
  | .slipState src sym => decide (src < 65536) && sym.wf
  | .tickExtend sym => sym.wf
  | .tickFinal sym => sym.wf
  | .tickFault sym => sym.wf
  | .joinComplete => true
  | .guardPoint => true
  | .decisionPoint => true
  | .tickEnd => true
  | .boundaryHold => true
  | .quietBandStart => true
  | .hlyCtrl agent _ => agent.wf
  | .hlyParam agent _ => agent.wf
  | .hlyHostDone agent _ => agent.wf
  | .hlyTalqArm1 agent queue _ => agent.wf && decide (queue < 7)
  | .hlyTalqCancel agent queue _ => agent.wf && decide (queue < 7)
  | .programStart die => decide (die < 4)
  | .fidTransfer die => decide (die < 4)
  | .fabricPut f => decide (f < 2)
  | .replicaRefresh f => decide (f < 2)
  | .checkpointCut => true
  | .rseSubmit => true
  | .hostEvent => true
  | .fdieDone f => decide (f < 2)
  | .tickRd hart _ => decide (hart < 68)
  | .tickWait hart _ => decide (hart < 68)
  | .tickWaitEnd hart => decide (hart < 68)
  | .tickWaitInterrupt hart _ _ => decide (hart < 68)
  | .tickDone hart _ => decide (hart < 68)
  | .tickDoneDrained hart => decide (hart < 68)
  | .fwait hart _ => decide (hart < 68)
  | .rseSubmitInsn hart _ _ => decide (hart < 68)
  | .faccD hart _ _ => decide (hart < 68)
  | .faccS hart _ _ => decide (hart < 68)
  | .vdot4I8 hart _ => decide (hart < 68)
  | .vdot4E4m3 hart _ => decide (hart < 68)
  | .vdot4E5m2 hart _ => decide (hart < 68)
  | .vdot2Bf16 hart _ => decide (hart < 68)
  | .vdot2WS hart _ => decide (hart < 68)
  | .vfredusum hart _ => decide (hart < 68)
  | .vfwredusum hart _ => decide (hart < 68)
  | .apertureAccess hart _ _ _ => decide (hart < 68)
  | .hostFtCache agent index _ => agent.wf && decide (index < 24)
  | .hostHartRelease agent index _ => agent.wf && decide (index < 2)
  | .setup => true
  | .update => true
  | .factor => true
  | .solve => true
  | .refine => true
  | .iter => true
  | .rseRelease => true
  | .rseLost => true
  | .rseZeroingDone => true
  | .memoryRead line _ => decide (line % 64 = 0)
  | .memoryWrite _ _ _ => true
  | .wcAgeExpiry line => decide (line % 64 = 0)
  | .memcWcFlush agent => agent.wf
  | .dramRefresh unit => decide (unit < 12)
  | .scrubRead unit _ => memUnit unit
  | .scrubPeriodEnd unit => memUnit unit
  | .memoryFail unit => memUnit unit
  | .rd packet => packet.wf
  | .wr packet => packet.wf
  | .atomic packet => packet.wf
  | .acc packet => packet.wf
  | .refresh packet => packet.wf
  | .tfence packet => packet.wf
  | .cpl p => p.wf
  | .rdData p => p.wf
  | .atomicData p => p.wf
  | .releaseCmd packet => packet.wf
  | .requestRetry port tag => decide (port < 8) && decide (tag < 2 ^ 20)
  | .requestFailure port tag => decide (port < 8) && decide (tag < 2 ^ 20)
  | .releaseSend dst => decide (dst < 65536)
  | .replayLeaseExpiry src sport tag => decide (src < 65536) && decide (sport < 8) && decide (tag < 2 ^ 20)
  | .backoffExpiry _ dst line => decide (dst < 65536) && decide (line % 64 = 0)
  | .toApplyComplete => true
  | .hwsWinCfg agent win _ => agent.wf && decide (win < 64)
  | .idleFlit port lane _ flit => decide (port < 8) && decide (lane < 18) && flit.wf
  | .dataFlit port lane _ flit => decide (port < 8) && decide (lane < 18) && flit.wf
  | .tickFlit port lane _ flit => decide (port < 8) && decide (lane < 18) && flit.wf
  | .nakFlit port lane _ flit => decide (port < 8) && decide (lane < 18) && flit.wf
  | .trainFlit port lane _ flit _ => decide (port < 8) && decide (lane < 18) && flit.wf
  | .calFlit port lane _ flit => decide (port < 8) && decide (lane < 18) && flit.wf
  | .remapFlit port lane _ flit _ _ _ => decide (port < 8) && decide (lane < 18) && flit.wf
  | .remapTakeEffect port _ => decide (port < 8)
  | .flitTransmit port => decide (port < 8)
  | .nakResend port => decide (port < 8)
  | .replayTimeout port => decide (port < 8)
  | .trainingStepDone port _ _ => decide (port < 8)
  | .trainingStepTimeout port _ => decide (port < 8)
  | .trainingRetry port => decide (port < 8)
  | .laneWindowEnd port => decide (port < 8)
  | .laneSignalLoss port _ => decide (port < 8)
  | .calDue port => decide (port < 8)
  | .calBurstEnd port => decide (port < 8)
  | .opticalEngineFail port => decide (port < 8)
  | .retrain agent port => agent.wf && decide (port < 8)
  | .mgmtOnly agent port _ => agent.wf && decide (port < 8)
  | .sbpor => true
  | .vsb33Low => true
  | .pwrok _ => true
  | .pwrOkRise => true
  | .vin48OutOfRange => true
  | .pin _ => true
  | .resetNRelease bootSrc clkMode sbAddr => decide (bootSrc < 4) && decide (clkMode < 4) && decide (sbAddr < 8)
  | .thermRestart => true
  | .releaseStep => true
  | .releaseRequest step => decide (1 ≤ step) && decide (step ≤ 10)
  | .stepReady step _ => decide (1 ≤ step) && decide (step ≤ 7)
  | .stepTimeout _ => true
  | .configurationChoice _ => true
  | .firmwareEntry _ => true
  | .watchdogExpiry _ => true
  | .wdogKick agent _ => agent.wf
  | .healthConfirm agent _ _ => agent.wf
  | .rstCtrlReset agent _ _ => agent.wf
  | .otherSlotCheck => true
  | .cfgWriteDone _ _ => true
  | .fabricConfigRequest _ => true
  | .fabricConfigTimeout _ => true
  | .hello1 port p => decide (port < 8) && p.wf
  | .hello3 port p => decide (port < 8) && p.wf
  | .dataCmd p => p.wf
  | .closeCmd p => p.wf
  | .freset p => p.wf
  | .sessionTimeout session => decide (session < 2 ^ 32)
  | .commandProgressTimeout _ req => decide (req < 2 ^ 32)
  | .getInfo => true
  | .regRead _ => true
  | .regWrite _ => true
  | .closeSession => true
  | .setNode => true
  | .assign => true
  | .setEpoch => true
  | .unassign => true
  | .join => true
  | .leave => true
  | .tickParams => true
  | .resume => true
  | .route => true
  | .setCap => true
  | .journal => true
  | .telemetry => true
  | .logRead => true
  | .fatalRead => true
  | .lossRead => true
  | .lossClear _ => true
  | .cfgBegin => true
  | .cfgData => true
  | .cfgCommit => true
  | .fwBegin _ => true
  | .fwData _ => true
  | .fwCommit _ => true
  | .fwCancel _ => true
  | .resetCmd => true
  | .belayExit _ => true
  | .attest => true
  | .mailboxGo agent _ => agent.wf
  | .smbStatus => true
  | .smbIdentity => true
  | .smbLog _ data => decide (data.length ≤ 255)
  | .smbFatal _ data => decide (data.length ≤ 255)
  | .smbCfgBegin _ data => decide (data.length ≤ 255)
  | .smbCfgData _ data => decide (data.length ≤ 255)
  | .smbCfgCommit _ => true
  | .smbCfgResult => true
  | .smbFwBegin _ data _ => decide (data.length ≤ 255)
  | .smbFwData _ data _ => decide (data.length ≤ 255)
  | .smbFwCommit _ _ => true
  | .smbFwResult => true
  | .smbBelayExit _ _ => true
  | .smbReset _ _ => true
  | .smbAlertResponse => true
  | .telemetryRecord => true
  | .sensorSample junction stackT _ _ _ => junction.map List.length == [8, 8, 8, 8, 4, 2, 2] && stackT.length == 12
  | .governorCompare => true
  | .prochotIn => true
  | .cutDrained => true
  | .shardWritten _ _ => true
  | .nodeManifestCommit => true
  | .partitionManifestCommit _ _ => true
  | .cutTimeout => true
  | .gatherTimeout => true
  | .cutHoldEnd => true
  | .childSilence child => decide (child < 65536)
  | .ckpRestore agent _ _ => agent.wf
  | .restoreComplete _ => true
  | .ckpRelease agent => agent.wf
  | .fatalError _ _ => true
  | .fatalRecordTimeout => true
  | .coolingCheck _ => true
  | .domainPowerDown domain => decide (domain < 164)
  | .domainPowerUp domain => decide (domain < 164)
  | .pcieConfigAccess hart _ _ _ _ _ => decide (hart < 68)
  | .pcieMemoryAccess hart _ _ _ _ _ => decide (hart < 68)
  | .pcieDmaRead _ _ => true
  | .pcieDmaWrite _ _ _ => true
  | .extest => true
  | .samplePreload => true
  | .idcode => true
  | .highz => true
  | .clamp => true
  | .bypass => true
  | .registerWrite agent _ _ _ _ => agent.wf
  | .laserInputChange port _ => decide (port < 8)
  | .replicaApplyComplete win => decide (win < 64)
  | .wcFlushComplete => true
  | .prochotNRelease => true
  | .vin48Recovered => true
  | .pePerstDeassert => true

end Sys2Proof
end

