-- ==== Sys2Proof/Tests/Slice0.lean ====
section
/-! SUPPORT. Witnesses of the hypotheses of the statements, ill-formed commands that WellFormed refuses, and small tests whose
expected results come from the spec's own tables and examples. -/

namespace Sys2Proof.Machine.Tests

/-- Every unit present and at work, over the given registers. -/
def tRegs : List (Nat × Word) :=
  [(Reg.ID_CAPS, 0x003FFFFFFFFFFFFF), (Reg.ID_CAPS_EFFECTIVE, 0x003FFFFFFFFFFFFF), (Reg.ID_STRANDS_EFF01, 0x000FFFFF000FFFFF),
    (Reg.ID_STRANDS_EFF23, 0x000FFFFF000FFFFF)]

def tUp (l : List (Nat × Word)) : State := { State.reset with regs := l ++ tRegs }

/-- Window of core 0. -/
def w0 : Nat := Reg.coreWin 0 0

/-- Core 0 RUNNING at PC 0, with one instruction there. -/
def tCore (cls op : Nat) (r : Rest) (l : List (Nat × Word)) : State :=
  { tUp (l ++ [(Reg.TC_STATUS w0, 2)]) with
    tc := { CoresSt.reset with pmem := (List.range 8).zip (natLE 8 (insnWord cls op r).toNat) } }

/-- The rest of a word from SD, SA, SB and IMM. -/
def tRest (sd sa sb imm : Nat) : Rest := BitVec.ofNat 52 (2 ^ 47 * sd + 2 ^ 42 * sa + 2 ^ 37 * sb + imm)

/-! ### Scalar and control instructions -/

def issued (s : State) (cls op : Nat) (r : Rest) (used : List Use) : Bool :=
  decide (s.issues 0 (insnWord cls op r)) && fieldsOk used r && decide (pcFits (s.flow 0).1)

theorem witness_scalar : ∀ op, op < 19 → issued (tCore 1 op (tRest 31 1 2 0) []) 1 op (tRest 31 1 2 0) [.sd, .sa, .sb] = true ∧
    issued (tCore 2 op (tRest 0 31 0 0xFFFFFFFF) []) 2 op (tRest 0 31 0 0xFFFFFFFF) [.sd, .sa, .imm] = true := by decide

theorem witness_loads_and_stores :
    let r := tRest 1 2 3 0
    let s (op : Nat) := tCore 3 op r [(Reg.TC_SREG w0 2, 262136)]
    issued (s 0) 3 0 r [.sd, .sa, .imm] = false ∧ issued (s 0) 3 0 (tRest 1 2 0 0) [.sd, .sa, .imm] = false ∧
      issued (tCore 3 0 (tRest 1 2 0 0) [(Reg.TC_SREG w0 2, 262136)]) 3 0 (tRest 1 2 0 0) [.sd, .sa, .imm] = true ∧
      issued (tCore 3 1 (tRest 0 2 3 0) [(Reg.TC_SREG w0 2, 262136)]) 3 1 (tRest 0 2 3 0) [.sa, .sb, .imm] = true ∧
      pcFits ((s 0).sreg w0 2).toNat ∧ (s 0).pmPoisoned 0 262136 = false ∧
      issued (tCore 4 0 (tRest 1 0 0 0xFFFFFFFF) []) 4 0 (tRest 1 0 0 0xFFFFFFFF) [.sd, .imm] = true ∧
      issued (tCore 4 1 (tRest 31 0 0 1) []) 4 1 (tRest 31 0 0 1) [.sd, .imm] = true := by decide

/-- Branches taken to the last word of program memory, and not taken: every comparison has both on some operands. -/
theorem witness_branches : ∀ op, op < 6 →
    let r := tRest 0 1 2 32767
    let s := tCore 8 op r [(Reg.TC_SREG w0 1, 0xFFFFFFFFFFFFFFFF)]
    let z := tCore 8 op r []
    issued s 8 op r [.sa, .sb, .imm] = true ∧ issued z 8 op r [.sa, .sb, .imm] = true ∧ pcFits (8 * fSImm r).toNat ∧
      (s.sreg w0 1).toInt < (s.sreg w0 2).toInt ∧ ¬ (s.sreg w0 1).toNat < (s.sreg w0 2).toNat ∧ z.sreg w0 1 = z.sreg w0 2 := by
  decide

theorem witness_jumps :
    issued (tCore 8 8 (tRest 1 0 0 32767) []) 8 8 (tRest 1 0 0 32767) [.sd, .imm] = true ∧
      issued (tCore 8 9 (tRest 0 1 0 0) [(Reg.TC_SREG w0 1, 262136)]) 8 9 (tRest 0 1 0 0) [.sa] = true := by decide

theorem witness_loop :
    let r := tRest 0 1 0 1
    let s (n : Word) := tCore 8 10 r [(Reg.TC_SREG w0 1, n)]
    (issued (s 1) 8 10 r [.sa, .imm] && decide (1 ≤ fSImm r)) = true ∧ issued (s 0) 8 10 r [.sa, .imm] = true ∧
      ((s 0).core 0).loops.length < 4 ∧ pcFits (afterInsn 8 ((s 0).core 0).loops).1 := by decide

/-! ### Synchronisation and faults of a core -/

theorem witness_drains :
    issued (tCore 8 15 (tRest 0 0 0 1) []) 8 15 (tRest 0 0 0 1) [.imm] = true ∧ issued (tCore 12 2 0 []) 12 2 0 [] = true ∧
      issued (tCore 12 8 (tRest 0 0 0 8) []) 12 8 (tRest 0 0 0 8) [.imm] = true ∧
      issued (tCore 12 8 (tRest 0 0 0 31) []) 12 8 (tRest 0 0 0 31) [.imm] = true ∧
      (tCore 12 8 (tRest 0 0 0 31) []).fenceBusy 0 31 = false ∧
      State.fenceBusy { tCore 12 8 (tRest 0 0 0 8) [] with fid := { FidSt.reset with queue := [⟨0, true, 0, 0, 0, [], 0, 0, 0⟩] } } 0 8 =
        true := by decide

/-- Tick waits in JOINING, before their moment and after it; without a tick. -/
theorem witness_tick_waits : ∀ op, op < 2 →
    let r := tRest 1 (1 - op) 0 3
    let s (st : Word) (now : Word) := tCore 12 op r [(Reg.HLY_STATUS, st), (Reg.HLY_TIMEBASE, now), (Reg.HLY_STEP, 7), (Reg.TC_SREG w0 1, 8)]
    let used : List Use := if op = 0 then [.sd, .sa, .imm] else [.sd, .imm]
    let st := if op = 0 then 8 else nextStep 7
    issued (s 1 0) 12 op r used = true ∧ (s 1 0).hlyState = hlyJoining ∧ issued (s 2 0) 12 op r used = true ∧
      (s 2 0).hlyState ≠ hlyIdle ∧ (s 2 0).hlyState ≠ hlyJoining ∧ ((s 2 0).counted 0).passed st (((s 2 0).counted 0).phaseStart 3) = false ∧
      ((s 2 9).counted 0).passed 7 (((s 2 9).counted 0).phaseStart 3) = true ∧ (s 0 0).hlyState = hlyIdle := by decide

/-- A core that waits for a moment of the present step, and one that drains. -/
theorem witness_waits_end :
    let s (x : CoreWait) : State := { tUp [(Reg.TC_STATUS w0, 3), (Reg.HLY_STATUS, 2)] with
      tc := { CoresSt.reset with cores := [(0, { CoreSt.reset with wait := x })] } }
    ∀ x ∈ [CoreWait.tick 0 3 1 false, .drain true true, .drain false false], (s x).coreUp 0 = true ∧
      (s x).coreState ((s x).win 0) = coreWaiting ∧ ((s x).core 0).wait = x ∧ (s x).ticking = true ∧ (s x).step = 0 ∧
      (s x).busyFid 0 = false := by decide

/-- Semaphore 255 of the core's partition, with a value of 5. -/
theorem witness_semaphores :
    let regs (v : Word) : List (Nat × Word) := [(Reg.TC_CTX w0, 0x8000000000000000), (semOwner 255, 0x1000), (semValue 255, v), (Reg.TC_SREG w0 1, 255),
      (Reg.TC_SREG w0 2, 5)]
    let s (op : Nat) (v : Word) := tCore 12 op (if op = 6 then tRest 3 1 0 0 else tRest 0 1 2 0) (regs v)
    (∀ op ∈ [4, 5], issued (s op 5) 12 op (tRest 0 1 2 0) [.sa, .sb, .imm] = true ∧ ((s op 5).counted 0).semFault 0 255 = none) ∧
      issued (s 6 5) 12 6 (tRest 3 1 0 0) [.sd, .sa, .imm] = true ∧ 5 ≤ ((s 5 5).counted 0).semVal 255 ∧ ((s 5 4).counted 0).semVal 255 < 5 ∧
      (s 5 5).tc.semWaits = [] ∧ (s 4 5).busyProg 0 = false ∧ (s 4 5).semVal 255 + 0xFFFFFFFA = 0xFFFFFFFF ∧
      ((tCore 12 4 (tRest 0 1 2 0) [(Reg.TC_SREG w0 1, 1024)]).counted 0).semFault 0 1024 = some fcSemIndex := by decide

theorem witness_sys_arm_evpost :
    (∀ n, n < 9 → issued (tCore 12 12 (tRest 1 0 0 n) []) 12 12 (tRest 1 0 0 n) [.sd, .imm] = true) ∧
      issued (tCore 12 10 (tRest 1 2 3 0) []) 12 10 (tRest 1 2 3 0) [.sd, .sa, .sb] = true ∧
      issued (tCore 14 0 (tRest 1 2 3 0xFF07) []) 14 0 (tRest 1 2 3 0xFF07) [.sd, .sa, .sb, .imm] = true ∧
      (bits (fImm (tRest 1 2 3 0xFF07)) 7 3 == 0 && bits (fImm (tRest 1 2 3 0xFF07)) 31 16 == 0) = true := by decide

/-- An undefined word, an offset outside program memory, four active loops, and TRAP. -/
theorem witness_faults :
    let l : State := { tCore 8 10 (tRest 0 1 0 1) [] with
      tc := { (tCore 8 10 (tRest 0 1 0 1) []).tc with cores := [(0, { CoreSt.reset with loops := List.replicate 4 ⟨0, 8, 1⟩ })] } }
    (tCore 3 0 (tRest 1 0 3 0) []).issues 0 (insnWord 3 0 (tRest 1 0 3 0)) ∧ fieldsOk [.sd, .sa, .imm] (tRest 1 0 3 0) = false ∧
      ¬ pcFits 262144 ∧ ¬ pcFits 4 ∧ l.issues 0 (insnWord 8 10 (tRest 0 1 0 1)) ∧ 4 ≤ (l.core 0).loops.length ∧
      issued (tCore 14 1 (tRest 0 0 0 255) []) 14 1 (tRest 0 0 0 255) [.imm] = true ∧ (tUp []).coreUp 639 = true := by decide

/-- A word of no instruction at PC; a core that faults while Fid holds an instruction of its program, one that waits with its
fault, and one whose Fid engine is idle. -/
theorem witness_fault_order :
    let z := tCore 0 0 0 []
    let busy : FidSt := { FidSt.reset with queue := [⟨0, false, 0, 0, 0, [], 0, 0, 0⟩] }
    let g : FaultRec := ⟨fcTrap, srcSeq, false, 255, 0, 0, 2 ^ 18 - 1⟩
    let w : State := z.setCore 0 { z.core 0 with wait := .fault g }
    z.coreUp 0 = true ∧ z.coreState (z.win 0) = coreRunning ∧ z.pmPoisoned 0 (z.pc (z.win 0)) = false ∧
      opKnown (z.pmWord 0 (z.pc (z.win 0))) = false ∧ z.pmWord 0 (z.pc (z.win 0)) ≠ insnWord 1 0 0 ∧ z.busyProg 0 = false ∧
      State.busyProg { z with fid := busy } 0 = true ∧ (z.core 0).wait = .none ∧ (w.core 0).wait = .fault g ∧ w.busyProg 0 = false := by
  decide

/-! ### Cores from outside -/

/-- Memory with the given 64-bit words at the given offsets, over a fast tier of 1 GiB and a capacity tier of 1 GiB. -/
def tMem (l : List (Nat × Nat)) : MemSt :=
  { MemSt.reset with data := l.flatMap fun e => (List.range 8).map fun i => (e.1 + i, (natLE 8 e.2).getD i 0) }

def tTiers : List (Nat × Word) := [(Reg.MEMF_MAP, 0x100000001), (Reg.MEMC_MAP, 0x100000001)]

/-- One level-3 leaf that maps the first GiB to itself with every right. -/
def tPage : List (Nat × Nat) := [(0, 0x1001), (0x1000, 0x1F)]

/-- Core 0 with a context, its window named by TC_MAP, in state `st`. -/
def tIdle (st : Word) (l : List (Nat × Word)) (m : List (Nat × Nat)) : State :=
  { tUp (l ++ [(Reg.TC_STATUS w0, st), (Reg.TC_MAP w0, 0), (Reg.TC_CTX w0, 0x8000000000000000)] ++ tTiers) with mem := tMem (tPage ++ m) }

/-- A program that is loaded from 0x3000, and one that is in program memory already. -/
theorem witness_launches : ∀ load ∈ [0, 1],
    let s := tIdle 0 [] [(0x2000, 0x0100000000000000 + 0x100000000 * load), (0x2008, 0x3000), (0x2010, 8 * load), (0x3000, 0x7C00000000000000)]
    let b := (s.coreRead 0 0x2000 64 .read).2.getD []
    let d := bytesToWords 8 b
    let t := { s with regs := (Reg.TC_STATUS w0, 1) :: s.regs, tc := { s.tc with cores := [(0, { CoreSt.reset with loading := some d })] } }
    s.coreWrite .bowline 0 0 = some 0 ∧ s.flag (Reg.TC_LAUNCH_STATUS (s.win 0)) Fld.TC_LAUNCH_STATUS_PENDING = false ∧
      s.coreState (s.win 0) = coreIdle ∧ (s.core 0).ctxHeld = none ∧ s.ctxValid 0 = true ∧
      (s.coreRead 0 0x2000 64 .read).2 = some b ∧ launchValid d = true ∧ t.coreUp 0 = true ∧ t.coreState (t.win 0) = coreLoading ∧
      (t.core 0).loading = some d ∧ bit (wordAt d 0).toNat 32 = (load == 1) ∧ (t.loadImage 0 0x3000 0 8 66).2 = none := by decide

/-- Contexts that change in IDLE and FAULTED, scrubbing, stops of every state, and the strand of core 0. -/
theorem witness_contexts_and_stops : ∀ st ∈ [coreIdle, coreFaulted, coreScrubbing, coreLoading, coreRunning, coreWaiting],
    let s := tIdle (BitVec.ofNat 64 st) [] []
    s.winUp 0 0 = true ∧ (s.ctx .bowline).priv = true ∧ (s.ctx .lanyard).priv = true ∧ s.coreState w0 = st ∧ s.win 0 = w0 ∧
      s.busyFid (s.lcore 0 0) = false ∧ s.rd (Reg.TC_CTX w0) ≠ 0 ∧ s.lcore 0 0 < 640 ∧ s.coreWrite .lanyard 0 0 = some 0 ∧
      s.busyProg 0 = false ∧ s.strandUp 3 19 = true ∧ s.losses = [] ∧
      State.coreUp { s with tc := { s.tc with cores := [(0, { CoreSt.reset with stopping := true })] } } 0 = true := by decide

/-- A strand of whose cores fifteen contained errors stand within the last second, and one of which fewer do. -/
theorem witness_sixteenth_error :
    ∃ s : State, s.strandUp 3 19 = true ∧
      16 ≤ (((sGet noTimes s.tc.strandErr 79).filter fun t => s.time ≤ 1000000000 + t) ++ [s.time]).length ∧
      (((sGet noTimes s.tc.strandErr 78).filter fun t => s.time ≤ 1000000000 + t) ++ [s.time]).length < 16 :=
  ⟨{ tUp [] with tc := { (tUp []).tc with strandErr := [(78, List.replicate 14 0), (79, List.replicate 15 0)] } }, by decide⟩

/-- The last semaphore and event queue of a die, free for Bowline, the queue enabled or not. -/
def tDie (on : Word) : State :=
  tUp [(Reg.EVQ_CTRL (Reg.dieEvq 3 7), on), (semOwner 1023, 0), (Reg.EVQ_OWNER (Reg.dieEvq 3 7), 0)]

set_option maxRecDepth 8000 in
theorem witness_die_registers :
    (tDie 0).working (capTdie 3) = true ∧ ((tDie 0).ctx .bowline).priv = true ∧ ((tDie 0).ctx .bowline).mayUse false 0 = true ∧
      sGet noMark (tDie 0).tc.semPoison 1023 = false ∧ (tDie 0).rd (semOwner 1023) ≠ 0x1FFF := by decide

set_option maxRecDepth 8000 in
theorem witness_event_queues :
    (tDie 0).rd (Reg.EVQ_OWNER (Reg.dieEvq 3 7)) ≠ 0x1FFF ∧ (tDie 1).mayWriteEvq .bowline 3 7 = true ∧
      (tDie 0).flag (Reg.EVQ_CTRL (Reg.dieEvq 3 7)) Fld.TC_EVQ_CTRL_ENABLE = false ∧
      (tDie 1).flag (Reg.EVQ_CTRL (Reg.dieEvq 3 7)) Fld.TC_EVQ_CTRL_ENABLE = true := by decide

/-! ### The engines -/

/-- The rest of a vector instruction with TD, TA, TB, TC, format, second format, CC and SK, unmasked, and IMM. -/
def tVec (td ta tb tc f f2 cc sk imm : Nat) : Rest :=
  BitVec.ofNat 52 (2 ^ 47 * td + 2 ^ 42 * ta + 2 ^ 37 * tb + 2 ^ 32 * tc + 2 ^ 28 * f + 2 ^ 24 * f2 + 2 ^ 17 * cc + 2 ^ 12 * sk + imm)

/-- Core 0 carries out the instruction with these checks, footprint and reads of the tile store; no row is poisoned. -/
def carried (s : State) (cls op : Nat) (r : Rest) (legal : Bool) (check : Option IssueFault) (foot : List Range)
    (reads : List Range) : Bool :=
  decide (s.carries 0 cls op r legal check foot [] reads) && decide (s.tc.tilePoison = []) && decide (pcFits (s.flow 0).1)

/-- So it carries it out whatever rows its operands have. -/
theorem carried_carries {s : State} {cls op : Nat} {r : Rest} {legal : Bool} {check : Option IssueFault} {foot reads : List Range}
    (h : carried s cls op r legal check foot reads = true) (rows : List (Nat × Nat)) : s.carries 0 cls op r legal check foot rows reads := by
  simp only [carried, Bool.and_eq_true, decide_eq_true_eq] at h
  obtain ⟨⟨⟨h1, h2, h3, h4, _, h5⟩, h6⟩, _⟩ := h
  exact ⟨h1, h2, h3, h4, by simp [State.regPoisoned, h6, sGet, noMark], h5⟩

/-- Element-wise operations, each in formats it takes. -/
theorem witness_elementwise :
    let two (f : Nat) := tVec 31 1 2 0 f 0 0 0 0
    (∀ op ∈ [0x00, 0x01, 0x02, 0x05, 0x06], ∀ f ∈ [0, 12], carried (tCore 0x18 op (two f) []) 0x18 op (two f)
        (vFieldsOk [.td, .ta, .tb, .f, .mask] (two f) && (vecFloat f || vecInt f) && vRoundOk false (two f)) none [] [] = true) ∧
      (∀ op ∈ [0x09, 0x0A, 0x0B, 0x0C, 0x0D, 0x0E], carried (tCore 0x18 op (two 13) []) 0x18 op (two 13)
        (vFieldsOk [.td, .ta, .tb, .f, .mask] (two 13) && vecInt 13 && vRoundOk false (two 13)) none [] [] = true) ∧
      (∀ op ∈ [0x03, 0x04], let r := tVec 31 1 2 3 0 0 2 4 0;
        carried (tCore 0x18 op r []) 0x18 op r (vFieldsOk [.td, .ta, .tb, .tc, .f, .mask] r && vecFloat 0 && vRoundOk true r) none []
          [] = true) := by decide

theorem witness_elementwise_unary : ∀ e ∈ [(0x18, 0x07, 3), (0x18, 0x08, 12), (0x19, 0x02, 11), (0x1A, 0x03, 0), (0x1A, 0x04, 1), (0x1A, 0x05, 1)],
    let r := tVec 31 1 0 0 e.2.2 0 0 0 0
    carried (tCore e.1 e.2.1 r []) e.1 e.2.1 r (vFieldsOk [.td, .ta, .f, .mask] r && vecView e.2.2 && vRoundOk false r) none [] [] = true := by
  decide

theorem witness_splat_iota_rot_rand :
    (∀ e ∈ [(0x03, 4), (0x04, 12)], let r := tVec 31 0 2 0 e.2 0 0 0 0;
      carried (tCore 0x19 e.1 r []) 0x19 e.1 r (vFieldsOk [.td, .tb, .f, .mask] r && vecView e.2 && vRoundOk false r) none [] [] = true) ∧
      (∀ imm ∈ [0, 1], let r := tVec 31 1 2 0 4 0 0 0 imm;
        carried (tCore 0x19 5 r []) 0x19 5 r (vFieldsOk [.td, .ta, .tb, .f, .mask, .imm] r && decide (vImm r < 2) && vRoundOk false r) none []
          [] = true) ∧
      (∀ f ∈ [fmtINT32, fmtFP32], let r := tVec 31 0 0 0 f 0 0 28 0;
        carried (tCore 0x1A 6 r []) 0x1A 6 r (vFieldsOk [.td, .f, .mask] r && vCC r == 0 && vSK r != 0 && vSK r % 4 == 0) none [] [] =
          true) := by decide

/-- VSEL under a mask, VRED of each kind, VUNPACK and VLD; the last by rows of 128 bytes. -/
theorem witness_select_reduce_unpack_load :
    (let r := tVec 31 1 2 0 1 0 0 0 0 + 0x00F00000;
      carried (tCore 0x19 1 r []) 0x19 1 r (vFieldsOk [.td, .ta, .tb, .f, .mask] r && vecView (vF r) && vRoundOk false r && vMasked r) none []
        [] = true) ∧
      (∀ imm ∈ [0, 1, 2, 4, 10], let r := tVec 31 1 0 0 1 0 0 0 imm;
        carried (tCore 0x18 0x10 r []) 0x18 0x10 r (vFieldsOk [.td, .ta, .f, .mask, .imm] r && vRoundOk false r && decide (vImm r < 16) &&
          vImm r % 4 != 3 && vImm r / 4 != 3) none [] [] = true) ∧
      (let r := tVec 31 1 2 0 1 4 0 0 3;
        carried (tCore 0x1A 2 r []) 0x1A 2 r (vFieldsOk [.td, .ta, .tb, .f, .f2, .imm] r && vRoundOk true r && vF r == fmtFP32 && vecBlock (vF2 r) &&
          decide (vImm r < vecSlots (vF2 r))) none [] [] = true) ∧
      (let r := tVec 31 1 2 0 6 0 0 0 0;
        let s := tCore 0x1B 0 r [(Reg.TC_SREG w0 1, 0x1FF000), (Reg.TC_SREG w0 2, 128)]
        carried s 0x1B 0 r (vFieldsOk [.td, .ta, .tb, .f, .mask] r && memLegal r && vRoundOk false r)
          (vecCheck 32 [s.vAddr 0 r, s.vStr 0 r] (rowRanges (s.vAddr 0 r) (s.vStr 0 r) 128)) (rowRanges (s.vAddr 0 r) (s.vStr 0 r) 128)
            (rowRanges (s.vAddr 0 r) (s.vStr 0 r) 128) = true) := by decide

theorem witness_masks :
    (∀ op ∈ [8, 9, 10, 11], let r := tVec 7 1 2 0 0 0 0 0 0;
      carried (tCore 0x19 op r []) 0x19 op r (vFieldsOk [.td, .ta, .tb] r && vRoundOk false r && decide (vTA r < 8) && decide (vTB r < 8) &&
        decide (vTD r < 8)) none [] [] = true) ∧
      (∀ imm ∈ [0, 1], let r := tVec 7 0 0 0 0 0 0 0 imm;
        carried (tCore 0x19 12 r []) 0x19 12 r (vFieldsOk [.td, .imm] r && vRoundOk false r && decide (vImm r < 2)) none [] [] = true) ∧
      (let r := tVec 7 1 0 0 0 0 0 0 0;
        carried (tCore 0x19 13 r []) 0x19 13 r (vFieldsOk [.td, .ta] r && vRoundOk false r) none [] [] = true) ∧
      (∀ op ∈ [3, 4], let r := tVec 7 1 0 0 0 0 0 0 0;
        carried (tCore 0x1B op r [(Reg.TC_SREG w0 1, 0x1FFE00)]) 0x1B op r (vFieldsOk [.td, .ta] r && vRoundOk false r)
          (vecCheck 64 [0x1FFE00] [(0x1FFE00, 512)]) [(0x1FFE00, 512)] [(0x1FFE00, 512)] = true) := by decide

theorem witness_compare_convert_store_record :
    (∀ imm ∈ [0, 7], let r := tVec 7 1 2 0 9 0 0 0 imm;
      carried (tCore 0x19 0 r []) 0x19 0 r (vFieldsOk [.td, .ta, .tb, .f, .mask, .imm] r && vRoundOk false r && decide (vImm r < 8)) none []
        [] = true) ∧
      (let r := tVec 31 1 0 0 1 3 2 4 1;
        carried (tCore 0x1A 0 r []) 0x1A 0 r (vFieldsOk [.td, .ta, .f, .f2, .mask, .imm] r && vRoundOk true r && vcvtLegal r) none [] [] = true) ∧
      (let r := tVec 31 1 2 0 1 4 0 0 3;
        carried (tCore 0x1A 1 r []) 0x1A 1 r (vFieldsOk [.td, .ta, .tb, .f, .f2, .imm] r && vRoundOk true r && vF r == fmtFP32 && vecBlock (vF2 r) &&
          decide (vImm r < vecSlots (vF2 r))) none [] [] = true) ∧
      (∀ imm ∈ [0, 1], let r := tVec 31 1 2 0 1 0 0 0 imm;
        carried (tCore 0x1B 1 r [(Reg.TC_SREG w0 2, 128)]) 0x1B 1 r (vFieldsOk [.td, .ta, .tb, .f, .mask, .imm] r && memLegal r &&
          vRoundOk false r && decide (vImm r < 2)) (vecCheck 32 [0, 128] (rowRanges 0 128 128)) (rowRanges 0 128 128) [] = true) ∧
      (let r := tVec 31 1 2 0 1 3 0 0 0;
        carried (tCore 0x1B 2 r [(Reg.TC_SREG w0 2, 128)]) 0x1B 2 r (vFieldsOk [.td, .ta, .tb, .f, .f2, .mask, .imm] r && vecView 3 &&
          decide (vecW 3 ≤ vecW 1) && vRoundOk true r) (vecCheck 32 [0, 128] (rowRanges 0 128 64)) (rowRanges 0 128 64) [] = true) ∧
      (∀ imm ∈ [0, 2, 4, 6], let r := tVec 0 0 0 0 0 0 0 0 imm;
        let foot := if bit imm 2 then [] else [(0, 384)]
        carried (tCore 0x1B 8 r []) 0x1B 8 r (vFieldsOk [.ta, .imm] r && vRoundOk false r && vImm r % 2 == 0)
          (if bit imm 2 then none else vecCheck 64 [0] foot) foot [] = true) := by decide

/-- An MMA of BF16 and one of E4M3, an MCOMB with and without C, and MREC storing and clearing. -/
theorem witness_matrix :
    (∀ f ∈ [2, 4], let r := tRest 1 2 3 (2 ^ 28 * f + 2 ^ 24 * f + 2 ^ 3 * 31);
      let s := tCore 0x10 0 r [(Reg.TC_SREG w0 1, if f = 4 then 0x20000000 else 0), (Reg.TC_SREG w0 2, if f = 4 then 0x20001000 else 0x1000),
        (Reg.TC_SREG w0 3, 0x2000)]
      let o := s.mmaOps 0 r
      carried s 0x10 0 r (mmaLegal r) o.check (o.pRange :: o.reads) o.poisonRanges = true) ∧
      (∀ c ∈ [0, 1], let r := tRest 1 (if c = 0 then 2 else 0) 3 (2 ^ 28 * (1 - c) + 2 ^ 24 * 3 + 2 ^ 20 * c);
        let s := tCore 0x10 1 r [(Reg.TC_SREG w0 2, 0x1000), (Reg.TC_SREG w0 3, 0x2000)]
        let o := s.mcombOps 0 r
        carried s 0x10 1 r (mcombLegal r) o.check (o.dRange :: o.reads) o.reads = true) ∧
      (∀ i ∈ [0, 1, 2, 3], let store := !bit i 0;
        let r := tRest (if store then 1 else 0) 0 0 (2 ^ 30 * i)
        carried (tCore 0x10 2 r [(Reg.TC_SREG w0 1, 0x1FFE80)]) 0x10 2 r (recLegal r)
          (recCheck srcMatrix store ((tCore 0x10 2 r [(Reg.TC_SREG w0 1, 0x1FFE80)]).sreg w0 (fSD r)).toNat)
          (if store then [(0x1FFE80, 384)] else []) [] = true) := by decide

/-! ### Transfers and launch queues -/

/-- A launch of step 0 from queue `q`, taking action `a` on target `n`, in a running tick. -/
def tLaunch (q a n desc : Nat) (l : List (Nat × Word)) (m : List (Nat × Nat)) : State × TalqEntry :=
  let e : TalqEntry := ⟨q, BitVec.ofNat 64 (2 ^ 56 * n + 2 ^ 52 * a), BitVec.ofNat 64 desc⟩
  ({ tIdle 0 (l ++ [(Reg.HLY_STATUS, 2), (Reg.HLY_CTRL, 1)]) m with hly := { HlySt.reset with talq := [e] } }, e)

/-- A Fid descriptor of one FP32 element from 0x3000 to 0x3100. -/
def tFid : List (Nat × Nat) := [(0x2000, 0x0121100000000000), (0x2008, 0x3000), (0x2010, 0x3100), (0x2040, 1)]

theorem witness_fid_instructions :
    (let r := tRest 1 2 3 (2 ^ 32 * 28);
      let s := tCore 0x20 0 r []
      s.issues 0 (insnWord 0x20 0 r) ∧ fxferLegal r = true ∧ s.fidQueued 0 < 16) ∧
      (∀ i ∈ [0, 1, 2, 3], let store := !bit i 0;
        let r := tRest (if store then 1 else 0) 0 0 (2 ^ 30 * i)
        let s := tCore 0x20 1 r [(Reg.TC_SREG w0 1, 0x1FFE80)]
        s.issues 0 (insnWord 0x20 1 r) ∧ (bits r.toNat 46 32 == 0 && bits r.toNat 29 0 == 0 && (!bit r.toNat 30 || fSD r == 0)) = true ∧
          frecCheck store (s.sreg (s.win 0) (fSD r)).toNat = none ∧ s.fidQueued 0 < 16) := by decide

/-- A full queue, and transfers with nothing left to do. -/
theorem witness_fid_queue_full :
    let r := tRest 1 2 3 (2 ^ 32 * 28)
    let s := { tCore 0x20 0 r [] with fid := { FidSt.reset with queue := List.replicate 16 ⟨0, false, 0, 0, 0, [], 0, 0, 0⟩ } }
    s.issues 0 (insnWord 0x20 0 r) ∧ fxferLegal r = true ∧ 16 ≤ s.fidQueued 0 := by decide

def tFidLaunch : State × TalqEntry := tLaunch 0 actFid 0 0x2000 [] tFid

def tXfer : Xfer := tFidLaunch.1.fidNew 0 true 0x2000 [] 0 0 [] 0 0 0

def tFidCheck : Bool := ((tFidLaunch.1.talqTaken 0 tFidLaunch.2).fidLaunchCheck 0 0x2000).2.isRight

set_option maxRecDepth 8000 in
theorem witness_transfer_launched : tFidCheck = true := by decide

theorem witness_transfer_moment :
    tFidLaunch.1.launches 0 actFid tFidLaunch.2 ∧ (tFidLaunch.1.talqTaken 0 tFidLaunch.2).talqTargetUp 0 tFidLaunch.2 = true := by decide

set_option maxRecDepth 8000 in
theorem witness_transfer_parts :
    ([tXfer].find? fun x => x.core == 0) = some tXfer ∧
      ([{ tXfer with localDone := true }].find? fun x => x.core == 0 && x.localDone && x.puts.isEmpty) =
        some { tXfer with localDone := true } ∧ (([] : List Xfer).any fun x => x.core == 0 && !x.localDone) = false := by decide

theorem witness_queue_launches : ∀ e ∈ [(0, actProgram, 159), (3, actProgram, 0), (5, actPut, 0), (6, actRefresh, 63), (4, actCut, 0), (4, actRse, 0)],
    let l := tLaunch e.1 e.2.1 e.2.2 0x2000 [(Reg.HOST_PARTITION, 0x8000000000000000)] []
    l.1.launches e.1 e.2.1 l.2 ∧ (e.2.1 = actRse → (l.1.talqTaken 4 l.2).talqTargetUp 4 l.2 = true ∧
      (l.1.talqTaken 4 l.2).submitRefusal l.2.desc = 0) := by decide

theorem witness_host_event :
    let l := tLaunch 4 actEvent 15 0x2000 [] [(0x2000, 0x0107000000000000)]
    let r := (l.1.talqTaken 4 l.2).readDesc 4 l.2.desc
    let d := bytesToWords 8 r.data
    l.1.launches 4 actEvent l.2 ∧ (l.1.talqTaken 4 l.2).inTier l.2.desc = true ∧ r.stat = .ok ∧ bits (wordAt d 0).toNat 63 56 = 1 ∧
      bits (wordAt d 0).toNat 47 0 = 0 ∧ (d.drop 3).all (· == 0) = true := by decide

/-! ### Halyard -/

/-- Node 5 of domain 7 under parent 4, in state `st` and role `role`. -/
def tHly (st role : Nat) (l : List (Nat × Word)) (h : HlySt) : State :=
  { tUp (l ++ [(Reg.HLY_STATUS, packF [(Fld.HLY_STATUS_STATE, st), (Fld.HLY_STATUS_ROLE, role)]), (Reg.HLY_CTRL, 1),
      (Reg.HLY_DOMAIN, packF [(Fld.HLY_DOMAIN_VALID, 1), (Fld.HLY_DOMAIN_DOMAIN, 7), (Fld.HLY_DOMAIN_PARENT, 4)])]) with hly := h }

/-- A symbol of domain 7 with these STEP, SEQ, TIME_A and TIME_B. -/
def tSym (step seq a b : Nat) : TickSymbol := ⟨1, 0, 7, 0, 0, 0, false, seq, 1, step, a, b⟩

set_option maxRecDepth 8000 in
/-- An exchange to begin, a request of a new node and of a child when 64 are attached, and an even offset. -/
theorem witness_time_exchange :
    let s := tHly hlyRunning 0 [] { HlySt.reset with seq := 9, t1 := 100 }
    let w := tHly hlyRunning 0 [(Reg.HLY_TIMEBASE, 200)] { HlySt.reset with seq := 9, t1 := 100, awaiting := true }
    let full := tHly hlyRunning 0 [] { HlySt.reset with children := (List.range 64).map fun n => { node := n, pending := false, latency := 0, heard := 0 } }
    s.exchanging = true ∧ s.hly.awaiting = false ∧ s.symOk (tSym 0 9 0 0) = true ∧ s.flag Reg.HLY_CTRL Fld.HLY_CTRL_ENABLE = true ∧
      s.hly.children.length < 64 ∧ ¬ full.hly.children.length < 64 ∧ (full.hly.children.any fun c => c.node == 63) = true ∧
      w.exchanging = true ∧ w.parent = 4 ∧ w.hly.awaiting = true ∧ ((160 - 100 : Int) - (200 - 170) - w.parentAsym) % 2 = 0 := by decide

/-- A member and a node in JOINING, locked, that see a symbol of step 3 for the first time. -/
theorem witness_tick_symbols : ∀ st ∈ [hlyRunning, hlyJoining],
    let s := tHly st 0 [(Reg.HLY_STEP, 3)] HlySt.reset
    let j := s.setFld Reg.HLY_STATUS Fld.HLY_STATUS_LOCKED 1
    s.symOk (tSym 3 0 8 9) = true ∧ s.flag Reg.HLY_CTRL Fld.HLY_CTRL_ENABLE = true ∧ s.isMaster = false ∧ s.hlyState = st ∧
      (∀ y ∈ [symTickExtend, symTickFinal, symTickFault], s.hly.seen.contains (y, tSym 3 0 8 9) = false) ∧
      s.ofTick (tSym 3 0 8 9) = (st == hlyRunning) ∧ s.hlyState ≠ hlyHoldFault ∧ j.hlyState = st ∧ j.symOk (tSym 3 0 8 9) = true ∧
      j.isMaster = false ∧ j.flag Reg.HLY_CTRL Fld.HLY_CTRL_ENABLE = true ∧ j.flag Reg.HLY_STATUS Fld.HLY_STATUS_LOCKED = true ∧
      j.hly.final = none := by decide

theorem witness_moments :
    let m := tHly hlyRunning 1 [] HlySt.reset
    let p := tHly hlyRunning 1 [] { HlySt.reset with takeover := true }
    let c := tHly hlyRunning 0 [] HlySt.reset
    let cut := tHly hlyRunning 0 [(Reg.CKP_STATUS, packF [(Fld.CKP_STATUS_PHASE, ckpArmed)])] HlySt.reset
    let j := tHly hlyJoining 0 [] { HlySt.reset with final := some (3, 8, 9) }
    let e := tHly hlyRunning 0 [(Reg.HLY_STEP, 3)] { HlySt.reset with final := some (3, 8, 9), guardDone := true }
    j.hlyState = hlyJoining ∧ m.ticking = true ∧ m.hly.guardDone = false ∧ m.deciding = true ∧ p.deciding = true ∧
      (let d := m.timeTo (m.tickEnd - m.lead); d.aggPending = false ∧ d.cutLaunched = false) ∧
      (p.timeTo (p.tickEnd - p.lead)).aggPending = true ∧ e.hly.final = some (e.step, 8, 9) ∧ e.ticking = true ∧ c.launching = true ∧
      c.cutArmed = false ∧ c.isMaster = false ∧ cut.launching = true ∧ cut.cutArmed = true ∧ c.hly.quiet = false ∧
      (∀ f, f < 2 → e.working (capFdie f) = true ∧ e.fdieOwes f = false) := by decide

theorem witness_halyard_writes :
    let s := tHly hlyRunning 0 [] HlySt.reset
    let i := (s.setHlyState hlyIdle).wr Reg.HLY_CTRL 0
    s.mayWriteHly .bowline = true ∧ (∀ q, q < 7 → s.talqUp q = true) ∧ i.hlyState = hlyIdle ∧ i.mayWriteHly .bowline = true ∧
      i.flag Reg.HLY_DOMAIN Fld.HLY_DOMAIN_VALID = true ∧ (i.wr Reg.HLY_DOMAIN 0).flag Reg.HLY_DOMAIN Fld.HLY_DOMAIN_VALID = false ∧
      i.flag Reg.HLY_CTRL Fld.HLY_CTRL_ENABLE = false := by decide

/-! ### Hawser -/

/-- Node 5 with Hawser enabled in partition 0, an ingress table that maps the first GiB to itself, and a running tick. -/
def tHws (l : List (Nat × Word)) (h : HwsSt) : State :=
  { tHly hlyRunning 0 (l ++ [(Reg.HWS_NODE, packF [(Fld.HWS_NODE_VALID, 1), (Fld.HWS_NODE_NODE, 5)]), (Reg.HWS_CTRL, 1),
      (Reg.HWS_PART, packF [(Fld.HWS_PART_VALID, 1)])] ++ tTiers) HlySt.reset with hws := h, mem := tMem [(0, 0x1001), (0x1000, 0x3F)] }

/-- A packet of node 6 to node 5 in class `tc`, its second word given. -/
def tPkt (type tc w1 off : Nat) (bs : List Byte) : Packet :=
  mkPacket (BitVec.ofNat 64 (2 ^ 58 * type + 2 ^ 55 * tc + 2 ^ 16 * 5 + 6)) (BitVec.ofNat 64 w1) (BitVec.ofNat 64 off) 0 bs

/-- What `admits` asks, but the CRC, which every packet made by mkPacket passes (packetCrcOk_mkPacket). -/
def admitted (s : State) (type : Nat) (p : Packet) : Bool :=
  s.working (capFdie 0) && pType p == type && classOk type (pTc p) && pDst p == s.ownNode && s.hwsOn &&
    s.flag Reg.HWS_PART Fld.HWS_PART_VALID && pPart p == s.fld Reg.HWS_PART Fld.HWS_PART_PARTITION &&
    pEpoch p == s.fld Reg.HWS_PART Fld.HWS_PART_EPOCH

theorem witness_packet_crc (type tc w1 off : Nat) (bs : List Byte) : packetCrcOk (tPkt type tc w1 off bs) = true :=
  packetCrcOk_mkPacket ..

/-- Requests of every type that are admitted, and one in a class it may not have, one too old, one with no tick. -/
theorem witness_requests_checked :
    let s := tHws [] HwsSt.reset
    (∀ e ∈ [(ptRD, 3), (ptWR, 5), (ptATOMIC, 4), (ptACC, 5), (ptREFRESH, 5), (ptTFENCE, 3)],
      let p := tPkt e.1 e.2 0 0 []
      admitted s e.1 p = true ∧ s.ageOk p = true ∧ (s.timeTo 100000000).ageOk p = false ∧ admitted (s.timeTo 100000000) e.1 p = true ∧
        admitted (s.setHlyState hlyIdle) e.1 p = true ∧ (s.setHlyState hlyIdle).ticking = false) ∧
      s.ticking = true ∧ classOk ptATOMIC (pTc (tPkt ptATOMIC 5 0 0 [])) = false := by decide

/-- A new request of each type that passes every check. -/
theorem witness_requests_take_effect :
    let s := tHws [] HwsSt.reset
    (∀ p ∈ [tPkt ptRD 3 (2 ^ 19 * 64) 0x4000 [], tPkt ptWR 5 (2 ^ 19 * 64) 0x4000 (List.replicate 64 1),
        tPkt ptATOMIC 3 (2 ^ 19 * 8) 0x4038 (List.replicate 8 1), tPkt ptACC 3 (2 ^ 19 * 8) 0x4038 (List.replicate 8 1)],
      let n := s.noted p
      let v := (n.ingressXlat p).1
      admitted s (pType p) p = true ∧ s.ageOk p = true ∧ n.cacheFind (pSrc p) (pSport p) (pTag p) = none ∧ n.hws.cache.length < 32768 ∧
        n.ckp.closed = false ∧ shapeOk p = true ∧ (n.ingressXlat p).2 = .inr (pOff p) ∧ v.windowBusy (pType p) (pOff p) = false ∧
        v.winAt 0 (pOff p) = none ∧ v.markWaits p = false ∧ n.behind p = false) := by decide

set_option maxRecDepth 8000 in
/-- Requests to a tick-ordered window, and a line of a replica refresh and a fence. -/
theorem witness_requests_to_windows :
    let w (k : Nat) := tHws [(Reg.HWS_WIN_CFG (Reg.winWin 63), packF [(Fld.HWS_WIN_CFG_VALID, 1), (Fld.HWS_WIN_CFG_KIND, k)]),
      (Reg.HWS_WIN_SIZE (Reg.winWin 63), packF [(Fld.HWS_WIN_SIZE_PAGES, 5)])] HwsSt.reset
    let passes (s : State) (p : Packet) : Bool :=
      let n := s.noted p
      let v := (n.ingressXlat p).1
      admitted s (pType p) p && s.ageOk p && s.ticking && n.cacheFind (pSrc p) (pSport p) (pTag p) == none && !n.behind p && !n.ckp.closed &&
        shapeOk p && (n.ingressXlat p).2 == .inr (pOff p) && !v.windowBusy (pType p) (pOff p) && !v.markWaits p
    (∀ p ∈ [tPkt ptWR 5 (2 ^ 19 * 64) 0x4000 (List.replicate 64 1), tPkt ptACC 3 (2 ^ 19 * 8) 0x4038 (List.replicate 8 1),
        tPkt ptATOMIC 3 (2 ^ 19 * 8) 0x4038 (List.replicate 8 1)],
      passes (w 0) p = true ∧ (((w 0).noted p).ingressXlat p).1.winAt 0 (pOff p) = some 63) ∧
      passes (w 2) (tPkt ptREFRESH 5 (2 ^ 19 * 64) 0x4000 (List.replicate 64 1)) = true ∧ passes (w 2) (tPkt ptTFENCE 3 0 0 []) = true := by
  decide

/-- A request behind one of its agent that waits; and none that waits. -/
theorem witness_requests_wait :
    let p := tPkt ptRD 3 (2 ^ 19 * 64) 0x4000 []
    let s := tHws [] { HwsSt.reset with parked := [(none, p)] }
    admitted s ptRD p = true ∧ s.ageOk p = true ∧ s.ticking = true ∧ (s.noted p).behind p = true ∧ (tHws [] HwsSt.reset).hws.parked = [] := by
  decide

/-- The accesses that those requests make succeed. -/
theorem witness_home_accesses :
    let s := tHws [] HwsSt.reset
    partialLines 0x4000 64 = [] ∧ (s.write 0x4000 (List.replicate 64 1)).2 = .ok ∧ (s.read 0x4000 64).stat = .ok ∧
      (s.read 0x4038 8).stat = .ok ∧ (s.accApply 0x4038 0 1).2 = true := by decide

theorem witness_home_events :
    let e : ReplayEntry := ⟨6, 0, 9, ptWR, 0, [], 0, 0, 50, 9⟩
    let s := tHws [(Reg.HWS_WIN_CFG (Reg.winWin 63), packF [(Fld.HWS_WIN_CFG_VALID, 1)])]
      { HwsSt.reset with cache := [e], toBusy := true, repBusy := [63] }
    admitted s ptRELEASE (tPkt ptRELEASE 2 0 0 [0, 0, 0, 0]) = true ∧ s.cacheFind 6 0 9 = some e ∧ s.hws.toBusy = true ∧
      s.hws.repBusy.contains 63 = true ∧ s.working (capFdie 0) = true ∧ (s.ctx .bowline).serves = true ∧
      s.winValid 63 = true ∧ s.winKind 63 = 0 ∧ s.winBad 63 = true := by decide

theorem witness_responses :
    let r : Req := ⟨.fid 0, ptWR, 5, 6, 0, 0, 0, 0x4000, 1, 0, 0, [1], 0, 9, [0], 0, 1000, 4000, 1⟩
    let up : List (Nat × Word) := [
      (Reg.HWS_ROUTE 6, packF [(Fld.HWS_ROUTE_VALID, 1), (Fld.HWS_ROUTE_HOPS, 1)]),
      (Reg.OPT_STATUS (Reg.portWin 0), packF [(Fld.OPT_STATUS_STATE, optUp)])]
    let s := tHws up { HwsSt.reset with reqs := [r], release := [(6, 0, 9)], backoff := [(0, 6, 0x4000, 70)] }
    let p := tPkt ptCPL 2 (2 ^ 44 * 9) 0 []
    admitted s ptCPL p = true ∧ bits p.w2.toNat 63 48 = 0 ∧
      ((s.arrived p).hws.reqs.find? fun r => r.sport == pSport p && r.tag == pTag p && r.dst == pSrc p && answerType r.type == ptCPL) = some r ∧
      s.answered r = false ∧
      s.reqOf 0 9 = some r ∧ (r.sends + 1) * r.reqUs ≤ r.leaseUs ∧ s.reqPort r.tc r.dst r.off = some 0 ∧ s.respPort 6 = some 0 ∧
      (s.hws.release.filter fun e => e.1 == 6) = [(6, 0, 9)] ∧
      (s.hws.backoff.find? fun e => e.1 == 0 && e.2.1 == 6 && e.2.2.1 == 0x4000) = some (0, 6, 0x4000, 70) := by decide

/-- The response of a request that waits in the queue of its port answers it. -/
theorem witness_answer_that_waits :
    let r : Req := ⟨.fid 0, ptWR, 5, 6, 0, 0, 0, 0x4000, 1, 0, 0, [1], 0, 9, [0], 0, 1000, 4000, 1⟩
    let s := tHws [] HwsSt.reset
    State.answered { s with ports := { s.ports with rx := [(some 0, tPkt ptCPL 2 (2 ^ 44 * 9) 0 [])] } } r = true := by
  simp only [State.answered, List.any_cons, witness_packet_crc]
  decide

/-! ### The host processor complex -/

/-- Hart 0 released, over the memory tiers, with aperture 0 open to node 6. -/
def tHart (st : Nat) (x : HartSt) (l : List (Nat × Word)) : State :=
  { tUp (l ++ [(Reg.HOST_HART_RELEASE0, 1), (Reg.RST_PWR1, 0x0FFFFFFFFFFFFFFF), (Reg.HLY_STATUS, packF [(Fld.HLY_STATUS_STATE, st)]),
      (Reg.HOST_AP 0, packF [(Fld.HOST_AP_VALID, 1), (Fld.HOST_AP_NODE, 6)])] ++ tTiers) with
    host := { HostSt.reset with harts := [(0, x)] } }

/-- A Svareot word: funct3, and the other fields but the opcode. -/
def tInsn (f3 rest : Nat) : BitVec 32 := BitVec.ofNat 32 (2 ^ 12 * f3 + 2 ^ 7 * rest + 0x0B)

theorem witness_tick_instructions :
    let s := tHart hlyRunning HartSt.reset []
    (∀ f3, f3 < 6 → s.hartIssues 0 (tInsn f3 0) f3) ∧ s.xctrl 0 Fld.HOST_XCTRL_TICK_U = true ∧ s.ticking = true ∧
      (let t := tHart hlyRunning { HartSt.reset with wait := .tick 0 3 5 false } []
       t.hartUp 0 = true ∧ (t.hart 0).wait = .tick t.step 3 5 false ∧ (t.hart 0).strap.tvec &&& 3#64 = 0#64) ∧
      (let t := tHart hlyRunning { HartSt.reset with wait := .drain 5 true } []
       t.hartPosted 0 = false ∧ (t.hart 0).wait = .drain 5 true) := by decide

theorem witness_hart_accesses :
    let s := tHart hlyRunning HartSt.reset []
    let ap := 2 ^ 54
    isAperture ap = true ∧ apertureOk (s.aperture ap) = true ∧ s.xctrl 0 Fld.HOST_XCTRL_FACC_U = true ∧ iRd (tInsn 5 0) = 0 ∧
      iF7 (tInsn 5 0) = 0 ∧ iF7 (tInsn 5 (2 ^ 18)) = 1 ∧ iRd (tInsn 5 (2 ^ 18)) = 0 ∧ s.hartIssues 0 (tInsn 5 (2 ^ 18)) 5 ∧
      s.hartReady 0 = true ∧ (s.read 0x4000 8).stat = .ok ∧ (s.write 0x4000 (natLE 8 7)).2 = .ok ∧
      accScalar (.load 8 true 5) ap = true ∧ accScalar (.store 4 7) ap = true ∧ accAmo (.amo 0 8 7 5) ap = true ∧
      inPcieWindow Reg.ID_CAPS = false ∧ 0xF00000000000 ≤ Reg.ID_CAPS ∧ Reg.ID_CAPS % 8 = 0 := by decide

/-- Reserved words of both opcodes; a line of either tier that LR may reserve, with no reservation held; VS-mode. -/
theorem witness_reserved_words_and_reservations :
    let s := tHart hlyRunning HartSt.reset [(Reg.HOST_FT_CACHE 0, 1)]
    let v := tHart hlyRunning { HartSt.reset with mode := .vs } []
    (∀ f3 ∈ [6, 7], iOpcode (tInsn f3 0) = 0x0B ∧ 6 ≤ iF3 (tInsn f3 0)) ∧ s.hartReady 0 = true ∧
      (let w : BitVec 32 := BitVec.ofNat 32 (2 ^ 26 * 5 + 2 ^ 25 + 0x5B)
       iOpcode w = 0x5B ∧ iF3 w = 0 ∧ 4 < iF6 w) ∧
      s.ftCached 0x4000 = true ∧ (s.read 0x4000 8).stat = .ok ∧ (s.read 0x100000004000 8).stat = .ok ∧ s.exists 0x4000 8 = true ∧
      (s.hart 0).resv ≠ some (0x4000 / 64) ∧ (v.hart 0).mode = .vs := by decide

/-- Dot products and reductions with vl of 2 and elements of 2, 4 and 8 bytes. -/
theorem witness_host_vector : ∀ sew ∈ [1, 2, 3],
    let s := tHart hlyRunning { HartSt.reset with vl := 2, vtype := BitVec.ofNat 64 (8 * sew) } []
    let d (f6 : Nat) : BitVec 32 := BitVec.ofNat 32 (2 ^ 26 * f6 + 2 ^ 25 + 0x5B)
    let r (f6 : Nat) : BitVec 32 := BitVec.ofNat 32 (2 ^ 26 * f6 + 2 ^ 25 + 0x1057)
    (∀ f6, f6 < 5 → s.hartVector 0 (d f6) 0x5B 0 f6) ∧ (∀ f6 ∈ [0x01, 0x31], s.hartVector 0 (r f6) 0x57 1 f6) ∧
      (s.hart 0).sew = 2 ^ sew ∧ 0 < (s.hart 0).vl ∧ bit (s.hart 0).vtype.toNat 63 = false ∧ (s.hart 0).vstart = 0 ∧
      (s.hart 0).frm ≤ 1 ∧ iRs2 (r 1) % (s.hart 0).group = 0 ∧ iVm (d 0) = true := by decide

/-! ### The Resident Solve Engine -/

/-- A command of this CMD in slot 7 with these words from word 2 on and arguments; it writes its record at 0x8000. -/
def tSolve (cmd args : Nat) (l : List Nat) : RseCmd :=
  ⟨1, 0, [BitVec.ofNat 64 (2 ^ 56 + 2 ^ 52 * cmd + 2 ^ 49 * 7 + args), 0x8000] ++ l.map (BitVec.ofNat 64) ++
    List.replicate (6 - l.length) 0, false⟩

/-- The engine with one command, over one page that maps the first GiB, with the matrix (2) of order 1, and the right-hand
side (4) at 0x7000. -/
def tRse (q : RseCmd) (st : Nat) (x : RseSlot) : State :=
  { tIdle 0 [(Reg.RSE_REGION, packF [(Fld.RSE_REGION_SIZE, 1), (Fld.RSE_REGION_BASE, 1)]),
      (Reg.RSE_SLOT_STATE (Reg.slotWin 7), packF [(Fld.RSE_SLOT_STATE_STATE, st), (Fld.RSE_SLOT_STATE_N, 1)]),
      (Reg.RSE_SLOT_INFO (Reg.slotWin 7), packF [(Fld.RSE_SLOT_INFO_NNZ, 1)])]
      [(0x4000, 0), (0x4008, 1), (0x6000, 0x4000000000000000), (0x7000, 0x4010000000000000)] with
    rse := { RseSt.reset with queue := [q], slots := [(7, x)] } }

/-- The slot of that matrix. -/
def tSlot : RseSlot := setupSlot 0 false [0, 1] [0] [0x4000000000000000] [0]

def ready (s : State) (q : RseCmd) : Bool :=
  s.working capRse && decide (s.rse.queue.head? = some q) && !q.poison && s.rseValid q && s.rseStateOk q

theorem witness_solve_commands :
    ready (tRse (tSolve 1 (2 ^ 8 * 52) [1, 1, 0x4000, 0x5000, 0x6000]) 0 RseSlot.reset) (tSolve 1 (2 ^ 8 * 52) [1, 1, 0x4000, 0x5000, 0x6000]) =
        true ∧
      ready (tRse (tSolve 2 1 [0, 0, 0x6000]) 2 tSlot) (tSolve 2 1 [0, 0, 0x6000]) = true ∧
      ready (tRse (tSolve 3 0 []) 1 tSlot) (tSolve 3 0 []) = true ∧
      ready (tRse (tSolve 4 0 [1, 0x7000, 0xA000]) 3 tSlot) (tSolve 4 0 [1, 0x7000, 0xA000]) = true ∧
      ready (tRse (tSolve 5 1 [0x7000, 0xA000, 0x3FF0000000000000]) 2 tSlot) (tSolve 5 1 [0x7000, 0xA000, 0x3FF0000000000000]) = true ∧
      ready (tRse (tSolve 6 (2 ^ 16) [0x7000, 0xA000, 0x3FF0000000000000]) 1 tSlot)
        (tSolve 6 (2 ^ 16) [0x7000, 0xA000, 0x3FF0000000000000]) = true ∧
      ready (tRse (tSolve 7 0 []) 0 tSlot) (tSolve 7 0 []) = true := by decide

/-- What a command reads: the arrays of the matrix and a right-hand side; and the write of an answer. -/
theorem witness_solve_arrays :
    let s := tRse (tSolve 1 0 []) 1 tSlot
    (s.rseArray 0x4000 8 2).2 = .inr [0, 1] ∧ (s.rseArray 0x5000 4 1).2 = .inr [0] ∧
      (s.rseArray 0x6000 8 1).2 = .inr [0x4000000000000000] ∧ setupBad 1 1 false false [0, 1] [0] [0x4000000000000000] [] = none ∧
      (s.rhs 0x7000 1).2.getRight? = some [0x4010000000000000] ∧ (s.rsePut 0xA000 (s.headed 7 [0])).2 = rsOK ∧ 1 ≤ s.freeGranules := by decide

theorem witness_solve_analysis :
    nnzFOf tSlot.fill false = 1 ∧ tSlot.sn.length = 1 ∧ (outOfRange tSlot (0, 0x4000000000000000)) = false := by decide

/-! ### Memory and checkpoints -/

/-- A line of the fast tier and one of the capacity tier, of a working unit and of a failed one. -/
theorem witness_lines : ∀ l ∈ [0x4000, 0x100000004000],
    let s := { tUp tTiers with mem := tMem [] }
    let u := ((s.place l).unit).getD 99
    let f := s.setFld (unitStatus u) Fld.MEMC_CH_STATUS_STATE 4
    let p := { s with mem := { s.mem with poison := [(l, true)] } }
    l % 64 = 0 ∧ u < 28 ∧ (s.place l).unit = some u ∧ s.reserved l = false ∧ s.exists l 64 = true ∧ s.unitFailed u = false ∧
      s.poisoned l = false ∧ s.lineErr l = .none ∧ s.homeWins = [] ∧ s.wcOf l = none ∧ p.poisoned l = true ∧ p.exists l 64 = true ∧
      f.unitFailed u = true ∧ (f.place l).unit = some u ∧ f.exists l 64 = true ∧ f.homeWins = [] := by decide

/-- A stack and a channel that work and scrub, with no poison and with it at the line of the scrubber. -/
theorem witness_memory_units : ∀ u ∈ [0, 16],
    let s : State := { tUp ((unitStatus u, packF [(Fld.MEMC_CH_STATUS_STATE, 2)]) :: (Reg.MEMF_SCRUB, packF [(Fld.MEMF_SCRUB_ENABLE, 1)]) ::
      (Reg.MEMC_SCRUB, packF [(Fld.MEMF_SCRUB_ENABLE, 1)]) :: tTiers) with
        mem := { tMem [] with wc := [⟨0x100000004000, [(0, 1)], 0⟩] } }
    let a := s.unitOffset u 0
    s.wcOf 0x100000004000 = some ⟨0x100000004000, [(0, 1)], 0⟩ ∧ (s.ctx .bowline).priv = true ∧ s.mem.wc ≠ [] ∧ s.unitState u = 2 ∧
      s.scrubs u = true ∧ (s.errFound a ⟨[], false⟩).poisoned a = false ∧ 64 < s.unitSize u ∧
      (s.errFound a ⟨[], false⟩).lineErr a = .none ∧ (s.errFound a ⟨[3], false⟩).lineErr a = .ce 3 ∧
      (s.errFound a ⟨[2, 0, 1], true⟩).lineErr a = .ue 2 ∧ sGet noMark s.mem.scrubLate u = false ∧
      s.working (unitCap u) = true := by decide

/-- Each outcome of the codes, at its limits: a stack, a channel of x4 and one of x8 DIMMs, and a word of a tile store. -/
theorem witness_code_outcomes :
    stackCode [0, 71] = .corrects ∧ stackCode [0, 1, 2] = .detects ∧ stackCode [0, 1, 2, 3, 4, 71] = .detects ∧
      stackCode (List.range 7) = .beyond ∧ chanCode 4 [36, 37, 38, 39] = .corrects ∧ chanCode 4 [0, 39] = .detects ∧
      chanCode 4 [0, 4, 8] = .beyond ∧ chanCode 8 [39] = .corrects ∧ chanCode 8 [32, 39] = .detects ∧ chanCode 8 [31, 32] = .beyond ∧
      tileCode [0, 72, 575] = .corrects ∧ tileCode [0, 71] = .detects ∧ tileCode [0, 1, 71] = .beyond ∧ stackCode [] = .clean := by decide

/-- The 64th uncorrectable read within a second, and an entry of a channel at work. -/
theorem witness_unit_failures : ∀ u ∈ [0, 27],
    let s : State := { tUp ((unitStatus u, packF [(Fld.MEMC_CH_STATUS_STATE, 2)]) :: tTiers) with
      mem := { tMem [] with ueAt := [(u, List.replicate 63 0)] } }
    s.unitState u = 2 ∧ 63 ≤ ((sGet noTimes s.mem.ueAt u).filter fun t => s.time ≤ 1000000000 + t).length ∧ s.bwl.cfgNew = none ∧
      s.losses.length < 1000 ∧ s.place 0x100000000000 = .cap 0 ∧ s.unitFailed 16 = false := by decide

/-- A node whose part of a cut of one node stands at `stage`, with this store under way. -/
def tCut (stage slot : Nat) (d : List Word) : State :=
  { tHws [(Reg.CKP_STATUS, packF [(Fld.CKP_STATUS_PHASE, ckpHold)]), (Reg.CKP_FENCES, packF [(Fld.CKP_FENCES_COUNT, 1)])] HwsSt.reset with
    ckp := { CkpSt.reset with stage := stage, open_ := [(slot, 0)], desc := d, closed := true, plan := [[0]] } }

/-- The first word of a designated node's cut descriptor and the count of nodes. -/
def tDesig (n : Nat) : List Word := [BitVec.ofNat 64 (2 ^ 55), 0, 0, 0, 0, BitVec.ofNat 64 (2 ^ 48 * n)]

theorem witness_cuts :
    let f := (tCut 1 0 []).wcFlushAll
    (tCut 1 0 []).ckp.stage = 1 ∧ (tCut 1 0 []).hws.reqs = [] ∧ (tCut 1 0 []).hws.held = [] ∧ f.ckp.bad = none ∧
      (tCut 2 1 []).ckpOpen 1 = some 0 ∧ (tCut 2 0 []).ckpOpen 0 = some 0 ∧ (tCut 5 ckpManSlot []).ckpOpen ckpManSlot = some 0 ∧
      (tCut 10 ckpManSlot []).ckpOpen ckpManSlot = some 0 ∧ (tCut 7 0 (tDesig 1)).cutDesig = true ∧ (tCut 6 0 (tDesig 1)).cutNodes ≤ 1 ∧
      (tCut 6 0 (tDesig 1)).fld Reg.CKP_FENCES Fld.CKP_FENCES_COUNT = 1 ∧ 1 < (tCut 7 0 (tDesig 2)).cutNodes := by decide

/-- The manifests on PCIe at each of their stages, and a shard on PCIe. -/
theorem witness_manifest_stages : ∀ n ∈ [3, 4, 5, 8, 9, 10],
    let s := tCut n ckpManSlot [BitVec.ofNat 64 (2 ^ 51)]
    s.ckp.stage = n ∧ s.ckpOpen ckpManSlot = some 0 ∧ s.cutMkind = 2 := by decide

/-- The one gather record of that partition is missing; of a partition of no node every record is there. -/
theorem witness_gather :
    ((tCut 7 0 (tDesig 1)).gatherAll 0 1).2 = none ∧ ((tCut 7 0 (tDesig 0)).gatherAll 0 0).2 = some [] := by decide

theorem witness_holds :
    let h := ((tCut 6 0 []).setHlyState hlyHoldFinal).setFld Reg.HLY_STATUS Fld.HLY_STATUS_ROLE 1
    let r := h.setCkpPhase ckpRestoreHold
    let c : Child := ⟨9, true, 0, 0⟩
    let k := { h with hly := { h.hly with children := [c] } }
    h.isMaster = true ∧ h.hlyState = hlyHoldFinal ∧ h.ckp.closed = true ∧ h.ckpPhase ≠ ckpRestoreHold ∧ h.hly.final = none ∧
      h.aggPending = false ∧ (k.hly.children.find? fun x => x.node == 9) = some c ∧ (h.ctx .bowline).serves = true ∧
      r.ckpPhase = ckpRestoreHold := by decide

/-- A restore descriptor at 0x2000, sound, unsound and poisoned, on a node that may restore and one that may not. -/
theorem witness_restores : ∀ e ∈ [(0x0110000000000000, true), (0, false)],
    let s := { (tHws [] HwsSt.reset).setHlyState hlyIdle with mem := tMem [(0x2000, e.1)] }
    let p := { s with mem := { s.mem with poison := [(0x2000, true)] } }
    let d := bytesToWords 8 (s.readDesc 4 0x2000).data
    let w0 := (wordAt d 0).toNat
    (s.ctx .bowline).serves = true ∧ s.working capCkp = true ∧ s.ckpPhase = ckpIdle ∧ (s.readDesc 4 0x2000).stat = .ok ∧
      (decide (bits w0 63 56 = 1 ∧ bits w0 51 0 = 0 ∧ (bits w0 53 52 = 1 ∨ bits w0 53 52 = 2)) = e.2) ∧ s.restoreState (bit w0 55) = true ∧
      (s.setHlyState hlyRunning).restoreState (bit w0 55) = false ∧ (p.readDesc 4 0x2000).stat = .poison := by decide

/-- The manifest of the empty set of records, made on node 5. -/
def tMan : List Byte := (tHws [] HwsSt.reset).manHeader 1 7 0 []

/-- That manifest is sound and names this node and its numerics; without its first byte it is not. -/
def tManSound : Bool :=
  manParse tMan == some [] && leNat ((tMan.drop 32).take 2) == (tHws [] HwsSt.reset).ownNode &&
    leNat ((tMan.drop 24).take 8) == ((tHws [] HwsSt.reset).rd Reg.ID_NUMERICS_SIG).toNat && manParse (tMan.drop 1) == none

set_option maxRecDepth 1000000 in
theorem witness_restore_manifest : tManSound = true := by decide

/-! ### The optical ports -/

/-- Port 7 in state `st`, sixteen lanes in use and two spares, the port's own record given. -/
def tPort (st : Nat) (x : PortSt) (l : List (Nat × Word)) : State :=
  { tUp (l ++ [(Reg.OPT_STATUS (Reg.portWin 7), packF [(Fld.OPT_STATUS_STATE, st)])]) with
    ports := { PortsSt.reset with ports := [(7, x)] } }

def tFlit (type : Nat) : Flit := ⟨0, type, 0, 0, false, 0, 0, 0, List.replicate 632 0, 0⟩

/-- Lane 17 of a port that trains and of one that is up, in use and spare; the checks of a flit, on a flit of no payload. -/
theorem witness_flits : ∀ st ∈ [optNegotiate, optUp], ∀ role ∈ [3, roleSpare],
    let s := tPort st PortSt.reset [(Reg.OPT_L_STAT (Reg.laneWin 7 17), packF [(Fld.OPT_L_STAT_RX_ROLE, role), (Fld.OPT_L_STAT_RX_STATE, laneInUse)])]
    s.laneHears 7 17 ∧ decide (s.rxRole 7 17 < 16) = (role == 3) ∧ s.working (capPort 7) = true ∧
      ((s.heard 7 17 15 (tFlit ftTRAIN)).port 7).stamps.length < 64 := by decide

/-- Every flit can carry its own CRC, or another one: the CRC does not depend on the field that holds it. -/
theorem witness_flit_crc (f : Flit) (c : Nat) : flitCrc { f with crc := c } = flitCrc f := rfl

/-- A timestamped flit of this end that waits for its answer, a symbol of a reserved TYPE, and a port that carries ticks. -/
theorem witness_flits_answered :
    let s := tPort optDelay { PortSt.reset with asks := [7] } [(Reg.OPT_L_STAT (Reg.laneWin 7 17), packF [(Fld.OPT_L_STAT_RX_STATE, laneInUse)])]
    let h := s.heard 7 17 0 (tFlit ftTRAIN)
    let u := tPort optUp PortSt.reset [(Reg.OPT_NEG (Reg.portWin 7), packF [(Fld.OPT_NEG_FEATURES, 7)]),
      (Reg.OPT_L_STAT (Reg.laneWin 7 17), packF [(Fld.OPT_L_STAT_RX_STATE, laneInUse)])]
    s.laneHears 7 17 ∧ (h.port 7).asks = [7] ∧ (h.port 7).stamps.length < 64 ∧ h.portState 7 ≠ optUp ∧ u.laneHears 7 17 ∧
      (u.heard 7 17 15 (tFlit ftTICK)).tickUp 7 = true := by decide

/-- Readings that fall below 13.0 dBm on one wavelength, on all of them, and on none; a remapping that is due in its period. -/
theorem witness_light_and_remaps :
    let s := (tPort optUp { PortSt.reset with remaps := [⟨true, 15, some 17, 1⟩, ⟨false, 15, none, 1⟩] } []).setLasers 7 (List.replicate 12 104)
    let one := s.setLasers 7 (104 :: 104 :: 104 :: 104 :: 104 :: 103 :: List.replicate 6 104)
    one.laserFell s 7 0 = true ∧ one.laserFell s 7 1 = false ∧ one.anyUsable 7 = true ∧ one.portState 7 = optUp ∧
      one.darkLanes 7 = [5, 11, 17] ∧ (s.setLasers 7 (List.replicate 12 103)).anyUsable 7 = false ∧
      ((s.port 7).remaps.find? fun q => q.rx == true && decide (q.period ≤ 1 + (s.port 7).rxPeriod)) = some ⟨true, 15, some 17, 1⟩ ∧
      ((s.port 7).remaps.find? fun q => q.rx == false && decide (q.period ≤ 1 + (s.port 7).period)) = some ⟨false, 15, none, 1⟩ ∧
      s.portState 7 ≠ optIncompatible := by decide

theorem witness_ports : ∀ st ∈ [optLight, optAcquire, optAlign, optQualify, optMap, optNegotiate, optDelay, optCal, optUp],
    let f : ReplayFlit := ⟨0, [], 9⟩
    let s := tPort st { PortSt.reset with rxLost := true, replay := [f], waiting := true, remaps := [⟨true, 3, some 17, 9⟩, ⟨false, 3, none, 9⟩] }
      [(Reg.OPT_STATUS (Reg.portWin 7), packF [(Fld.OPT_STATUS_STATE, st), (Fld.OPT_STATUS_CALIBRATING, 1)])]
    let lit := s.setLasers 7 (List.replicate 12 160)
    let dark := s.setLasers 7 []
    s.working (capPort 7) = true ∧ s.portState 7 = st ∧ s.traffic 7 = (st == optCal || st == optUp) ∧ (s.port 7).rxLost = true ∧
      (s.port 7).replay = [f] ∧ lit.anyUsable 7 = true ∧ dark.anyUsable 7 = false ∧ (s.port 7).waiting = true ∧
      s.calibrating 7 = true ∧ (s.port 7).calDue = false ∧ (tPort st PortSt.reset []).calibrating 7 = false ∧
      ((s.port 7).remaps.find? fun q => q.rx == true) = some ⟨true, 3, some 17, 9⟩ ∧
      ((s.port 7).remaps.find? fun q => q.rx == false) = some ⟨false, 3, none, 9⟩ ∧ (s.ctx .bowline).priv = true := by decide

/-! ### Reset, bring-up, power and heat -/

/-- Supplies in range, steps 1 to `k` released and ready, in configuration of `cfg` straps; Bowline's mode and start given. -/
def tBoot (k boot mode start : Nat) : State :=
  { tUp [(Reg.RST_STRAP, packF [(Fld.RST_STRAP_BOOT_SRC, boot)]), (Reg.BWL_STATUS, packF [(Fld.BWL_STATUS_MODE, mode)]),
      (Reg.RST_STATUS, packF [(Fld.RST_STATUS_START, start), (Fld.RST_STATUS_STEP, k)])] with
    rst := { RstSt.reset with pwrOk := true, resetN := true, running := true, released := (List.range k).map (· + 1),
                              ready := (List.range k).map (· + 1) } }

theorem witness_resets :
    let s := tBoot 7 0 1 1
    s.rst.vsb = true ∧ s.rst.pwrOk = true ∧ s.rst.resetN = true ∧ s.rst.vinFault = false ∧ State.reset.rst.resetN = false ∧
      State.reset.rst.vsb = true ∧ (s.ctx .bowline).priv = true ∧ getF (packF [(Fld.RST_CTRL_KEY, 0xA5), (Fld.RST_CTRL_RESET, 1)]) Fld.RST_CTRL_KEY = 0xA5 ∧
      getF (packF [(Fld.RST_CTRL_KEY, 0xA5), (Fld.RST_CTRL_RESET, 1)]) Fld.RST_CTRL_RESET = 1 ∧
      s.start = 1 ∧ s.fld Reg.BWL_STATUS Fld.BWL_STATUS_MODE = 1 ∧ s.rst.fatal = false ∧
      (tBoot 7 0 1 2).bwl.kickAt + 1000000 * (tBoot 7 0 1 2).fld Reg.BWL_WDOG Fld.BWL_WDOG_PERIOD_MS ≤ ((tBoot 7 0 1 2).timeTo 10000000000).time ∧
      ((tBoot 7 0 1 2).timeTo 10000000000).start = 2 := by decide

/-- A configuration write that holds the flash, with and without a record of THERM that waits; junctions below 95 °C. -/
theorem witness_writes_that_wait :
    let s := { tBoot 7 0 1 1 with bwl := { BwlSt.reset with cfgNew := some [] } }
    let w := s.nvmLater (.fatal true (s.fatalNew (2 ^ srcTHERM)) (some srcTHERM))
    s.nvmBusy = true ∧ s.thermWaits = false ∧ w.nvmBusy = true ∧ w.thermWaits = true ∧ (tBoot 7 0 1 1).nvmBusy = false ∧
      (tBoot 7 0 1 1).rst.thermHold = false ∧ (∀ l ∈ [[(95 * 16 - 1 : Int)]], ∀ x ∈ l, x < 95 * 16) ∧
      ¬ (∀ l ∈ [[(95 * 16 : Int)]], ∀ x ∈ l, x < 95 * 16) := by decide

/-- Step 4 asked for and released, a step that is not ready, and each choice that BOOT_SRC, the flash and the starts make. -/
theorem witness_bring_up :
    let s := tBoot 3 0 1 1
    let a := { s with rst := { s.rst with asked := some 4 } }
    let w := { s with rst := { s.rst with ready := [1, 2] } }
    s.nextStep = some 4 ∧ a.nextStep = some 4 ∧ a.mayRun = true ∧ a.stepsReady = true ∧ a.rst.asked = some 4 ∧ s.bwl.fabric = false ∧
      w.rst.released.contains 3 = true ∧ w.rst.ready.contains 3 = false ∧ w.fld Reg.RST_STATUS Fld.RST_STATUS_FAIL_STEP = 0 ∧
      w.rst.released.getLast? = some 3 ∧ w.stepsReady = false ∧ s.bwl.chosen = false ∧ s.belay = false ∧ s.bwl.fw = none ∧
      (tBoot 7 0 1 1).rst.released.contains 7 = true ∧ (tBoot 7 0 1 1).start = 1 ∧ 
      getF (packF [(Fld.BWL_HEALTH_CONFIRM_KEY, 0x5A), (Fld.BWL_HEALTH_CONFIRM_CONFIRM, 1)]) Fld.BWL_HEALTH_CONFIRM_KEY = 0x5A ∧
      getF (packF [(Fld.BWL_HEALTH_CONFIRM_KEY, 0x5A), (Fld.BWL_HEALTH_CONFIRM_CONFIRM, 1)]) Fld.BWL_HEALTH_CONFIRM_CONFIRM = 1 := by decide

set_option maxRecDepth 1000000 in
theorem witness_configuration_choice : ∀ boot, boot < 4 →
    let s := tBoot 3 boot 0 1
    let f := { s with nvm := { s.nvm with present := false } }
    s.bootSrc = boot ∧ s.nvmPresent = true ∧ s.nvmHeaderOk = true ∧ f.nvmPresent = false ∧ s.bwl.chosen = false ∧
      s.rst.ready.contains 2 = true ∧ s.rst.failed < 4 := by decide

theorem witness_power_and_heat :
    let s := { tBoot 7 0 1 1 with
      regs := (Reg.RST_PWR0, 1) :: (Reg.TC_MAP (Reg.coreWin 0 8), 8) :: (Reg.BWL_TLM_STATUS, packF [(Fld.BWL_TLM_STATUS_RATE_HZ, 10)]) ::
        (Reg.RAS_COOL, packF [(Fld.RAS_COOL_THRESH, 5)]) :: (tBoot 7 0 1 1).regs }
    s.domainPresent 0 = true ∧ s.powered 0 = true ∧ s.domainUsed 0 = false ∧ s.domainPresent 1 = true ∧ s.domainInUse 1 = true ∧
      s.powered 1 = false ∧ 5 ∈ s.rst.released ∧
      (s.stepDomains 5).contains 1 = true ∧ s.rst.thermHold = false ∧ s.flag Reg.BWL_GOV Fld.BWL_GOV_PROCHOT_IN = false ∧
      s.fld Reg.BWL_TLM_STATUS Fld.BWL_TLM_STATUS_RATE_HZ ≠ 0 ∧ s.inDomain = false ∧ (79 : Int) < 5 * 16 ∧
      s.flag Reg.RAS_SERVICE_REQUEST Fld.RAS_SERVICE_REQUEST_COOLING = false := by decide

/-! ### PCIe, registers, SMBus and Lanyard -/

theorem witness_pcie :
    let s := { tHart hlyRunning HartSt.reset [(Reg.RST_PWR2, 0xFF)] with pcieSub := 1 }
    let p := { s with mem := { s.mem with poison := [(0x4000, true)] } }
    s.hartReady 0 = true ∧ s.readable (pcieMemBase + 0x7FFFFF8) = true ∧ s.writable (pcieMemBase + 0x7FFFFF8) = true ∧
      s.writable (pcieCfgBase + 0x18) = true ∧ 1 ≤ bits 0x100000 27 20 ∧ bits 0x100000 27 20 ≤ s.pcieSub ∧ s.pcieUp = true ∧
      s.inTier 0x4000 = true ∧ (s.read 0x4000 64).stat = .ok ∧ (p.read 0x4000 64).stat = .poison ∧ (s.write 0x4000 [1]).2 ≠ .absent := by decide

theorem witness_register_writes :
    (State.reset.ctx .bowline).priv = true ∧ (State.reset.ctx (.hart 0 false)).priv = false ∧ State.reset.writable Reg.BWL_MBX_CTRL = true ∧
      (regSpec Reg.BWL_MBX_CTRL).isSome = true ∧ regSpec 0xF00004FFFFF8 = none ∧ Reg.RAS_EVENT % 8 = 0 ∧
      0xF00004000000 ≤ Reg.RAS_EVENT ∧ Reg.RAS_EVENT < 0xF00010000000 ∧ (regSpec Reg.RAS_EVENT).isSome = true ∧
      State.reset.writable Reg.RAS_EVENT = true ∧ State.reset.rst.vsb = true ∧
      State.reset.rst.resetN = false := by decide

/-- The target answers from step 1; in Belay mode it takes images. -/
theorem witness_smbus :
    let s := { tBoot 1 0 0 0 with logRing := [⟨7, 1, 0, 0, 0, 0, 0, 0⟩] }
    let b := s.setFlds Reg.RST_STATUS [(Fld.RST_STATUS_BELAY, 1), (Fld.RST_STATUS_BELAY_CAUSE, 3)]
    s.smbOn = true ∧ s.alertLow = true ∧ b.smbOn = true ∧ b.belay = true ∧ b.bwl.cfgBuf = none ∧ b.bwl.smbHeld = none ∧
      (s.logRing.dropWhile fun x => decide (x.eseq < leNat [7, 0, 0, 0])) = s.logRing ∧ leNat (natLE 4 cfgLen) = cfgLen ∧
      b.fld Reg.RST_STATUS Fld.RST_STATUS_BELAY_CAUSE = 3 ∧ b.nvmBusy = false ∧
      State.nvmBusy { b with bwl := { b.bwl with cfgNew := some [] } } = true := by decide

/-- A command at the front of the queue, in Belay mode, on node 5 of a partition and of none, with its argument bytes. -/
def tLy (cmd : Nat) (args : List Byte) (part : Bool) (b : BwlSt) : State × LyCmd :=
  let c : LyCmd := ⟨some 1, 0, cmd, args.length, args, 0, false⟩
  ({ tHws [(Reg.BWL_STATUS, packF [(Fld.BWL_STATUS_MODE, 1)]), (Reg.HLY_DOMAIN, 0),
      (Reg.HWS_PART, if part then packF [(Fld.HWS_PART_VALID, 1)] else 0)] HwsSt.reset with bwl := { b with cmds := [c] } }, c)

/-- Every command is first to be executed with arguments of its length; those that assign may begin. -/
theorem witness_commands : ∀ e ∈ [(0x01, 0), (0x02, 16), (0x03, 16), (0x04, 0), (0x10, 8), (0x12, 8), (0x11, 40), (0x13, 0), (0x20, 16), (0x21, 0),
      (0x22, 48), (0x23, 0), (0x30, 16), (0x31, 8), (0x40, 16), (0x50, 8), (0x60, 16), (0x61, 16), (0x62, 8), (0x63, 8), (0x70, 8), (0x71, 8),
      (0x72, 0), (0x78, 8), (0x79, 8), (0x7A, 0), (0x7B, 0), (0x80, 8), (0x81, 0), (0x82, 32)],
    let t := tLy e.1 (List.replicate e.2 0) false BwlSt.reset
    t.1.lyFirst e.1 t.2 [] ∧ t.2.has e.2 = true ∧ t.1.assigning = false ∧ t.1.stageWaits = false ∧ t.1.cfgBusy = false ∧ t.1.nvmBusy = false := by decide

theorem witness_command_states :
    let t := (tLy 0x11 (List.replicate 40 0) false BwlSt.reset).1.lyTaken []
    let h := ((tLy 0x23 [] true BwlSt.reset).1.lyTaken []).setFlds Reg.HLY_STATUS [(Fld.HLY_STATUS_STATE, hlyHoldFault), (Fld.HLY_STATUS_ROLE, 1)]
    t.assigning = false ∧ t.flag Reg.HWS_NODE Fld.HWS_NODE_VALID = true ∧ t.flag Reg.HLY_DOMAIN Fld.HLY_DOMAIN_VALID = false ∧
      t.flag Reg.HWS_PART Fld.HWS_PART_VALID = false ∧ rootOk 0x1000 = true ∧ (h.flag Reg.HWS_PART Fld.HWS_PART_VALID = true) ∧
      h.hlyState = hlyHoldFault ∧ h.isMaster = true ∧ h.aggPending = false ∧
      (CfgRec.mk 0 rtTELEMETRY false 1 8 [0]).inRange = true := by decide

set_option maxRecDepth 8000 in
/-- Sessions: one that is set up, one that is open and has expired; and packets of every kind. -/
theorem witness_sessions :
    let x : Session := ⟨9, 6, 0, true, 0, 0, 0, [], [], [], [], [], [], [], 0, []⟩
    let c : LyCmd := ⟨none, 4, 0x72, 0, [], 1, false⟩
    let s := (tLy 0x01 [] true { BwlSt.reset with sessions := [x], running := [c] }).1
    (∀ k ∈ [lyHello1, lyHello3, lyData, lyClose, lyFreset],
      let p := tPkt ptLANYARD 1 0 0 (lyHead 0 k 0 ++ List.replicate 137 0)
      s.working (capFdie 0) = true ∧ pType p = ptLANYARD ∧ lyKind p = k ∧ pTc p = 1 ∧ pDst p = s.ownNode ∧ lySession p = 0 ∧
        137 ≤ (lyBody p).length) ∧
      s.lyServed = true ∧ s.sessionOf 9 = some x ∧ x.last + 300 * 10 ^ 9 ≤ (s.timeTo 300000000000).time ∧ c ∈ s.bwl.running ∧
      c.told = false := by decide

/-! ### The whole block -/

theorem witness_front : ∃ (s : State) (c : Instr), s.pending = [c] ∧ s.hly.rate = 0 ∧ s.hly.frac < 65536 :=
  ⟨{ State.reset with pending := [.sbpor] }, .sbpor, rfl, rfl, by decide⟩

theorem witness_idle : State.reset.pending = [] ∧ State.reset.hly.running = false ∧
    ({ State.reset with hly := { HlySt.reset with running := true } } : State).pending = [] := by decide

theorem witness_fuses : State.reset.fuse.rollback ≤ 64 ∧
    ∃ f : FuseSt, f.fwKeys.getD 0 [] ≠ [] ∧ bit f.fwRevoke 0 = false :=
  ⟨by decide, { FuseSt.reset with fwKeys := [[1]] }, by decide⟩

/-! ### Worked examples of the spec -/

/-- spec/04 'one value into E4M3': 300.7 goes to 0x79 under RNE and RTZ with NX, and under SR to 0x7A when the drawn word is
below 0x6599_9999. -/
theorem test_e4m3_conversion :
    let x := decodeNum fmtFP64 0x4072CB3333333333
    convertNum fmtE4M3 rmRNE false 0 x = (0x79, flNX) ∧ convertNum fmtE4M3 rmRTZ false 0 x = (0x79, flNX) ∧
      (convertNum fmtE4M3 rmSR false 0x30000000 x).1 = 0x7A ∧ (convertNum fmtE4M3 rmSR false 0xA0000000 x).1 = 0x79 := by decide

/-- spec/05: prod16 of 2^-100 and 2^-60 is +0 with UF and NX; spec/05 'a BF16 block through the tree' gives 0x3F80_0001. -/
theorem test_prod16 : prod16 (decodeNum fmtBF16 0x0D80) (decodeNum fmtBF16 0x2180) = (0, flUF ||| flNX ||| evFlush) := by decide

theorem test_bf16_block :
    (block16 ((0x3F80 :: List.replicate 3 0x3980 ++ List.replicate 28 0).map (decodeNum fmtBF16))
      ((0x3F80 :: List.replicate 3 0x3980 ++ List.replicate 28 0).map (decodeNum fmtBF16))).code = 0x3F800001 := by decide

/-- spec/05 'an E4M3 block summed exactly': 2^-18, and 2^-138 under the scale code 0x07, with no flag. -/
theorem test_e4m3_block :
    let a := ([0x7E, 0x01, 0xFE] ++ List.replicate 29 0).map (decodeNum fmtE4M3)
    let b := ([0x7E, 0x01, 0x7E] ++ List.replicate 29 0).map (decodeNum fmtE4M3)
    (blockShort a b 0x7F 0x7F).code = 0x36800000 ∧ (blockShort a b 0x7F 0x7F).flags = 0 ∧ (blockShort a b 0x07 0x7F).code = 0x800 ∧
      (blockShort a b 0x07 0x7F).flags = 0 := by decide

/-- spec/04 'one FP4 block': the scale code 0x80, and the codes 0x7, 0xB and 0x0. -/
theorem test_fp4_block :
    let v := ([0x41500000, 0xC02CCCCD, 0x3E4CCCCD] ++ List.replicate 29 0).map (decodeNum fmtFP32)
    (blockScale fmtE2M1 v 0).1 = some 1 ∧ (v.take 3).map (fun x => (encodeElem fmtE2M1 rmRNE 0 1 x).1) = [0x7, 0xB, 0x0] := by decide

/-- spec/12 'one element, three accumulates': the sorted order and the order of arrival. -/
theorem test_accumulates :
    let a := 0x3CB0000000000000
    let b := 0x3CA0000000000000
    accAdd 0 (accAdd 0 (accAdd 0 0x3FF0000000000000 b) b) a = 0x3FF0000000000001 ∧
      accAdd 0 (accAdd 0 (accAdd 0 0x3FF0000000000000 a) b) b = 0x3FF0000000000002 := by decide

/-- spec/09 'one lane of VDOT4.E4M3': 0x4000_0010, no flag. -/
theorem test_vdot4 : dotLane fmtFP32 fmtE4M3 0 4 0x3F800000 0x38FE017E 0x387E017E = (0x40000010, 0) := by decide

/-- spec/06 'one FMA word', spec/02 'arming a program start' and spec/03 'a core after sparing'. -/
theorem test_layouts :
    insnWord 0x18 0x03 (tVec 3 1 2 4 1 0 0 0 0) = 0x6031844410000000 ∧
      (let e : TalqEntry := ⟨1, 0x25180000000186A0, 0x0042000012345000⟩
       e.target = 37 ∧ e.action = actProgram ∧ e.phase = 2 ∧ e.step = 100000 ∧ e.tag = 0x42 ∧ e.desc = 0x12345000) ∧
      Reg.coreWin 1 50 = 0xF00011320000 := by decide

set_option maxRecDepth 100000 in
/-- The check values that the standards of CRC-32C and SHA-384 give (log entry 15). -/
theorem test_crc_and_sha :
    crc32c ((List.range 9).map fun i => BitVec.ofNat 8 (0x31 + i)) = 0xE3069283 ∧
      (sha384 [0x61, 0x62, 0x63]).take 8 = [0xCB, 0x00, 0x75, 0x3F, 0x45, 0xA3, 0x5E, 0x8B] := by decide

/-- spec/11 'an offset before and after a stack is mapped out'. -/
theorem test_interleave :
    let s (w : Nat) := tUp [(Reg.MEMF_MAP, packF [(Fld.MEMF_MAP_WORKING, w)])]
    (s 0xFFF).ftLocate 0x12345678 = (9, 0x1845678, 13) ∧ (s 0xFDF).ftLocate 0x12345678 = (8, 0x1A7A678, 14) := by decide

/-- spec/20 'finding two lands': AK84 carries CH7_B_DQS_C3, AK82 its partner, G10 CH0_A_DCA4; and
REFCLK_P and REFCLK_N at B21 and B23. -/
theorem test_lands :
    let ak84 : Land := ⟨29, 84⟩
    ak84.use = .ddr 7 (.sub true (.dqsC 3)) ∧ (⟨29, 82⟩ : Land).use = .ddr 7 (.sub true (.dqsT 3)) ∧ rowName 29 = ['A', 'K'] ∧
      ak84.centre = (355, -195) ∧ (⟨7, 10⟩ : Land).use = .ddr 0 (.sub false (.dca 4)) ∧ rowName 7 = ['G'] ∧ rowName 38 = ['A', 'Y'] ∧
      rowName 96 = ['E', 'A'] ∧ (⟨2, 21⟩ : Land).use = .sideband .refclkP ∧ (⟨2, 23⟩ : Land).use = .sideband .refclkN := by decide

set_option maxRecDepth 100000 in
/-- The generator of RS(544,514), as IEEE 802.3 clause 91 tabulates it (log entry 70). -/
theorem test_rs_generator :
    rsGen = [575, 552, 187, 230, 552, 1, 108, 565, 282, 249, 593, 132, 94, 720, 495, 385, 942, 503, 883, 361, 788, 610, 193, 392, 127,
      185, 158, 128, 834, 523] := by decide

/-- Table FMT-7 with R138: −128 to INT8 is limited, with NV and no NX. Table FMT-8: a negative x to E8M0 raises NV and NX. -/
theorem test_limits :
    (convertNum fmtINT8 rmRNE true 0 (decodeNum fmtFP32 0xC3000000)).1 = 0x80 ∧
      (convertNum fmtINT8 rmRNE true 0 (decodeNum fmtFP32 0xC3000000)).2 % 16 = flNV ∧
      convertNum fmtE8M0 rmRNE true 0 (decodeNum fmtFP32 0xC3000000) = (0xFF, flNV ||| flNX) := by decide

/-! ### Ill-formed commands -/

set_option maxRecDepth 8000 in
/-- A term that each check of WellFormed refuses: a unit, index or field just beyond what the hardware has. -/
theorem test_ill_formed :
    let a : Agent := .hart 68 true
    let y : TickSymbol := tSym (2 ^ 48) 0 0 0
    let p : Packet := ⟨0, 0, 0, 0, List.replicate 257 0, 0⟩
    let f : Flit := ⟨4096, 0, 0, 0, false, 0, 0, 0, List.replicate 632 0, 0⟩
    ([.add 640 false 0, .tcDoorbell .bowline 4 0 0, .tcDoorbell .bowline 0 168 0, .tcDoorbell a 0 0 0, .scrubComplete 4 0, .scrubComplete 0 168,
      .strandLost 4 0, .strandLost 0 21, .tcSemValue .bowline 0 256 0, .tcEvqCtrl .bowline 0 8 0, .timeReq 65536 (tSym 0 0 0 0),
      .tickFinal y, .hlyTalqArm1 .bowline 7 0, .programStart 4, .fabricPut 2, .tickRd 68 0, .hostFtCache .bowline 24 0,
      .hostHartRelease .bowline 2 0, .memoryRead 1 ⟨[], false⟩, .dramRefresh 12, .scrubRead 15 ⟨[], false⟩, .memoryFail 28, .rd p, .requestRetry 8 0,
      .requestRetry 0 (2 ^ 20), .releaseSend 65536, .replayLeaseExpiry 65536 0 0, .backoffExpiry 0 0 1, .hwsWinCfg .bowline 64 0,
      .idleFlit 8 0 0 f, .idleFlit 0 18 0 (tFlit 0), .idleFlit 0 0 0 f, .flitTransmit 8, .resetNRelease 4 0 0, .releaseRequest 0,
      .stepReady 8 ⟨[], [], [], [], [], [], []⟩, .sessionTimeout (2 ^ 32), .smbLog true (List.replicate 256 0), .sensorSample [] [] 0 0 true,
      .childSilence 65536, .domainPowerDown 164, .registerWrite a 0 0 [] true] : List Instr).all (fun i => !i.wf) = true := by decide

set_option maxRecDepth 8000 in
/-- The last unit, index and field of each kind pass. -/
theorem test_well_formed :
    ([.add 639 false 0, .tcDoorbell (.hart 67 false) 3 167 0, .strandLost 3 20, .tcSemValue .bowline 3 255 0, .tcEvqCtrl .bowline 3 7 0,
      .tickFinal (tSym (2 ^ 48 - 1) 65535 0 0), .hlyTalqArm1 .lanyard 6 0, .memoryRead 64 ⟨[], false⟩, .scrubRead 27 ⟨[], false⟩,
      .idleFlit 7 17 0 (tFlit 15), .resetNRelease 3 3 7, .domainPowerUp 163] : List Instr).all Instr.wf = true := by decide

end Sys2Proof.Machine.Tests
end

section
/-! PROOFS. Every command completes (R7, R11): the meaning of each command and a step of the block answer a next state. -/

namespace Sys2Proof.Machine

/-- The case split is over the commands. In each case the next state is the one that the command's own meaning names:
what the spec turns away is a branch inside that state, never an outcome beside `.next`, so that no case looks at `s`. -/
theorem exec_completes (i : Instr) (s : State) : ∃ t : State, exec i s = .next t := by
  cases i <;> exact ⟨_, rfl⟩

/-- With no command waiting, a step is the idle nanosecond (log entry 6). -/
theorem step_of_pending_nil {s : State} (h : s.pending = []) : step s = .next s.idle := by
  unfold step; rw [h]

/-- With a command at the front of the queue, a step is its meaning on the rest of the queue. -/
theorem step_of_pending_cons {s : State} {i : Instr} {r : List Instr} (h : s.pending = i :: r) :
    step s = exec i { s with pending := r } := by
  unfold step; rw [h]

theorem step_completes (s : State) : ∃ t : State, step s = .next t := by
  cases h : s.pending with
  | nil => exact ⟨s.idle, step_of_pending_nil h⟩
  | cons i r => rw [step_of_pending_cons h]; exact exec_completes i _

/-- Settles O56: each command by the case split of `exec_completes`, a step by whether a command waits. -/
theorem everyCommandCompletes : Obligations.EveryCommandCompletes :=
  ⟨exec_completes, step_completes⟩

end Sys2Proof.Machine
end

section
/-! PROOFS. Power, heat and telemetry (R22, R452, R498 to R503, R563): what each command does, by the branch that its state selects. -/

namespace Sys2Proof.Machine

/-! ### Power domains (R22) -/

theorem within_iff {lo hi x : Nat} : within lo hi x = true ↔ lo ≤ x ∧ x ≤ hi := by
  rw [within, Bool.and_eq_true, decide_eq_true_eq, decide_eq_true_eq]

/-- The state with domain `d` powered down, a capacity domain after its entries are written back. -/
def State.domainDown (s : State) (d : Nat) : State := (if 132 ≤ d ∧ d ≤ 134 then s.wcFlushAll else s).setPower d false

theorem exec_domainPowerDown_unused {s : State} {d : Nat} (hp : s.domainPresent d = true) (ho : s.powered d = true) (hd : d ≠ 120)
    (hu : s.domainUsed d = false) :
    exec (.domainPowerDown d) s =
      .next (if d = 135 then { s.domainDown d with rst := { (s.domainDown d).rst with perst := false } } else s.domainDown d) := by
  have e : (if within 132 134 d then s.wcFlushAll else s).setPower d false = s.domainDown d := by
    rw [State.domainDown]
    simp only [within_iff]
  rw [← e]
  exact congrArg _ (if_pos ⟨hd, hp, ho, hu⟩)

theorem exec_domainPowerUp_released {s : State} {d k : Nat} (hp : s.domainPresent d = true) (hi : s.domainInUse d = true)
    (ho : s.powered d = false) (hk : k ∈ s.rst.released) (hd : (s.stepDomains k).contains d = true) :
    exec (.domainPowerUp d) s = .next ((s.setPower d true).unitFresh d) :=
  congrArg _ (if_pos ⟨hp, hi, ho, List.any_eq_true.2 ⟨k, hk, hd⟩⟩)

/-! ### Samples (R500, R502) -/

/-- The state that shows a sample, before its junctions are judged. -/
def State.sampled (s : State) (junction : List (List Int)) (stackT : List Int) (volt amp : Nat) : State :=
  let a := State.stackSamples { s with pwr := { s.pwr with
    junction := junction, volt := volt, amp := amp, power := ((volt * amp) :: s.pwr.power).take 100 } } 0 stackT
  a.setFlds Reg.BWL_GOV [(Fld.BWL_GOV_POWER_W, a.pwr.watts), (Fld.BWL_GOV_STACK_HOT, if a.pwr.stackHot = 0 then 0 else 1)]

/-- A junction at 125 °C trips, unless a THERM reset holds the device already (R452). -/
abbrev State.trips (s : State) (junction : List (List Int)) : Prop :=
  s.rst.thermHold = false ∧ ∃ l ∈ junction, ∃ x ∈ l, 125 * 16 ≤ x

/-- The trip as the model tests it. -/
theorem trips_iff {s : State} {junction : List (List Int)} :
    s.rst.thermHold = false ∧ (junction.any fun l => l.any fun t => decide (degTHERM ≤ t)) = true ↔ s.trips junction := by
  simp only [List.any_eq_true, decide_eq_true_eq]
  exact Iff.rfl

section
variable {s : State} {junction : List (List Int)} {stackT : List Int} {volt amp : Nat} {ok : Bool}

theorem exec_sensorSample_cool (h : ¬ (s.sampled junction stackT volt amp).trips junction) :
    exec (.sensorSample junction stackT volt amp ok) s = .next (s.sampled junction stackT volt amp) :=
  congrArg _ (if_neg (mt trips_iff.1 h))

/-- A trip takes its reset: where a configuration write holds the flash, the record waits for it, once. -/
theorem exec_sensorSample_trip (h : (s.sampled junction stackT volt amp).trips junction) :
    exec (.sensorSample junction stackT volt amp ok) s =
      let b := s.sampled junction stackT volt amp
      .next (if b.nvmBusy = true then
          if b.thermWaits = true then b
          else (b.resetCauses [srcTHERM]).nvmLater (.fatal ok ((b.resetCauses [srcTHERM]).fatalNew (2 ^ srcTHERM)) (some srcTHERM))
        else ((b.resetCauses [srcTHERM]).fatalWrite ok (2 ^ srcTHERM)).resetEffect [srcTHERM]) :=
  congrArg _ (if_pos (trips_iff.2 h))

end

/-! ### Comparisons and PROCHOT_N (R501 to R503) -/

/-- The thermal level of a die moves by its junctions. -/
theorem thermNext_eq (l : Nat) (j : List Int) :
    thermNext l j = if ∃ x ∈ j, 105 * 16 ≤ x then min 23 (l + 1) else if ∀ x ∈ j, x < 100 * 16 then l - 1 else l := by
  have hot : (j.any fun t => decide (degHot ≤ t)) = true ↔ ∃ x ∈ j, 105 * 16 ≤ x := by
    simp only [List.any_eq_true, decide_eq_true_eq]
    exact Iff.rfl
  have cool : (j.all fun t => decide (t < degCool)) = true ↔ ∀ x ∈ j, x < 100 * 16 := by
    simp only [List.all_eq_true, decide_eq_true_eq]
    exact Iff.rfl
  exact if_congr hot rfl (if_congr cool rfl rfl)

theorem exec_prochotIn_seen {s : State} (h : s.flag Reg.BWL_GOV Fld.BWL_GOV_PROCHOT_IN = false) (hl : s.prochotLow = false) :
    exec .prochotIn s = .next (((s.setBoardHot true).setFld Reg.BWL_GOV Fld.BWL_GOV_PROCHOT_IN 1).event Reg.BWL_EVENT
      Fld.BWL_EVENT_PROCHOT_IN (Reg.BWL_CNT 8)) := by
  refine congrArg _ (if_neg ?_)
  rintro (hb | hp | hf)
  · exact nomatch hb
  · exact ne_true_of_eq_false hl hp
  · exact ne_true_of_eq_false h hf

theorem exec_prochotIn_unseen {s : State} (h : ¬ (s.flag Reg.BWL_GOV Fld.BWL_GOV_PROCHOT_IN = false ∧ s.prochotLow = false)) :
    exec .prochotIn s = .next (s.setBoardHot true) := by
  refine congrArg _ (if_pos (.inr ?_))
  show s.prochotLow = true ∨ s.flag Reg.BWL_GOV Fld.BWL_GOV_PROCHOT_IN = true
  rw [not_and_or, Bool.not_eq_false, Bool.not_eq_false] at h
  exact h.symm

/-! ### Cooling (R563) -/

/-- COOL_MARGIN_C. -/
def State.coolThresh (s : State) : Int := s.fld Reg.RAS_COOL Fld.RAS_COOL_THRESH

/-- The state that shows margin `m`. -/
def State.coolShown (s : State) (m : Int) : State :=
  s.setFlds Reg.RAS_COOL [(Fld.RAS_COOL_MARGIN, (BitVec.ofInt 16 m).toNat), (Fld.RAS_COOL_BELOW, if m < s.coolThresh * 16 then 1 else 0)]

/-- The state that shows margin `m` asks for service under COOLING. -/
abbrev State.coolAsked (s : State) (m : Int) : Bool := (s.coolShown m).flag Reg.RAS_SERVICE_REQUEST Fld.RAS_SERVICE_REQUEST_COOLING

/-- The check by its margin and by what is asked already. -/
theorem exec_coolingCheck (s : State) (m : Int) : exec (.coolingCheck m) s =
    .next (if m < s.coolThresh * 16 then
        if s.coolAsked m = true then s.coolShown m
        else ((s.coolShown m).service Fld.RAS_SERVICE_REQUEST_COOLING).event Reg.RAS_EVENT Fld.RAS_EVENT_COOLING Reg.RAS_CNT_COOLING
      else if (s.coolThresh + 2) * 16 ≤ m ∧ s.coolAsked m = true then (s.coolShown m).serviceClear Fld.RAS_SERVICE_REQUEST_COOLING
      else s.coolShown m) := rfl

section
variable {s : State} {m : Int}

theorem exec_coolingCheck_sets (h : m < s.coolThresh * 16) (ha : s.coolAsked m = false) : exec (.coolingCheck m) s =
    .next (((s.coolShown m).service Fld.RAS_SERVICE_REQUEST_COOLING).event Reg.RAS_EVENT Fld.RAS_EVENT_COOLING Reg.RAS_CNT_COOLING) := by
  rw [exec_coolingCheck, if_pos h, if_neg (ne_true_of_eq_false ha)]

theorem exec_coolingCheck_clears (h : (s.coolThresh + 2) * 16 ≤ m) (ha : s.coolAsked m = true) :
    exec (.coolingCheck m) s = .next ((s.coolShown m).serviceClear Fld.RAS_SERVICE_REQUEST_COOLING) := by
  rw [exec_coolingCheck, if_neg (by omega), if_pos ⟨h, ha⟩]

theorem exec_coolingCheck_shows
    (h : m < s.coolThresh * 16 ∧ s.coolAsked m = true ∨ s.coolThresh * 16 ≤ m ∧ (m < (s.coolThresh + 2) * 16 ∨ s.coolAsked m = false)) :
    exec (.coolingCheck m) s = .next (s.coolShown m) := by
  rw [exec_coolingCheck]
  rcases h with ⟨hm, ha⟩ | ⟨hm, hq⟩
  · rw [if_pos hm, if_pos ha]
  · rw [if_neg (by omega), if_neg]
    rintro ⟨hc, ha⟩
    rcases hq with hq | hq
    · omega
    · exact ne_true_of_eq_false hq ha

end

/-! ### Telemetry (R498, R499) -/

/-- The number that the next record takes. -/
abbrev State.tseq (s : State) : Nat := s.fld Reg.BWL_TLM_STATUS Fld.BWL_TLM_STATUS_TSEQ

/-- The state with the next record's number taken. -/
def State.tlmCounted (s : State) : State := s.setFld Reg.BWL_TLM_STATUS Fld.BWL_TLM_STATUS_TSEQ ((s.tseq + 1) % 2 ^ 32)

/-- Records leave at once: outside a tick domain, and in the quiet band. -/
abbrev State.tlmOut (s : State) : Prop := s.inDomain = false ∨ s.hly.quiet = true

theorem exec_telemetryRecord_on {s : State} (hr : s.fld Reg.BWL_TLM_STATUS Fld.BWL_TLM_STATUS_RATE_HZ ≠ 0) : exec .telemetryRecord s =
    let t := s.tlmCounted
    .next (if t.tlmOut then t.tlmFlush.tlmSend (s.tlmRecord s.tseq)
      else if 64 ≤ t.bwl.tlmWait.length then t.tlmDrop
      else { t with bwl := { t.bwl with tlmWait := t.bwl.tlmWait ++ [s.tlmRecord s.tseq] } }) :=
  congrArg _ (if_neg hr)

/-! ### The statement -/

/-- Settles O48: each command by the branch that its hypotheses select. -/
theorem powerHeatAndTelemetry : Obligations.PowerHeatAndTelemetry := by
  intro s
  refine ⟨fun d hp ho hd hu => ⟨fun h => ?_, fun h => ?_⟩, fun d k hp hi ho hk hd => exec_domainPowerUp_released hp hi ho hk hd,
    fun junction stackT volt amp ok => ⟨exec_sensorSample_cool, fun h hb hw => ?_, fun h hb hw => ?_, fun h hb => ?_⟩,
    ⟨rfl, thermNext_eq⟩, ⟨fun h => exec_prochotIn_seen h.1 h.2, exec_prochotIn_unseen⟩, rfl,
    fun m => ⟨exec_coolingCheck_sets, exec_coolingCheck_clears, exec_coolingCheck_shows⟩,
    fun hr => ⟨fun h => ?_, fun h hl => ?_, fun h hl => ?_⟩⟩
  · exact (exec_domainPowerDown_unused hp ho hd hu).trans (congrArg _ (if_neg h))
  · exact (exec_domainPowerDown_unused hp ho hd hu).trans (congrArg _ (if_pos h))
  · exact (exec_sensorSample_trip h).trans (congrArg _ ((if_pos hb).trans (if_pos hw)))
  · exact (exec_sensorSample_trip h).trans (congrArg _ ((if_pos hb).trans (if_neg (ne_true_of_eq_false hw))))
  · exact (exec_sensorSample_trip h).trans (congrArg _ (if_neg (ne_true_of_eq_false hb)))
  · exact (exec_telemetryRecord_on hr).trans (congrArg _ (if_pos h))
  · exact (exec_telemetryRecord_on hr).trans (congrArg _ ((if_neg h).trans (if_pos hl)))
  · exact (exec_telemetryRecord_on hr).trans (congrArg _ ((if_neg h).trans (if_neg (Nat.not_le.2 hl))))

end Sys2Proof.Machine
end

section
/-! PROOFS. The commands of Lanyard that assign, join, route and set up the node (R19, R42, R44, R56, R343, R365, R383, R384, R491, R498):
each one with good arguments, by the branch that the state selects. -/

namespace Sys2Proof.Machine

section
variable {s : State} {c : LyCmd} {r : List LyCmd}

/-- A command with arguments of its length is answered with what its meaning gives. -/
theorem lyRun_answers {cmd n st : Nat} {t : State} {d : List Byte} (h : s.lyFirst cmd c r) (g : c.has n = true)
    (f : State → LyCmd → State × Nat × List Byte) (hf : f (s.lyTaken r) c = (t, st, d)) :
    nextOf (s.lyRun cmd (lyArgs n f)) = .next (t.lyEnds c st d) := by
  rw [lyRun_of_args h g f _ hf]

/-! ### Node, epoch and assignment -/

theorem exec_setNode_good (h : s.lyFirst 0x10 c r) (g : c.has 8 = true) (hn : bits (c.w 1) 15 0 ≤ 0xFFFD)
    (ha : (s.lyTaken r).assigning = false) (hp : (s.lyTaken r).flag Reg.HWS_PART Fld.HWS_PART_VALID = false) :
    exec .setNode s = .next (((s.lyTaken r).wr Reg.HWS_NODE
      (packF [(Fld.HWS_NODE_VALID, 1), (Fld.HWS_NODE_NODE, bits (c.w 1) 15 0)])).chooseServe.lyEnds c lyOK []) :=
  lyRun_answers h g _ (by dsimp only; rw [if_neg (Nat.not_lt.2 hn), ha, hp, if_neg (by decide), if_neg (by decide)])

theorem exec_setEpoch_good (h : s.lyFirst 0x12 c r) (g : c.has 8 = true) (ha : (s.lyTaken r).assigning = false) :
    exec .setEpoch s = .next (((s.lyTaken r).setPart (setF ((s.lyTaken r).rd Reg.HWS_PART) Fld.HWS_PART_EPOCH
      (bits (c.w 1) 7 0))).lyEnds c lyOK []) :=
  lyRun_answers h g _ (by rw [ha, if_neg (by decide)])

/-- Nothing forbids that assignment command `c` begins (R489, R491). -/
abbrev State.canAssign (s : State) (c : LyCmd) (r : List LyCmd) : Prop :=
  (s.lyTaken r).assigning = false ∧ (s.lyTaken r).flag Reg.HWS_NODE Fld.HWS_NODE_VALID = true ∧
    (s.lyTaken r).flag Reg.HLY_DOMAIN Fld.HLY_DOMAIN_VALID = false ∧ ∀ x ∈ s.bwl.running, x.cmd ≠ c.cmd

/-- Assignment `c` is under way from stage 1, after the commands that `t` has under way, and goes on as far as the cores allow. -/
def State.assignGoes (t : State) (c : LyCmd) : State :=
  (t.putRunning (t.bwl.running ++ [{ c with stage := 1 }])).assignGo { c with stage := 1 }

theorem exec_assign_good (h : s.lyFirst 0x11 c r) (g : c.has 40 = true) (hc : s.canAssign c r) (h2 : rootOk (c.w 2) = true)
    (h3 : rootOk (c.w 3) = true) (h4 : rootOk (c.w 4) = true) (h5 : rootOk (c.w 5) = true) :
    let u := ((s.lyTaken r).assignBegin (packF [(Fld.HWS_PART_VALID, 1), (Fld.HWS_PART_EPOCH, bits (c.w 1) 19 12),
        (Fld.HWS_PART_PARTITION, bits (c.w 1) 11 0)])
      (packF [(Fld.HOST_PARTITION_VALID, 1), (Fld.HOST_PARTITION_PARTITION, bits (c.w 1) 11 0)])).assignGoes c
    exec .assign s = .next (u.lyDrain u.bwl.cmds) := by
  obtain ⟨ha, hv, hd, hr⟩ := hc
  exact congrArg nextOf (lyAssign_begins h _ _ _ g ha hv hd hr (by rw [h2, h3, h4, h5]; rfl))

theorem exec_unassign_good (h : s.lyFirst 0x13 c r) (g : c.has 0 = true) (hc : s.canAssign c r) :
    let u := ((s.lyTaken r).assignBegin (setF ((s.lyTaken r).rd Reg.HWS_PART) Fld.HWS_PART_VALID 0)
      (setF ((s.lyTaken r).rd Reg.HOST_PARTITION) Fld.HOST_PARTITION_VALID 0)).assignGoes c
    exec .unassign s = .next (u.lyDrain u.bwl.cmds) := by
  obtain ⟨ha, hv, hd, hr⟩ := hc
  exact congrArg nextOf (lyAssign_begins h _ _ _ g ha hv hd hr rfl)

/-! ### The tick domain -/

theorem exec_join_good (h : s.lyFirst 0x20 c r) (g : c.has 16 = true) (hl : bits (c.w 1) 17 16 ≠ 3)
    (ha : (s.lyTaken r).assigning = false) (hp : (s.lyTaken r).flag Reg.HWS_PART Fld.HWS_PART_VALID = true)
    (hq : (s.lyTaken r).fld Reg.HWS_PART Fld.HWS_PART_PARTITION = bits (c.w 1) 11 0)
    (hd : (s.lyTaken r).flag Reg.HLY_DOMAIN Fld.HLY_DOMAIN_VALID = false) :
    let u := (s.lyTaken r).wr Reg.HLY_DOMAIN (packF [(Fld.HLY_DOMAIN_PARENT, bits (c.w 2) 15 0),
      (Fld.HLY_DOMAIN_ALT_PARENT, bits (c.w 2) 31 16), (Fld.HLY_DOMAIN_DOMAIN, bits (c.w 1) 11 0),
      (Fld.HLY_DOMAIN_ROLE, bits (c.w 1) 17 16), (Fld.HLY_DOMAIN_VALID, 1)])
    exec .join s = .next ((if u.flag Reg.HLY_CTRL Fld.HLY_CTRL_ENABLE then u.joinDomain else u).lyEnds c lyOK []) :=
  lyRun_answers h g _ (by
    dsimp only
    rw [if_neg hl, ha, if_neg (by decide), hp, hd, if_neg]
    rintro (q | q | q)
    · exact nomatch q
    · exact q hq
    · exact nomatch q)

theorem exec_leave_good (h : s.lyFirst 0x21 c r) (g : c.has 0 = true) : exec .leave s =
    .next ((if (s.lyTaken r).flag Reg.HLY_DOMAIN Fld.HLY_DOMAIN_VALID then (s.lyTaken r).leaveDomain else s.lyTaken r).lyEnds c lyOK []) :=
  lyRun_answers h g _ rfl

theorem exec_resume_good (h : s.lyFirst 0x23 c r) (g : c.has 0 = true) (hh : (s.lyTaken r).hlyState = hlyHoldFault)
    (hm : (s.lyTaken r).isMaster = true) (ha : (s.lyTaken r).aggPending = false) :
    exec .resume s = .next (((s.lyTaken r).sendFinal ((s.lyTaken r).time + (s.lyTaken r).lead)).lyEnds c lyOK []) :=
  lyRun_answers h g _ (by
    rw [hm, ha, if_neg, if_neg (by decide)]
    rintro (q | q)
    · exact q hh
    · exact nomatch q)

/-! ### Routes, the cap and telemetry -/

theorem exec_route_good {k : Nat} (h : s.lyFirst 0x30 c r) (hk : bits (c.w 1) 23 16 = k) (h1 : 1 ≤ k) (h26 : k ≤ 26)
    (g : c.has (8 + 8 * k) = true) (hn : bits (c.w 1) 15 0 + k ≤ 65536) : exec .route s =
    .next (((List.range k).foldl (fun (t : State) i => t.writeRoute (bits (c.w 1) 15 0 + i) (BitVec.ofNat 64 (c.w (2 + i))))
      (s.lyTaken r)).lyEnds c lyOK []) := by
  have hlen : c.len = 8 + 8 * k := by
    rw [LyCmd.has, Bool.and_eq_true, beq_iff_eq] at g
    exact g.1
  refine congrArg nextOf ((lyRun_of_first h _).trans ?_)
  dsimp only
  rw [hk, if_neg]
  rintro (q | q | q | q)
  · omega
  · exact ne_true_of_eq_false q (within_iff.2 ⟨h1, h26⟩)
  · exact ne_true_of_eq_false q g
  · omega

theorem exec_setCap_good (h : s.lyFirst 0x31 c r) (g : c.has 8 = true) (hw : bits (c.w 1) 11 0 = 0 ∨ 900 ≤ bits (c.w 1) 11 0) :
    exec .setCap s = .next (((s.lyTaken r).setCap (bits (c.w 1) 11 0)).lyEnds c lyOK []) :=
  lyRun_answers h g _ (by dsimp only; rw [if_neg (by rw [within_iff]; omega)])

theorem exec_telemetry_good (h : s.lyFirst 0x50 c r) (g : c.has 8 = true)
    (hr : (CfgRec.mk 0 rtTELEMETRY false 1 8 [BitVec.ofNat 64 (c.w 1)]).inRange = true) :
    exec .telemetry s = .next (((s.lyTaken r).setTelemetry (c.w 1)).lyEnds c lyOK []) :=
  lyRun_answers h g _ (by rw [hr, if_neg (by decide)])

end

/-! ### The statement -/

/-- Settles O53: good arguments by the lemma of each command, others by `lyRun_bad_args`. -/
theorem lanyardNodeAndDomainCommands : Obligations.LanyardNodeAndDomainCommands := by
  intro s c r
  refine ⟨?badArgs, fun ⟨h, g⟩ => exec_setNode_good h g, fun ⟨h, g⟩ => exec_setEpoch_good h g, fun ⟨h, g⟩ => exec_assign_good h g,
    fun ⟨h, g⟩ => exec_unassign_good h g, fun ⟨h, g⟩ => exec_join_good h g, fun ⟨h, g⟩ => exec_leave_good h g,
    fun ⟨h, g⟩ => ?tickParams, fun ⟨h, g⟩ => exec_resume_good h g, fun _ => exec_route_good, fun ⟨h, g⟩ => exec_setCap_good h g,
    fun ⟨h, g⟩ => ?journal, fun ⟨h, g⟩ => exec_telemetry_good h g⟩
  case badArgs =>
    simp only [List.forall_mem_cons, List.not_mem_nil, false_implies, implies_true, and_true]
    refine ⟨?_, ?_, ?_, ?_, ?_, ?_, ?_, ?_, ?_⟩ <;> exact fun h g => lyRun_bad_args h g _
  case tickParams => exact lyRun_answers h g _ rfl
  case journal => exact lyRun_answers h g _ rfl

end Sys2Proof.Machine
end

section
/-! PROOFS. A step of the block (R34, R36) and the registers right after standby power-on (R595, R596). -/

namespace Sys2Proof.Machine

/-! ### A step -/

/-- With no command waiting, time passes while Halyard's domain is out of reset. -/
theorem step_idle_running {s : State} (h : s.pending = []) (hr : s.hly.running = true) : step s = .next s.tickNs := by
  rw [step_of_pending_nil h, State.idle, if_pos hr]

theorem step_idle_stopped {s : State} (h : s.pending = []) (hr : s.hly.running = false) : step s = .next s := by
  rw [step_of_pending_nil h, State.idle, if_neg (ne_true_of_eq_false hr)]

/-- At rate 0 one nanosecond is 65,536 parts of TIMEBASE, and both remainders stand. -/
theorem unslewed_nanosecond {rate : Int} {rem frac : Nat} (h0 : rate = 0) (hr : rem < 1000000) (hf : frac < 65536) :
    let x := (65536 * (1000000 + rate)).toNat + rem
    let f := frac + x / 1000000
    f / 65536 = 1 ∧ f % 65536 = frac ∧ x % 1000000 = rem := by
  subst h0
  dsimp only
  omega

/-- Settles O55: with a command waiting by `step_of_pending_cons`, else by whether time runs. -/
theorem stepRunsTheFrontCommand : Obligations.StepRunsTheFrontCommand := fun _ =>
  ⟨fun _ _ h => step_of_pending_cons h, step_idle_running, unslewed_nanosecond, step_idle_stopped⟩

/-! ### Reset values -/

/-- Right after standby power-on every register but RST_PWR1 and RST_CNT_SBPOR reads its reset value. -/
theorem rd_reset {a : Nat} (h : a ≠ Reg.RST_PWR1) (h' : a ≠ Reg.RST_CNT_SBPOR) : State.reset.rd a = regReset a := by
  show sGet regReset [(Reg.RST_PWR1, _), (Reg.RST_CNT_SBPOR, _)] a = _
  rw [sGet, if_neg h.symm, sGet, if_neg h'.symm, sGet]

/-- A register in the window of a core reads the reset value of its row in the table. -/
theorem rd_reset_coreWin {d p o : Nat} {r : RegSpec} (hd : d < 4) (hp : p < 168) (ho : o < 0x10000) (h8 : o % 8 = 0)
    (hr : findReg Spec.coreRegs Spec.coreArrays o = some r) : State.reset.rd (Reg.coreWin d p + o) = BitVec.ofNat 64 r.rst := by
  have low : Reg.RST_PWR1 < Reg.coreWin d p ∧ Reg.RST_CNT_SBPOR < Reg.coreWin d p := by
    unfold Reg.RST_PWR1 Reg.RST_CNT_SBPOR Reg.coreWin
    omega
  rw [rd_reset (by omega) (by omega), regReset, regSpec_coreWin d p o hd hp ho h8, hr]

theorem reset_core {d p : Nat} (hd : d < 4) (hp : p < 168) :
    State.reset.fld (Reg.TC_STATUS (Reg.coreWin d p)) Fld.TC_STATUS_STATE = 5 ∧
      State.reset.fld (Reg.TC_MAP (Reg.coreWin d p)) Fld.TC_MAP_LCORE = 0x3FF := by
  rw [State.fld, State.fld, Reg.TC_STATUS, Reg.TC_MAP, rd_reset_coreWin hd hp (by decide) (by decide) rfl,
    rd_reset_coreWin hd hp (by decide) (by decide) rfl]
  decide

theorem reset_die : ∀ d, d < 4 → State.reset.fld (Reg.TC_SPARE (Reg.dieBlk d)) Fld.TC_SPARE_SPARE_FOR = 0x1F ∧
    ∀ q, q < 8 → State.reset.fld (Reg.EVQ_CTRL (Reg.dieEvq d q)) Fld.TC_EVQ_CTRL_SIZE_LOG2 = 6 := by decide

/-- Settles O60: the windows of the cores by their table, the other registers at their addresses. -/
theorem resetValuesOfRegisters : Obligations.ResetValuesOfRegisters :=
  ⟨fun _ _ => reset_core, reset_die, by decide⟩

end Sys2Proof.Machine
end

section
/-! PROOFS. The moments at which the launch queues launch (R59, R60, R273). -/

namespace Sys2Proof.Machine

section
variable {s : State} {e : TalqEntry}

/-- An RSE command that the judgement of R268 accepts is submitted. -/
theorem exec_rseSubmit_accepted (h : s.launches 4 actRse e) (hu : (s.talqTaken 4 e).talqTargetUp 4 e = true)
    (hc : (s.talqTaken 4 e).submitRefusal e.desc = 0) :
    exec .rseSubmit s = .next ((s.talqTaken 4 e).rseAccept e.desc e.tag).1 :=
  congrArg _ ((talq_takes h _).trans ((if_pos hu).trans (if_pos hc)))

/-- The P-die's queue finds the unit of an event entry always in service. -/
theorem targetUp_event (t : State) (h : s.launches 4 actEvent e) : t.talqTargetUp 4 e = true := by
  obtain ⟨-, -, -, ha⟩ := h
  rw [State.talqTargetUp, if_neg (by decide), ha, if_neg (by decide), if_neg (by decide)]

/-- A host event whose descriptor R273 accepts is posted. -/
theorem hostEvent_of_valid (hr : s.inTier e.desc = true) (ho : (s.readDesc 4 e.desc).stat = .ok)
    (h1 : bits (wordAt (bytesToWords 8 (s.readDesc 4 e.desc).data) 0).toNat 63 56 = 1)
    (h2 : bits (wordAt (bytesToWords 8 (s.readDesc 4 e.desc).data) 0).toNat 47 0 = 0)
    (h3 : ((bytesToWords 8 (s.readDesc 4 e.desc).data).drop 3).all (· == 0) = true) :
    let d := bytesToWords 8 (s.readDesc 4 e.desc).data
    s.hostEvent e = ((s.readDesc 4 e.desc).st.postHost e.target 0x10 (bits (wordAt d 0).toNat 55 48) 0xFFFF e.step
      (wordAt d 1) (wordAt d 2)).1 := by
  refine if_pos ?_
  rw [hr, decide_eq_true ho, h1, h2, h3]
  rfl

end

/-- Settles O25: each queue by `talq_takes`, on the action of its command. -/
theorem queueEntriesLaunch : Obligations.QueueEntriesLaunch := by
  refine fun s e => ⟨fun die hd h => ?_, fun f hf h => ?_, fun f hf h => ?_, fun h => ?_, exec_rseSubmit_accepted, fun h => ?_⟩
  · exact congrArg _ ((if_pos hd).trans (talq_takes h _))
  · exact congrArg _ ((if_pos hf).trans (talq_takes h _))
  · exact congrArg _ ((if_pos hf).trans (talq_takes h _))
  · exact congrArg _ (talq_takes h _)
  · intro r d w0 hr ho h1 h2 h3
    exact congrArg _ ((talq_takes h _).trans ((if_pos (targetUp_event _ h)).trans (hostEvent_of_valid hr ho h1 h2 h3)))

end Sys2Proof.Machine
end

section
/-! PROOFS. The exchange of time with the parent (R30, R33, R36, R39, R51). -/

namespace Sys2Proof.Machine

/-- An even number of ns has its half, and no free value is used. -/
theorem half_of_even (s : State) {x : Int} (h : x % 2 = 0) : s.half x = (x / 2, s) := if_pos h

@[simp] theorem timeTo_hly (s : State) (t : Nat) : (s.timeTo t).hly = s.hly := by
  unfold State.timeTo
  split <;> rfl

section
variable {s : State} {src : Nat} {y : TickSymbol}

/-- The state at the time of the next exchange, 125,000 ns after the last (R36). -/
def State.exchangeDue (s : State) : State := if s.hly.t1 = 0 then s else s.timeTo (s.hly.t1 + 125000)

@[simp] theorem exchangeDue_hly (s : State) : s.exchangeDue.hly = s.hly := by
  unfold State.exchangeDue
  split
  · rfl
  · exact timeTo_hly s _

/-- With the last exchange answered, none is missed and the next request leaves. -/
theorem exec_timeExchange_requests (he : s.exchanging = true) (ha : s.hly.awaiting = false) :
    exec .timeExchange s = .next { s.exchangeDue with hly := { s.exchangeDue.hly with missed := 0 } }.sendReqTime := by
  have hm : (if s.exchangeDue.hly.awaiting = true then s.exchangeDue.hly.missed + 1 else 0) = 0 := by
    rw [exchangeDue_hly, ha, if_neg Bool.false_ne_true]
  show execTimeExchange s = _
  unfold execTimeExchange
  rw [if_neg (ne_false_of_eq_true he), ← State.exchangeDue]
  dsimp only
  rw [hm]
  exact congrArg _ (if_pos (by decide))

theorem exec_timeExchange_answered (he : s.exchanging = true) (ha : s.hly.awaiting = false) :
    let t := s.exchangeDue
    let n := (s.hly.seq + 1) % 65536
    exec .timeExchange s = .next (({ t with hly := { t.hly with seq := n, t1 := t.time, awaiting := true, missed := 0 } }.send t.parent
      symTimeReq { t.mkSym with seq := n, timeA := t.time }).sendSlip) := by
  intro t n
  have hn : n = (t.hly.seq + 1) % 65536 := by rw [exchangeDue_hly]
  rw [exec_timeExchange_requests he ha, hn]
  rfl

/-- A request of a node that is attached, or finds a free place, is answered (R30, R36). -/
theorem exec_timeReq_answered (h : s.symOk y = true) (e : s.flag Reg.HLY_CTRL Fld.HLY_CTRL_ENABLE = true)
    (hc : (s.hly.children.any fun c => c.node == src) = true ∨ s.hly.children.length < 64) :
    let a := (s.takeSym symTimeReq y).attach src
    exec (.timeReq src y) s = .next (a.send src symTimeResp
      { a.mkSym with seq := y.seq, level := a.fld Reg.HLY_TREE Fld.HLY_TREE_LEVEL, timeA := s.symTime symTimeReq y, timeB := a.time }) := by
  intro a
  refine congrArg _ ((symbol_acts _ _ h e).trans ?_)
  exact if_pos (child_attached (s := s.takeSym symTimeReq y) hc)

theorem exec_slipState_kept (h : s.symOk y = true) (e : s.flag Reg.HLY_CTRL Fld.HLY_CTRL_ENABLE = true) :
    let u := s.takeSym symSlipState y
    exec (.slipState src y) s = .next ({ u with hly := { u.hly with children := u.hly.children.map fun (c : Child) =>
      if c.node = src then { c with pending := y.pending, latency := y.timeB % 2 ^ 20 } else c } }.slipUpdate).leadUpdate :=
  congrArg _ (symbol_acts _ _ h e)

/-- Twice theta of R36: the offset that an exchange finds. -/
def State.offset2 (s : State) (y : TickSymbol) : Int :=
  ((y.timeA : Int) - s.hly.t1) - ((s.symTime symTimeResp y : Nat) - y.timeB : Int) - s.parentAsym

/-- Twice the hop latency of R36. -/
def State.hop2 (s : State) (y : TickSymbol) : Int :=
  (((s.symTime symTimeResp y : Nat) : Int) - s.hly.t1) - ((y.timeB : Int) - y.timeA) - s.parentAsym

/-- Both are odd, or neither is: they differ by twice the time of the answer's way. -/
theorem hop2_even (h : s.offset2 y % 2 = 0) : s.hop2 y % 2 = 0 := by
  unfold State.offset2 at h
  unfold State.hop2
  omega

@[simp] theorem takeSym_hly (s : State) (type : Nat) (y : TickSymbol) : (s.takeSym type y).hly = s.hly := rfl

@[simp] theorem takeSym_parentAsym (s : State) (type : Nat) (y : TickSymbol) : (s.takeSym type y).parentAsym = s.parentAsym := rfl

theorem exec_timeResp_even (h : s.symOk y = true) (e : s.flag Reg.HLY_CTRL Fld.HLY_CTRL_ENABLE = true) (hx : s.exchanging = true)
    (hp : src = s.parent) (ha : s.hly.awaiting = true) (hq : y.seq = s.hly.seq) (hd : s.offset2 y % 2 = 0) :
    let v := (s.takeSym symTimeResp y).setFld Reg.HLY_TREE Fld.HLY_TREE_LEVEL (min 3 (y.level + 1))
    let w := v.wr Reg.HLY_OFFSET (wordOfInt (s.offset2 y / 2))
    let x := { w with hly := { w.hly with awaiting := false, missed := 0, hopLat := s.hop2 y / 2 } }
    exec (.timeResp src y) s = .next ((if s.hlyState = hlyJoining ∧ (s.offset2 y).natAbs > 2000 then x.stepTime (s.offset2 y)
          else { x with hly := { x.hly with rate := max (-100) (min 100 (4 * s.offset2 y)) } }).lockJudge (s.offset2 y)) := by
  intro v w x
  have hs : x.hlyState = s.hlyState := by
    show getF (w.rd Reg.HLY_STATUS) _ = _
    rw [rd_wr_other _ _ (by decide), rd_setFld, if_neg (by decide)]
    rfl
  refine congrArg _ ((symbol_acts _ _ h e).trans ?_)
  refine (if_neg ?_).trans ?_
  · show ¬ (!s.exchanging || src != s.parent || !s.hly.awaiting || y.seq != s.hly.seq) = true
    rw [hx, hp, ha, hq]
    simp
  · rw [← hs]
    dsimp only
    rw [takeSym_hly, takeSym_parentAsym, ← State.offset2, ← State.hop2, half_of_even _ hd, half_of_even _ (hop2_even hd)]
    rfl

end

/-- Settles O26: TIME_EXCHANGE by whether the last exchange was answered, the symbols by `symbol_acts`. -/
theorem timeIsExchangedWithTheParent : Obligations.TimeIsExchangedWithTheParent := fun _ _ _ =>
  ⟨exec_timeExchange_answered, exec_timeReq_answered, exec_timeResp_even, exec_slipState_kept⟩

end Sys2Proof.Machine
end

section
/-! PROOFS. Tick symbols of the master that reach a member (R33, R41, R45, R52 to R55). -/

namespace Sys2Proof.Machine

/-- A check of the generation changes the registers of its event and of the log alone. -/
theorem rd_genCheck (s : State) (y : TickSymbol) {a : Nat} (h : a ≠ Reg.HLY_EVENT) (h' : a ≠ Reg.HLY_CNT_PARAM_MISMATCH)
    (h1 : a ≠ Reg.BWL_LOG_STATUS) (h2 : a ≠ Reg.BWL_EVENT) (h3 : a ≠ Reg.BWL_CNT 0) : (s.genCheck y).rd a = s.rd a := by
  unfold State.genCheck
  split
  · rfl
  · exact rd_event _ _ _ _ _ _ h h' h1 h2 h3

@[simp] theorem genCheck_hly (s : State) (y : TickSymbol) : (s.genCheck y).hly = s.hly := by
  unfold State.genCheck
  split
  · rfl
  · exact State.event_hly _ _ _ _ _

theorem genCheck_status (s : State) (y : TickSymbol) : (s.genCheck y).rd Reg.HLY_STATUS = s.rd Reg.HLY_STATUS :=
  rd_genCheck s y (by decide) (by decide) (by decide) (by decide) (by decide)

@[simp] theorem genCheck_hlyState (s : State) (y : TickSymbol) : (s.genCheck y).hlyState = s.hlyState := by
  rw [State.hlyState, State.fld, genCheck_status, State.hlyState, State.fld]

@[simp] theorem genCheck_locked (s : State) (y : TickSymbol) :
    (s.genCheck y).flag Reg.HLY_STATUS Fld.HLY_STATUS_LOCKED = s.flag Reg.HLY_STATUS Fld.HLY_STATUS_LOCKED := by
  rw [State.flag, State.fld, genCheck_status, State.flag, State.fld]

@[simp] theorem genCheck_ofTick (s : State) (y : TickSymbol) : (s.genCheck y).ofTick y = s.ofTick y := by
  have hs : (s.genCheck y).step = s.step := by
    rw [State.step, State.fld, rd_genCheck s y (by decide) (by decide) (by decide) (by decide) (by decide), State.step, State.fld]
  rw [State.ofTick, State.ticking, genCheck_hlyState, hs, State.ofTick, State.ticking]

/-- The state in which a symbol of the tick acts: taken, noted, and sent on to every child (R52, R399). -/
def State.relayed (s : State) (type : Nat) (y : TickSymbol) : State :=
  let u := s.takeSym type y
  { u with hly := { u.hly with seen := s.hly.seen ++ [(type, y)] } }.sendChildren type y

section
variable {s : State} {y : TickSymbol} (hy : s.symOk y = true) (he : s.flag Reg.HLY_CTRL Fld.HLY_CTRL_ENABLE = true)
  (hm : s.isMaster = false)
include hy he hm

/-- A symbol that the node sees for the first time acts once it is relayed. -/
theorem tickSymbol_fresh {type : Nat} (hf : s.hly.seen.contains (type, y) = false) (k : State → State) :
    s.tickSymbol type y k = k (s.relayed type y) := tick_symbol_acts type k hy he hm hf

/-! ### TICK_EXTEND -/

theorem exec_tickExtend_member (hf : s.hly.seen.contains (symTickExtend, y) = false) (hj : s.hlyState ≠ hlyJoining)
    (ht : s.ofTick y = true) :
    let x := s.relayed symTickExtend y
    let x' := { x with hly := { x.hly with latest := some (symTickExtend, y) } }
    exec (.tickExtend y) s = .next (((x'.wr Reg.HLY_TICK_END (BitVec.ofNat 64 y.timeA)).slipsTo y.slips).unholdLate) := by
  refine congrArg _ ((tickSymbol_fresh hy he hm hf _).trans ?_)
  exact (if_neg hj).trans (if_pos ht)

theorem exec_tickExtend_joining (hf : s.hly.seen.contains (symTickExtend, y) = false) (hj : s.hlyState = hlyJoining) :
    let x := s.relayed symTickExtend y
    exec (.tickExtend y) s = .next { x with hly := { x.hly with latest := some (symTickExtend, y) } } := by
  refine congrArg _ ((tickSymbol_fresh hy he hm hf _).trans ?_)
  exact if_pos hj

/-! ### TICK_FINAL -/

theorem exec_tickFinal_member (hf : s.hly.seen.contains (symTickFinal, y) = false) (hj : s.hlyState ≠ hlyJoining)
    (ht : s.ofTick y = true) :
    exec (.tickFinal y) s = .next (((s.relayed symTickFinal y).genCheck y).takeFinal y) := by
  refine congrArg _ ((tickSymbol_fresh hy he hm hf _).trans ?_)
  dsimp only
  rw [genCheck_hlyState, genCheck_ofTick]
  exact (if_neg hj).trans (if_pos ht)

theorem exec_tickFinal_joining (hf : s.hly.seen.contains (symTickFinal, y) = false) (hj : s.hlyState = hlyJoining)
    (hl : s.flag Reg.HLY_STATUS Fld.HLY_STATUS_LOCKED = true) (hn : s.hly.final = none) :
    let f := (s.relayed symTickFinal y).genCheck y
    exec (.tickFinal y) s = .next { f with hly := { f.hly with
      latest := some (symTickFinal, y), lastChildren := y.children, final := some (y.step, y.timeA, y.timeB) } } := by
  intro f
  have hs : f.hlyState = hlyJoining := (genCheck_hlyState _ _).trans hj
  have hk : f.flag Reg.HLY_STATUS Fld.HLY_STATUS_LOCKED = true := (genCheck_locked _ _).trans hl
  have hw : f.hly.final = none := (congrArg HlySt.final (genCheck_hly _ _)).trans hn
  refine congrArg _ ((tickSymbol_fresh hy he hm hf _).trans ?_)
  refine (if_pos hs).trans (if_pos ?_)
  show (f.flag Reg.HLY_STATUS Fld.HLY_STATUS_LOCKED && f.hly.final.isNone) = true
  rw [hk, hw]
  rfl

/-! ### TICK_FAULT -/

theorem exec_tickFault_member (hf : s.hly.seen.contains (symTickFault, y) = false) (ht : s.ofTick y = true)
    (hh : s.hlyState ≠ hlyHoldFault) :
    exec (.tickFault y) s = .next (((s.relayed symTickFault y).slipsTo y.slips).holdFault y.timeA) := by
  refine congrArg _ ((tickSymbol_fresh hy he hm hf _).trans ?_)
  exact if_pos (Bool.and_eq_true_iff.2 ⟨ht, bne_iff_ne.2 hh⟩)

end

/-- Settles O27: each symbol acts on the state that relayed it, by whether the node joins and whether the tick is its own. -/
theorem tickSymbolsMoveTheTick : Obligations.TickSymbolsMoveTheTick := fun _ _ hy he hm =>
  ⟨exec_tickExtend_member hy he hm, exec_tickExtend_joining hy he hm, exec_tickFinal_member hy he hm,
    exec_tickFinal_joining hy he hm, exec_tickFault_member hy he hm⟩

end Sys2Proof.Machine
end

section
/-! PROOFS. The moments of a tick (R41, R46, R49, R52, R53, R63, R510). -/

namespace Sys2Proof.Machine

section
variable {s : State}

/-- A joining node with a held TICK_FINAL becomes a member at its end time (R41). -/
theorem exec_joinComplete_joins {st a b : Nat} (hf : s.hly.final = some (st, a, b)) (hj : s.hlyState = hlyJoining) :
    let u := (s.timeTo a).tickApply st
    exec .joinComplete s =
      .next ((u.setHlyState hlyRunning).beginTick (nextStep st) (max a u.time) (some b)).dropPast.twaitsJudge.hartsJudge := by
  show execJoinComplete s = _
  unfold execJoinComplete
  rw [hf]
  exact congrArg _ (if_neg (not_not_intro hj))

theorem exec_guardPoint_reached (ht : s.ticking = true) (hd : s.hly.guardDone = false) :
    let g := doneWords.foldl (fun s e => s.wr e.2.2 (s.lateWord e.1 e.2.1)) (s.timeTo s.guardPoint)
    let g' := { g with hly := { g.hly with guardDone := true, forced := g.calDue } }
    exec .guardPoint s = .next (if !g.calDue.isEmpty then
        (g'.setFld Reg.HLY_SLIPS Fld.HLY_SLIPS_FORCED 1).event Reg.HLY_EVENT Fld.HLY_EVENT_FORCED_SLIP Reg.HLY_CNT_FORCED
      else g').slipUpdate := by
  intro g g'
  refine congrArg _ (if_neg ?_)
  rw [ht, hd]
  decide

/-! ### The decision of the master (R52) -/

theorem exec_decisionPoint (h : s.deciding = true) :
    let d := s.timeTo (s.tickEnd - s.lead)
    exec .decisionPoint s = .next (if d.aggPending = false then if d.cutLaunched then d else d.sendFinal d.tickEnd
      else if d.fld Reg.HLY_SLIPS Fld.HLY_SLIPS_CURRENT < d.hly.active.maxSlips then d.grantSlip else d.faultTick) :=
  congrArg _ (if_neg (ne_false_of_eq_true h))

theorem exec_decisionPoint_ends (h : s.deciding = true) (ha : (s.timeTo (s.tickEnd - s.lead)).aggPending = false)
    (hc : (s.timeTo (s.tickEnd - s.lead)).cutLaunched = false) :
    let d := s.timeTo (s.tickEnd - s.lead)
    exec .decisionPoint s = .next (d.sendFinal d.tickEnd) :=
  (exec_decisionPoint h).trans (congrArg _ ((if_pos ha).trans (if_neg (ne_true_of_eq_false hc))))

theorem exec_decisionPoint_pending (h : s.deciding = true) (ha : (s.timeTo (s.tickEnd - s.lead)).aggPending = true) :
    let d := s.timeTo (s.tickEnd - s.lead)
    exec .decisionPoint s =
      .next (if d.fld Reg.HLY_SLIPS Fld.HLY_SLIPS_CURRENT < d.hly.active.maxSlips then d.grantSlip else d.faultTick) :=
  (exec_decisionPoint h).trans (congrArg _ (if_neg (ne_false_of_eq_true ha)))

/-! ### The end of the tick, and a hold without it (R53, R510) -/

theorem exec_tickEnd_final {a b : Nat} (hf : s.hly.final = some (s.step, a, b)) (ht : s.ticking = true) :
    exec .tickEnd s = .next (s.endTick a b) := by
  show execTickEnd s = _
  unfold execTickEnd
  rw [hf]
  refine congrArg _ (if_pos ?_)
  rw [ht, beq_self_eq_true]
  rfl

/-- Without a TICK_FINAL the end is a hold, of the cut where one is armed, else of a member that hears no master. -/
theorem exec_boundaryHold (hl : s.launching = true) (hf : s.hly.final = none) :
    let h := (s.timeTo s.tickEnd).setHlyState hlyHoldFinal
    exec .boundaryHold s = .next (if s.cutArmed then h.cutHoldBegin else if s.isMaster then s
      else { h with hly := { h.hly with lateHold := true } }.event Reg.HLY_EVENT Fld.HLY_EVENT_LATE_FINAL Reg.HLY_CNT_LATE_FINAL) := by
  refine congrArg _ (if_neg ?_)
  rw [hl, hf]
  decide

theorem exec_quietBandStart_reached (ht : s.ticking = true) (hq : s.hly.quiet = false) :
    let q := s.timeTo s.quietStart
    exec .quietBandStart s = .next { q with hly := { q.hly with quiet := true } }.calQuiet.wcFlushAll.tlmFlush := by
  refine congrArg _ (if_neg ?_)
  rw [ht, hq]
  decide

/-! ### FDIE_DONE (R379) -/

theorem exec_fdieDone_signals {f : Nat} (hf : f < 2) (hw : s.working (capFdie f) = true)
    (hg : s.hly.guardDone = true ∨ s.ticking = true ∧ s.guardPoint ≤ s.time) (ho : s.fdieOwes f = false) :
    exec (.fdieDone f) s = .next (s.unitDone (if f = 0 then Fld.HLY_DONE_U_FDIE0 else Fld.HLY_DONE_U_FDIE1)) := by
  have hd : (s.hly.guardDone || s.ticking && decide (s.guardPoint ≤ s.time)) = true := by simpa using hg
  refine congrArg _ (if_neg ?_)
  rw [hw, hd, ho]
  rintro (q | q | q | q)
  · omega
  · exact nomatch q
  · exact nomatch q
  · exact nomatch q

end

/-- Settles O28: each moment by the branch that its hypotheses select. -/
theorem momentsOfATick : Obligations.MomentsOfATick := fun _ =>
  ⟨fun _ _ _ => exec_joinComplete_joins, exec_guardPoint_reached, exec_decisionPoint_ends, exec_decisionPoint_pending,
    fun _ _ => exec_tickEnd_final,
    fun hl hf hc hm => (exec_boundaryHold hl hf).trans
      (congrArg _ ((if_neg (ne_true_of_eq_false hc)).trans (if_neg (ne_true_of_eq_false hm)))),
    fun hl hf hc => (exec_boundaryHold hl hf).trans (congrArg _ (if_pos hc)),
    exec_quietBandStart_reached, fun _ => exec_fdieDone_signals⟩

end Sys2Proof.Machine
end

section
/-! PROOFS. Writes of Halyard's registers (R42, R44, R48, R60, R62). -/

namespace Sys2Proof.Machine

/-! ### Launch queues -/

/-- The state after a queue was asked to take entry `e`, by the result `r` (R60). -/
def State.armState (s : State) (q : Nat) (e : TalqEntry) (r : Nat) : State :=
  if r = 0 then { s with hly := { s.hly with talq := s.hly.talq ++ [e] } }.talqOcc q
  else if r = 1 then s.event Reg.HLY_EVENT Fld.HLY_EVENT_TALQ_FULL Reg.HLY_CNT_FULL
  else if r = 2 then s.event Reg.HLY_EVENT Fld.HLY_EVENT_TALQ_PAST Reg.HLY_CNT_PAST else s

theorem arm_eq (s : State) (q : Nat) (w0 w1 : Word) :
    s.arm q w0 w1 = (s.armState q ⟨q, w0, w1⟩ (s.armResult q ⟨q, w0, w1⟩), s.armResult q ⟨q, w0, w1⟩) := by
  unfold State.arm State.armState
  dsimp only
  generalize s.armResult q ⟨q, w0, w1⟩ = r
  split_ifs with h0 h1 h2
  · rw [h0]
  · rw [h1]
  · rw [h2]
  · rfl

@[simp] theorem armState_armInfo (s : State) (q : Nat) (e : TalqEntry) (r : Nat) :
    (s.armState q e r).hly.armInfo = s.hly.armInfo := by
  unfold State.armState
  split_ifs
  · rfl
  · rw [State.event_hly]
  · rw [State.event_hly]
  · rfl

section
variable {s : State} {agent : Agent} (hm : s.mayWriteHly agent = true)
include hm

/-- What keeps a write of a queue out does not hold (R25, R44). -/
theorem queueWrite_taken {q : Nat} (hq : s.talqUp q = true) : ¬ (s.mayWriteHly agent = false ∨ s.talqUp q = false) := by
  rw [hm, hq]
  decide

theorem exec_hlyTalqArm1 {q : Nat} (v : Word) (hq : s.talqUp q = true) :
    let k := armKey q agent
    let e : TalqEntry := ⟨q, sGet noArm s.hly.arm0 k, v⟩
    let r := s.armResult q e
    let t := s.armState q e r
    exec (.hlyTalqArm1 agent q v) s = .next { t with hly := { t.hly with
      armInfo := sSet noArmInfo s.hly.armInfo k (r, bits v.toNat 63 48, (sGet noArmInfo s.hly.armInfo k).2.2) } } := by
  intro k e r t
  refine congrArg _ ((if_neg (queueWrite_taken hm hq)).trans ?_)
  dsimp only
  rw [arm_eq]
  dsimp only
  rw [armState_armInfo]

theorem exec_hlyTalqCancel {q : Nat} (v : Word) (hq : s.talqUp q = true) :
    let k := armKey q agent
    let hit (e : TalqEntry) : Bool := e.queue == q && e.tag == bits v.toNat 15 0 && !s.talqDue e
    let t := { s with hly := { s.hly with talq := s.hly.talq.filter fun e => !hit e } }.talqOcc q
    let old := sGet noArmInfo s.hly.armInfo k
    exec (.hlyTalqCancel agent q v) s = .next { t with hly := { t.hly with
      armInfo := sSet noArmInfo s.hly.armInfo k (old.1, old.2.1, (s.hly.talq.filter hit).length) } } :=
  congrArg _ (if_neg (queueWrite_taken hm hq))

/-! ### Parameters, the host's step-done, and HLY_CTRL -/

theorem exec_hlyParam (v : Word) : exec (.hlyParam agent v) s = .next (s.commitParams v) := congrArg _ (if_pos hm)

theorem exec_hlyHostDone (v : Word) : exec (.hlyHostDone agent v) s =
    .next (if getF v Fld.HLY_HOST_DONE_DONE = 1 then s.unitDone Fld.HLY_DONE_U_HOST else s) := by
  refine congrArg _ (if_congr ?_ rfl rfl)
  rw [hm, Bool.true_and, beq_iff_eq]

theorem exec_hlyCtrl (v : Word) : exec (.hlyCtrl agent v) s = .next (s.writeHlyCtrl v) := congrArg _ (if_pos hm)

end

/-- The state in which HLY_CTRL shows the two fields of `v` (R42). -/
def State.ctrlShown (s : State) (v : Word) : State :=
  s.wr Reg.HLY_CTRL (packF [(Fld.HLY_CTRL_LOCAL, getF v Fld.HLY_CTRL_LOCAL), (Fld.HLY_CTRL_ENABLE, getF v Fld.HLY_CTRL_ENABLE)])

@[simp] theorem ctrlShown_hlyState (s : State) (v : Word) : (s.ctrlShown v).hlyState = s.hlyState :=
  congrArg (getF · _) (rd_wr_other _ _ (by decide))

@[simp] theorem ctrlShown_domainValid (s : State) (v : Word) :
    (s.ctrlShown v).flag Reg.HLY_DOMAIN Fld.HLY_DOMAIN_VALID = s.flag Reg.HLY_DOMAIN Fld.HLY_DOMAIN_VALID :=
  congrArg (getF · _ == 1) (rd_wr_other _ _ (by decide))

/-- A write that leaves Halyard disabled (R42). -/
theorem writeHlyCtrl_disabled {s : State} {v : Word} (he : (s.ctrlShown v).flag Reg.HLY_CTRL Fld.HLY_CTRL_ENABLE = false) :
    let u := s.ctrlShown v
    s.writeHlyCtrl v = if s.hlyState = hlyIdle then u else if u.inDomain then u.discardTalq.goIdle
      else (u.setFld Reg.HLY_STATUS Fld.HLY_STATUS_ROLE 0).goIdle := by
  intro u
  refine (if_pos he).trans ?_
  rw [← ctrlShown_hlyState s v]
  rfl

/-- A write that leaves Halyard enabled, on an IDLE node (R32, R41). -/
theorem writeHlyCtrl_enabled {s : State} {v : Word} (he : (s.ctrlShown v).flag Reg.HLY_CTRL Fld.HLY_CTRL_ENABLE = true)
    (hi : s.hlyState = hlyIdle) :
    let u := s.ctrlShown v
    s.writeHlyCtrl v = if s.flag Reg.HLY_DOMAIN Fld.HLY_DOMAIN_VALID = true then
      if s.flag Reg.HLY_CTRL Fld.HLY_CTRL_ENABLE = false then u.joinDomain else u else u.goLocal := by
  intro u
  have hu : u.hlyState = hlyIdle := (ctrlShown_hlyState s v).trans hi
  refine (if_neg (ne_false_of_eq_true he)).trans ?_
  rw [← ctrlShown_domainValid s v]
  refine if_congr Iff.rfl (if_congr ?_ rfl rfl) (if_pos hu)
  exact and_iff_left hu

/-- Settles O29: each write of an agent that may write, by the lemma of its register. -/
theorem halyardRegisterWrites : Obligations.HalyardRegisterWrites := by
  intro s agent v hm
  refine ⟨fun q hq => exec_hlyTalqArm1 hm v hq, fun q hq => exec_hlyTalqCancel hm v hq, exec_hlyParam hm v, exec_hlyHostDone hm v,
    fun he => (exec_hlyCtrl hm v).trans (congrArg _ (writeHlyCtrl_disabled he)), fun he hi => ⟨fun hd => ?_, fun hd hw => ?_⟩⟩
  · exact (exec_hlyCtrl hm v).trans (congrArg _ ((writeHlyCtrl_enabled he hi).trans (if_neg (ne_true_of_eq_false hd))))
  · exact (exec_hlyCtrl hm v).trans (congrArg _ ((writeHlyCtrl_enabled he hi).trans ((if_pos hd).trans (if_pos hw))))

end Sys2Proof.Machine
end

section
/-! PROOFS. Flits of each type that a lane hears (R33, R395 to R403, R409, R411, R412, R415). -/

namespace Sys2Proof.Machine

/-- A symbol of a reserved TYPE is counted (R33). -/
theorem symArrive_reserved (s : State) {e : Nat × TickSymbol} (h : e.1 = 0 ∨ 6 < e.1) :
    s.symArrive e = s.event Reg.HLY_EVENT Fld.HLY_EVENT_SYM_UNKNOWN Reg.HLY_CNT_SYM_UNKNOWN := if_pos h

/-- A symbol of a TYPE of Table HLY-1 waits with the time of its arrival (R400). -/
theorem symArrive_known (s : State) {e : Nat × TickSymbol} (h : 1 ≤ e.1) (h' : e.1 ≤ 6) :
    s.symArrive e = { s with ports := { s.ports with rxSym := s.ports.rxSym ++ [(e.1, e.2, s.time)] } } := if_neg (by omega)

/-- The answer to the oldest timestamped flit is one round trip more, of 64 (R412). -/
theorem tripDone_answered {s : State} {p sent : Nat} {rest : List Nat} (rx tx : Nat) (ha : (s.port p).asks = sent :: rest)
    (hl : (s.port p).stamps.length < 64) : s.tripDone p rx tx = s.setPort p { s.port p with
      asks := rest, stamps := (s.port p).stamps ++ [s.time - sent - (tx + 2 ^ 64 - rx) % 2 ^ 64] } := by
  unfold State.tripDone
  dsimp only
  rw [ha]
  exact if_pos hl

section
variable {s : State} {p l errs : Nat} {f : Flit} (hl : s.laneHears p l)
include hl

/-- A whole flit of the command's type `type`, by what its handler `k` makes of the state that heard it. -/
theorem exec_flit_heard {i : Instr} {type : Nat} {k : Bool → State → State} {t : State}
    (hi : exec i s = .next (s.flitIn p l errs f type k)) (ht : type ≤ ftREMAP)
    (hk : k (decide (s.rxRole p l < 16)) (s.heard p l errs f) = t) (he : errs ≤ 15) (hc : f.crc = flitCrc f) (hf : f.ftype = type) :
    exec i s = .next (if (s.heard p l errs f).portState p < optAlign then s.heard p l errs f else t) := by
  rw [hi, flitIn_accepted hl type k ht he hc hf, ← hk]

/-- A codeword beyond correction, or a flit whose CRC fails, whatever the command. -/
theorem exec_flit_lost {i : Instr} {type : Nat} {k : Bool → State → State} (hi : exec i s = .next (s.flitIn p l errs f type k)) :
    let cw := s.turned p l
    let lost (t : State) : State := if decide (s.rxRole p l < 16) then t.rxLoss p else t
    (15 < errs → exec i s = .next (lost (cw.bump48 (Reg.OPT_L_UNCORR (Reg.laneWin p l)) 1))) ∧
      (errs ≤ 15 → f.crc ≠ flitCrc f → exec i s = .next (lost ((cw.bump48 (Reg.OPT_L_CORR (Reg.laneWin p l)) errs).bump32
        (Reg.OPT_CNT_CRC_FAIL (pw p)) 1))) := by
  obtain ⟨uncorr, damaged⟩ := flitIn_lost hl type k
  exact ⟨fun h => hi.trans (congrArg _ (uncorr h)), fun h h' => hi.trans (congrArg _ (damaged h h'))⟩

end

/-- Settles O43: whole flits by `exec_flit_heard` on the handler of each command, the others by `exec_flit_lost`. -/
theorem flitsReceived : Obligations.FlitsReceived := by
  intro s p l errs f hl
  refine ⟨exec_flit_heard hl rfl (by decide) rfl, exec_flit_heard hl rfl (by decide) rfl, exec_flit_heard hl rfl (by decide) rfl,
    exec_flit_heard hl rfl (by decide) rfl, exec_flit_heard hl rfl (by decide) rfl,
    fun k spare period => exec_flit_heard hl rfl (by decide) rfl,
    fun hu => ⟨exec_flit_heard hl rfl (by decide) (if_neg hu), exec_flit_heard hl rfl (by decide) (if_neg hu),
      fun m sp => exec_flit_heard hl rfl (by decide) (if_neg hu), exec_flit_heard hl rfl (by decide) (if_neg hu),
      fun rx tx sent rest ha hn => exec_flit_heard hl rfl (by decide) ((if_neg hu).trans (tripDone_answered rx tx ha hn))⟩,
    fun g e => ⟨symArrive_reserved g, symArrive_known g⟩, ?lost⟩
  simp only [List.forall_mem_cons, List.not_mem_nil, false_implies, implies_true, and_true]
  refine ⟨?_, ?_, ?_, ?_, ?_, ?_, ?_⟩ <;> exact exec_flit_lost hl rfl

end Sys2Proof.Machine
end

section
/-! PROOFS. Scalar instructions, loads and stores of program memory, and immediates (R76, R81 to R84): each is counted, and the rest of it
reads its operands as they stood before the count. -/

namespace Sys2Proof.Machine

/-! ### Operands of a counted instruction -/

/-- Core `c` finds its window where it was, once the instruction is counted. -/
theorem win_of_counted {s : State} {c : Nat} (u : s.coreUp c = true) : (s.counted c).win c = s.win c := win_counted u

theorem pc_of_counted (s : State) (c : Nat) : (s.counted c).pc (s.win c) = s.pc (s.win c) := pc_counted s _

theorem sreg_of_counted (s : State) (c : Nat) {n : Nat} (h : n < 32) : (s.counted c).sreg (s.win c) n = s.sreg (s.win c) n :=
  sreg_counted s _ h

theorem operandB_counted (s : State) (c : Nat) (imm : Bool) (r : Rest) :
    (s.counted c).operandB (s.win c) imm r = s.operandB (s.win c) imm r := by
  cases imm
  · exact sreg_of_counted s c (fSB_lt r)
  · rfl

theorem pmOffset_counted (s : State) (c : Nat) (r : Rest) : (s.counted c).pmOffset (s.win c) r = s.pmOffset (s.win c) r :=
  congrArg (· + _) (sreg_of_counted s c (fSA_lt r))

/-- A legal instruction, by the state that its meaning `k` makes of the counted one. -/
theorem does_state {s t : State} {core cls op : Nat} {rest : Rest} {legal : Bool} {i : Instr} {P : State → Prop} (k : State → State)
    (he : exec i s = .next (s.issue core (insnWord cls op rest) legal k)) (hk : s.coreUp core = true → k (s.counted core) = t)
    (hP : s.coreUp core = true → P t) : s.does core cls op rest legal i P :=
  does_counted k he fun u _ => by rw [hk u]; exact hP u

/-- A legal instruction that writes `v` to SD and goes on. -/
theorem does_wrote {s : State} {core cls op : Nat} {rest : Rest} {legal : Bool} {i : Instr} (k : State → State) (v : Word)
    (he : exec i s = .next (s.issue core (insnWord cls op rest) legal k))
    (hk : s.coreUp core = true → k (s.counted core) = ((s.counted core).setSreg (s.win core) (fSD rest) v).advance core)
    (hp : pcFits (s.flow core).1) : s.does core cls op rest legal i fun t => s.wrote t core (fSD rest) v :=
  does_state k he hk fun u => wrote_of v u hp (fSD_lt rest)

/-! ### Results of Table TCR-4 -/

/-- The signed minimum and maximum by their signed values, the unsigned ones by their unsigned values. -/
theorem toInt_aluMin (a b : Word) : (aluMin a b).toInt = min a.toInt b.toInt := by
  simp only [aluMin, BitVec.slt_iff_toInt_lt]
  split <;> omega

theorem toInt_aluMax (a b : Word) : (aluMax a b).toInt = max a.toInt b.toInt := by
  simp only [aluMax, BitVec.slt_iff_toInt_lt]
  split <;> omega

theorem toNat_aluMinu (a b : Word) : (aluMinu a b).toNat = min a.toNat b.toNat := by
  simp only [aluMinu, BitVec.ult_iff_lt, BitVec.lt_def]
  split <;> omega

theorem toNat_aluMaxu (a b : Word) : (aluMaxu a b).toNat = max a.toNat b.toNat := by
  simp only [aluMaxu, BitVec.ult_iff_lt, BitVec.lt_def]
  split <;> omega

/-- A word is the one that its value forms. -/
theorem word_of_toInt {a : Word} {x : Int} (h : a.toInt = x) : a = BitVec.ofInt 64 x := by rw [← h, BitVec.ofInt_toInt]

theorem word_of_toNat {a : Word} {x : Nat} (h : a.toNat = x) : a = BitVec.ofNat 64 x := by
  rw [← h, BitVec.ofNat_toNat, BitVec.setWidth_eq]

/-- A comparison's word is 1 where it holds. -/
theorem boolWord_eq {b : Bool} {p : Prop} [Decidable p] (h : b = true ↔ p) : boolWord b = if p then 1 else 0 := if_congr h rfl rfl

/-! ### The instructions -/

/-- A scalar operation of either form writes to SD what it makes of SA and the second operand. -/
theorem scalar_wrote {s : State} {core op : Nat} {imm : Bool} {rest : Rest} {i : Instr} {v : Word} {f : Word → Word → Word}
    (he : exec i s = .next (s.scalar core op imm rest f))
    (hv : f (s.sreg (s.win core) (fSA rest)) (s.operandB (s.win core) imm rest) = v) (hp : pcFits (s.flow core).1) :
    s.does core (if imm then 0x02 else 0x01) op rest (fieldsOk (if imm then [.sd, .sa, .imm] else [.sd, .sa, .sb]) rest) i
      fun t => s.wrote t core (fSD rest) v := by
  unfold State.scalar at he
  refine does_wrote _ v he (fun u => ?_) hp
  dsimp only
  rw [win_of_counted u, sreg_of_counted s core (fSA_lt rest), operandB_counted, hv]

/-- Settles O1: each operation by `scalar_wrote`, its result by the equation of its function. -/
theorem scalarOperationsWriteSd : Obligations.ScalarOperationsWriteSd := by
  intro s core imm rest w a b n runs
  refine ⟨?add, ?sub, ?and, ?or, ?xor, ?sll, ?srl, ?sra, ?mul, ?mulhu, ?divu, ?remu, ?min, ?max, ?minu, ?maxu, ?slt, ?sltu, ?seq⟩
  case min => exact scalar_wrote rfl (word_of_toInt (toInt_aluMin a b))
  case max => exact scalar_wrote rfl (word_of_toInt (toInt_aluMax a b))
  case minu => exact scalar_wrote rfl (word_of_toNat (toNat_aluMinu a b))
  case maxu => exact scalar_wrote rfl (word_of_toNat (toNat_aluMaxu a b))
  case slt => exact scalar_wrote rfl (boolWord_eq BitVec.slt_iff_toInt_lt)
  case sltu => exact scalar_wrote rfl (boolWord_eq BitVec.ult_iff_lt)
  case seq => exact scalar_wrote rfl (boolWord_eq beq_iff_eq)
  all_goals exact scalar_wrote rfl rfl

/-! ### Loads, immediates and stores -/

/-- An offset at which a word of program memory stands is one that SLOAD and SSTORE accept (R83). -/
theorem pmOk_of_pcFits {o : Word} (h : pcFits o.toNat) : pmOk o = true := by
  rw [pmOk, Bool.and_eq_true, beq_iff_eq, decide_eq_true_eq]
  exact h

theorem sload_wrote {s : State} {core : Nat} {rest : Rest} (ho : pcFits (s.pmOffset (s.win core) rest).toNat)
    (hq : s.pmPoisoned core (s.pmOffset (s.win core) rest).toNat = false) (hp : pcFits (s.flow core).1) :
    s.does core 0x03 0x00 rest (fieldsOk [.sd, .sa, .imm] rest) (.sload core rest)
      fun t => s.wrote t core (fSD rest) (s.pmWord core (s.pmOffset (s.win core) rest).toNat) := by
  refine does_wrote _ _ rfl (fun u => ?_) hp
  dsimp only
  rw [win_of_counted u, pmOffset_counted, pmOk_of_pcFits ho, if_neg (by decide)]
  exact if_neg (ne_true_of_eq_false hq)

/-- Settles O2: each instruction by `does_wrote`. -/
theorem loadsWriteSd : Obligations.LoadsWriteSd := by
  intro s core rest w runs o
  refine ⟨fun ho hq hp => sload_wrote ho hq hp, fun hp => does_wrote _ _ rfl (fun u => ?lil) hp,
    fun hp => does_wrote _ _ rfl (fun u => ?lih) hp⟩
  case lil =>
    rw [win_of_counted u]
    rfl
  case lih =>
    dsimp only
    rw [win_of_counted u, sreg_of_counted s core (fSD_lt rest)]

/-- A word stored to program memory reads back, free of poison, and every other byte stands. -/
theorem pmStore_reads (s : State) (c o : Nat) (v : Word) :
    (s.pmStore c o v).pmWord c o = v ∧ (s.pmStore c o v).pmPoisoned c o = false ∧
      ∀ k, k < 2 ^ 18 * c + o ∨ 2 ^ 18 * c + o + 8 ≤ k → byteAt (s.pmStore c o v).tc.pmem k = byteAt s.tc.pmem k := by
  refine ⟨?word, ?poison, fun k hk => byteAt_putBytes_other (by rwa [length_natLE])⟩
  case poison => exact sGet_sSet_same (d := noMark) s.tc.pmPoison (2 ^ 15 * c + o / 8) false
  have h := bytesAt_putBytes s.tc.pmem (2 ^ 18 * c + o) (natLE 8 v.toNat)
  rw [length_natLE] at h
  rw [State.pmWord, State.pmStore, h, leNat_natLE, Nat.mod_eq_of_lt (show v.toNat < 256 ^ 8 from v.isLt), BitVec.ofNat_toNat, BitVec.setWidth_eq]

/-- An instruction that stores a word to program memory and goes on does what the count and the flow do to the stored state. -/
theorem went_pmStore {s : State} {c : Nat} (o : Nat) (v : Word) (u : s.coreUp c = true) (h : pcFits (s.flow c).1) :
    (s.pmStore c o v).went (((s.counted c).pmStore c o v).advance c) c (s.flow c).1 (s.flow c).2 [] :=
  went_counted (s := s.pmStore c o v) u h

/-- Program memory after an instruction that changed only its core's flow. -/
theorem tc_of_went {s t : State} {c pc : Nat} {ls : List LoopFrame} {l : List Nat} (h : s.went t c pc ls l) :
    t.tc = { s.tc with cores := t.tc.cores } := by
  obtain ⟨_, _, _, _, _, _, ht⟩ := h
  exact congrArg State.tc ht

/-- SSTORE at an offset of program memory stores SB there and goes on. -/
theorem sstore_does {s : State} {core : Nat} {rest : Rest} {P : State → Prop} (ho : pcFits (s.pmOffset (s.win core) rest).toNat)
    (hP : s.coreUp core = true → P (((s.counted core).pmStore core (s.pmOffset (s.win core) rest).toNat
      (s.sreg (s.win core) (fSB rest))).advance core)) :
    s.does core 0x03 0x01 rest (fieldsOk [.sa, .sb, .imm] rest) (.sstore core rest) P := by
  refine does_state _ rfl (fun u => ?_) hP
  dsimp only
  rw [win_of_counted u, pmOffset_counted, sreg_of_counted s core (fSB_lt rest), pmOk_of_pcFits ho]
  exact if_neg (by decide)

/-- Settles O3: the stored word by `pmStore_reads`, the frame by `went_pmStore`. -/
theorem sstoreWritesProgramMemory : Obligations.SstoreWritesProgramMemory := by
  intro s core rest w o ho hp
  refine sstore_does ho fun u => ?_
  have hw := went_pmStore o (s.sreg w (fSB rest)) u hp
  have ht := tc_of_went hw
  obtain ⟨word, poison, other⟩ := pmStore_reads s core o (s.sreg w (fSB rest))
  refine ⟨(congrArg (fun x : CoresSt => BitVec.ofNat 64 (leNat (bytesAt x.pmem (2 ^ 18 * core + o) 8))) ht).trans word,
    (congrArg (fun x : CoresSt => sGet noMark x.pmPoison (2 ^ 15 * core + o / 8)) ht).trans poison,
    fun k hk => (congrArg (fun x : CoresSt => byteAt x.pmem k) ht).trans (other k hk), hw⟩

end Sys2Proof.Machine
end

section
/-! PROOFS. Branches, jumps and loops (R85, R86): where flow goes, by the branch that the operands select. -/

namespace Sys2Proof.Machine

/-! ### Flow of a counted instruction -/

/-- A taken branch from a counted instruction goes to its target, reduced to 64 bits. -/
theorem jump_counted (s : State) (c : Nat) (t : Int) : (s.counted c).jump c t =
    ((s.counted c).setLoops c (loopsAt (unsig 64 t) (s.core c).loops)).goTo c (unsig 64 t) := rfl

theorem unsig_word (a : Word) : unsig 64 (a.toNat : Int) = a.toNat := by
  have h := a.isLt
  rw [unsig]
  omega

/-- Writing an S register leaves the loops of every core. -/
theorem loops_setSreg (s : State) (w n : Nat) (v : Word) (c : Nat) : (s.setSreg w n v).core c = s.core c := by
  rw [setSreg_eq]
  split <;> rfl

/-! ### Branches -/

section
variable {s : State} {core op : Nat} {rest : Rest} {i : Instr} {p : Word → Word → Bool}

/-- The target of a branch of `core`. -/
abbrev State.branchDest (s : State) (core : Nat) (rest : Rest) : Nat := unsig 64 (s.pc (s.win core) + 8 * fSImm rest)

/-- The condition of a branch of `core`, by its test `p`. -/
abbrev State.branchTaken (s : State) (core : Nat) (rest : Rest) (p : Word → Word → Bool) : Bool :=
  p (s.sreg (s.win core) (fSA rest)) (s.sreg (s.win core) (fSB rest))

/-- A branch is a jump where its condition holds and goes on in sequence where it does not. -/
theorem branch_does {P : State → Prop} (he : exec i s = .next (s.branch core op rest p))
    (hP : s.coreUp core = true → P (if s.branchTaken core rest p = true then (s.counted core).jump core (s.pc (s.win core) + 8 * fSImm rest)
      else (s.counted core).advance core)) : s.does core 0x08 op rest (fieldsOk [.sa, .sb, .imm] rest) i P := by
  unfold State.branch at he
  refine does_state _ he (fun u => ?_) hP
  dsimp only
  rw [win_of_counted u, sreg_of_counted s core (fSA_lt rest), sreg_of_counted s core (fSB_lt rest), pc_of_counted]

theorem branch_taken (he : exec i s = .next (s.branch core op rest p)) (ht : s.branchTaken core rest p = true)
    (hd : pcFits (s.branchDest core rest)) : s.does core 0x08 op rest (fieldsOk [.sa, .sb, .imm] rest) i
      fun t => s.went t core (s.branchDest core rest) (loopsAt (s.branchDest core rest) (s.core core).loops) [] :=
  branch_does he fun u => by
    rw [if_pos ht, jump_counted]
    exact landed_counted _ u hd

theorem branch_untaken (he : exec i s = .next (s.branch core op rest p)) (ht : ¬ s.branchTaken core rest p = true)
    (hp : pcFits (s.flow core).1) : s.does core 0x08 op rest (fieldsOk [.sa, .sb, .imm] rest) i
      fun t => s.went t core (s.flow core).1 (s.flow core).2 [] :=
  branch_does he fun u => by
    rw [if_neg ht]
    exact went_counted u hp

/-- A branch whose test `p` decides `taken`: both ways. -/
theorem branch_goes {taken : Prop} (he : exec i s = .next (s.branch core op rest p)) (ht : s.branchTaken core rest p = true ↔ taken) :
    (taken → pcFits (s.branchDest core rest) → s.does core 0x08 op rest (fieldsOk [.sa, .sb, .imm] rest) i
        fun t => s.went t core (s.branchDest core rest) (loopsAt (s.branchDest core rest) (s.core core).loops) []) ∧
      (¬ taken → pcFits (s.flow core).1 → s.does core 0x08 op rest (fieldsOk [.sa, .sb, .imm] rest) i
        fun t => s.went t core (s.flow core).1 (s.flow core).2 []) :=
  ⟨fun h => branch_taken he (ht.2 h), fun h => branch_untaken he (mt ht.1 h)⟩

end

/-! ### Jumps -/

section
variable {s : State} {core : Nat} {rest : Rest}

theorem jal_goes (hd : pcFits (s.branchDest core rest)) : s.does core 0x08 0x08 rest (fieldsOk [.sd, .imm] rest) (.jal core rest) fun t =>
    s.wroteAt t core (s.branchDest core rest) (loopsAt (s.branchDest core rest) (s.core core).loops) (fSD rest)
      (BitVec.ofNat 64 (s.pc (s.win core) + 8)) := by
  refine does_counted _ rfl fun u _ => ?_
  dsimp only
  rw [win_of_counted u, pc_of_counted, State.jump, loops_setSreg]
  exact wroteAt_of _ _ u hd (fSD_lt rest)

theorem jr_goes (ha : pcFits (s.sreg (s.win core) (fSA rest)).toNat) :
    s.does core 0x08 0x09 rest (fieldsOk [.sa] rest) (.jr core rest) fun t =>
      s.went t core (s.sreg (s.win core) (fSA rest)).toNat (loopsAt (s.sreg (s.win core) (fSA rest)).toNat (s.core core).loops) [] := by
  refine does_counted _ rfl fun u _ => ?_
  rw [win_of_counted u, sreg_of_counted s core (fSA_lt rest), jump_counted, unsig_word]
  exact landed_counted _ u ha

end

/-- Settles O4: each branch by `branch_goes` on its test, the jumps by their own lemmas. -/
theorem branchesGoToTheirTarget : Obligations.BranchesGoToTheirTarget := by
  intro s core rest w a b dest loops branch
  refine ⟨branch_goes rfl beq_iff_eq, branch_goes rfl bne_iff_ne, branch_goes rfl BitVec.slt_iff_toInt_lt, branch_goes rfl ?bge,
    branch_goes rfl BitVec.ult_iff_lt, branch_goes rfl ?bgeu, jal_goes, jr_goes⟩
  case bge => rw [Bool.not_eq_true', ← Bool.not_eq_true, BitVec.slt_iff_toInt_lt, Int.not_lt]
  case bgeu => rw [Bool.not_eq_true', ← Bool.not_eq_true, BitVec.ult_iff_lt, BitVec.not_lt]; rfl

/-! ### Loops -/

section
variable {s : State} {core : Nat} {rest : Rest}

/-- The last instruction of the body of a LOOP of `core`. -/
abbrev State.loopLast (s : State) (core : Nat) (rest : Rest) : Nat := s.pc (s.win core) + 8 * fImm rest

/-- With fewer than four loops active, a LOOP begins its body. -/
theorem loop_begins (hl : (s.core core).loops.length < 4) (hn : (s.sreg (s.win core) (fSA rest)).toNat ≠ 0)
    (hp : pcFits (s.pc (s.win core) + 8)) :
    s.does core 0x08 0x0A rest (fieldsOk [.sa, .imm] rest && decide (1 ≤ fSImm rest)) (.loop core rest) fun t =>
      s.went t core (s.pc (s.win core) + 8) (⟨s.pc (s.win core) + 8, s.loopLast core rest, (s.sreg (s.win core) (fSA rest)).toNat⟩ ::
        (s.core core).loops) [] := by
  refine does_state _ rfl (fun u => ?_) fun u => landed_counted _ u hp
  dsimp only
  rw [win_of_counted u, sreg_of_counted s core (fSA_lt rest), pc_of_counted]
  exact (if_neg (Nat.not_le.2 hl)).trans (if_neg hn)

/-- On a count of 0 flow goes on behind the body. -/
theorem loop_skips (hl : (s.core core).loops.length < 4) (hn : (s.sreg (s.win core) (fSA rest)).toNat = 0)
    (hp : pcFits (afterInsn (s.loopLast core rest) (s.core core).loops).1) :
    s.does core 0x08 0x0A rest (fieldsOk [.sa, .imm] rest && decide (1 ≤ fSImm rest)) (.loop core rest) fun t =>
      s.went t core (afterInsn (s.loopLast core rest) (s.core core).loops).1 (afterInsn (s.loopLast core rest) (s.core core).loops).2 [] := by
  refine does_state _ rfl (fun u => ?_) fun u => landed_counted _ u hp
  dsimp only
  rw [win_of_counted u, sreg_of_counted s core (fSA_lt rest), pc_of_counted]
  exact (if_neg (Nat.not_le.2 hl)).trans (if_pos hn)

end

/-- Settles O5: by whether the count is 0. -/
theorem loopBeginsItsBody : Obligations.LoopBeginsItsBody :=
  fun _ _ _ hl => ⟨loop_begins hl, loop_skips hl⟩

end Sys2Proof.Machine
end

section
/-! PROOFS. Waits of a core: drains, fences and tick waits, how they begin (R87, R101 to R104) and how they end (R101, R104). -/

namespace Sys2Proof.Machine

/-! ### Counting an instruction leaves Halyard alone -/

theorem hlyState_counted {s : State} {c : Nat} (u : s.coreUp c = true) : (s.counted c).hlyState = s.hlyState :=
  congrArg (fun v => getF v Fld.HLY_STATUS_STATE) (rd_counted_far u (by decide))

section
variable {s : State} {core cls op kind st p sd : Nat} {rest : Rest} {i : Instr} {legal : Bool} {x : CoreWait} {k : State → State} {word : Word}

/-- An instruction that blocks its core. -/
theorem does_waits (he : exec i s = .next (s.issue core (insnWord cls op rest) legal k))
    (hk : s.coreUp core = true → k (s.counted core) = (s.counted core).block core kind x) (hw : kind < 16) :
    s.does core cls op rest legal i fun t => s.waits t core kind x :=
  does_state k he hk fun u => waits_of x u hw

/-! ### Tick waits -/

/-- Where the node is JOINING, a tick wait awaits that it runs. -/
theorem twait_joining (u : s.coreUp core = true) (hj : s.hlyState = hlyJoining) :
    (s.counted core).twait core word st p sd x = (s.counted core).block core 1 x := by
  rw [← hlyState_counted u] at hj
  unfold State.twait
  rw [hj]
  exact (if_neg (by decide)).trans (if_pos rfl)

/-- Where the node has ticks, a tick wait is late, or blocks its core until the moment. -/
theorem twait_ticks (u : s.coreUp core = true) (hi : s.hlyState ≠ hlyIdle) (hj : s.hlyState ≠ hlyJoining) :
    (s.counted core).twait core word st p sd x =
      if (s.counted core).passed st ((s.counted core).phaseStart p) = true then ((s.counted core).twaitLate core sd).advance core
      else (s.counted core).block core 1 (.tick st p sd false) := by
  rw [← hlyState_counted u] at hi hj
  exact (if_neg hi).trans (if_neg hj)

/-- A late wait marks the event in the window of its core and answers 1. -/
theorem twaitLate_counted (u : s.coreUp core = true) : (s.counted core).twaitLate core sd =
    ((s.counted core).event (Reg.TC_EVENT (s.win core)) Fld.TC_EVENT_TWAIT_LATE (Reg.TC_CNT_TWAIT_LATE (s.win core))).setSreg
      (s.win core) sd 1 := by
  unfold State.twaitLate
  rw [win_of_counted u]

section
variable (he : exec i s = .next (s.issue core (insnWord cls op rest) legal k))
  (hk : s.coreUp core = true → k (s.counted core) = (s.counted core).twait core word st p sd x)
include he hk

/-- How an instruction that means a tick wait blocks its core. -/
theorem tick_waits :
    (s.hlyState = hlyJoining → s.does core cls op rest legal i fun t => s.waits t core 1 x) ∧
      (s.hlyState ≠ hlyIdle → s.hlyState ≠ hlyJoining → (s.counted core).passed st ((s.counted core).phaseStart p) = false →
        s.does core cls op rest legal i fun t => s.waits t core 1 (.tick st p sd false)) :=
  ⟨fun hj => does_waits he (fun u => (hk u).trans (twait_joining u hj)) (by decide),
    fun hi hj hp => does_waits he (fun u => ((hk u).trans (twait_ticks u hi hj)).trans (if_neg (ne_true_of_eq_false hp))) (by decide)⟩

/-- Where its moment has passed, it goes on with 1. -/
theorem tick_late (hi : s.hlyState ≠ hlyIdle) (hj : s.hlyState ≠ hlyJoining)
    (hp : (s.counted core).passed st ((s.counted core).phaseStart p) = true) :
    s.gives core cls op rest legal i fun t =>
      ((t.event (Reg.TC_EVENT (s.win core)) Fld.TC_EVENT_TWAIT_LATE (Reg.TC_CNT_TWAIT_LATE (s.win core))).setSreg
        (s.win core) sd 1).advance core :=
  gives_of k he fun u _ => by rw [hk u, twait_ticks u hi hj, if_pos hp, twaitLate_counted u]

end

end

/-- What TWAITA means: it waits for the step that SA names. -/
theorem twaita_means (s : State) (core : Nat) (rest : Rest) (u : s.coreUp core = true) :
    let st (t : State) (w : Nat) := (t.sreg w (fSA rest)).toNat % 2 ^ 48
    (s.counted core).twait core (insnWord 0x0C 0x00 rest) (st (s.counted core) ((s.counted core).win core)) (fImm rest % 4) (fSD rest)
        (.tick (st (s.counted core) ((s.counted core).win core)) (fImm rest % 4) (fSD rest) true) =
      (s.counted core).twait core (insnWord 0x0C 0x00 rest) (st s (s.win core)) (fImm rest % 4) (fSD rest)
        (.tick (st s (s.win core)) (fImm rest % 4) (fSD rest) true) := by
  dsimp only
  rw [win_of_counted u, sreg_of_counted s core (fSA_lt rest)]

/-- Settles O6: drains and fences by `does_waits`, tick waits by `tick_waits`. -/
theorem drainsAndTickWaitsBlock : Obligations.DrainsAndTickWaitsBlock := fun s core rest =>
  ⟨does_waits rfl (fun _ => rfl) (by decide), does_waits rfl (fun _ => rfl) (by decide),
    fun hb => does_waits rfl (fun _ => if_pos hb) (by decide), tick_waits rfl (twaita_means s core rest), tick_waits rfl fun _ => rfl⟩

/-- Settles O7: tick waits by `tick_late`, a FENCE by the flow of a counted instruction. -/
theorem lateTickWaitsGoOn : Obligations.LateTickWaitsGoOn := fun s core rest =>
  ⟨tick_late rfl (twaita_means s core rest), tick_late rfl fun _ => rfl,
    fun hb hp => does_state _ rfl (fun _ => if_neg (ne_true_of_eq_false hb)) fun u => went_counted u hp⟩

/-! ### The end of a wait -/

section
variable {s : State} {core : Nat} (hc : s.coreUp core = true) (hw : s.coreState (s.win core) = coreWaiting)
include hc hw

theorem exec_twaitMoment_reached {p sd : Nat} (ht : s.ticking = true) (hx : (s.core core).wait = .tick s.step p sd false) :
    let t := s.timeTo (s.phaseStart p)
    exec (.twaitMoment core) s = .next ((t.setSreg (t.win core) sd (if s.hly.active.enabled p then 0 else 2)).resume core) := by
  show execTwaitMoment core s = _
  unfold execTwaitMoment
  rw [hc, hw, ht, hx, if_neg (by decide)]
  dsimp only
  rw [if_neg (not_not_intro rfl), timeTo_hly]

theorem exec_doneSignal_ends {signal halt : Bool} (hb : s.busyFid core = false) (hx : (s.core core).wait = .drain signal halt) :
    let t := if signal then s.coreDone core else s
    exec (.doneSignal core) s = .next (if halt then t.endProgram core else t.resume core) := by
  show execDoneSignal core s = _
  unfold execDoneSignal
  rw [hc, hw, hb, hx, if_neg (by decide)]

end

/-- Settles O8: a tick wait and a drain each by the wait that the core holds. -/
theorem waitsOfACoreEnd : Obligations.WaitsOfACoreEnd := fun _ _ hc hw =>
  ⟨fun _ _ => exec_twaitMoment_reached hc hw, fun _ _ => exec_doneSignal_ends hc hw⟩

end Sys2Proof.Machine
end

section
/-! PROOFS. Semaphore instructions (R106 to R109), system values (R88), arming from a core (R60) and posting of events (R89): each is
counted, and goes on or waits by what the counted state holds. -/

namespace Sys2Proof.Machine

section
variable {s : State} {core : Nat} {rest : Rest}

/-! ### Semaphores -/

theorem semIndex_counted (u : s.coreUp core = true) :
    (s.counted core).semIndex core rest = s.sreg (s.win core) (fSA rest) + BitVec.ofInt 64 (fSImm rest) := by
  rw [State.semIndex, win_of_counted u, sreg_of_counted s core (fSA_lt rest)]
  rfl

theorem semCount_counted (u : s.coreUp core = true) :
    (s.counted core).semCount core rest = (s.sreg (s.win core) (fSB rest)).toNat % 2 ^ 32 := by
  rw [State.semCount, win_of_counted u, sreg_of_counted s core (fSB_lt rest)]

variable {n a : Nat} (hn : (s.sreg (s.win core) (fSA rest) + BitVec.ofInt 64 (fSImm rest)).toNat = n)
  (hf : (s.counted core).semFault core n = none)
include hn hf

theorem semread_gives : s.gives core 0x0C 0x06 rest (fieldsOk [.sd, .sa, .imm] rest) (.semread core rest) fun t =>
    (t.setSreg (s.win core) (fSD rest) (BitVec.ofNat 64 (t.semVal n))).advance core :=
  gives_of _ rfl fun u _ => by
    dsimp only
    rw [semIndex_counted u, hn, hf, win_of_counted u]

/-- A semaphore wait on a semaphore of the core, by its count, by the value and by the waits before it. -/
theorem semwait_gives {k : State → State} (ha : (s.sreg (s.win core) (fSB rest)).toNat % 2 ^ 32 = a)
    (hk : k (s.counted core) = if a = 0 then (s.counted core).advance core
      else if (s.counted core).semVal n < a ∨ (s.tc.semWaits.any fun (e : Nat × Nat × Nat) => e.1 == n) = true then
        let b := (s.counted core).block core 2 (.sem n a)
        { b with tc := { b.tc with semWaits := b.tc.semWaits ++ [(n, core, a)] } }
      else ((s.counted core).setSem n ((s.counted core).semVal n - a)).advance core) :
    s.gives core 0x0C 0x05 rest (fieldsOk [.sa, .sb, .imm] rest) (.semwait core rest) k :=
  gives_of _ rfl fun u _ => by
    dsimp only
    rw [hk, semIndex_counted u, semCount_counted u, hn, ha, hf]
    rfl

theorem seminc_gives {k : State → State} (ha : (s.sreg (s.win core) (fSB rest)).toNat % 2 ^ 32 = a)
    (hk : k (s.counted core) = if s.busyProg core = true then (s.counted core).block core 4 (.semHold n a)
      else ((s.counted core).advance core).semInc n a) :
    s.gives core 0x0C 0x04 rest (fieldsOk [.sa, .sb, .imm] rest) (.seminc core rest) k :=
  gives_of _ rfl fun u _ => by
    dsimp only
    rw [hk, semIndex_counted u, semCount_counted u, hn, ha, hf, State.semIncDo, hf]
    rfl

end

/-- Settles O9: each instruction by its own lemma, on the branch that the hypotheses select. -/
theorem semaphoreInstructions : Obligations.SemaphoreInstructions := fun _ _ _ hf =>
  ⟨semread_gives rfl hf, fun ha => semwait_gives rfl hf rfl (if_pos ha).symm,
    fun ha hv hw => semwait_gives rfl hf rfl ((if_neg ha).trans (if_neg (not_or.2 ⟨Nat.not_lt.2 hv, ne_true_of_eq_false hw⟩))).symm,
    fun ha hw => semwait_gives rfl hf rfl ((if_neg ha).trans (if_pos hw)).symm,
    fun hb => seminc_gives rfl hf rfl (if_neg (ne_true_of_eq_false hb)).symm, fun hb => seminc_gives rfl hf rfl (if_pos hb).symm⟩

/-! ### System values, arming and events -/

section
variable {s : State} {core : Nat} {rest : Rest}

/-- A system value that reading does not change the state for is written to SD. -/
theorem readsys_gives {n : Nat} (hn : fImm rest = n) {v : State → Word} (hv : ∀ t : State, t.sysValue core n = (v t, t)) :
    s.gives core 0x0C 0x0C rest (fieldsOk [.sd, .imm] rest && decide (fImm rest ≤ 8)) (.readsys core rest) fun t =>
      (t.setSreg (s.win core) (fSD rest) (v t)).advance core :=
  gives_of _ rfl fun u _ => by
    dsimp only
    rw [win_of_counted u, hn, hv]

/-- System value 6 is free (log entry 26). -/
theorem readsys_gives_free (hn : fImm rest = 6) :
    s.gives core 0x0C 0x0C rest (fieldsOk [.sd, .imm] rest && decide (fImm rest ≤ 8)) (.readsys core rest) fun t =>
      ((t.free 2).2.setSreg (s.win core) (fSD rest) (t.free 2).1).advance core :=
  gives_of _ rfl fun u _ => by
    dsimp only
    rw [win_of_counted u, hn]
    rfl

theorem arm_gives : s.gives core 0x0C 0x0A rest (fieldsOk [.sd, .sa, .sb] rest) (.arm core rest) fun t =>
    let r := t.arm (core / 160) (s.sreg (s.win core) (fSA rest)) (s.sreg (s.win core) (fSB rest))
    (r.1.setSreg (s.win core) (fSD rest) (BitVec.ofNat 64 r.2)).advance core :=
  gives_of _ rfl fun u _ => by
    dsimp only
    rw [win_of_counted u, sreg_of_counted s core (fSA_lt rest), sreg_of_counted s core (fSB_lt rest)]

theorem evpost_gives : s.gives core 0x0E 0x00 rest
    (fieldsOk [.sd, .sa, .sb, .imm] rest && (bits (fImm rest) 7 3 == 0 && bits (fImm rest) 31 16 == 0)) (.evpost core rest) fun t =>
      let r := t.postCore core (fImm rest % 8) 1 (bits (fImm rest) 15 8) (s.sreg (s.win core) (fSA rest)) (s.sreg (s.win core) (fSB rest))
      let q := if r.2 = 0 then r.1
        else r.1.event (Reg.TC_EVENT (s.win core)) Fld.TC_EVENT_EVPOST_DROP (Reg.TC_CNT_EVPOST_DROP (s.win core))
      (q.setSreg (s.win core) (fSD rest) (BitVec.ofNat 64 r.2)).advance core :=
  gives_of _ rfl fun u _ => by
    dsimp only
    rw [win_of_counted u, sreg_of_counted s core (fSA_lt rest), sreg_of_counted s core (fSB_lt rest)]

end

/-- Settles O11: each system value by `readsys_gives`, ARM and EVPOST by their own lemmas. -/
theorem systemValuesArmAndEvents : Obligations.SystemValuesArmAndEvents := fun _ _ _ =>
  ⟨fun h => readsys_gives h fun _ => rfl, fun h => readsys_gives h fun _ => rfl, fun h => readsys_gives h fun _ => rfl,
    fun h => readsys_gives h fun _ => rfl, fun h => readsys_gives h fun _ => rfl, fun h => readsys_gives h fun _ => rfl,
    readsys_gives_free, fun h => readsys_gives h fun _ => rfl, fun h => readsys_gives h fun _ => rfl, arm_gives, evpost_gives⟩

end Sys2Proof.Machine
end

section
/-! PROOFS. Taking a fault (R114, R116): what the core's registers hold once it is recorded, and which fault stands while the Fid engine
still holds instructions of the program. -/

namespace Sys2Proof.Machine

/-! ### Fields of a packed register -/

/-- Setting fields beside `g` leaves it. -/
theorem getF_setFields_apart {g : Field} (hg : g.ok = true) (l : List (Field × Nat)) (v : Word)
    (hl : ∀ f ∈ l.map Prod.fst, f.ok = true ∧ f.apart g = true) : getF (l.foldl (fun v e => setF v e.1 e.2) v) g = getF v g := by
  induction l generalizing v with
  | nil => rfl
  | cons e r ih =>
    obtain ⟨ok, apart⟩ := hl e.1 List.mem_cons_self
    rw [List.foldl_cons, ih _ fun f hf => hl f (List.mem_cons_of_mem _ hf), getF_setF_apart _ _ _ _ ok hg apart]

/-- Fields `fs` lie in a register and share no bit. -/
def fieldsApart : List Field → Bool
  | [] => true
  | f :: r => f.ok && r.all (fun g => g.ok && g.apart f) && fieldsApart r

/-- A register set field by field holds in each field what was set, as far as it fits. -/
theorem getF_setFields {fs : List Field} (hfs : fieldsApart fs = true) (l : List (Field × Nat)) (hl : l.map Prod.fst = fs) (v : Word)
    {e : Field × Nat} (he : e ∈ l) : getF (l.foldl (fun v e => setF v e.1 e.2) v) e.1 = e.2 % 2 ^ (e.1.hi + 1 - e.1.lo) := by
  induction l generalizing v fs with
  | nil => cases he
  | cons x r ih =>
    subst hl
    simp only [List.map_cons, fieldsApart, Bool.and_eq_true, List.all_eq_true] at hfs
    obtain ⟨⟨ok, apart⟩, rest⟩ := hfs
    rw [List.foldl_cons]
    rcases List.mem_cons.1 he with rfl | he
    · rw [getF_setFields_apart ok r _ apart, getF_setF_same _ _ _ ok]
    · exact ih rest rfl _ he

/-- A packed field that was given a value that fits. -/
theorem getF_packF {fs : List Field} (hfs : fieldsApart fs = true) {l : List (Field × Nat)} (hl : l.map Prod.fst = fs) {f : Field} {x : Nat}
    (he : (f, x) ∈ l) (hx : x < 2 ^ (f.hi + 1 - f.lo)) : getF (packF l) f = x :=
  (getF_setFields hfs l hl 0 he).trans (Nat.mod_eq_of_lt hx)

/-! ### TC_STATUS -/

/-- A state and a wait kind set in TC_STATUS read back, and no other register changes. -/
theorem status_set (s : State) (w : Nat) {x k : Nat} (hx : x < 8) (hk : k < 16) :
    let t := (s.setCoreState w x).setWaitKind w k
    t.coreState w = x ∧ t.fld (Reg.TC_STATUS w) Fld.TC_STATUS_WAIT_KIND = k ∧ s.sameBut t [Reg.TC_STATUS w] := by
  refine ⟨?_, ?_, fun a ha => ?_⟩
  · exact ((fld_setFld_apart _ _ Fld.TC_STATUS_WAIT_KIND Fld.TC_STATUS_STATE _ (by decide) (by decide) (by decide)).trans
      (fld_setFld_same _ _ _ _ (by decide))).trans (Nat.mod_eq_of_lt hx)
  · exact (fld_setFld_same _ _ _ _ (by decide)).trans (Nat.mod_eq_of_lt hk)
  · rw [List.mem_singleton] at ha
    exact (rd_setFld _ _ _ _ _).trans ((if_neg ha).trans ((rd_setFld _ _ _ _ _).trans (if_neg ha)))

/-- What a core waits for is no register. -/
theorem fld_setCore (s : State) (c a : Nat) (x : CoreSt) (f : Field) : (s.setCore c x).fld a f = s.fld a f := rfl

/-! ### The fault that stands -/

section
variable {s : State} {c : Nat} {f g : FaultRec}

theorem firstOf_waiting (h : (s.core c).wait = .fault g) : s.firstOf c f = g := by
  unfold State.firstOf
  rw [h]

theorem firstOf_new (h : ∀ g, (s.core c).wait ≠ .fault g) : s.firstOf c f = f := by
  unfold State.firstOf
  split
  · exact absurd ‹_› (h _)
  · rfl

/-- Of two faults the first stands. -/
theorem takeFault_first (h : (s.core c).wait = .fault g) : s.takeFault c f = s.takeFault c g := by
  unfold State.takeFault
  rw [firstOf_waiting h, firstOf_waiting h]

theorem takeFault_idle (hb : s.busyProg c = false) (h : ∀ g, (s.core c).wait ≠ .fault g) : s.takeFault c f = s.recordFault c f := by
  unfold State.takeFault
  rw [firstOf_new h]
  exact if_neg (ne_true_of_eq_false hb)

/-- The state whose TC_STATUS shows that core `c` waits to record a fault; its semaphore wait is withdrawn. -/
def State.faultHeld (s : State) (c : Nat) : State := ((s.dropSemWait c).setCoreState (s.win c) coreWaiting).setWaitKind (s.win c) 4

theorem takeFault_held (hb : s.busyProg c = true) (h : ∀ g, (s.core c).wait ≠ .fault g) : s.takeFault c f =
    (s.faultHeld c).setCore c { (s.faultHeld c).core c with wait := .fault f, loading := none, stopping := false } := by
  unfold State.takeFault
  rw [firstOf_new h]
  exact if_pos hb

/-- While Fid holds instructions of the program the core waits with the fault. -/
theorem takeFault_busy (hb : s.busyProg c = true) (h : ∀ g, (s.core c).wait ≠ .fault g) :
    let t := s.takeFault c f
    t.coreState (s.win c) = coreWaiting ∧ t.fld (Reg.TC_STATUS (s.win c)) Fld.TC_STATUS_WAIT_KIND = 4 ∧ (t.core c).wait = .fault f ∧
      s.sameBut t [Reg.TC_STATUS (s.win c)] := by
  obtain ⟨state, kind, frame⟩ : (s.faultHeld c).coreState (s.win c) = coreWaiting ∧
      (s.faultHeld c).fld (Reg.TC_STATUS (s.win c)) Fld.TC_STATUS_WAIT_KIND = 4 ∧ s.sameBut (s.faultHeld c) [Reg.TC_STATUS (s.win c)] :=
    status_set (s.dropSemWait c) (s.win c) (by decide) (by decide)
  rw [takeFault_held hb h]
  exact ⟨(fld_setCore _ _ _ _ _).trans state, (fld_setCore _ _ _ _ _).trans kind,
    congrArg CoreSt.wait ((core_setCore _ _ _ _).trans (if_pos rfl)), fun a ha => (rd_setCore _ _ _ _).trans (frame a ha)⟩

/-- A fault that waited is recorded once the program's transfers have completed. -/
theorem fidProgress_fault (h : (s.core c).wait = .fault g) (hb : s.busyProg c = false) : s.fidProgress c = s.recordFault c g := by
  unfold State.fidProgress
  rw [h]
  exact if_neg (ne_true_of_eq_false hb)

end

/-! ### The record -/

/-- TC_FAULT of a fault. -/
def faultWord (f : FaultRec) : Word :=
  packF [(Fld.TC_FAULT_CODE, f.code), (Fld.TC_FAULT_IMPRECISE, if f.imprecise then 1 else 0), (Fld.TC_FAULT_SOURCE, f.source),
    (Fld.TC_FAULT_DETAIL, f.detail), (Fld.TC_FAULT_PC, f.pc)]

theorem faultWord_fields {f : FaultRec} (hc : f.code < 256) (hs : f.source < 8) (hd : f.detail < 256) (hp : f.pc < 2 ^ 18) :
    getF (faultWord f) Fld.TC_FAULT_CODE = f.code ∧ getF (faultWord f) Fld.TC_FAULT_IMPRECISE = (if f.imprecise then 1 else 0) ∧
      getF (faultWord f) Fld.TC_FAULT_SOURCE = f.source ∧ getF (faultWord f) Fld.TC_FAULT_DETAIL = f.detail ∧
      getF (faultWord f) Fld.TC_FAULT_PC = f.pc := by
  have get {g : Field} {x : Nat} := getF_packF (f := g) (x := x) (fs := [Fld.TC_FAULT_CODE, Fld.TC_FAULT_IMPRECISE, Fld.TC_FAULT_SOURCE,
    Fld.TC_FAULT_DETAIL, Fld.TC_FAULT_PC]) (by decide) (l := [(Fld.TC_FAULT_CODE, f.code),
    (Fld.TC_FAULT_IMPRECISE, if f.imprecise then 1 else 0), (Fld.TC_FAULT_SOURCE, f.source), (Fld.TC_FAULT_DETAIL, f.detail),
    (Fld.TC_FAULT_PC, f.pc)]) rfl
  refine ⟨get (by simp) ?_, get (by simp) ?_, get (by simp) ?_, get (by simp) ?_, get (by simp) ?_⟩
  · exact hc
  · split <;> decide
  · exact hs
  · exact hd
  · exact hp

/-- The state with the fault registers written and the core FAULTED. -/
def State.faultRegs (s : State) (c : Nat) (f : FaultRec) : State :=
  let w := s.win c
  let r := ((s.wr (Reg.TC_FAULT w) (faultWord f)).wr (Reg.TC_FAULT_INSN w) f.word).wr (Reg.TC_FAULT_ADDR w) f.addr
  (r.setCoreState w coreFaulted).setWaitKind w 0

/-- The state in which the FAULT event is posted: nothing is awaited any more. -/
def State.faultShown (s : State) (c : Nat) (f : FaultRec) : State :=
  ((s.faultRegs c f).setCore c { (s.faultRegs c f).core c with wait := .none, loading := none, stopping := false }).dropSemWait c

theorem rd_dropSemWait (s : State) (c a : Nat) : (s.dropSemWait c).rd a = s.rd a := rfl

theorem core_dropSemWait (s : State) (c k : Nat) : (s.dropSemWait c).core k = s.core k := rfl

theorem rd_faultShown_regs (s : State) (c : Nat) (f : FaultRec) (a : Nat) : (s.faultShown c f).rd a = (s.faultRegs c f).rd a :=
  (rd_dropSemWait _ _ _).trans (rd_setCore _ _ _ _)

/-- The event, its count and the step-done signal follow. -/
theorem recordFault_eq (s : State) (c : Nat) (f : FaultRec) : s.recordFault c f =
    let r := s.faultShown c f
    let p := (r.postCore c (r.coreEvq c) 2 f.code (faultWord f) f.addr).1
    let e := p.event (Reg.TC_EVENT (s.win c)) Fld.TC_EVENT_FAULT (Reg.TC_CNT_FAULT (s.win c))
    if e.flag (Reg.TC_CFG (s.win c)) Fld.TC_CFG_FAULT_DONE then e.coreDone c else e := rfl

theorem faultShown_status (s : State) (c : Nat) (f : FaultRec) :
    (s.faultShown c f).coreState (s.win c) = coreFaulted ∧
      (s.faultShown c f).fld (Reg.TC_STATUS (s.win c)) Fld.TC_STATUS_WAIT_KIND = 0 ∧ ((s.faultShown c f).core c).wait = .none := by
  obtain ⟨state, kind, -⟩ : (s.faultRegs c f).coreState (s.win c) = coreFaulted ∧
      (s.faultRegs c f).fld (Reg.TC_STATUS (s.win c)) Fld.TC_STATUS_WAIT_KIND = 0 ∧ _ := status_set _ (s.win c) (by decide) (by decide)
  unfold State.coreState State.fld at *
  rw [rd_faultShown_regs]
  exact ⟨state, kind, congrArg CoreSt.wait ((core_dropSemWait _ _ _).trans ((core_setCore _ _ _ _).trans (if_pos rfl)))⟩

/-- Registers of the state that shows a fault. -/
theorem rd_faultShown (s : State) (c : Nat) (f : FaultRec) {a : Nat} (h : a ≠ Reg.TC_STATUS (s.win c)) :
    (s.faultShown c f).rd a = if a = Reg.TC_FAULT_ADDR (s.win c) then f.addr else if a = Reg.TC_FAULT_INSN (s.win c) then f.word
      else if a = Reg.TC_FAULT (s.win c) then faultWord f else s.rd a := by
  rw [rd_faultShown_regs, State.faultRegs, State.setWaitKind, rd_setFld, if_neg h, State.setCoreState, rd_setFld, if_neg h, rd_wr, rd_wr, rd_wr]

theorem faultShown_record (s : State) (c : Nat) (f : FaultRec) :
    (s.faultShown c f).rd (Reg.TC_FAULT (s.win c)) = faultWord f ∧ (s.faultShown c f).rd (Reg.TC_FAULT_INSN (s.win c)) = f.word ∧
      (s.faultShown c f).rd (Reg.TC_FAULT_ADDR (s.win c)) = f.addr ∧ s.sameBut (s.faultShown c f) [Reg.TC_FAULT (s.win c),
        Reg.TC_FAULT_INSN (s.win c), Reg.TC_FAULT_ADDR (s.win c), Reg.TC_STATUS (s.win c)] := by
  have apart : Reg.TC_FAULT (s.win c) ≠ Reg.TC_STATUS (s.win c) ∧ Reg.TC_FAULT_INSN (s.win c) ≠ Reg.TC_STATUS (s.win c) ∧
      Reg.TC_FAULT_ADDR (s.win c) ≠ Reg.TC_STATUS (s.win c) ∧ Reg.TC_FAULT (s.win c) ≠ Reg.TC_FAULT_ADDR (s.win c) ∧
      Reg.TC_FAULT (s.win c) ≠ Reg.TC_FAULT_INSN (s.win c) ∧ Reg.TC_FAULT_INSN (s.win c) ≠ Reg.TC_FAULT_ADDR (s.win c) := by
    unfold Reg.TC_FAULT Reg.TC_STATUS Reg.TC_FAULT_INSN Reg.TC_FAULT_ADDR
    omega
  obtain ⟨h1, h2, h3, h4, h5, h6⟩ := apart
  refine ⟨?_, ?_, ?_, fun a ha => ?_⟩
  · rw [rd_faultShown s c f h1, if_neg h4, if_neg h5, if_pos rfl]
  · rw [rd_faultShown s c f h2, if_neg h6, if_pos rfl]
  · rw [rd_faultShown s c f h3, if_pos rfl]
  · simp only [List.mem_cons, List.not_mem_nil, or_false, not_or] at ha
    obtain ⟨n1, n2, n3, n4⟩ := ha
    rw [rd_faultShown s c f n4, if_neg n3, if_neg n2, if_neg n1]

/-- Settles O13: which fault stands by `takeFault_busy`, `takeFault_first` and `takeFault_idle`; the record by `faultShown`. -/
theorem takingAFault : Obligations.TakingAFault := by
  intro s c f _
  refine ⟨takeFault_busy, fun g h => ⟨fidProgress_fault h, takeFault_first h⟩, takeFault_idle, fun hc hs hd hp => ?_⟩
  obtain ⟨state, kind, wait⟩ := faultShown_status s c f
  obtain ⟨word, insn, addr, frame⟩ := faultShown_record s c f
  refine ⟨s.faultShown c f, ?_, insn, addr, state, kind, wait, frame, ?_⟩
  · rw [word]
    exact faultWord_fields hc hs hd hp
  · rw [word]
    exact recordFault_eq s c f

end Sys2Proof.Machine
end

section
/-! PROOFS. Launches, stops and losses of cores (R75, R96, R99, R115, R556): each command by the branch that the state selects. -/

namespace Sys2Proof.Machine

/-! ### Launches -/

section
variable {s s1 : State} {agent : Agent} {die phys c : Nat}

/-- An IDLE core that holds no change of its context takes a launch. -/
theorem launchState_idle (hi : s.coreState (s.win c) = coreIdle) (hx : (s.core c).ctxHeld = none) : s.launchState c = none := by
  unfold State.launchState
  rw [hi, hx]
  rfl

/-- A core with a context accepts a descriptor that is aligned, readable and valid. -/
theorem launchCheck_accepts {desc : Nat} {b : List Byte} (hi : s.coreState (s.win c) = coreIdle) (hx : (s.core c).ctxHeld = none)
    (hv : s.ctxValid c = true) (ha : desc % 64 = 0) (hr : s.coreRead c desc 64 .read = (s1, some b))
    (hd : launchValid (bytesToWords 8 b) = true) : s.launchCheck c desc = (s1, .inr (bytesToWords 8 b)) := by
  unfold State.launchCheck
  rw [launchState_idle hi hx, hv, hr]
  exact (if_neg (by decide)).trans ((if_neg (not_not_intro ha)).trans (if_pos hd))

/-- RESULT 0 is all of TC_LAUNCH_STATUS after an accepted doorbell. -/
theorem launchStatus_accepted : packF [(Fld.TC_LAUNCH_STATUS_RESULT, 0)] = 0 := by decide

theorem exec_tcDoorbell_accepted {value : Word} {b : List Byte} (hw : s.coreWrite agent die phys = some c)
    (hp : s.flag (Reg.TC_LAUNCH_STATUS (s.win c)) Fld.TC_LAUNCH_STATUS_PENDING = false)
    (hl : s.launchCheck c (getF value Fld.TC_DOORBELL_DESC) = (s1, .inr (bytesToWords 8 b))) :
    let u := ((s1.wr (Reg.VE_SEQ (s1.win c)) 0).wr (Reg.FID_SEQ (s1.win c)) 0).setCoreState (s1.win c) coreLoading
    exec (.tcDoorbell agent die phys value) s =
      .next ((u.setCore c { u.core c with loading := some (bytesToWords 8 b), desc := getF value Fld.TC_DOORBELL_DESC }).wr
        (Reg.TC_LAUNCH_STATUS (s.win c)) 0) := by
  show execTcDoorbell agent die phys value s = _
  unfold execTcDoorbell State.launch
  dsimp only
  rw [hw]
  dsimp only
  rw [hp, if_neg (by decide), hl]
  dsimp only
  rw [launchStatus_accepted]

/-- The end of a load without an image to copy. -/
theorem exec_programLoadComplete_bare {d : List Word} (hu : s.coreUp c = true) (hs : s.coreState (s.win c) = coreLoading)
    (hd : (s.core c).loading = some d) (hb : bit (wordAt d 0).toNat 32 = false) :
    exec (.programLoadComplete c) s = .next (s.startProgram c d) := by
  show execProgramLoadComplete c s = _
  unfold execProgramLoadComplete
  rw [hu, hs, hd, if_neg (by decide)]
  exact congrArg _ (if_neg (ne_true_of_eq_false hb))

/-- The end of a load whose image is copied. -/
theorem exec_programLoadComplete_copied {d : List Word} (hu : s.coreUp c = true) (hs : s.coreState (s.win c) = coreLoading)
    (hd : (s.core c).loading = some d) (hb : bit (wordAt d 0).toNat 32 = true)
    (hl : s.loadImage c (bits (wordAt d 1).toNat 47 0) (bits (wordAt d 2).toNat 63 32) (bits (wordAt d 2).toNat 31 0) 66 = (s1, none)) :
    exec (.programLoadComplete c) s = .next (s1.startProgram c d) := by
  show execProgramLoadComplete c s = _
  unfold execProgramLoadComplete
  rw [hu, hs, hd, if_neg (by decide)]
  dsimp only
  rw [if_pos hb, hl]

end

/-- Settles O14: a doorbell by `launchCheck_accepts`, the end of the load by whether there was an image to copy. -/
theorem launchesBegin : Obligations.LaunchesBegin :=
  ⟨fun _ _ _ _ _ _ _ _ hw hp hi hx hv ha hr hd => exec_tcDoorbell_accepted hw hp (launchCheck_accepts hi hx hv ha hr hd),
    fun _ _ _ hu hs hd => ⟨exec_programLoadComplete_bare hu hs hd, fun _ => exec_programLoadComplete_copied hu hs hd⟩⟩

/-! ### Stops -/

section
variable {s : State} {agent : Agent} {die phys c : Nat}

theorem exec_stop_taken (hw : s.coreWrite agent die phys = some c) : exec (.stop agent die phys) s = .next (s.stopCore c) := by
  show execStop agent die phys s = _
  unfold execStop
  rw [hw]

theorem stopCore_loading (hs : s.coreState (s.win c) = coreLoading) :
    s.stopCore c = s.setCore c { s.core c with loading := none, stopping := true } := if_pos hs

/-- A core that runs or waits, with no fault to be recorded, is blocked until its engines have finished. -/
theorem stopCore_running (hs : s.coreState (s.win c) = coreRunning ∨ s.coreState (s.win c) = coreWaiting)
    (hf : ∀ g, (s.core c).wait ≠ .fault g) :
    s.stopCore c = ((s.dropSemWait c).block c 4 .none).setCore c { ((s.dropSemWait c).block c 4 .none).core c with stopping := true } := by
  have hl : s.coreState (s.win c) ≠ coreLoading := by rcases hs with h | h <;> rw [h] <;> decide
  refine (if_neg hl).trans ((if_pos hs).trans ?_)
  split
  · exact absurd ‹_› (hf _)
  · rfl

theorem exec_clearFault_faulted (hw : s.coreWrite agent die phys = some c) (hs : s.coreState (s.win c) = coreFaulted) :
    exec (.clearFault agent die phys) s = .next (s.setCoreState (s.win c) coreIdle) := by
  show execClearFault agent die phys s = _
  unfold execClearFault
  rw [hw]
  exact congrArg _ (if_pos hs)

theorem coreState_setCoreState (s : State) (w : Nat) {x : Nat} (hx : x < 8) : (s.setCoreState w x).coreState w = x :=
  (fld_setFld_same _ _ _ _ (by decide)).trans (Nat.mod_eq_of_lt hx)

theorem exec_stopComplete_stopping (hu : s.coreUp c = true) (hs : (s.core c).stopping = true) (hb : s.busyProg c = false) :
    exec (.stopComplete c) s = .next ((s.endProgram c).postCore c ((s.endProgram c).coreEvq c) 3 0
      (BitVec.ofNat 64 ((s.endProgram c).pc ((s.endProgram c).win c))) 0).1 := by
  refine congrArg _ (if_pos ?_)
  rw [hu, hs, hb]
  rfl

end

/-- Settles O16: a stop by the state of its core, the others by their own lemmas. -/
theorem stopsAndClearedFaults : Obligations.StopsAndClearedFaults :=
  ⟨fun s _ _ _ c hw => ⟨fun hs => (exec_stop_taken hw).trans (congrArg _ (stopCore_loading hs)),
    fun hs hf => (exec_stop_taken hw).trans (congrArg _ (stopCore_running hs hf)),
    fun hs => ⟨exec_clearFault_faulted hw hs, coreState_setCoreState s (s.win c) (by decide)⟩⟩, fun _ _ => exec_stopComplete_stopping⟩

/-! ### The loss of a strand -/

/-- A strand in service that is lost. -/
theorem strandLose_up {s : State} {die strand : Nat} (hd : die < 4) (hs : strand < 20) (hu : s.strandUp die strand = true) :
    let b := Reg.dieBlk die
    let gone := s.flag (Reg.TC_SPARE b) Fld.TC_SPARE_SPARE_USED ||
      s.losses.contains (lossStrand, 32 * die + s.fld (Reg.TC_SPARE b) Fld.TC_SPARE_SPARE_PHYS)
    let cores := (List.range 8).foldl (fun t i => t.loseCore (160 * die + 8 * strand + i)) s
    let e := (cores.strandClear die strand).event Reg.RAS_EVENT Fld.RAS_EVENT_STRAND_LOST Reg.RAS_CNT_STRAND_LOST
    let u := e.addLoss lossStrand (32 * die + s.physStrand die strand)
    s.strandLose die strand = if gone then u.service Fld.RAS_SERVICE_REQUEST_STRAND else u := by
  refine if_pos ?_
  rw [decide_eq_true hd, decide_eq_true hs, hu]
  rfl

/-- Contained errors of strand `k` within the last second, one now. -/
abbrev State.strandErrors (s : State) (k : Nat) : List Nat :=
  ((sGet noTimes s.tc.strandErr k).filter fun t => s.time ≤ 1000000000 + t) ++ [s.time]

/-- The state with a contained error counted against strand `k`. -/
abbrev State.strandCounted (s : State) (k : Nat) : State :=
  { s with tc := { s.tc with strandErr := sSet noTimes s.tc.strandErr k (s.strandErrors k) } }

/-- The sixteenth error within a second takes the strand out of service. -/
theorem strandWatch_eq {s : State} {core die strand : Nat} (hs : strand < 20) (hc : core / 8 = 20 * die + strand) :
    s.strandWatch core = if 16 ≤ (s.strandErrors (20 * die + strand)).length then (s.strandCounted (20 * die + strand)).strandLose die strand
      else s.strandCounted (20 * die + strand) := by
  have hdie : (20 * die + strand) / 20 = die := by omega
  have hstrand : (20 * die + strand) % 20 = strand := by omega
  unfold State.strandWatch
  dsimp only
  rw [hc, hdie, hstrand]

/-- Settles O17: a lost strand by `strandLose_up`, a contained error by `strandWatch_eq`. -/
theorem strandsLeaveService : Obligations.StrandsLeaveService := fun _ _ _ hd hs hu =>
  ⟨congrArg _ (strandLose_up hd hs hu), fun _ hc => ⟨fun h => (strandWatch_eq hs hc).trans (if_neg (Nat.not_le.2 h)),
    fun h => congrArg _ ((strandWatch_eq hs hc).trans (if_pos h)).symm⟩⟩

end Sys2Proof.Machine
end

section
/-! PROOFS. A change of context and the scrubbing of a core (R100): registers that entering SCRUBBING leaves, and what a scrub clears. -/

namespace Sys2Proof.Machine

/-! ### Entering SCRUBBING -/

/-- Registers of a window that the engines' clearing leaves: those before the engines' own. -/
theorem rd_clearEngines (s : State) (w : Nat) {a : Nat} (h : a < Reg.ME_FLAGS w) : (s.clearEngines w).rd a = s.rd a := by
  unfold Reg.ME_FLAGS at h
  unfold State.clearEngines
  simp only [rd_wr, rd_dropRegs, Reg.FID_SEQ, Reg.VE_SEQ, Reg.FID_FLAGS, Reg.FID_CTRL, Reg.FID_HIST, Reg.VE_FLAGS, Reg.VE_CTRL, Reg.VE_HIST,
    Reg.ME_FLAGS, Reg.ME_CTRL, Reg.ME_HIST]
  iterate 8 rw [if_neg (by omega)]

/-- A core that enters SCRUBBING shows so, and keeps its context. -/
theorem enterScrub_shows (s : State) (w : Nat) :
    (s.enterScrub w).coreState w = coreScrubbing ∧ (s.enterScrub w).fld (Reg.TC_STATUS w) Fld.TC_STATUS_WAIT_KIND = 0 ∧
      (s.enterScrub w).rd (Reg.TC_CTX w) = s.rd (Reg.TC_CTX w) := by
  obtain ⟨state, kind, frame⟩ := status_set (s.clearEngines w) w (x := coreScrubbing) (k := 0) (by decide) (by decide)
  refine ⟨state, kind, (frame _ ?_).trans (rd_clearEngines s w ?_)⟩
  · rw [List.mem_singleton]
    unfold Reg.TC_CTX Reg.TC_STATUS
    omega
  · unfold Reg.TC_CTX Reg.ME_FLAGS
    omega

theorem onlyRegs_enterScrub (s : State) (w : Nat) : s.enterScrub w = { s with regs := (s.enterScrub w).regs } := by
  iterate 4 refine onlyRegs_wr ?_ _ _
  iterate 6 refine onlyRegs_dropRegs ?_ _ _
  rfl

/-- The context that a write of TC_CTX names. -/
abbrev ctxWord (value : Word) : Word :=
  packF [(Fld.TC_CTX_VALID, getF value Fld.TC_CTX_VALID), (Fld.TC_CTX_PARTITION, getF value Fld.TC_CTX_PARTITION)]

/-- A write that changes the context of a core that is not OFFLINE scrubs it. -/
theorem takeCtx_changed {s : State} {w : Nat} {value : Word} (hv : ctxWord value ≠ s.rd (Reg.TC_CTX w)) (ho : s.coreState w ≠ coreOffline) :
    s.takeCtx w value = (s.wr (Reg.TC_CTX w) (ctxWord value)).enterScrub w := by
  refine if_pos ⟨hv, ?_⟩
  unfold State.coreState State.fld at ho ⊢
  rwa [rd_wr_other _ _ (by unfold Reg.TC_STATUS Reg.TC_CTX; omega)]

theorem exec_tcCtx_changed {s : State} {agent : Agent} {die phys : Nat} {value : Word} (hu : s.winUp die phys = true)
    (hp : (s.ctx agent).priv = true) (hs : s.coreState (Reg.coreWin die phys) = coreIdle ∨ s.coreState (Reg.coreWin die phys) = coreFaulted)
    (hb : s.busyFid (s.lcore die phys) = false) (hv : ctxWord value ≠ s.rd (Reg.TC_CTX (Reg.coreWin die phys))) :
    exec (.tcCtx agent die phys value) s =
      .next ((s.wr (Reg.TC_CTX (Reg.coreWin die phys)) (ctxWord value)).enterScrub (Reg.coreWin die phys)) := by
  have ho : s.coreState (Reg.coreWin die phys) ≠ coreOffline := by rcases hs with h | h <;> rw [h] <;> decide
  rw [← takeCtx_changed hv ho]
  refine congrArg _ ((if_pos ?_).trans ((if_neg ho).trans ((if_pos hs).trans (if_neg (ne_true_of_eq_false hb)))))
  rw [hu, hp]
  rfl

/-! ### The scrub -/

section
variable {s : State} {die phys : Nat} (hu : s.winUp die phys = true) (hs : s.coreState (Reg.coreWin die phys) = coreScrubbing)
include hu hs

/-- The end of a scrub makes the core IDLE, and zeroes it where it is a logical core. -/
theorem exec_scrubComplete_scrubbing : exec (.scrubComplete die phys) s =
    .next ((if s.lcore die phys < 640 then s.zeroCore (s.lcore die phys) else s).setCoreState (Reg.coreWin die phys) coreIdle) := by
  refine congrArg _ (if_neg ?_)
  rw [hu, hs]
  decide

theorem exec_scrubComplete_spare (hc : 640 ≤ s.lcore die phys) :
    exec (.scrubComplete die phys) s = .next (s.setCoreState (Reg.coreWin die phys) coreIdle) := by
  rw [exec_scrubComplete_scrubbing hu hs, if_neg (Nat.not_lt.2 hc)]

theorem exec_scrubComplete_core (hc : s.lcore die phys < 640) : exec (.scrubComplete die phys) s =
    .next ((s.zeroCore (s.lcore die phys)).setCoreState (Reg.coreWin die phys) coreIdle) := by
  rw [exec_scrubComplete_scrubbing hu hs, if_pos hc]

end

section
variable {m : List Host.Cell} {lo hi k : Nat}

theorem byteAt_sDrop_in (h1 : lo ≤ k) (h2 : k < hi) : byteAt (sDrop lo hi m) k = 0 := (sGet_sDrop _ _ _ _).trans (if_pos ⟨h1, h2⟩)

theorem byteAt_sDrop_out (h : k < lo ∨ hi ≤ k) : byteAt (sDrop lo hi m) k = byteAt m k := (sGet_sDrop _ _ _ _).trans (if_neg (by omega))

theorem mark_sDrop_in {l : List (Nat × Bool)} (h1 : lo ≤ k) (h2 : k < hi) : sGet noMark (sDrop lo hi l) k = false :=
  (sGet_sDrop _ _ _ _).trans (if_pos ⟨h1, h2⟩)

end

theorem tsAddr_add (c o : Nat) : tsAddr c o = tsAddr c 0 + o := by unfold tsAddr; omega
theorem tsAddr_succ (c : Nat) : tsAddr (c + 1) 0 = tsAddr c 0 + tileSize := by unfold tsAddr tileSize; omega

section
variable (s : State) (c : Nat)

/-- What a scrubbed core's memories read. -/
theorem zeroCore_zero :
    (∀ o, o < 2 ^ 18 → byteAt (s.zeroCore c).tc.pmem (2 ^ 18 * c + o) = 0) ∧
      (∀ i, i < 2 ^ 15 → sGet noMark (s.zeroCore c).tc.pmPoison (2 ^ 15 * c + i) = false) ∧
      (∀ o, o < tileSize → byteAt (s.zeroCore c).mem.data (tsAddr c o) = 0 ∧ (s.zeroCore c).poisoned (tsAddr c o) = false) ∧
      (∀ o, o < 2 ^ 17 → byteAt (s.zeroCore c).tc.tiles (2 ^ 17 * c + o) = 0) ∧
      (∀ o, o < 2 ^ 12 → byteAt (s.zeroCore c).tc.masks (2 ^ 12 * c + o) = 0) ∧
      (∀ i, i < 2 ^ 11 → sGet noMark (s.zeroCore c).tc.tilePoison (2 ^ 11 * c + i) = false) := by
  refine ⟨fun o h => byteAt_sDrop_in (by omega) (by omega), fun i h => mark_sDrop_in (by omega) (by omega),
    fun o h => ⟨byteAt_sDrop_in ?_ ?_, mark_sDrop_in ?_ ?_⟩, fun o h => byteAt_sDrop_in (by omega) (by omega),
    fun o h => byteAt_sDrop_in (by omega) (by omega), fun i h => mark_sDrop_in (by omega) (by omega)⟩ <;> rw [tsAddr_add c o] <;> omega

/-- What belongs to other cores stands. -/
theorem zeroCore_others :
    (∀ k, k < 2 ^ 18 * c ∨ 2 ^ 18 * (c + 1) ≤ k → byteAt (s.zeroCore c).tc.pmem k = byteAt s.tc.pmem k) ∧
      (∀ k, k < tsAddr c 0 ∨ tsAddr (c + 1) 0 ≤ k → byteAt (s.zeroCore c).mem.data k = byteAt s.mem.data k) ∧
      (∀ k, k < 2 ^ 17 * c ∨ 2 ^ 17 * (c + 1) ≤ k → byteAt (s.zeroCore c).tc.tiles k = byteAt s.tc.tiles k) ∧
      (∀ k, k < 2 ^ 12 * c ∨ 2 ^ 12 * (c + 1) ≤ k → byteAt (s.zeroCore c).tc.masks k = byteAt s.tc.masks k) :=
  ⟨fun _ => byteAt_sDrop_out, fun _ h => byteAt_sDrop_out (by rwa [← tsAddr_succ]), fun _ => byteAt_sDrop_out, fun _ => byteAt_sDrop_out⟩

/-- The S registers of a scrubbed core return to their reset values; every other register stands. -/
theorem rd_zeroCore (a : Nat) : (s.zeroCore c).rd a =
    if Reg.TC_SREG (s.win c) 0 ≤ a ∧ a < Reg.TC_SREG (s.win c) 32 then regReset a else s.rd a := rd_dropRegs s _ _ a

end

/-- The S registers of a scrubbed core read 0. -/
theorem sreg_zeroCore {s : State} {c die phys n : Nat} (hd : die < 4) (hp : phys < 168) (hw : s.win c = Reg.coreWin die phys) (hn : n < 32) :
    (s.zeroCore c).sreg (Reg.coreWin die phys) n = 0 := by
  unfold State.sreg
  split
  · rfl
  · rw [rd_zeroCore, hw, if_pos (by unfold Reg.TC_SREG; omega), regReset_sreg hd hp hn]

/-- Becoming IDLE changes TC_STATUS alone, and so no S register. -/
theorem sreg_setCoreState (s : State) (w n x : Nat) : (s.setCoreState w x).sreg w n = s.sreg w n := by
  have h : Reg.TC_SREG w n ≠ Reg.TC_STATUS w := by unfold Reg.TC_SREG Reg.TC_STATUS; omega
  rw [State.sreg, State.setCoreState, rd_setFld, if_neg h, State.sreg]

/-- Only registers, the core's tile store and the memories of the cores change in a scrub. -/
theorem zeroCore_frame (s : State) (c : Nat) : s.zeroCore c = { s with
    regs := (s.zeroCore c).regs
    mem := { s.mem with data := (s.zeroCore c).mem.data, poison := (s.zeroCore c).mem.poison, errs := (s.zeroCore c).mem.errs }
    tc := { s.tc with
      pmem := (s.zeroCore c).tc.pmem, pmPoison := (s.zeroCore c).tc.pmPoison, tiles := (s.zeroCore c).tc.tiles
      tilePoison := (s.zeroCore c).tc.tilePoison, masks := (s.zeroCore c).tc.masks } } := rfl

/-- Settles O15: the change by `exec_tcCtx_changed`, the end of the scrub by the lemmas on `zeroCore`. -/
theorem contextChangesScrub : Obligations.ContextChangesScrub := by
  refine ⟨fun s agent die phys value => fun hu hp hs hb hv => ?changed, fun s die phys => fun hu hs => ⟨fun hc => ?spare, fun hc => ?core⟩⟩
  case changed =>
    obtain ⟨state, kind, ctx⟩ := enterScrub_shows (s.wr (Reg.TC_CTX (Reg.coreWin die phys)) (ctxWord value)) (Reg.coreWin die phys)
    exact ⟨_, exec_tcCtx_changed hu hp hs hb hv, ctx.trans (rd_wr_same _ _ _), state, kind, onlyRegs_enterScrub _ _⟩
  case spare => exact exec_scrubComplete_spare hu hs hc
  case core =>
    obtain ⟨pmem, pmPoison, store, tiles, masks, tilePoison⟩ := zeroCore_zero s (s.lcore die phys)
    obtain ⟨pmem', store', tiles', masks'⟩ := zeroCore_others s (s.lcore die phys)
    have hu' := hu
    simp only [State.winUp, Bool.and_eq_true, decide_eq_true_eq] at hu'
    obtain ⟨⟨hd, hp⟩, -⟩ := hu'
    refine ⟨_, exec_scrubComplete_core hu hs hc, coreState_setCoreState _ _ (by decide), pmem, pmPoison, store,
      tiles, masks, tilePoison, fun hw n hn => ?_, pmem', store', tiles', masks', fun a ha hn => ?_, ?_⟩
    · rw [sreg_setCoreState, sreg_zeroCore hd hp hw hn]
    · rw [State.setCoreState, rd_setFld, if_neg hn, rd_zeroCore, if_neg (by omega)]
    · rw [zeroCore_frame]
      rfl

end Sys2Proof.Machine
end

section
/-! PROOFS. Writes of the semaphore and event-queue registers of a T-die (R108, R110, R119, R551). -/

namespace Sys2Proof.Machine

/-! ### New owners -/

/-- The owner that a write of an owner register names. -/
abbrev ownerWord (value : Word) : Word :=
  packF [(Fld.TC_SEM_OWNER_VALID, getF value Fld.TC_SEM_OWNER_VALID), (Fld.TC_SEM_OWNER_PARTITION, getF value Fld.TC_SEM_OWNER_PARTITION)]

/-- Semaphore `n` with a new owner: its value and its poison are gone. -/
def State.semGiven (s : State) (n : Nat) (own : Word) : State :=
  let t := (s.wr (semOwner n) own).setSem n 0
  { t with tc := { t.tc with semPoison := sSet noMark t.tc.semPoison n false } }

/-- The queue of window `w` with a new owner: ENABLE and DROPPED are cleared. -/
def State.evqGiven (s : State) (w : Nat) (own : Word) : State :=
  ((s.wr (Reg.EVQ_OWNER w) own).setFld (Reg.EVQ_CTRL w) Fld.TC_EVQ_CTRL_ENABLE 0).wr (Reg.EVQ_DROPPED w) 0

section
variable {s : State} {agent : Agent} {die i : Nat} {value : Word} (hd : die < 4) (hw : s.working (capTdie die) = true)
include hd hw

theorem exec_tcSemValue_added (hi : i < 256) (hm : (s.ctx agent).mayUse (s.flag (semOwner (256 * die + i)) Fld.TC_SEM_OWNER_VALID)
    (s.fld (semOwner (256 * die + i)) Fld.TC_SEM_OWNER_PARTITION) = true) (hp : sGet noMark s.tc.semPoison (256 * die + i) = false) :
    exec (.tcSemValue agent die i value) s = .next (s.semInc (256 * die + i) (getF value Fld.TC_SEM_VALUE_VALUE)) := by
  refine congrArg _ (if_pos ?_)
  rw [decide_eq_true hd, decide_eq_true hi, hw, hm, hp]
  rfl

theorem exec_tcSemOwner_changed (hi : i < 256) (hp : (s.ctx agent).priv = true) (ho : ownerWord value ≠ s.rd (semOwner (256 * die + i))) :
    exec (.tcSemOwner agent die i value) s = .next (s.semGiven (256 * die + i) (ownerWord value)) := by
  refine congrArg _ ((if_pos ?_).trans (if_neg ho))
  rw [decide_eq_true hd, decide_eq_true hi, hw, hp]
  rfl

theorem exec_tcEvqOwner_changed (hi : i < 8) (hp : (s.ctx agent).priv = true)
    (ho : ownerWord value ≠ s.rd (Reg.EVQ_OWNER (Reg.dieEvq die i))) :
    exec (.tcEvqOwner agent die i value) s = .next (s.evqGiven (Reg.dieEvq die i) (ownerWord value)) := by
  refine congrArg _ ((if_pos ?_).trans (if_neg ho))
  rw [decide_eq_true hd, decide_eq_true hi, hw, hp]
  rfl

end

/-! ### Semaphores -/

/-- The value and the owner of a semaphore are two registers. -/
theorem semOwner_ne_semValue (n : Nat) : semOwner n ≠ semValue n := by
  unfold semOwner semValue Reg.TC_SEM_OWNER Reg.TC_SEM_VALUE
  omega

/-- The cores' own state is no register. -/
theorem rd_tc (s : State) (x : CoresSt) (a : Nat) : ({ s with tc := x } : State).rd a = s.rd a := rfl

theorem rd_semGiven (s : State) (n : Nat) (own : Word) (a : Nat) :
    (s.semGiven n own).rd a = if a = semValue n then 0 else if a = semOwner n then own else s.rd a := by
  rw [State.semGiven, rd_tc, State.setSem, rd_wr, rd_wr]
  rfl

theorem semPoison_semGiven (s : State) (n : Nat) (own : Word) :
    (s.semGiven n own).tc.semPoison = sSet noMark s.tc.semPoison n false := by
  simp only [State.semGiven, State.setSem, State.wr_tc]

theorem semGiven_reads (s : State) (n : Nat) (own : Word) :
    (s.semGiven n own).rd (semOwner n) = own ∧ (s.semGiven n own).semVal n = 0 ∧ sGet noMark (s.semGiven n own).tc.semPoison n = false ∧
      s.sameBut (s.semGiven n own) [semOwner n, semValue n] := by
  refine ⟨?_, ?_, by rw [semPoison_semGiven]; exact sGet_sSet_same _ _ _, fun a ha => ?_⟩
  · rw [rd_semGiven, if_neg (semOwner_ne_semValue n), if_pos rfl]
  · rw [State.semVal, State.fld, rd_semGiven, if_pos rfl]
    decide
  · simp only [List.mem_cons, List.not_mem_nil, or_false, not_or] at ha
    rw [rd_semGiven, if_neg ha.2, if_neg ha.1]

/-! ### Event queues -/

/-- The registers of a queue are apart. -/
theorem evq_apart (w : Nat) : Reg.EVQ_OWNER w ≠ Reg.EVQ_CTRL w ∧ Reg.EVQ_OWNER w ≠ Reg.EVQ_DROPPED w ∧ Reg.EVQ_CTRL w ≠ Reg.EVQ_DROPPED w ∧
    Reg.EVQ_CTRL w ≠ Reg.EVQ_HEAD w ∧ Reg.EVQ_TAIL w ≠ Reg.EVQ_CTRL w := by
  unfold Reg.EVQ_OWNER Reg.EVQ_CTRL Reg.EVQ_DROPPED Reg.EVQ_HEAD Reg.EVQ_TAIL
  omega

theorem evqGiven_reads (s : State) (w : Nat) (own : Word) :
    (s.evqGiven w own).rd (Reg.EVQ_OWNER w) = own ∧ (s.evqGiven w own).flag (Reg.EVQ_CTRL w) Fld.TC_EVQ_CTRL_ENABLE = false ∧
      (s.evqGiven w own).rd (Reg.EVQ_DROPPED w) = 0 ∧ s.sameBut (s.evqGiven w own) [Reg.EVQ_OWNER w, Reg.EVQ_CTRL w, Reg.EVQ_DROPPED w] := by
  obtain ⟨h1, h2, h3, -, -⟩ := evq_apart w
  refine ⟨?_, ?_, rd_wr_same _ _ _, fun a ha => ?_⟩
  · rw [State.evqGiven, rd_wr_other _ _ h2, rd_setFld, if_neg h1, rd_wr_same]
  · rw [State.flag, State.fld, State.evqGiven, rd_wr_other _ _ h3, ← State.fld, fld_setFld_same _ _ _ _ (by decide)]
    rfl
  · simp only [List.mem_cons, List.not_mem_nil, or_false, not_or] at ha
    obtain ⟨n1, n2, n3⟩ := ha
    rw [State.evqGiven, rd_wr_other _ _ n3, rd_setFld, if_neg n2, rd_wr_other _ _ n1]

theorem onlyRegs_evqGiven (s : State) (w : Nat) (own : Word) : s.evqGiven w own = { s with regs := (s.evqGiven w own).regs } :=
  onlyRegs_wr (onlyRegs_wr (onlyRegs_wr rfl _ _) _ _) _ _

section
variable (s : State) (w : Nat) (value : Word)

/-- BASE is taken while the queue is not enabled. -/
theorem writeEvqBase_off (h : s.flag (Reg.EVQ_CTRL w) Fld.TC_EVQ_CTRL_ENABLE = false) :
    let t := s.writeEvqBase w value
    t.fld (Reg.EVQ_BASE w) Fld.TC_EVQ_BASE_BASE = getF value Fld.TC_EVQ_BASE_BASE ∧ s.sameBut t [Reg.EVQ_BASE w] ∧
      t = { s with regs := t.regs } := by
  rw [State.writeEvqBase, h, if_neg (by decide)]
  refine ⟨?_, fun a ha => rd_wr_other _ _ (by simpa using ha), rfl⟩
  rw [State.fld, rd_wr_same]
  exact getF_packF (fs := [Fld.TC_EVQ_BASE_BASE]) (by decide) rfl (by simp) (getF_lt _ _)

/-- SIZE_LOG2 after a write of the control register: it changes only while the queue is not enabled. -/
def State.evqSizeTaken (s : State) (w : Nat) (value : Word) : Nat :=
  if s.flag (Reg.EVQ_CTRL w) Fld.TC_EVQ_CTRL_ENABLE then s.fld (Reg.EVQ_CTRL w) Fld.TC_EVQ_CTRL_SIZE_LOG2
  else getF value Fld.TC_EVQ_CTRL_SIZE_LOG2

/-- The control register after a write. -/
def State.evqCtrlWord (s : State) (w : Nat) (value : Word) : Word :=
  packF [(Fld.TC_EVQ_CTRL_VECTOR, getF value Fld.TC_EVQ_CTRL_VECTOR), (Fld.TC_EVQ_CTRL_SIZE_LOG2, s.evqSizeTaken w value),
    (Fld.TC_EVQ_CTRL_ENABLE, getF value Fld.TC_EVQ_CTRL_ENABLE)]

theorem evqCtrlWord_fields :
    getF (s.evqCtrlWord w value) Fld.TC_EVQ_CTRL_VECTOR = getF value Fld.TC_EVQ_CTRL_VECTOR ∧
      getF (s.evqCtrlWord w value) Fld.TC_EVQ_CTRL_ENABLE = getF value Fld.TC_EVQ_CTRL_ENABLE ∧
      getF (s.evqCtrlWord w value) Fld.TC_EVQ_CTRL_SIZE_LOG2 = s.evqSizeTaken w value := by
  have get {g : Field} {x : Nat} := getF_packF (f := g) (x := x)
    (fs := [Fld.TC_EVQ_CTRL_VECTOR, Fld.TC_EVQ_CTRL_SIZE_LOG2, Fld.TC_EVQ_CTRL_ENABLE]) (by decide)
    (l := [(Fld.TC_EVQ_CTRL_VECTOR, getF value Fld.TC_EVQ_CTRL_VECTOR), (Fld.TC_EVQ_CTRL_SIZE_LOG2, s.evqSizeTaken w value),
      (Fld.TC_EVQ_CTRL_ENABLE, getF value Fld.TC_EVQ_CTRL_ENABLE)]) rfl
  refine ⟨get (by simp) (getF_lt _ _), get (by simp) (getF_lt _ _), get (by simp) ?_⟩
  unfold State.evqSizeTaken
  split <;> exact getF_lt _ _

/-- HEAD follows TAIL as the queue becomes enabled. -/
theorem writeEvqCtrl_eq : s.writeEvqCtrl w value =
    let t := s.wr (Reg.EVQ_CTRL w) (s.evqCtrlWord w value)
    if s.flag (Reg.EVQ_CTRL w) Fld.TC_EVQ_CTRL_ENABLE = false ∧ getF value Fld.TC_EVQ_CTRL_ENABLE = 1 then
      t.setFld (Reg.EVQ_HEAD w) Fld.TC_EVQ_HEAD_HEAD (t.fld (Reg.EVQ_TAIL w) Fld.TC_EVQ_TAIL_TAIL)
    else t := rfl

theorem rd_writeEvqCtrl_ctrl : (s.writeEvqCtrl w value).rd (Reg.EVQ_CTRL w) = s.evqCtrlWord w value := by
  obtain ⟨-, -, -, h, -⟩ := evq_apart w
  rw [writeEvqCtrl_eq]
  dsimp only
  split
  · rw [rd_setFld, if_neg h, rd_wr_same]
  · rw [rd_wr_same]

theorem writeEvqCtrl_head (ho : s.flag (Reg.EVQ_CTRL w) Fld.TC_EVQ_CTRL_ENABLE = false) (he : getF value Fld.TC_EVQ_CTRL_ENABLE = 1) :
    (s.writeEvqCtrl w value).fld (Reg.EVQ_HEAD w) Fld.TC_EVQ_HEAD_HEAD = s.fld (Reg.EVQ_TAIL w) Fld.TC_EVQ_TAIL_TAIL := by
  obtain ⟨-, -, -, -, h⟩ := evq_apart w
  rw [writeEvqCtrl_eq]
  dsimp only
  rw [if_pos ⟨ho, he⟩, fld_setFld_same _ _ _ _ (by decide), State.fld, rd_wr_other _ _ h]
  exact Nat.mod_eq_of_lt (getF_lt _ _)

theorem writeEvqCtrl_frame : s.sameBut (s.writeEvqCtrl w value) [Reg.EVQ_CTRL w, Reg.EVQ_HEAD w] ∧
    s.writeEvqCtrl w value = { s with regs := (s.writeEvqCtrl w value).regs } := by
  rw [writeEvqCtrl_eq]
  dsimp only
  refine ⟨fun a ha => ?_, ?_⟩
  · simp only [List.mem_cons, List.not_mem_nil, or_false, not_or] at ha
    split
    · rw [rd_setFld, if_neg ha.2, rd_wr_other _ _ ha.1]
    · rw [rd_wr_other _ _ ha.1]
  · split <;> rfl

end

section
variable {s : State} {agent : Agent} {die i : Nat} {value : Word} (hm : s.mayWriteEvq agent die i = true)
include hm

theorem exec_tcEvqBase_taken : exec (.tcEvqBase agent die i value) s = .next (s.writeEvqBase (Reg.dieEvq die i) value) :=
  congrArg _ (if_pos hm)

theorem exec_tcEvqCtrl_taken : exec (.tcEvqCtrl agent die i value) s = .next (s.writeEvqCtrl (Reg.dieEvq die i) value) :=
  congrArg _ (if_pos hm)

end

/-- Settles O18: each register by what its write makes of the state. -/
theorem dieRegisterWrites : Obligations.DieRegisterWrites := by
  intro s agent die i value hd hw n w own on
  refine ⟨exec_tcSemValue_added hd hw, fun hi hp ho => ⟨_, exec_tcSemOwner_changed hd hw hi hp ho, semGiven_reads s n own⟩,
    fun hi hp ho => ⟨_, exec_tcEvqOwner_changed hd hw hi hp ho, ?owner⟩, fun hm => ⟨fun ho => ⟨_, exec_tcEvqBase_taken hm, writeEvqBase_off s w value ho⟩,
      fun ho => (exec_tcEvqBase_taken hm).trans (congrArg _ (if_pos ho)), _, exec_tcEvqCtrl_taken hm, ?ctrl⟩⟩
  case owner =>
    obtain ⟨owner, enable, dropped, frame⟩ := evqGiven_reads s w own
    exact ⟨owner, enable, dropped, frame, onlyRegs_evqGiven s w own⟩
  case ctrl =>
    obtain ⟨vector, enable, size⟩ := evqCtrlWord_fields s w value
    obtain ⟨frame, regs⟩ := writeEvqCtrl_frame s w value
    rw [← rd_writeEvqCtrl_ctrl] at vector enable size
    exact ⟨vector, enable, size, writeEvqCtrl_head s w value, frame, regs⟩

end Sys2Proof.Machine
end

section
/-! PROOFS. FXFER and FREC (R90, R212, R213, R227), the completion of transfers (R228), and armed transfers (R214). -/

namespace Sys2Proof.Machine

/-! ### Entering the queue -/

section
variable {s s1 : State} {core : Nat} {i : FidInsn}

/-- The state with `i` at the end of the Fid queue of `core`, behind the instruction that queued it. -/
def State.fidQueuedAs (s : State) (core : Nat) (i : FidInsn) : State :=
  ({ s.advance core with fid := { (s.advance core).fid with queue := (s.advance core).fid.queue ++ [i] } }).fidAfter core

theorem fidEnqueue_room (h : s.fidQueued core < 16) (count : Bool) :
    s.fidEnqueue s1 core i count = (if count then s1.bump32 (Reg.FID_SEQ (s1.win core)) 1 else s1).fidQueuedAs core i :=
  if_neg (Nat.not_le.2 h)

theorem fidEnqueue_full (h : 16 ≤ s.fidQueued core) (count : Bool) : s.fidEnqueue s1 core i count = s.block core 3 .stall := if_pos h

end

/-! ### FXFER and FREC -/

section
variable {s : State} {core : Nat} {rest : Rest}

theorem fidSeq_counted (s : State) (c : Nat) :
    (s.counted c).fld (Reg.FID_SEQ (s.win c)) Fld.FID_SEQ_COUNT = s.fld (Reg.FID_SEQ (s.win c)) Fld.FID_SEQ_COUNT := by
  unfold State.fld State.counted
  rw [rd_bump64, if_neg (by unfold Reg.FID_SEQ Reg.TC_CNT_INSN; omega)]

/-- The key block of a legal FXFER lies within the S registers. -/
theorem fRsv_of_legal (h : fxferLegal rest = true) : fRsv rest + 3 < 32 := by
  simp only [fxferLegal, Bool.and_eq_true, beq_iff_eq] at h
  have : fRsv rest < 32 := by unfold fRsv bits; omega
  omega

/-- What an FXFER queues: the registers that it names, as they stand at issue. -/
def State.fxferInsn (s : State) (core : Nat) (rest : Rest) : FidInsn :=
  let w := s.win core
  let k := fRsv rest
  { core := core, frec := false, addr := s.sreg w (fSD rest), so := s.sreg w (fSA rest), dO := s.sreg w (fSB rest)
    key := if k = 0 then [] else [s.sreg w k, s.sreg w (k + 1), s.sreg w (k + 2), s.sreg w (k + 3)]
    seq := s.fld (Reg.FID_SEQ w) Fld.FID_SEQ_COUNT, pc := s.pc w, word := insnWord 0x20 0x00 rest }

theorem fxferInsn_counted (u : s.coreUp core = true) (h : fxferLegal rest = true) :
    (s.counted core).fxferInsn core rest = s.fxferInsn core rest := by
  have hk := fRsv_of_legal h
  unfold State.fxferInsn
  dsimp only
  rw [win_of_counted u, sreg_of_counted s core (fSD_lt rest), sreg_of_counted s core (fSA_lt rest), sreg_of_counted s core (fSB_lt rest),
    sreg_of_counted s core (n := fRsv rest) (by omega), sreg_of_counted s core (n := fRsv rest + 1) (by omega),
    sreg_of_counted s core (n := fRsv rest + 2) (by omega), sreg_of_counted s core hk, fidSeq_counted, pc_of_counted]

theorem issue_counted {word : Word} (hi : s.issues core word) (k : State → State) : s.issue core word true k = k (s.counted core) :=
  issue_legal hi k

/-- A legal FXFER that a core issues asks for a place in its queue. -/
theorem exec_fxfer_issued (hi : s.issues core (insnWord 0x20 0x00 rest)) (hl : fxferLegal rest = true) :
    exec (.fxfer core rest) s = .next (s.fidEnqueue (s.counted core) core (s.fxferInsn core rest) true) := by
  rw [← fxferInsn_counted hi.1 hl]
  show execFxfer core rest s = _
  unfold execFxfer
  rw [hl]
  exact next_congr (issue_counted hi _)

/-- What an FREC queues. -/
def State.frecInsn (s : State) (core : Nat) (rest : Rest) : FidInsn :=
  ⟨core, true, s.sreg (s.win core) (fSD rest), 0, 0, [], 0, s.pc (s.win core), insnWord 0x20 0x01 rest⟩

/-- A legal FREC whose address passes its checks asks for a place in its queue. -/
theorem exec_frec_issued (hi : s.issues core (insnWord 0x20 0x01 rest))
    (hl : (bits rest.toNat 46 32 == 0 && bits rest.toNat 29 0 == 0 && (!bit rest.toNat 30 || fSD rest == 0)) = true)
    (hc : frecCheck (!bit rest.toNat 30) (s.sreg (s.win core) (fSD rest)).toNat = none) :
    exec (.frec core rest) s = .next (s.fidEnqueue (s.counted core) core (s.frecInsn core rest) false) := by
  show execFrec core rest s = _
  unfold execFrec
  rw [hl]
  refine next_congr ((issue_counted hi _).trans ?_)
  dsimp only
  rw [win_of_counted hi.1, sreg_of_counted s core (fSD_lt rest), hc, pc_of_counted]
  rfl

end

/-! ### Completion and armed transfers -/

section
variable {s : State} {core : Nat} {x : Xfer}

/-- The state in which a transfer that completes has left the engine, an armed one's flags entered. -/
def State.fidLeft (s : State) (x : Xfer) : State :=
  let t := { s with fid := { s.fid with xfers := s.fid.xfers.erase x } }
  if x.armed then t.fidEnter x else t

/-- A transfer whose semaphore, if it names one, may be incremented completes. -/
theorem fidComplete_done (h : dSemEn x.words = true → (s.fidLeft x).semFault x.core (dSem x.words) = none) :
    let t := (s.fidLeft x).bump64 (Reg.FID_CNT_XFER ((s.fidLeft x).win x.core)) 1
    s.fidComplete x = if dSemEn x.words then t.semInc (dSem x.words) (dSemInc x.words) else t := by
  have hn : (if dSemEn x.words then (s.fidLeft x).semFault x.core (dSem x.words) else none) = none := by
    split
    · exact h ‹_›
    · rfl
  unfold State.fidComplete
  unfold State.fidLeft at hn ⊢
  dsimp only at hn ⊢
  rw [hn]

theorem exec_fxferComplete_done (hx : (s.fid.xfers.find? fun x => x.core == core && x.localDone && x.puts.isEmpty) = some x) :
    exec (.fxferComplete core) s = .next ((s.fidComplete x).fidAfter core) := by
  show execFxferComplete core s = _
  unfold execFxferComplete
  rw [hx]

theorem exec_armedTransferStart_started (hb : (s.fid.xfers.any fun x => x.core == core && !x.localDone) = false)
    (hx : (s.fid.armed.find? fun x => x.core == core) = some x) :
    let t := { s with fid := { s.fid with armed := s.fid.armed.erase x } }
    let r := t.fidGo x (fidFuel x)
    exec (.armedTransferStart core) s = .next ((r.1.fidSettle r.2).fidAfter core) := by
  show execArmedTransferStart core s = _
  unfold execArmedTransferStart
  rw [hb, hx]
  rfl

/-- A launched transfer that passes its checks is armed. -/
theorem fidLaunch_armed {t : State} {c desc : Nat} {d : List Word} (h : s.fidLaunchCheck c desc = (t, .inr d)) :
    let u := t.bump64 (Reg.FID_CNT_ARMED (t.win c)) 1
    s.fidLaunch c desc = { u.fidCounted with fid := { u.fidCounted.fid with
      armed := u.fid.armed ++ [u.fidNew c true desc d 0 0 [] 0 0x3FFFF 0] } }.fidStatus c := by
  unfold State.fidLaunch
  rw [h]

theorem exec_fidTransfer_armed {die : Nat} {e : TalqEntry} {t : State} {d : List Word} (hd : die < 4) (hl : s.launches die actFid e)
    (hu : (s.talqTaken die e).talqTargetUp die e = true) (hc : (s.talqTaken die e).fidLaunchCheck (160 * die + e.target) e.desc = (t, .inr d)) :
    let u := t.bump64 (Reg.FID_CNT_ARMED (t.win (160 * die + e.target))) 1
    exec (.fidTransfer die) s = .next ({ u.fidCounted with fid := { u.fidCounted.fid with
      armed := u.fid.armed ++ [u.fidNew (160 * die + e.target) true e.desc d 0 0 [] 0 0x3FFFF 0] } }.fidStatus (160 * die + e.target)) :=
  congrArg _ ((if_pos hd).trans ((talq_takes hl _).trans ((if_pos hu).trans (fidLaunch_armed hc))))

end

/-- Settles O24: the queue by `fidEnqueue_room` and `fidEnqueue_full`, the transfers by the branch that the state selects. -/
theorem fidInstructionsAndTransfers : Obligations.FidInstructionsAndTransfers := by
  intro s core s1 w queued
  refine ⟨fun rest hi hl hq => ?fxfer, fun rest hi hl hc hq => ?frec, fun rest hi hl hq => ?full, fun x hx => ?complete, fun x hb hx => ?start,
    fun die e t d hd hl => ?launch⟩
  case fxfer =>
    rw [exec_fxfer_issued hi hl, fidEnqueue_room hq, if_pos rfl, win_of_counted hi.1]
    rfl
  case frec =>
    rw [exec_frec_issued hi hl hc, fidEnqueue_room hq, if_neg (by decide)]
    rfl
  case full => rw [exec_fxfer_issued hi hl, fidEnqueue_full hq]
  case complete => exact fun h => (exec_fxferComplete_done hx).trans (next_congr (congrArg (State.fidAfter · core) (fidComplete_done h)))
  case start => exact exec_armedTransferStart_started hb hx
  case launch => exact exec_fidTransfer_armed hd hl

end Sys2Proof.Machine
end

section
/-! PROOFS. The triggers of ME_CTRL, VE_CTRL and FID_CTRL (R171, R173, R174, R207 to R209, R224 to R226). -/

namespace Sys2Proof.Machine

/-- From `s` to `t` the registers of `l` became 0, and nothing else changed. -/
def State.zeroed (s t : State) (l : List Nat) : Prop :=
  (∀ a ∈ l, t.rd a = 0) ∧ s.sameBut t l ∧ t = { s with regs := t.regs }

/-- From `s` to `t` the histogram whose registers begin at `a` returned to its reset values, and nothing else changed. -/
def State.histEmptied (s t : State) (a : Nat) : Prop :=
  (∀ b, a ≤ b → b < a + 288 → t.rd b = regReset b) ∧ (∀ b, b < a ∨ a + 288 ≤ b → t.rd b = s.rd b) ∧ t = { s with regs := t.regs }

theorem zeroed_nil (s : State) : s.zeroed s [] := ⟨fun _ h => absurd h List.not_mem_nil, fun _ _ => rfl, rfl⟩

/-- One register more is cleared; those cleared before it stay 0, be it one of them or not. -/
theorem zeroed_wr {s t : State} {l : List Nat} (h : s.zeroed t l) (a : Nat) : s.zeroed (t.wr a 0) (l ++ [a]) := by
  obtain ⟨zero, same, regs⟩ := h
  refine ⟨fun b hb => ?_, fun b hb => ?_, onlyRegs_wr regs a 0⟩
  · rw [rd_wr]
    split
    · rfl
    · next hn => exact zero b (by simpa [hn] using hb)
  · simp only [List.mem_append, List.mem_singleton, not_or] at hb
    rw [rd_wr_other _ _ hb.2, same b hb.1]

theorem zeroed_wr_one (s : State) (a : Nat) : s.zeroed (s.wr a 0) [a] := zeroed_wr (zeroed_nil s) a

theorem zeroed_wr_two (s : State) (a b : Nat) : s.zeroed ((s.wr a 0).wr b 0) [a, b] := zeroed_wr (zeroed_wr_one s a) b

theorem histEmptied_histClear (s : State) (a : Nat) : s.histEmptied (s.histClear a) a := by
  refine ⟨fun b lo hi => ?_, fun b out => ?_, onlyRegs_dropRegs rfl a (a + 288)⟩
  · exact (rd_dropRegs s _ _ b).trans (if_pos ⟨lo, hi⟩)
  · exact (rd_dropRegs s _ _ b).trans (if_neg (by omega))

/-- A trigger `k` of a control register that the agent may write acts on the window of its core (R118). -/
theorem engineCtrl_taken {s : State} {agent : Agent} {die phys c : Nat} (hw : s.coreWrite agent die phys = some c)
    {i : Instr} (k : State → Nat → State) (he : exec i s = .next (s.engineCtrl agent die phys k)) {P : State → Prop}
    (hP : P (k s (s.win c))) : ∃ t, exec i s = .next t ∧ P t := by
  refine ⟨_, he.trans (next_congr ?_), hP⟩
  unfold State.engineCtrl
  rw [hw]

/-- Settles O19: each trigger by `engineCtrl_taken`, then by what its clearing writes. -/
theorem engineRecordsAreCleared : Obligations.EngineRecordsAreCleared := by
  intro s agent die phys c hw w zero hist
  exact ⟨engineCtrl_taken hw State.meClearFlags rfl (zeroed_wr_one s _), engineCtrl_taken hw State.meClearExc rfl (zeroed_wr_two s _ _),
    engineCtrl_taken hw State.meClearHist rfl (histEmptied_histClear s _),
    engineCtrl_taken hw State.veClearFlags rfl (zeroed_wr_one s _), engineCtrl_taken hw State.veClearExc rfl (zeroed_wr_two s _ _),
    engineCtrl_taken hw State.veClearHist rfl (histEmptied_histClear s _),
    engineCtrl_taken hw State.fidClearFlags rfl (zeroed_wr_one s _), engineCtrl_taken hw State.fidClearExc rfl (zeroed_wr_two s _ _),
    engineCtrl_taken hw State.fidClearHist rfl (histEmptied_histClear s _)⟩

end Sys2Proof.Machine
end

section
/-! PROOFS. MMA, MCOMB and MREC carried out (R156, R157, R164, R166, R171, R173 to R175). -/

namespace Sys2Proof.Machine

/-- An engine instruction that its core carries out does `k` to the state with the instruction counted. -/
theorem engine_carried {s : State} {c cls op : Nat} {r : Rest} {legal : Bool} {check : State → Option IssueFault}
    {foot : State → List Range} {k : State → State} {ck : Option IssueFault} {ft reads : List Range} {rows : List (Nat × Nat)}
    (h : s.carries c cls op r legal ck ft rows reads) (hc : check (s.counted c) = ck) (hf : foot (s.counted c) = ft) :
    s.engine c (insnWord cls op r) legal check foot k = k (s.counted c) := by
  obtain ⟨issued, isLegal, passes, free, -, -⟩ := h
  exact engine_runs issued isLegal (hc.trans passes) (hf ▸ free)

/-- Counting an instruction poisons no line. -/
theorem tsPoison_counted (s : State) (c : Nat) (l : List Range) : (s.counted c).tsPoison c l = s.tsPoison c l :=
  tsPoison_congr (s := s) (t := s.counted c) rfl c l

section
variable {s : State} {core : Nat} {rest : Rest}

theorem exec_mma_carried (h : s.carries core 0x10 0x00 rest (mmaLegal rest) (s.mmaOps core rest).check
      ((s.mmaOps core rest).pRange :: (s.mmaOps core rest).reads) [] (s.mmaOps core rest).poisonRanges) :
    let s1 := s.counted core
    let o := s.mmaOps core rest
    let tile := tileElems o.m o.n (s1.mmaElem core o)
    exec (.mma core rest) s =
      .next (((s1.tsWrite core o.pAddr (tileBytes 4 tile)).matrixRecord core o.k fmtFP32 o.hx tile).advance core) := by
  have ⟨⟨up, _⟩, _, _, _, _, clean⟩ := h
  have ops := mmaOps_counted rest up
  show execMma core rest s = _
  unfold execMma
  rw [engine_carried h (by rw [ops]) (by rw [ops])]
  dsimp only
  rw [ops, tsPoison_counted, clean]

/-- A combination that meets no poisoned source writes its tile and is recorded. -/
theorem mcombRun_clean {q : McombOps} (h : s.tsPoison core q.reads = none) :
    let out := tileElems q.m q.n (s.mcombElem core q)
    s.mcombRun core rest q =
      ((s.tsWrite core q.dAddr (tileBytes (fmtBits q.fd / 8) out)).matrixRecord core q.k q.fd q.hx out).advance core := by
  unfold State.mcombRun
  rw [h]

theorem exec_mcomb_carried (h : s.carries core 0x10 0x01 rest (mcombLegal rest) (s.mcombOps core rest).check
      ((s.mcombOps core rest).dRange :: (s.mcombOps core rest).reads) [] (s.mcombOps core rest).reads) :
    let s1 := s.counted core
    let q := s.mcombOps core rest
    let out := tileElems q.m q.n (s1.mcombElem core q)
    exec (.mcomb core rest) s = .next (((s1.tsWrite core q.dAddr (tileBytes (fmtBits q.fd / 8) out)).matrixRecord core q.k q.fd
      q.hx out).advance core) := by
  have ⟨⟨up, _⟩, _, _, _, _, clean⟩ := h
  have ops := mcombOps_counted rest up
  show execMcomb core rest s = _
  unfold execMcomb
  rw [engine_carried h (by rw [ops]) (by rw [ops]), ops, mcombRun_clean ((tsPoison_counted s core _).trans clean)]

/-- An MREC stores its record unless NOSTORE is 1. -/
abbrev recStores (rest : Rest) : Bool := !bit rest.toNat 30

/-- Where an MREC stores its record. -/
abbrev State.recAddr (s : State) (core : Nat) (rest : Rest) : Nat := (s.sreg (s.win core) (fSD rest)).toNat

/-- What an MREC makes of `s`: the record of the engine of window `w` is stored at `addr` unless NOSTORE is 1, cleared with CLEAR, the
instruction is counted, and PC goes on (R175). -/
def State.mrecRun (s : State) (core : Nat) (rest : Rest) (w addr : Nat) : State :=
  let stored := if recStores rest then
      s.tsWrite core addr (s.recordBytes (Reg.ME_FLAGS w) (Reg.ME_EXC w) (Reg.ME_EXC_INFO w) (Reg.ME_HIST w 0))
    else s
  let cleared := if bit rest.toNat 31 then ((stored.meClearFlags w).meClearExc w).meClearHist w else stored
  (cleared.bump64 (Reg.ME_CNT_INSN w) 1).advance core

theorem exec_mrec_carried (h : s.carries core 0x10 0x02 rest (recLegal rest) (recCheck srcMatrix (recStores rest) (s.recAddr core rest))
      (if recStores rest then [(s.recAddr core rest, 384)] else []) [] []) :
    exec (.mrec core rest) s = .next ((s.counted core).mrecRun core rest (s.win core) (s.recAddr core rest)) := by
  have ⟨⟨up, _⟩, _⟩ := h
  have addr : (s.counted core).recAddr core rest = s.recAddr core rest := congrArg BitVec.toNat (sreg_counted_win up (fSD_lt rest))
  show execMrec core rest s = _
  unfold execMrec
  rw [engine_carried h (by rw [← addr]) (by rw [← addr])]
  show Host.Outcome.next ((s.counted core).mrecRun core rest ((s.counted core).win core) ((s.counted core).recAddr core rest)) = _
  rw [addr, win_of_counted up]

end

/-- Settles O23: each instruction by `engine_carried`, its operands standing as it is counted. -/
theorem matrixInstructions : Obligations.MatrixInstructions := fun _ _ _ => ⟨exec_mma_carried, exec_mcomb_carried, exec_mrec_carried⟩

end Sys2Proof.Machine
end

section
/-! PROOFS. Vector instructions carried out (R181 to R202, R207, R208, R210): each is its body on the counted state, in which its operands
stand as they were, and a body that computes the elements of a view writes the active ones. -/

namespace Sys2Proof.Machine

/-! ### Bodies that map -/

/-- An instruction that touches no byte of the tile store waits for no transfer. -/
theorem hazard_nil (s : State) (c : Nat) : s.hazard c [] = false := by
  simp [State.hazard]

/-- An operation of tile and mask registers that its core carries out does its body to the counted state. -/
theorem vecRegs_carried {s : State} {c cls op : Nat} {r : Rest} {legal : Bool} {rowsOf : State → List (Nat × Nat)} {rows : List (Nat × Nat)}
    {body : State → State × List VRes} (h : s.carries c cls op r legal none [] (maskRows r ++ rows) [])
    (hr : s.coreUp c = true → rowsOf (s.vecCounted c) = rows) :
    s.vecRegs c cls op r legal rowsOf body = s.vecDone c (body (s.vecCounted c)) :=
  vector_carried h (fun _ => rfl) (fun _ => rfl) (fun _ => rfl) fun u => congrArg (maskRows r ++ ·) (hr u)

section
variable {s : State} {core : Nat} {rest : Rest}

/-- A body that computes view `f` writes its active elements, whatever results `l` it records. -/
theorem mapped_vMap {f : Nat} (u : s.coreUp core = true) (hp : pcFits (s.flow core).1) (hf : vecView f = true)
    {g : Nat → Nat → Nat × Nat × Nat} {v : Nat → Nat → Nat} (hg : ∀ i j, (g i j).1 = v i j) (l : List VRes) :
    s.mapped (s.vecDone core (((s.vecCounted core).vMap core rest f g).1, l)) core (vTD rest) f (s.active core rest (vecW f)) v := by
  obtain rfl : (fun i j => (g i j).1) = v := funext₂ hg
  exact mapped_of u hp hf (vMasked rest) (if vMasked rest then s.mask core (vMK rest) else 0) g _ l (vMasked rest) rfl

section
variable {cls op f : Nat} {legal : Bool} {i : Instr} {rowsOf : State → List (Nat × Nat)} {rows : List (Nat × Nat)}
  {g : State → Nat → Nat → Nat × Nat × Nat} {v : Nat → Nat → Nat}

/-- An operation of tile registers that computes view `f` by `g`, carried out. -/
theorem vecRegs_mapped (he : exec i s = .next (s.vecRegs core cls op rest legal rowsOf fun t => t.vMap core rest f (g t)))
    (h : s.carries core cls op rest legal none [] (maskRows rest ++ rows) []) (hr : s.coreUp core = true → rowsOf (s.vecCounted core) = rows)
    (hp : pcFits (s.flow core).1) (hf : vecView f = true) (hg : s.coreUp core = true → ∀ a b, (g (s.vecCounted core) a b).1 = v a b) :
    ∃ t, exec i s = .next t ∧ s.mapped t core (vTD rest) f (s.active core rest (vecW f)) v := by
  have ⟨⟨up, _⟩, _⟩ := h
  exact ⟨_, he.trans (next_congr (vecRegs_carried h hr)), mapped_vMap up hp hf (hg up) _⟩

/-- An issued legal operation that reads no poisoned row and whose values, computed in the state where the operands are read, are `v`. -/
theorem does_mapped (he : exec i s = .next (s.vecRegs core cls op rest legal rowsOf fun t => t.vMap core rest f (g t)))
    (hf : legal = true → vecView f = true) (hr : s.coreUp core = true → rowsOf (s.vecCounted core) = rows)
    (hg : s.coreUp core = true → ∀ a b, (g (s.vecCounted core) a b).1 = v a b) (clean : s.regPoisoned core (maskRows rest ++ rows) = false)
    (hp : pcFits (s.flow core).1) :
    s.does core cls op rest legal i fun t => s.mapped t core (vTD rest) f (s.active core rest (vecW f)) v := fun issued isLegal =>
  vecRegs_mapped he ⟨issued, isLegal, rfl, hazard_nil s core, clean, rfl⟩ hr hp (hf isLegal) hg

end

end

/-! ### Formats that legal operations have -/

theorem view_of_floatOrInt {f : Nat} (h : (vecFloat f || vecInt f) = true) : vecView f = true :=
  (Bool.or_eq_true_iff.1 h).elim view_of_float view_of_int

theorem view_of_seed {f : Nat} (h : decide (f ≤ 1) = true) : vecView f = true :=
  view_of_float (decide_eq_true (by have := of_decide_eq_true h; omega))

theorem view_of_random {f : Nat} (h : (f == fmtINT32 || f == fmtFP32) = true) : vecView f = true := by
  rw [Bool.or_eq_true, beq_iff_eq, beq_iff_eq] at h
  obtain rfl | rfl := h <;> decide

/-- A packed register is treated as bytes (R180), so that every format of VLD has a view. -/
theorem view_of_memLegal {r : Rest} (h : memLegal r = true) : vecView (memView (vF r)) = true := by
  unfold memView
  split
  · decide
  · next hp => simpa [memLegal, hp] using h

/-- The fields of an instruction that takes no mask leave MASKED at 0 (R183). -/
theorem vMasked_of_fieldsOk {used : List VUse} {r : Rest} (hm : used.contains .mask = false) (h : vFieldsOk used r = true) :
    vMasked r = false := by
  simp only [vFieldsOk, hm, Bool.and_eq_true, Bool.false_eq_true, if_false, Bool.not_eq_true'] at h
  obtain ⟨⟨_, unmasked, _⟩, _⟩ := h
  exact unmasked


/-! ### Element-wise operations -/

/-- A two's complement of `n` bits is below 2^n. -/
theorem unsig_lt (n : Nat) (x : Int) : unsig n x < 2 ^ n := by
  have pos : (0 : Int) < (2 ^ n : Nat) := by exact_mod_cast Nat.two_pow_pos n
  rw [unsig, Int.toNat_lt' (Nat.two_pow_pos n)]
  exact Int.emod_lt_of_pos x pos

section
variable {s : State} {core op : Nat} {rest : Rest} {i : Instr} {legal : Bool} {rows : List (Nat × Nat)} {v : Nat → Nat → Nat}

/-- An issued legal vector operation that reads no poisoned row of `rows` writes `v` to the active elements of its view, and goes on. -/
def State.writesView (s : State) (core cls op : Nat) (rest : Rest) (legal : Bool) (rows : List (Nat × Nat)) (i : Instr) (v : Nat → Nat → Nat) :
    Prop :=
  s.regPoisoned core (maskRows rest ++ rows) = false → pcFits (s.flow core).1 →
    s.does core cls op rest legal i fun t => s.mapped t core (vTD rest) (vF rest) (s.active core rest (vecW (vF rest))) v

theorem vBinary_writesView {g : State → Nat → Nat → Nat → Nat × Nat × Nat} (he : exec i s = .next (s.vBinary core op rest legal g))
    (hf : legal = true → vecView (vF rest) = true)
    (hv : ∀ a b, (g (s.vecCounted core) (a * vecC (vF rest) + b) (s.vElem core (vTA rest) (vF rest) a b)
      (s.vElem core (vTB rest) (vF rest) a b)).1 = v a b) :
    s.writesView core 0x18 op rest (vFieldsOk [.td, .ta, .tb, .f, .mask] rest && legal)
      (s.operandRows core rest (vF rest) [vTA rest, vTB rest]) i v :=
  does_mapped he (fun h => hf (Bool.and_elim_right h)) (fun _ => operandRows_vecCounted s core rest _ _) fun _ => hv

theorem vArith_writesView {fl : Num → Num → Num × Nat} {int : Int → Int → Int} (he : exec i s = .next (s.vArith core op rest fl int)) :
    let f := vF rest
    let n := fmtBits f
    let el (t a b : Nat) : Nat := s.vElem core t f a b
    s.writesView core 0x18 op rest
      (vFieldsOk [.td, .ta, .tb, .f, .mask] rest && ((vecFloat f && vRoundOk true rest) || (vecInt f && vRoundOk false rest)))
      (s.operandRows core rest f [vTA rest, vTB rest]) i fun a b =>
        if vecInt f then unsig n (int (sext n (el (vTA rest) a b)) (sext n (el (vTB rest) a b)))
        else
          let x := fl (decodeNum f (el (vTA rest) a b)) (decodeNum f (el (vTB rest) a b))
          ((s.vecCounted core).vConvert core rest f (a * vecC f + b) x.2 x.1).1 := by
  unfold State.vArith at he
  exact vBinary_writesView he (fun h => (Bool.or_eq_true_iff.1 h).elim (fun h => view_of_float (Bool.and_elim_left h))
    fun h => view_of_int (Bool.and_elim_left h)) fun _ _ => ite_fst _ _ _

theorem vFused_writesView {neg : Bool} (he : exec i s = .next (s.vFused core op rest neg)) :
    let f := vF rest
    let num (t a b : Nat) : Num := decodeNum f (s.vElem core t f a b)
    s.writesView core 0x18 op rest (vFieldsOk [.td, .ta, .tb, .tc, .f, .mask] rest && vecFloat f && vRoundOk true rest)
      (s.operandRows core rest f [vTA rest, vTB rest, vTC rest]) i fun a b =>
        let x := exactFma neg (num (vTA rest) a b) (num (vTB rest) a b) (num (vTC rest) a b)
        ((s.vecCounted core).vConvert core rest f (a * vecC f + b) x.2 x.1).1 :=
  does_mapped he (fun h => view_of_float (Bool.and_elim_right (Bool.and_elim_left h))) (fun _ => operandRows_vecCounted s core rest _ _)
    fun _ _ _ => rfl

/-- The choice that VMIN or VMAX makes between integers is their minimum or maximum. -/
theorem intMinMax (max : Bool) (x y : Int) :
    (if max then (if x < y then y else x) else (if y < x then y else x)) = if max then Max.max x y else Min.min x y := by
  cases max
  · exact (show (if y < x then y else x) = Min.min x y by split <;> omega)
  · exact (show (if x < y then y else x) = Max.max x y by split <;> omega)

theorem vMinMax_writesView {max : Bool} (he : exec i s = .next (s.vMinMax core op rest max)) :
    let f := vF rest
    let n := fmtBits f
    let el (t a b : Nat) : Nat := s.vElem core t f a b
    let int (t a b : Nat) : Int := sext n (el t a b)
    s.writesView core 0x18 op rest (vFieldsOk [.td, .ta, .tb, .f, .mask] rest && ((vecFloat f || vecInt f) && vRoundOk false rest))
      (s.operandRows core rest f [vTA rest, vTB rest]) i fun a b =>
        if vecInt f then
          unsig n (if max then Max.max (int (vTA rest) a b) (int (vTB rest) a b) else Min.min (int (vTA rest) a b) (int (vTB rest) a b))
        else (floatMinMax f max (el (vTA rest) a b) (el (vTB rest) a b)).1 := by
  unfold State.vMinMax at he
  refine vBinary_writesView he (fun h => view_of_floatOrInt (Bool.and_elim_left h)) fun _ _ => ?_
  rw [ite_fst, intOp, intMinMax]

theorem vUnary_writesView {g : Nat → Nat × Nat × Nat} (he : exec i s = .next (s.vUnary core op rest g)) :
    let f := vF rest
    s.writesView core 0x18 op rest (vFieldsOk [.td, .ta, .f, .mask] rest && (vecFloat f || vecInt f) && vRoundOk false rest)
      (s.operandRows core rest f [vTA rest]) i fun a b => (g (s.vElem core (vTA rest) f a b)).1 :=
  does_mapped he (fun h => view_of_floatOrInt (Bool.and_elim_right (Bool.and_elim_left h))) (fun _ => operandRows_vecCounted s core rest _ _)
    fun _ _ _ => rfl

/-- A bitwise operation or shift `g`, of the value `w` within the width of its view. -/
theorem vLogic_writesView {g w : Nat → Nat → Nat → Nat} (he : exec i s = .next (s.vLogic core op rest g))
    (hw : ∀ n a b, g n a b % 2 ^ n = w n a b) :
    let f := vF rest
    s.writesView core 0x18 op rest (vFieldsOk [.td, .ta, .tb, .f, .mask] rest && (vecInt f && vRoundOk false rest))
      (s.operandRows core rest f [vTA rest, vTB rest]) i
      fun a b => w (fmtBits f) (s.vElem core (vTA rest) f a b) (s.vElem core (vTB rest) f a b) := by
  unfold State.vLogic at he
  exact vBinary_writesView he (fun h => view_of_int (Bool.and_elim_left h)) fun _ _ => hw _ _ _

theorem vMove_writesView {g : State → Nat → Nat → Nat} {rowsOf : State → List (Nat × Nat)}
    (he : exec i s = .next (s.vMove core op rest legal rowsOf g)) (hf : legal = true → vecView (vF rest) = true)
    (hr : s.coreUp core = true → rowsOf (s.vecCounted core) = rows)
    (hv : s.coreUp core = true → ∀ a b, g (s.vecCounted core) a b = v a b) :
    s.writesView core 0x19 op rest (legal && vRoundOk false rest) rows i v :=
  does_mapped he (fun h => hf (Bool.and_elim_left h)) hr hv

theorem vSeed_writesView (he : exec i s = .next (s.vSeed core op rest)) :
    let f := vF rest
    s.writesView core 0x1A op rest (vFieldsOk [.td, .ta, .f, .mask] rest && decide (f ≤ 1) && vRoundOk false rest)
      (s.operandRows core rest f [vTA rest]) i fun a b => (seedResult f op (decodeNum f (s.vElem core (vTA rest) f a b))).1 :=
  does_mapped he (fun h => view_of_seed (Bool.and_elim_right (Bool.and_elim_left h))) (fun _ => operandRows_vecCounted s core rest _ _)
    fun _ _ _ => rfl

theorem vrand_writesView :
    s.writesView core 0x1A 0x06 rest (vFieldsOk [.td, .f, .mask] rest && (vF rest == fmtINT32 || vF rest == fmtFP32) && vCC rest == 0 &&
      vSK rest != 0 && vSK rest % 4 == 0) [] (.vrand core rest) fun a b =>
        let w := ((s.vecCounted core).vKey core rest).word (a * 32 + b)
        if vF rest = fmtFP32 then uniform32 w else w := by
  refine does_mapped rfl (fun legal => ?_) (fun _ => rfl) fun _ _ _ => rfl
  simp only [Bool.and_eq_true] at legal
  obtain ⟨⟨⟨⟨_, random⟩, _⟩, _⟩, _⟩ := legal
  exact view_of_random random

end

/-- Settles O20: each operation by its family, whose values are read in the counted state. -/
theorem vectorElementsAreWritten : Obligations.VectorElementsAreWritten := by
  intro s core rest f n s2 el num int ta tb b round of maps two arith fused logic minMax unary seed
  refine ⟨vArith_writesView rfl, ?sub, vArith_writesView rfl, vFused_writesView rfl, vFused_writesView rfl,
    vMinMax_writesView (max := false) rfl, vMinMax_writesView (max := true) rfl, ?abs, ?neg, ?and, ?or, ?xor, ?sll, ?srl, ?sra, ?mov, ?splat,
    ?iota, ?rot, vSeed_writesView rfl, vSeed_writesView rfl, vSeed_writesView rfl, vrand_writesView⟩
  case sub => exact vArith_writesView (fl := fun x y => exactAdd x y.negate) rfl
  case abs => exact vUnary_writesView (g := fun x => (absCode f x, 0, 0)) rfl
  case neg => exact vUnary_writesView (g := fun x => (negCode f x, 0, 0)) rfl
  case and => exact vLogic_writesView (w := fun n x y => (x &&& y) % 2 ^ n) rfl fun _ _ _ => rfl
  case or => exact vLogic_writesView (w := fun n x y => (x ||| y) % 2 ^ n) rfl fun _ _ _ => rfl
  case xor => exact vLogic_writesView (w := fun n x y => (x ^^^ y) % 2 ^ n) rfl fun _ _ _ => rfl
  case sll => exact vLogic_writesView (w := fun n x y => x * 2 ^ (y % n) % 2 ^ n) rfl fun _ _ _ => by rw [Nat.shiftLeft_eq]
  case srl => exact vLogic_writesView (w := fun n x y => x / 2 ^ (y % n) % 2 ^ n) rfl fun _ _ _ => by rw [Nat.shiftRight_eq_div_pow]
  case sra =>
    exact vLogic_writesView (w := fun n x y => unsig n (sext n x / (2 ^ (y % n) : Nat))) rfl fun _ _ _ => Nat.mod_eq_of_lt (unsig_lt _ _)
  case mov =>
    exact vMove_writesView rfl Bool.and_elim_right (fun _ => operandRows_vecCounted s core rest _ _) fun _ _ _ => rfl
  case splat => exact vMove_writesView rfl Bool.and_elim_right (fun _ => rfl) fun u _ _ => by rw [sreg_vecCounted u (vTB_lt rest)]
  case iota =>
    exact vMove_writesView rfl (fun h => view_of_int (Bool.and_elim_right h)) (fun _ => rfl) fun u _ _ => by
      rw [sreg_vecCounted u (vTB_lt rest)]
  case rot =>
    exact vMove_writesView rfl (fun h => Bool.and_elim_right (Bool.and_elim_left h)) (fun u => vrotRows_vecCounted rest u) fun u _ _ => by
      dsimp only
      rw [sreg_vecCounted u (vTB_lt rest)]
      rfl

/-! ### VSEL, VRED, VUNPACK and VLD -/

section
variable {s : State} {core : Nat} {rest : Rest}

/-- The element of a or of b that VSEL takes, by its mask bit (R186). -/
theorem exec_vsel_carried (hp : pcFits (s.flow core).1)
    (h : s.carries core 0x19 0x01 rest (vFieldsOk [.td, .ta, .tb, .f, .mask] rest && vecView (vF rest) && vRoundOk false rest && vMasked rest)
      none [] (maskRows rest ++ s.vselRows core rest) []) :
    ∃ t, exec (.vsel core rest) s = .next t ∧ s.mapped t core (vTD rest) (vF rest) (fun _ _ => true) fun i j =>
      s.vElem core (if s.active core rest (vecW (vF rest)) i j then vTA rest else vTB rest) (vF rest) i j := by
  have ⟨⟨up, _⟩, legal, _⟩ := h
  simp only [Bool.and_eq_true] at legal
  obtain ⟨⟨⟨_, view⟩, _⟩, masked⟩ := legal
  refine ⟨_, next_congr (vecRegs_carried h fun _ => vselRows_vecCounted s core rest), ?_⟩
  have active (i j : Nat) : activeIn true (s.mask core (vMK rest)) (vecW (vF rest)) i j = s.active core rest (vecW (vF rest)) i j := by
    rw [State.active, masked, if_pos rfl]
  simp only [← active]
  exact mapped_of up hp view false 0 (fun i j =>
    (s.vElem core (if activeIn true (s.mask core (vMK rest)) (vecW (vF rest)) i j then vTA rest else vTB rest) (vF rest) i j, 0, 0)) _ _ false
    (congrArg _ (List.filter_eq_self.2 fun _ _ => rfl).symm)

theorem exec_vred_carried (hp : pcFits (s.flow core).1)
    (h : s.carries core 0x18 0x10 rest (vFieldsOk [.td, .ta, .f, .mask, .imm] rest && (decide (vF rest ≤ 1) || vecInt (vF rest)) &&
      vRoundOk false rest && decide (vImm rest < 16) && vImm rest % 4 != 3 && vImm rest / 4 != 3) none []
      (maskRows rest ++ s.operandRows core rest (vF rest) [vTA rest]) []) :
    ∃ t, exec (.vred core rest) s = .next t ∧ s.mapped t core (vTD rest) (vF rest) (s.active core rest (vecW (vF rest))) fun i j =>
      (if vImm rest / 4 % 4 = 0 then (s.vredTable core rest).getD i (0, 0, 0)
        else if vImm rest / 4 % 4 = 1 then (s.vredTable core rest).getD j (0, 0, 0) else (s.vredTable core rest).headD (0, 0, 0)).1 := by
  have ⟨_, legal, _⟩ := h
  simp only [Bool.and_eq_true] at legal
  obtain ⟨⟨⟨⟨⟨_, format⟩, _⟩, _⟩, _⟩, _⟩ := legal
  exact vecRegs_mapped rfl h (fun _ => operandRows_vecCounted s core rest _ _) hp
    ((Bool.or_eq_true_iff.1 format).elim view_of_seed view_of_int) fun _ _ _ => rfl

/-- What VUNPACK makes of position `(i, j)`: element `j` of slot IMM of row `i` of a, under its scale, converted under CC (R198). -/
def State.unpacked (s : State) (core : Nat) (rest : Rest) (i j : Nat) : Nat :=
  let f2 := vF2 rest
  let b := bytesAt s.tc.tiles (tileKey core (vTA rest) i (vImm rest * fmtBlock f2)) (fmtBlock f2)
  let x := scaledNum f2 (blockElem (fmtBits f2) b j) (s.tElem core (vTB rest) 1 i (vImm rest))
  ((s.vecCounted core).vConvert core rest fmtFP32 (i * 32 + j) (if x.isSnan then 1 else 0) x).1

/-- Without a mask every element is active (R181). -/
theorem active_of_unmasked (h : vMasked rest = false) (w : Nat) : s.active core rest w = fun _ _ => true := by
  funext i j
  rw [State.active, h, activeIn, Bool.not_false, Bool.true_or]

theorem exec_vunpack_carried (hp : pcFits (s.flow core).1)
    (h : s.carries core 0x1A 0x02 rest (vFieldsOk [.td, .ta, .tb, .f, .f2, .imm] rest && vRoundOk true rest && vF rest == fmtFP32 &&
      vecBlock (vF2 rest) && decide (vImm rest < vecSlots (vF2 rest))) none [] (maskRows rest ++ wholeRows [vTA rest, vTB rest]) []) :
    ∃ t, exec (.vunpack core rest) s = .next t ∧ s.mapped t core (vTD rest) fmtFP32 (fun _ _ => true) (s.unpacked core rest) := by
  have ⟨_, legal, _⟩ := h
  simp only [Bool.and_eq_true] at legal
  obtain ⟨⟨⟨⟨fields, _⟩, _⟩, _⟩, _⟩ := legal
  rw [← active_of_unmasked (vMasked_of_fieldsOk rfl fields) (vecW fmtFP32)]
  exact vecRegs_mapped rfl h (fun _ => rfl) hp (by decide) fun _ _ _ => rfl

/-- What VLD reads of the tile store: with a mask the active elements, else its rows (R201). -/
def State.vldReads (s : State) (core : Nat) (rest : Rest) : List Range :=
  let w := vecW (memView (vF rest))
  if vMasked rest then
    ((positions (vecC (memView (vF rest)))).filter fun p => activeIn true (s.mask core (vMK rest)) w p.1 p.2).map fun p =>
      (s.vAddr core rest + p.1 * s.vStr core rest + p.2 * w, w)
  else rowRanges (s.vAddr core rest) (s.vStr core rest) 128

theorem vldReads_vecCounted (u : s.coreUp core = true) : (s.vecCounted core).vldReads core rest = s.vldReads core rest := by
  unfold State.vldReads
  rw [mask_vecCounted, vAddr_vecCounted rest u, vStr_vecCounted rest u]

/-- A row-wise instruction that its core carries out does its body to the counted state. -/
theorem vRows_carried {op n : Nat} {legal : Bool} {readsOf : State → List Range} {reads : List Range} {rowsOf : State → List (Nat × Nat)}
    {rows : List (Nat × Nat)} {body : State → State × List VRes}
    (h : s.carries core 0x1B op rest legal (vecCheck 32 [s.vAddr core rest, s.vStr core rest] (rowRanges (s.vAddr core rest) (s.vStr core rest) n))
      (rowRanges (s.vAddr core rest) (s.vStr core rest) n) rows reads)
    (hr : s.coreUp core = true → readsOf (s.vecCounted core) = reads) (hw : maskRows rest ++ rowsOf (s.vecCounted core) = rows) :
    s.vRows core op rest legal n readsOf rowsOf body = s.vecDone core (body (s.vecCounted core)) :=
  vector_carried h (fun u => by rw [vAddr_counted rest u, vStr_counted rest u]) (fun u => by rw [vAddr_counted rest u, vStr_counted rest u]) hr
    fun _ => hw

theorem exec_vld_carried (hp : pcFits (s.flow core).1)
    (h : s.carries core 0x1B 0x00 rest (vFieldsOk [.td, .ta, .tb, .f, .mask] rest && memLegal rest && vRoundOk false rest)
      (vecCheck 32 [s.vAddr core rest, s.vStr core rest] (rowRanges (s.vAddr core rest) (s.vStr core rest) 128))
      (rowRanges (s.vAddr core rest) (s.vStr core rest) 128) (maskRows rest) (s.vldReads core rest)) :
    let v := memView (vF rest)
    ∃ t, exec (.vld core rest) s = .next t ∧ s.mapped t core (vTD rest) v (s.active core rest (vecW v)) fun i j =>
      s.tsNat core (s.vAddr core rest + i * s.vStr core rest + j * vecW v) (vecW v) := by
  have ⟨⟨up, _⟩, legal, _⟩ := h
  simp only [Bool.and_eq_true] at legal
  obtain ⟨⟨_, format⟩, _⟩ := legal
  refine ⟨_, next_congr (vRows_carried h vldReads_vecCounted (List.append_nil _)), mapped_vMap up hp (view_of_memLegal format) (fun i j => ?_) []⟩
  rw [vAddr_vecCounted rest up, vStr_vecCounted rest up]
  rfl

end

/-- Settles O21: each instruction by its lemma, its operands standing as it is counted. -/
theorem vectorSelectReduceUnpackLoad : Obligations.VectorSelectReduceUnpackLoad := by
  intro s core rest hp f f2 v a str rows active of m reads red unpacked
  exact ⟨exec_vsel_carried hp, exec_vred_carried hp, exec_vunpack_carried hp, exec_vld_carried hp⟩

/-! ### Masks, stores and records -/

section
variable {s : State} {core : Nat} {rest : Rest}

/-- The 512 bytes of the tile store that VMLD and VMST name (R202). -/
def State.maskRange (s : State) (core : Nat) (rest : Rest) : List Range := [(s.vAddr core rest, 512)]

theorem maskRange_counted (u : s.coreUp core = true) : (s.counted core).maskRange core rest = s.maskRange core rest := by
  rw [State.maskRange, vAddr_counted rest u, State.maskRange]

theorem maskRange_vecCounted (u : s.coreUp core = true) : (s.vecCounted core).maskRange core rest = s.maskRange core rest := by
  rw [State.maskRange, vAddr_vecCounted rest u, State.maskRange]

theorem maskCheck_counted (u : s.coreUp core = true) :
    vecCheck 64 [(s.counted core).vAddr core rest] ((s.counted core).maskRange core rest) =
      vecCheck 64 [s.vAddr core rest] (s.maskRange core rest) := by
  rw [vAddr_counted rest u, maskRange_counted u]

theorem exec_vmld_carried (h : s.carries core 0x1B 0x03 rest (vFieldsOk [.td, .ta] rest && vRoundOk false rest && decide (vTD rest < 8))
      (vecCheck 64 [s.vAddr core rest] (s.maskRange core rest)) (s.maskRange core rest) [] (s.maskRange core rest)) :
    exec (.vmld core rest) s =
      .next (s.vecDone core ((s.vecCounted core).setMask core (vTD rest) (s.tsNat core (s.vAddr core rest) 512), [])) := by
  have ⟨⟨up, _⟩, _⟩ := h
  refine (next_congr (vector_carried h maskCheck_counted maskRange_counted maskRange_vecCounted fun _ => rfl)).trans ?_
  rw [vAddr_vecCounted rest up]
  rfl

theorem exec_vmst_carried (h : s.carries core 0x1B 0x04 rest (vFieldsOk [.td, .ta] rest && vRoundOk false rest && decide (vTD rest < 8))
      (vecCheck 64 [s.vAddr core rest] (s.maskRange core rest)) (s.maskRange core rest) (wholeRows [32 + vTD rest]) []) :
    exec (.vmst core rest) s =
      .next (s.vecDone core ((s.vecCounted core).tsWrite core (s.vAddr core rest) (natLE 512 (s.mask core (vTD rest))), [])) := by
  have ⟨⟨up, _⟩, _⟩ := h
  refine (next_congr (vector_carried h maskCheck_counted maskRange_counted (fun _ => rfl) fun _ => rfl)).trans ?_
  rw [vAddr_vecCounted rest up, mask_vecCounted]

/-- VHREC stores its record unless NOSTORE, IMM[2], is 1. -/
abbrev vhrecStores (rest : Rest) : Bool := !bit (vImm rest) 2

/-- Where VHREC stores its record (R210). -/
def State.vhrecRange (s : State) (core : Nat) (rest : Rest) : List Range :=
  if vhrecStores rest then [(s.vAddr core rest, 384)] else []

theorem vhrecRange_counted (u : s.coreUp core = true) : (s.counted core).vhrecRange core rest = s.vhrecRange core rest := by
  rw [State.vhrecRange, vAddr_counted rest u, State.vhrecRange]

theorem vhrecCheck_counted (u : s.coreUp core = true) :
    (if vhrecStores rest then vecCheck 64 [(s.counted core).vAddr core rest] ((s.counted core).vhrecRange core rest) else none) =
      if vhrecStores rest then vecCheck 64 [s.vAddr core rest] (s.vhrecRange core rest) else none := by
  rw [vAddr_counted rest u, vhrecRange_counted u]

theorem exec_vhrec_carried (h : s.carries core 0x1B 0x08 rest (vFieldsOk [.ta, .imm] rest && vRoundOk false rest && decide (vImm rest < 8) &&
      vImm rest % 2 == 0 && (vhrecStores rest || vTA rest == 0))
      (if vhrecStores rest then vecCheck 64 [s.vAddr core rest] (s.vhrecRange core rest) else none) (s.vhrecRange core rest) [] []) :
    exec (.vhrec core rest) s = .next (s.vecDone core ((s.vecCounted core).vhrecBody core rest)) :=
  next_congr (vector_carried h vhrecCheck_counted vhrecRange_counted (fun _ => rfl) fun _ => rfl)

/-- An operation of two masks writes what it makes of them (R186). -/
theorem vMask2_carried {op : Nat} {g : Nat → Nat → Nat}
    (h : s.carries core 0x19 op rest (vFieldsOk [.td, .ta, .tb] rest && vRoundOk false rest && (decide (vTA rest < 8) && decide (vTB rest < 8)) &&
      decide (vTD rest < 8)) none [] (maskRows rest ++ wholeRows [32 + vTA rest, 32 + vTB rest]) []) :
    s.vMask2 core op rest g = s.vecDone core
      ((s.vecCounted core).setMask core (vTD rest) (g (s.mask core (vTA rest)) (s.mask core (vTB rest)) % 2 ^ 4096), []) :=
  vector_mask_runs h (by rw [mask_vecCounted])

end

/-- Settles O22: each instruction does its body to the counted state, in which its operands stand. -/
theorem masksStoresAndRecordsOfTheVectorEngine : Obligations.MasksStoresAndRecordsOfTheVectorEngine := by
  intro s core rest f f2 s2 a str ones of ma mb setsMask both two maskMem at512 record foot
  refine ⟨fun h => next_congr (vMask2_carried h), fun h => next_congr (vMask2_carried h), fun h => next_congr (vMask2_carried h),
    fun h => next_congr (vMask2_carried h), fun h => next_congr (vector_mask_runs h rfl), fun h => next_congr (vector_mask_runs h ?not),
    exec_vmld_carried, exec_vmst_carried, fun h => next_congr (vecRegs_carried h fun _ => operandRows_vecCounted s core rest _ _),
    fun h => next_congr (vecRegs_carried h fun _ => vcvtRows_vecCounted s core rest), fun h => next_congr (vecRegs_carried h fun _ => rfl),
    fun h => next_congr (vRows_carried h (fun _ => rfl) ?vst), fun h => next_congr (vRows_carried h (fun _ => rfl) ?vstc), exec_vhrec_carried⟩
  case not => rw [mask_vecCounted]
  case vst => rw [operandRows_vecCounted]
  case vstc => rw [operandRows_vecCounted]

end Sys2Proof.Machine
end

section
/-! PROOFS. The tick instructions of harts (R260 to R263): what each does as it issues, and how its wait ends. -/

namespace Sys2Proof.Machine

section
variable {s : State} {h : Nat} {w : BitVec 32}

/-- Where the node is neither IDLE nor past the moment, TICK.WAIT waits, to be judged later where it is JOINING (R261). -/
theorem tickWait_begins (s : State) (h st p rd : Nat) :
    (if s.hlyState = hlyIdle then s.hartWaitEnd h rd 4
      else if s.hlyState = hlyJoining then s.setHart h { s.hart h with wait := .tick st p rd true }
      else if s.passed st (s.phaseStart p) then s.hartLate h rd
      else s.setHart h { s.hart h with wait := .tick st p rd false }) =
    if decide (s.hlyState = hlyIdle) then s.hartWaitEnd h rd 4
    else if !decide (s.hlyState = hlyJoining) && s.passed st (s.phaseStart p) then
      (s.bump32 Reg.HOST_CNT_TICK_LATE 1).hartWaitEnd h rd 1
    else s.setHart h { s.hart h with wait := .tick st p rd (decide (s.hlyState = hlyJoining)) } := by
  unfold State.hartLate
  by_cases hi : s.hlyState = hlyIdle
  · rw [if_pos hi, if_pos (decide_eq_true hi)]
  · rw [if_neg hi, if_neg (mt of_decide_eq_true hi)]
    by_cases hj : s.hlyState = hlyJoining
    · rw [if_pos hj, decide_eq_true hj, Bool.not_true, Bool.false_and, if_neg Bool.false_ne_true]
    · rw [if_neg hj, decide_eq_false hj, Bool.not_false, Bool.true_and]

theorem exec_tickWait_issued (hi : s.hartIssues h w 1) :
    let st := (s.xreg h (iRs1 w)).toNat % 2 ^ 48
    exec (.tickWait h w) s = .next (
      if (s.xctrl h Fld.HOST_XCTRL_TICK_U && (iF7 w == 0 && decide (iRs2 w < 4))) = false then s.hartIllegal h w
      else if decide (s.hlyState = hlyIdle) then s.hartWaitEnd h (iRd w) 4
      else if !decide (s.hlyState = hlyJoining) && s.passed st (s.phaseStart (iRs2 w)) then
        (s.bump32 Reg.HOST_CNT_TICK_LATE 1).hartWaitEnd h (iRd w) 1
      else s.setHart h { s.hart h with wait := .tick st (iRs2 w) (iRd w) (decide (s.hlyState = hlyJoining)) }) := by
  refine next_congr ((service_runs hi _ _ _ true rfl).trans ?_)
  cases s.xctrl h Fld.HOST_XCTRL_TICK_U && (iF7 w == 0 && decide (iRs2 w < 4)) with
  | false => rfl
  | true => exact tickWait_begins s h _ _ _

/-- A Svareot word of a reserved funct3 is illegal, whichever instruction is asked for (R260). -/
theorem svareot_reserved {f3 : Nat} {mine may ok : Bool} {k : State → State} (hr : s.hartReady h = true) (ho : iOpcode w = 0x0B)
    (h3 : 6 ≤ iF3 w) (hf : f3 < 6) : s.svareot h w f3 mine may ok k = s.hartIllegal h w := by
  unfold State.svareot
  rw [hr, ho, if_neg (by decide), if_neg (by omega), if_pos h3]

/-- TICK.WAIT ends at its moment, in the tick of its step. -/
theorem exec_tickWaitEnd_reached {q r : Nat} (hu : s.hartUp h = true) (hx : (s.hart h).wait = .tick s.step q r false)
    (ht : s.ticking = true) : exec (.tickWaitEnd h) s =
      .next ((s.timeTo (s.phaseStart q)).hartWaitEnd h r (if s.hly.active.enabled q then 0 else 2)) := by
  have hi : s.hlyState ≠ hlyIdle := fun he => by rw [State.ticking, he] at ht; exact absurd ht (by decide)
  show execTickWaitEnd h s = _
  unfold execTickWaitEnd
  rw [hu, hx, ht, if_neg (by decide)]
  dsimp only
  rw [if_neg hi, if_neg (by simp)]

/-- TICK.DONE and FWAIT end once every posted operation is complete. -/
theorem exec_tickDoneDrained_ends {r : Nat} {signal : Bool} (hu : s.hartUp h = true) (hp : s.hartPosted h = false)
    (hx : (s.hart h).wait = .drain r signal) :
    let t := if signal then s.unitDone Fld.HLY_DONE_U_HOST else s
    exec (.tickDoneDrained h) s =
      .next ((t.setHart h { t.hart h with errs := 0 }).hartWaitEnd h r (t.hart h).errs) := by
  show execTickDoneDrained h s = _
  unfold execTickDoneDrained
  rw [hu, hp, hx, if_neg (by decide)]

/-- An interrupt into S-mode traps the hart and ends its wait, the TICK.WAIT not retired (R262). -/
theorem exec_tickWaitInterrupt_s {a q r cause : Nat} {j : Bool} (hu : s.hartUp h = true) (hx : (s.hart h).wait = .tick a q r j)
    (hv : (s.hart h).strap.tvec &&& 3#64 = 0#64) :
    exec (.tickWaitInterrupt h .s cause) s =
      .next (s.setHart h ((s.hart h).trapTo .s (BitVec.ofNat 64 (2 ^ 63 + cause % 2 ^ 63)) 0 none)) := by
  show execTickWaitInterrupt h .s cause s = _
  unfold execTickWaitInterrupt
  rw [hu, hx]
  dsimp only
  rw [hv, if_neg (by decide), if_neg (by decide)]

end

/-- Settles O34: a word that issues by `service_runs`, a reserved one by `svareot_reserved`, the end of a wait by its own lemma. -/
theorem tickInstructionsOfHarts : Obligations.TickInstructionsOfHarts := fun _ _ _ =>
  ⟨fun hi => next_congr (service_runs hi _ _ _ true rfl), exec_tickWait_issued, fun hi => next_congr (service_runs hi _ _ _ true rfl),
    fun hi => next_congr (service_runs hi _ _ _ true rfl), fun hr ho h3 => next_congr (svareot_reserved hr ho h3 (by decide)),
    fun _ _ => exec_tickWaitEnd_reached, fun _ _ => exec_tickDoneDrained_ends, fun _ _ _ _ _ => exec_tickWaitInterrupt_s⟩

end Sys2Proof.Machine
end

section
/-! PROOFS. The accesses of harts (R251, R252, R265, R267): FACC, and an access by the region that its address lies in. -/

namespace Sys2Proof.Machine

/-! ### Regions (Table HST-3) -/

/-- A physical address of the memory tiers. -/
abbrev tierAddress (pa : Nat) : Bool :=
  decide (pa < 0x018000000000) || (decide (0x100000000000 ≤ pa) && decide (pa < 0x180000000000))

theorem tierAddress_iff {pa : Nat} : tierAddress pa = true ↔ pa < 0x018000000000 ∨ (0x100000000000 ≤ pa ∧ pa < 0x180000000000) := by
  rw [Bool.or_eq_true, Bool.and_eq_true, decide_eq_true_eq, decide_eq_true_eq, decide_eq_true_eq]

/-- The apertures lie above the other regions. -/
theorem isAperture_below {pa : Nat} (h : pa < 2 ^ 54) : isAperture pa = false := by
  have h0 : bits pa 55 54 = 0 := by
    unfold bits
    omega
  rw [isAperture, h0]
  rfl

section
variable {s : State} {h pa : Nat} {w : BitVec 32} {va : Word}

/-- An access to the tiers is local; an LR or SC in the fast tier needs a region that the host may cache. -/
theorem hartAccess_tier {a : HartAccess} (ht : tierAddress pa = true)
    (hc : accLrsc a = true → pa < 0x018000000000 → s.ftCached pa = true) : s.hartAccess h va pa a = s.accessLocal h va pa a := by
  rw [tierAddress_iff] at ht
  unfold State.hartAccess
  dsimp only
  rw [isAperture_below (by omega), if_neg Bool.false_ne_true]
  by_cases hf : pa < 0x018000000000
  · rw [if_pos hf, if_neg]
    intro hn
    rw [Bool.and_eq_true] at hn
    obtain ⟨hlrsc, huncached⟩ := hn
    rw [hc hlrsc hf] at huncached
    exact Bool.false_ne_true huncached
  · rw [if_neg hf, if_pos (ht.resolve_left hf)]

section
variable (hr : s.hartReady h = true)
include hr

theorem exec_apertureAccess_ready (a : HartAccess) : exec (.apertureAccess h va pa a) s = .next (s.hartAccess h va pa a) :=
  next_congr (if_pos hr)

/-! ### The memory tiers -/

theorem exec_access_tier (a : HartAccess) (ht : tierAddress pa = true)
    (hc : accLrsc a = true → pa < 0x018000000000 → s.ftCached pa = true) :
    exec (.apertureAccess h va pa a) s = .next (s.accessLocal h va pa a) :=
  (exec_apertureAccess_ready hr a).trans (next_congr (hartAccess_tier ht hc))

/-- An access other than LR and SC needs no region that the host may cache. -/
theorem exec_plainAccess_tier (a : HartAccess) (hl : accLrsc a = false) (ht : tierAddress pa = true) :
    exec (.apertureAccess h va pa a) s = .next (s.accessLocal h va pa a) :=
  exec_access_tier hr a ht fun hn => absurd hn (by rw [hl]; decide)

section
variable (ht : tierAddress pa = true)
include ht

theorem exec_load_tier {n rd : Nat} {g : Bool} (hok : (s.read pa n).stat = .ok) : exec (.apertureAccess h va pa (.load n g rd)) s =
    .next (((s.read pa n).st.setXreg h rd (loadValue n g (leNat (s.read pa n).data))).retire h) := by
  refine (exec_plainAccess_tier hr (.load n g rd) rfl ht).trans (next_congr ?_)
  unfold State.accessLocal
  dsimp only
  rw [hok]

theorem exec_store_tier {n : Nat} {v : Word} (hok : (s.hartStore h pa (natLE n v.toNat)).2 ≠ .absent) :
    exec (.apertureAccess h va pa (.store n v)) s = .next ((s.hartStore h pa (natLE n v.toNat)).1.retire h) :=
  (exec_plainAccess_tier hr (.store n v) rfl ht).trans (next_congr (if_neg hok))

theorem exec_amo_tier {op n rd : Nat} {v : Word} (hok : (s.read pa n).stat = .ok) :
    let o := leNat (s.read pa n).data
    exec (.apertureAccess h va pa (.amo op n v rd)) s = .next
      ((((s.read pa n).st.hartStore h pa (natLE n (atomicNew op n o (v.toNat % 2 ^ (8 * n))))).1.setXreg h rd
        (loadValue n true o)).retire h) := by
  refine (exec_plainAccess_tier hr (.amo op n v rd) rfl ht).trans (next_congr ?_)
  unfold State.accessLocal
  dsimp only
  rw [hok]

section
variable (hc : pa < 0x018000000000 → s.ftCached pa = true)
include hc

theorem exec_lr_tier {n rd : Nat} (hok : (s.read pa n).stat = .ok) :
    let t := (s.read pa n).st.setXreg h rd (loadValue n true (leNat (s.read pa n).data))
    exec (.apertureAccess h va pa (.lr n rd)) s = .next ((t.setHart h { t.hart h with resv := some (pa / 64) }).retire h) := by
  refine (exec_access_tier hr (.lr n rd) ht fun _ => hc).trans (next_congr ?_)
  unfold State.accessLocal
  dsimp only
  rw [hok]

theorem exec_sc_unreserved {n rd : Nat} {v : Word} (he : s.exists pa n = true) (hv : (s.hart h).resv ≠ some (pa / 64)) :
    exec (.apertureAccess h va pa (.sc n v rd)) s =
      .next ((((s.setHart h { s.hart h with resv := none }).free 63).2.setXreg h rd 1).retire h) := by
  refine (exec_access_tier hr (.sc n v rd) ht fun _ => hc).trans (next_congr ?_)
  unfold State.accessLocal
  dsimp only
  rw [he, beq_eq_false_iff_ne.2 hv, Bool.false_and, if_neg (by decide), if_neg Bool.false_ne_true]

end

end

/-! ### Registers -/

theorem exec_load_register {rd : Nat} {g : Bool} (hlo : 0xF00000000000 ≤ pa) (hhi : pa < 0x1000000000000) (h8 : pa % 8 = 0)
    (hw : inPcieWindow pa = false) : exec (.apertureAccess h va pa (.load 8 g rd)) s =
      .next ((s.setXreg h rd (s.regView (.hart h (decide ((s.hart h).mode = .m))) pa)).retire h) := by
  rw [exec_apertureAccess_ready hr]
  unfold State.hartAccess
  dsimp only
  rw [isAperture_below (by omega), hw, if_neg Bool.false_ne_true, if_neg (by omega), if_neg (by omega), if_neg (by omega),
    if_pos ⟨hlo, hhi⟩]
  exact next_congr ((if_neg (not_not_intro h8)).trans (if_neg Bool.false_ne_true))

end

/-! ### Apertures (R252, R265) -/

section
variable (hu : (isAperture pa && apertureOk (s.aperture pa)) = true)
include hu

/-- A load of the size and alignment that R252 allows passes the checks of a usable aperture, as does a store or an AMO. -/
theorem accessAperture_load {n rd : Nat} {g : Bool} (ha : accScalar (.load n g rd) pa = true) : s.accessAperture h va pa (.load n g rd) =
    s.sendRemote h va rd n g false (s.apertureReq h 0 pa ptRD n 0 0 []) := by
  rw [Bool.and_eq_true] at hu
  exact (if_neg (by rw [ha, Bool.true_or]; decide)).trans (if_neg (by rw [hu.2]; decide))

theorem accessAperture_store {n : Nat} {v : Word} (ha : accScalar (.store n v) pa = true) : s.accessAperture h va pa (.store n v) =
    s.sendPosted h pa (s.apertureReq h 1 pa ptWR n 0 0 (natLE n v.toNat)) := by
  rw [Bool.and_eq_true] at hu
  exact (if_neg (by rw [ha, Bool.true_or]; decide)).trans (if_neg (by rw [hu.2]; decide))

theorem accessAperture_amo {op n rd : Nat} {v : Word} (ha : accAmo (.amo op n v rd) pa = true) :
    s.accessAperture h va pa (.amo op n v rd) =
      s.sendRemote h va rd n true true (s.apertureReq h 2 pa ptATOMIC n 0 op (natLE n v.toNat)) := by
  rw [Bool.and_eq_true] at hu
  exact (if_neg (by rw [ha, Bool.or_true]; decide)).trans (if_neg (by rw [hu.2]; decide))

theorem exec_access_aperture (hr : s.hartReady h = true) (a : HartAccess) :
    exec (.apertureAccess h va pa a) s = .next (s.accessAperture h va pa a) :=
  (exec_apertureAccess_ready hr a).trans (next_congr (if_pos (Bool.and_eq_true _ _ ▸ hu).1))

/-- FACC sends its operand as one accumulate. -/
theorem facc_sends {n fmt : Nat} (hn : pa % n = 0) : s.facc h w (.ok pa) n fmt =
    s.sendPosted h pa (s.apertureReq h 3 pa ptACC n fmt 0 (natLE n (s.xreg h (iRs2 w)).toNat)) := by
  rw [Bool.and_eq_true] at hu
  obtain ⟨hap, hok⟩ := hu
  exact (if_neg (not_or.2 ⟨by rw [hap]; decide, not_not_intro hn⟩)).trans (if_neg (by rw [hok]; decide))

end

/-- FACC at an unaligned address takes the access fault with reason SIZE. -/
theorem facc_unaligned {n fmt : Nat} (hn : pa % n ≠ 0) : s.facc h w (.ok pa) n fmt =
    s.hartTrap h exStoreAccess (s.xreg h (iRs1 w)) (some (BitVec.ofNat 64 (2 ^ 56 * hxSize))) :=
  if_pos (Or.inr hn)

section
variable (hi : s.hartIssues h w 5) (hm : s.xctrl h Fld.HOST_XCTRL_FACC_U = true) (hd : iRd w = 0)
include hi hm hd

theorem exec_faccD_issued (h7 : iF7 w = 0) (x : HartXlat) : exec (.faccD h w x) s = .next (s.facc h w x 8 0) :=
  next_congr ((service_runs hi _ _ _ _ (by rw [h7]; rfl)).trans (if_pos (by rw [hm, h7, hd]; rfl)))

theorem exec_faccS_issued (h7 : iF7 w = 1) (x : HartXlat) : exec (.faccS h w x) s = .next (s.facc h w x 4 1) :=
  next_congr ((service_runs hi _ _ _ _ (by rw [h7]; rfl)).trans (if_pos (by rw [hm, hd]; rfl)))

end

end

/-- Settles O35: FACC by what its checks make of the address, an access by the region of its address. -/
theorem accessesOfHarts : Obligations.AccessesOfHarts := by
  refine fun s h w va pa => ⟨fun hi h7 hm hd hu hn => ?_, fun hi h7 hm hd hu hn => ?_, fun hi h7 hm hd hn => ?_, fun hr =>
    ⟨fun n g rd ht => exec_load_tier hr ht, fun n v ht => exec_store_tier hr ht, fun op n v rd ht => exec_amo_tier hr ht,
      fun n rd ht hc => exec_lr_tier hr ht hc, fun n v rd ht hc => exec_sc_unreserved hr ht hc, fun n g rd hu ha => ?load,
      fun n v hu ha => ?store, fun op n v rd hu ha => ?amo, fun g rd => exec_load_register hr⟩⟩
  · exact (exec_faccD_issued hi hm hd h7 _).trans (next_congr (facc_sends hu hn))
  · exact (exec_faccS_issued hi hm hd h7 _).trans (next_congr (facc_sends hu hn))
  · exact (exec_faccD_issued hi hm hd h7 _).trans (next_congr (facc_unaligned hn))
  case load => exact (exec_access_aperture hu hr _).trans (next_congr (accessAperture_load hu ha))
  case store => exact (exec_access_aperture hu hr _).trans (next_congr (accessAperture_store hu ha))
  case amo => exact (exec_access_aperture hu hr _).trans (next_congr (accessAperture_amo hu ha))

end Sys2Proof.Machine
end

section
/-! PROOFS. The vector operations of the host (R250, R269, R270), and registers of a hart that the spec names (R245, R247, R249, R271). -/

namespace Sys2Proof.Machine

section
variable {s : State} {h : Nat} {w : BitVec 32}

/-! ### Dot products (R270) -/

/-- The type, rounding mode and register groups that R270 asks of a dot product on elements of `n` bytes. -/
abbrev State.dotAllowed (s : State) (h : Nat) (w : BitVec 32) (n : Nat) : Bool :=
  let x := s.hart h
  !bit x.vtype.toNat 63 && x.sew == n && decide (x.frm ≤ 1) && iRd w % x.group == 0 && iRs1 w % x.group == 0 &&
    iRs2 w % x.group == 0 && (iVm w || iRd w != 0)

/-- The refusals of `State.xumdot` are what R270 does not allow. -/
theorem dotAllowed_refused (s : State) (h : Nat) (w : BitVec 32) (n : Nat) :
    let x := s.hart h
    (bit x.vtype.toNat 63 || x.sew != n || decide (1 < x.frm) || iRd w % x.group != 0 || iRs1 w % x.group != 0 ||
      iRs2 w % x.group != 0 || (!iVm w && iRd w == 0)) = !s.dotAllowed h w n := by
  simp only [bne, Bool.not_and, Bool.not_or, Bool.not_not, ← Nat.not_le, decide_not]

/-- The word of a dot product does it where R270 allows it, element by element, else it is illegal. -/
theorem xumdot_issued {f6 n : Nat} {lane : Nat → Nat → Nat → Nat → Nat × Nat} (hi : s.hartVector h w 0x5B 0 f6) (hf : f6 ≤ 4) :
    s.xumdot h w f6 n lane = if s.dotAllowed h w n then ((s.activeElems h w (s.hart h).vstart).foldl (fun t i =>
        let r := lane (s.hart h).frm (t.velem h (iRd w) n i) (t.velem h (iRs2 w) n i) (t.velem h (iRs1 w) n i)
        (t.setVelem h (iRd w) n i r.1).addFflags h r.2) s).vretire h
      else s.hartIllegal h w := by
  obtain ⟨hr, ho, h3, h6⟩ := hi
  unfold State.xumdot
  rw [hr, ho, h3, h6, if_neg (by decide), if_neg (by omega), if_neg (not_not_intro rfl)]
  dsimp only
  rw [dotAllowed_refused]
  cases s.dotAllowed h w n with
  | false => rfl
  | true => rfl

/-- A reserved word of Xumdot is illegal (R260). -/
theorem xumdot_reserved {f6 n : Nat} {lane : Nat → Nat → Nat → Nat → Nat × Nat} (hr : s.hartReady h = true) (ho : iOpcode w = 0x5B)
    (h3 : iF3 w ≠ 0 ∨ 4 < iF6 w) : s.xumdot h w f6 n lane = s.hartIllegal h w := by
  unfold State.xumdot
  rw [hr, ho, if_neg (by decide), if_pos h3]

/-! ### Unordered reductions (R250) -/

/-- What a reduction to format `f2` adds to element 0 of vs1: the span tree of the active elements of format `f`, widened exactly. -/
abbrev State.reduced (s : State) (h : Nat) (w : BitVec 32) (n f f2 : Nat) : Nat × Nat :=
  let l := (s.activeElems h w 0).map fun i =>
    let c := s.velem h (iRs2 w) n i
    if f = f2 then (c, 0) else let y := convertNum f2 rmRNE true 0 (decodeNum f c); (y.1, y.2 % 16)
  let v1 := s.velem h (iRs1 w) (fmtBits f2 / 8) 0
  let t := hostTree f2 (s.hart h).frm 16 (l.map (·.1))
  let a := hostAdd f2 (s.hart h).frm v1 t.1
  if l.isEmpty then (v1, 0) else (a.1, (a.2 ||| t.2) ||| (l.map (·.2)).foldl (· ||| ·) 0)

/-- A reduction of a supported width, with vstart 0 and vl not 0, writes what it reduced to element 0. -/
theorem redusum_issued {f6 n f f2 : Nat} {fmts : Nat → Option (Nat × Nat)} (hi : s.hartVector h w 0x57 1 f6)
    (hok : (!bit (s.hart h).vtype.toNat 63 && (s.hart h).vstart == 0 && decide ((s.hart h).frm ≤ 4) &&
      iRs2 w % (s.hart h).group == 0) = true)
    (hn : (s.hart h).sew = n) (hf : fmts n = some (f, f2)) (hl : 0 < (s.hart h).vl) : s.redusum h w f6 fmts =
      ((s.setVelem h (iRd w) (fmtBits f2 / 8) 0 (s.reduced h w n f f2).1).addFflags h (s.reduced h w n f f2).2).vretire h := by
  obtain ⟨hr, ho, h3, h6⟩ := hi
  have hbad : (bit (s.hart h).vtype.toNat 63 || (s.hart h).vstart != 0 || decide (4 < (s.hart h).frm) ||
      iRs2 w % (s.hart h).group != 0) = false := by
    rw [← Bool.not_eq_true', ← hok]
    simp only [bne, Bool.not_or, Bool.not_not, ← Nat.not_le, decide_not]
  subst hn
  unfold State.redusum
  rw [hr, ho, h3, h6, if_neg (by simp)]
  dsimp only
  rw [hbad, if_neg Bool.false_ne_true, hf]
  exact if_neg hl.ne'

/-! ### Registers of a hart -/

theorem hart_setHart_same (s : State) (h : Nat) (x : HartSt) : (s.setHart h x).hart h = x := sGet_sSet_same _ _ _

/-- Only a number of S-level reaches another register (R271). -/
theorem csrReached_own {n : Nat} (md : HartMode) (hn : bits n 9 8 ≠ 1) : csrReached md n = n :=
  if_neg fun hv => hn (beq_iff_eq.1 (Bool.and_eq_true _ _ ▸ hv).2)

theorem csrRead_mhartid (s : State) (h : Nat) : s.csrRead h csrMhartid = BitVec.ofNat 64 h := by
  unfold State.csrRead
  dsimp only
  rw [csrReached_own _ (by decide)]
  rfl

theorem csrRead_time (s : State) (h : Nat) : s.csrRead h csrTime = BitVec.ofNat 64 s.time := by
  unfold State.csrRead
  dsimp only
  rw [csrReached_own _ (by decide)]
  rfl

/-- In VS-mode the number of sxfault reaches vsxfault. -/
theorem csrWrite_sxfault_vs (v : Word) (hm : (s.hart h).mode = .vs) : s.csrWrite h csrSxfault v =
    s.setHart h { s.hart h with vstrap := { (s.hart h).vstrap with xfault := v &&& xfaultMask } } := by
  have hreach : csrReached (s.hart h).mode csrSxfault = csrVsxfault := by
    rw [hm]
    decide
  unfold State.csrWrite
  dsimp only
  rw [hreach]
  rfl

end

/-- Settles O36: dot products by `xumdot_issued`, reductions by `redusum_issued`, the registers of a hart each by its own lemma. -/
theorem vectorOperationsOfHarts : Obligations.VectorOperationsOfHarts := by
  refine fun s h w => ⟨fun hi => next_congr (xumdot_issued hi (by decide)), fun hi => next_congr (xumdot_issued hi (by decide)),
    fun hi => next_congr (xumdot_issued hi (by decide)), fun hi => next_congr (xumdot_issued hi (by decide)),
    fun hi => next_congr (xumdot_issued hi (by decide)), fun hi ho hn hl => next_congr (redusum_issued hi ho hn rfl hl),
    fun hi ho hn hl => next_congr (redusum_issued hi ho hn rfl hl), fun hi ho hn hl => next_congr (redusum_issued hi ho hn rfl hl),
    fun hi ho hn hl => next_congr (redusum_issued hi ho hn rfl hl), fun hi ho hn hl => next_congr (redusum_issued hi ho hn rfl hl),
    fun hr ho h3 => next_congr (xumdot_reserved hr ho h3), fun avl vtype => ?vset, csrRead_mhartid s h, csrRead_time s h, fun v hm => ?vs⟩
  case vset =>
    rw [State.vset, hart_setHart_same]
    exact ⟨rfl, rfl⟩
  case vs =>
    rw [csrWrite_sxfault_vs v hm, hart_setHart_same]
    exact ⟨rfl, rfl⟩

end Sys2Proof.Machine
end

section
/-! PROOFS. Commands of the Resident Solve Engine from outside: submission (R268, R281), the judgement of the front command (R286,
R287), loss (R310) and the end of zeroing (R311). -/

namespace Sys2Proof.Machine

section
variable {s : State}

theorem exec_rseSubmitInsn_issued {h : Nat} {w : BitVec 32} (hi : s.hartIssues h w 4) (hm : s.xctrl h Fld.HOST_XCTRL_RSE_U = true)
    (h7 : iF7 w = 0) (pa : Nat) :
    let c := s.submitRefusal pa
    let x := if c = 0 then s.rseAccept pa ((s.xreg h (iRs2 w)).toNat % 65536) else (s, 0)
    let t := if c = 1 then x.1.bump32 Reg.HOST_CNT_RSE_FULL 1 else x.1
    exec (.rseSubmitInsn h w (.ok pa)) s = .next ((t.setXreg h (iRd w) (BitVec.ofNat 64 (2 ^ 32 * x.2 + c))).retire h) :=
  next_congr ((service_runs hi _ _ _ true rfl).trans (if_pos (by rw [hm, h7]; rfl)))

/-- The commands of the engine with their numbers: each runs the front command of its own number. -/
theorem exec_rseCommand {i : Instr} {cmd : Nat} {k : State → RseCmd → State × RseRes}
    (hi : (i, cmd, k) ∈ [(Instr.setup, 1, State.setupRun), (.update, 2, State.updateRun), (.factor, 3, State.factorRun),
      (.solve, 4, State.solveRun), (.refine, 5, State.refineRun), (.iter, 6, State.iterCmdRun),
      (.rseRelease, 7, fun s c => (s.emptySlot c.slot, { status := rsOK }))]) :
    exec i s = .next (s.rseRun cmd k) ∧ 1 ≤ cmd ∧ cmd ≤ 7 := by
  simp only [List.mem_cons, List.not_mem_nil, or_false, Prod.mk.injEq] at hi
  obtain ⟨rfl, rfl, rfl⟩ | ⟨rfl, rfl, rfl⟩ | ⟨rfl, rfl, rfl⟩ | ⟨rfl, rfl, rfl⟩ | ⟨rfl, rfl, rfl⟩ | ⟨rfl, rfl, rfl⟩ | ⟨rfl, rfl, rfl⟩ := hi
  all_goals exact ⟨rfl, by decide, by decide⟩

end

/-- Settles O37: a submission by `exec_rseSubmitInsn_issued`, the front command by `rseRun_of_front`, the others by their branch. -/
theorem solveCommandsAreJudged : Obligations.SolveCommandsAreJudged := by
  refine fun s h w pa => ⟨fun hi hm h7 => exec_rseSubmitInsn_issued hi hm h7 pa, fun i cmd k q hi hw hq => ?_,
    fun hw => next_congr (if_neg (by rw [hw]; decide)), fun hz => next_congr (if_pos hz), fun hz => next_congr (if_neg (by rw [hz]; decide))⟩
  obtain ⟨hexec, hcmd⟩ := exec_rseCommand (s := s) hi
  rw [hexec]
  obtain ⟨poisoned, sound⟩ := rseRun_of_front (k := k) hw hq hcmd
  exact ⟨fun hp => next_congr (poisoned hp), fun hp hc => next_congr (sound hp hc)⟩

end Sys2Proof.Machine
end

section
/-! PROOFS. The PCIe root port (R554, R555, R593): accesses of harts to its windows, and the reads and writes of devices. -/

namespace Sys2Proof.Machine

section
variable {s : State} {h off : Nat} {va d : Word} {acc : HartAccess} {cpl : PcieCpl}

/-! ### The memory window -/

/-- An unaligned access to a window is one of the wrong size (R251). -/
theorem pcieAccess_unaligned {a : Nat} (h8 : a % 8 ≠ 0) : s.pcieAccess h va a acc cpl d = s.accessFault h (accStore acc) va hxSize :=
  if_pos h8

theorem memWindow_aligned (h8 : off % 8 = 0) : (pcieMemBase + off) % 8 = 0 := by
  unfold pcieMemBase
  omega

/-- What the completion of a read with data `d` delivers (R593): all ones where it is refused, none where it is poisoned. -/
def pcieDelivers (d : Word) : PcieCpl → Option Word
  | .ok => some d
  | .refused => some (BitVec.ofNat 64 (2 ^ 64 - 1))
  | .poisoned => none

theorem pcieRead_memory (hr : s.readable (pcieMemBase + off) = true) :
    s.pcieRead (pcieMemBase + off) cpl d = (s.pciePut ⟨.read, 0x80000000 + off, []⟩, pcieDelivers d cpl) := by
  unfold State.pcieRead
  rw [if_neg (by rw [hr]; decide), if_pos (Nat.le_add_right _ _), Nat.add_sub_cancel_left]
  cases cpl with
  | ok => rfl
  | refused => rfl
  | poisoned => rfl

theorem pcieWrite_memory {v : Word} (hw : s.writable (pcieMemBase + off) = true) :
    s.pcieWrite (pcieMemBase + off) v = s.pciePut ⟨.write, 0x80000000 + off, natLE 8 v.toNat⟩ := by
  unfold State.pcieWrite
  rw [if_neg (by rw [hw]; decide), if_pos (Nat.le_add_right _ _), Nat.add_sub_cancel_left]

section
variable (hr : s.hartReady h = true) (ho : off < 2 ^ 27)
include hr ho

theorem exec_pcieMemoryAccess_ready : exec (.pcieMemoryAccess h va off acc cpl d) s =
    .next (s.pcieAccess h va (pcieMemBase + off) acc cpl d) := next_congr (if_pos ⟨hr, ho⟩)

theorem exec_pcieMemoryAccess_unaligned (h8 : off % 8 ≠ 0) : exec (.pcieMemoryAccess h va off acc cpl d) s =
    .next (s.accessFault h (accStore acc) va hxSize) :=
  (exec_pcieMemoryAccess_ready hr ho).trans (next_congr (pcieAccess_unaligned (by unfold pcieMemBase; omega)))

/-- An AMO faults with SIZE, at whatever offset. -/
theorem exec_pcieMemoryAccess_amo {op n rd : Nat} {v : Word} : exec (.pcieMemoryAccess h va off (.amo op n v rd) cpl d) s =
    .next (s.accessFault h true va hxSize) :=
  (exec_pcieMemoryAccess_ready hr ho).trans (next_congr (ite_self _))

theorem exec_pcieMemoryAccess_store {v : Word} (h8 : off % 8 = 0) (hw : s.writable (pcieMemBase + off) = true) :
    exec (.pcieMemoryAccess h va off (.store 8 v) cpl d) s =
      .next ((s.pciePut ⟨.write, 0x80000000 + off, natLE 8 v.toNat⟩).retire h) := by
  rw [exec_pcieMemoryAccess_ready hr ho, ← pcieWrite_memory hw]
  exact next_congr (if_neg (not_not_intro (memWindow_aligned h8)))

section
variable {g : Bool} {rd : Nat} (h8 : off % 8 = 0) (hw : s.readable (pcieMemBase + off) = true)
include h8 hw

/-- A load whose completion brings a value, or all ones, delivers it. -/
theorem exec_pcieMemoryAccess_load {v : Word} (hv : pcieDelivers d cpl = some v) :
    exec (.pcieMemoryAccess h va off (.load 8 g rd) cpl d) s =
      .next (((s.pciePut ⟨.read, 0x80000000 + off, []⟩).setXreg h rd v).retire h) := by
  refine (exec_pcieMemoryAccess_ready hr ho).trans (next_congr ((if_neg (not_not_intro (memWindow_aligned h8))).trans ?_))
  rw [pcieRead_memory hw, hv]

theorem exec_pcieMemoryAccess_poisoned : exec (.pcieMemoryAccess h va off (.load 8 g rd) .poisoned d) s =
    .next (((s.pciePut ⟨.read, 0x80000000 + off, []⟩).poisonUsed 4 ((pcieMemBase + off) / 64 * 64)).accessFault h false va hxPoison) := by
  refine (exec_pcieMemoryAccess_ready hr ho).trans (next_congr ((if_neg (not_not_intro (memWindow_aligned h8))).trans ?_))
  rw [pcieRead_memory hw]
  rfl

end

end

/-! ### Stores to the configuration window -/

/-- A store to the configuration window goes by its offset. -/
theorem pcieWrite_config {v : Word} (ho : off < 2 ^ 26) (hw : s.writable (pcieCfgBase + off) = true) : s.pcieWrite (pcieCfgBase + off) v =
    if cfgRoot off then if off = 0x18 then { s with pcieSub := min 63 (bits v.toNat 23 16) } else s
    else if s.cfgDown off then s.pciePut ⟨.cfgWrite, off, natLE 8 v.toNat⟩
    else s := by
  unfold State.pcieWrite
  rw [if_neg (by rw [hw]; decide), if_neg (by unfold pcieMemBase pcieCfgBase; omega), Nat.add_sub_cancel_left]

section
variable (hr : s.hartReady h = true) (ho : off < 2 ^ 26) (h8 : off % 8 = 0)
include hr ho h8

theorem exec_pcieConfigAccess_store {v : Word} : exec (.pcieConfigAccess h va off (.store 8 v) cpl d) s =
    .next ((s.pcieWrite (pcieCfgBase + off) v).retire h) := by
  have aligned : (pcieCfgBase + off) % 8 = 0 := by
    unfold pcieCfgBase
    omega
  exact next_congr ((if_pos ⟨hr, ho⟩).trans (if_neg (not_not_intro aligned)))

end

/-- The buses below the root port lie past its own function. -/
theorem cfgRoot_of_bus (hb : 1 ≤ bits off 27 20) : cfgRoot off = false := by
  unfold bits at hb
  exact decide_eq_false (by omega)

/-! ### Devices (R554) -/

section
variable {a n : Nat} (hu : s.pcieUp = true) (ht : s.inTier a = true)
include hu ht

theorem exec_pcieDmaRead_clean (hs : (s.read a n).stat = .ok) :
    exec (.pcieDmaRead a n) s = .next ((s.read a n).st.pciePut ⟨.done false, a, (s.read a n).data⟩) := by
  refine next_congr ((if_neg (by rw [hu]; decide)).trans ((if_neg (by rw [ht]; decide)).trans ?_))
  dsimp only
  rw [hs]

theorem exec_pcieDmaRead_poisoned (hs : (s.read a n).stat = .poison) : exec (.pcieDmaRead a n) s =
    .next (((s.read a n).st.poisonUsed 4 (s.read a n).line).pciePut ⟨.done true, a, List.replicate n 0⟩) := by
  refine next_congr ((if_neg (by rw [hu]; decide)).trans ((if_neg (by rw [ht]; decide)).trans ?_))
  dsimp only
  rw [hs]
  rfl

theorem exec_pcieDmaWrite_up (bs : List Byte) (ep : Bool) : exec (.pcieDmaWrite a bs ep) s =
    .next (if ep = false ∨ (s.write a bs).2 = .absent then (s.write a bs).1
      else (linesOf a bs.length).foldl (fun (t : State) l => t.setPoison l true) (s.write a bs).1) :=
  next_congr (if_neg (by rw [hu, ht]; decide))

end

end

/-- Settles O49: an access of a hart by its window, kind and offset, one of a device by what its read or write finds. -/
theorem pcieRootPort : Obligations.PcieRootPort := by
  refine fun s h off va => ⟨fun hr ho => ⟨fun h8 hw g rd d => ⟨?ok, ?refused, ?poisoned⟩,
      fun h8 hw v cpl d => exec_pcieMemoryAccess_store hr ho h8 hw, fun h8 acc cpl d => exec_pcieMemoryAccess_unaligned hr ho h8,
      fun op n v rd cpl d => exec_pcieMemoryAccess_amo hr ho⟩,
    fun hr ho h8 hw v cpl d => ?config,
    fun a n hu ht => ⟨exec_pcieDmaRead_clean hu ht, exec_pcieDmaRead_poisoned hu ht⟩,
    fun a bs hu ht => ⟨?sound, fun hn => ?ep⟩⟩
  case ok => exact exec_pcieMemoryAccess_load hr ho h8 hw rfl
  case refused => exact exec_pcieMemoryAccess_load hr ho h8 hw rfl
  case poisoned => exact exec_pcieMemoryAccess_poisoned hr ho h8 hw
  case config =>
    rw [exec_pcieConfigAccess_store hr ho h8, pcieWrite_config ho hw]
    constructor
    · rintro rfl
      rfl
    · intro hlo hhi
      rw [cfgRoot_of_bus hlo, if_neg Bool.false_ne_true, if_pos (by rw [State.cfgDown, cfgBus, decide_eq_true hlo, decide_eq_true hhi]; rfl)]
      rfl
  case sound => exact (exec_pcieDmaWrite_up hu ht bs false).trans (next_congr (if_pos (.inl rfl)))
  case ep => exact (exec_pcieDmaWrite_up hu ht bs true).trans (next_congr (if_neg (not_or.2 ⟨by decide, hn⟩)))

end Sys2Proof.Machine
end

section
/-! PROOFS. What the commands of the Resident Solve Engine do once they are judged sound (R278, R289, R292, R294, R299, R302, R306). -/

namespace Sys2Proof.Machine

section
variable {s t u : State} {q : RseCmd}

/-- A valid command at the front, in a slot state that allows it, completes with what its run leaves. -/
theorem exec_of_run {i : Instr} {cmd : Nat} {k : State → RseCmd → State × RseRes} {r : RseRes} (hw : s.working capRse = true)
    (hq : s.rse.queue.head? = some q) (hp : q.poison = false) (hv : s.rseValid q = true) (ho : s.rseStateOk q = true)
    (hi : (i, cmd, k) ∈ [(Instr.setup, 1, State.setupRun), (.update, 2, State.updateRun), (.factor, 3, State.factorRun),
      (.solve, 4, State.solveRun), (.refine, 5, State.refineRun), (.iter, 6, State.iterCmdRun),
      (.rseRelease, 7, fun s c => (s.emptySlot c.slot, { status := rsOK }))]) (hc : q.cmd = cmd) (run : k s q = (u, r)) :
    exec i s = .next (u.rseComplete q r) := by
  obtain ⟨hexec, hcmd⟩ := exec_rseCommand (s := s) hi
  rw [hexec, (rseRun_of_front hw hq hcmd).2 hp hc, hv, ho, run]
  rfl

/-! ### FACTOR without an image (R294) -/

theorem factorRun_plain (himport : bit q.args 0 = false) (hexport : bit q.args 1 = false) : State.factorRun s q = s.factorise q :=
  (if_neg (by rw [himport]; decide)).trans (if_pos (.inr hexport))

/-! ### Vectors (R302, R306) -/

theorem solveRun_one {b x : List Nat} (hone : q.w 2 = 1) (hb : s.rhs (q.w 3) (s.slotN q.slot) = (t, .inr b))
    (hx : rseSolve (t.slot q.slot) (t.slotChol q.slot) (nums (b.take (t.slotN q.slot))) = some x)
    (hput : t.rsePut (q.w 4) (t.headed q.slot x) = (u, rsOK)) :
    State.solveRun s q = (u, { status := rsOK, flags := u.staleFlag q.slot }) := by
  simp only [State.solveRun, State.solveFrom, hone, Nat.mul_one, Nat.mul_zero, Nat.add_zero, List.drop_zero, hb, hx, hput]
  rfl

theorem iterOut_put {o : IterOut} (hput : s.rsePut (q.w 3) (s.headed q.slot (o.x.map rne64Code)) = (u, rsOK)) (flags : Nat) :
    s.iterOut q o flags = (u, { status := o.status, count := o.count, metric := rne64Code o.metric,
                                flags := flags + (if o.status = rsOK then rfConverged else 0) }) := by
  simp only [State.iterOut, hput]
  rfl

theorem iterRun_unguessed {b : List Nat} (hb : s.rhs (q.w 2) (s.slotN q.slot) = (t, .inr b))
    (start : State → List Nat → Option (List Nat) → Nat → State × RseRes) : s.iterRun q false start = start t b none 0 := by
  simp only [State.iterRun, hb, if_true]

theorem refineRun_unguessed {b v : List Nat} (hg : bit q.args 4 = false) (hb : s.rhs (q.w 2) (s.slotN q.slot) = (t, .inr b))
    (hv : rseSolve (t.slot q.slot) (t.slotChol q.slot) (nums b) = some v) :
    State.refineRun s q = t.iterOut q (refineLoop (t.slot q.slot) (t.slotChol q.slot) (wholeA (t.slot q.slot) (t.slotChol q.slot)) (nums b)
      (decodeNum fmtFP64 (q.w 4)) 0 (bits q.args 3 0) (nums v)) (t.staleFlag q.slot) := by
  rw [State.refineRun, hg, iterRun_unguessed hb]
  simp only [hv, Nat.zero_add]

theorem iterCmdRun_unguessed {b : List Nat} (hg : bit q.args 3 = false) (hb : s.rhs (q.w 2) (s.slotN q.slot) = (t, .inr b)) :
    State.iterCmdRun s q = t.iterOut q (rseIter (t.slot q.slot) (t.slotChol q.slot) (bit q.args 0) (bits q.args 2 1) (bits q.args 31 16)
      (decodeNum fmtFP64 (q.w 4)) (nums b) (nums (List.replicate (t.slotN q.slot) 0)))
      (if bits q.args 2 1 = 2 then t.staleFlag q.slot else 0) := by
  rw [State.iterCmdRun, hg, iterRun_unguessed hb]
  simp only [Nat.zero_add, Option.getD_none]

end

/-- Settles O38: each command by `exec_of_run`, on what its run leaves. -/
theorem whatSolveCommandsDo : Obligations.WhatSolveCommandsDo := by
  intro s q hw hq hp hv ho
  have completes {i cmd k u r} := exec_of_run (i := i) (cmd := cmd) (k := k) (u := u) (r := r) hw hq hp hv ho
  refine ⟨fun hc => ?release, fun t1 t2 t3 rowptr colidx vals hc => ?setup, fun t vals hc => ?update,
    fun hc himport hexport => completes (by simp) hc (factorRun_plain himport hexport),
    fun t b x u hc hone hb hx hput => completes (by simp) hc (solveRun_one hone hb hx hput),
    fun t b v u hc hg hb hx hput => completes (by simp) hc ((refineRun_unguessed hg hb hx).trans (iterOut_put hput _)),
    fun t b u hc hg hb hput => completes (by simp) hc ((iterCmdRun_unguessed hg hb).trans (iterOut_put hput _))⟩
  case release => exact completes (k := fun s c => (s.emptySlot c.slot, { status := rsOK })) (by simp) hc rfl
  case setup =>
    intro m nnz chol perm x nnzF foot dg u v hown hout hm hm' hnnz hnnz' hrow hcol hval hsound hnnzF hfoot
    refine completes (k := State.setupRun) (by simp) hc ((if_neg (by omega)).trans ?_)
    rw [hrow, hown, hout]
    dsimp only
    rw [hcol, hval]
    simp only [Bool.false_eq_true, if_false, bne_self_eq_false, Bool.and_false]
    rw [hsound]
    exact (if_neg (Nat.not_lt.2 hnnzF)).trans (if_neg (Nat.not_lt.2 hfoot))
  case update =>
    dsimp only
    intro hfull hread hfinite hplaces
    refine (completes (by simp) hc (Prod.mk.eta (p := State.updateRun s q)).symm).trans ?_
    simp only [State.updateRun, hfull, if_true, hread, hfinite, hplaces]
    cases List.filter (outOfRange (t.slot q.slot)) ((List.range (s.slotNnz q.slot)).zip vals) with
    | nil => rfl
    | cons p r => rfl

end Sys2Proof.Machine
end

section
/-! PROOFS. Reads of stored lines, and writes of whole lines and of parts of a line (R320, R321, R328 to R330, R337). -/

namespace Sys2Proof.Machine

/-! ### One access within one line -/

/-- A read of a key looks at the default of that key alone. -/
theorem sGet_congr_default {α : Type} {d d' : Nat → α} {k : Nat} (h : d k = d' k) (l : List (Nat × α)) : sGet d l k = sGet d' l k := by
  induction l with
  | nil => exact h
  | cons e r ih => rw [sGet, sGet, ih]

theorem linesOf_within {l o n : Nat} (h0 : l % 64 = 0) (hn : 0 < n) (ho : o + n ≤ 64) : linesOf (l + o) n = [l] := by
  have hone : ((l + o) % 64 + n - 1) / 64 + 1 = 1 := by omega
  have hbase : (l + o) / 64 * 64 = l := by omega
  rw [linesOf, if_neg (by omega), hone, hbase]
  rfl

/-- Bytes of an entry lie over their own line alone. -/
theorem byte_of_same_entry {s t : State} {a : Nat} (hd : byteAt t.mem.data a = byteAt s.mem.data a)
    (hw : t.wcOf (a / 64 * 64) = s.wcOf (a / 64 * 64)) : t.byte a = s.byte a := by
  have hbase : a / 64 * 64 + a % 64 = a := by omega
  unfold State.byte
  rw [hw]
  cases s.wcOf (a / 64 * 64) with
  | none => exact hd
  | some e => exact sGet_congr_default (by rw [hbase, hd]) e.bytes

theorem exec_memoryRead_line {s : State} {l : Nat} (h0 : l % 64 = 0) (e : LaneErr) :
    exec (.memoryRead l e) s = .next ((s.errFound l e).read l 64).st := by
  have hbase : l / 64 * 64 = l := by omega
  show Host.Outcome.next ((s.errFound (l / 64 * 64) e).read (l / 64 * 64) 64).st = _
  rw [hbase]

/-- Where no home window marks it, a write with no lane in error is the write itself. -/
theorem exec_memoryWrite_unmarked {s : State} {a : Nat} {bs : List Byte} {r : State × MemStat} (hr : s.writeRaw a bs = r)
    (hw : r.2 = .ok → r.1.homeWins = []) : exec (.memoryWrite a bs ⟨[], false⟩) s = .next r.1 := by
  show Host.Outcome.next ((s.errFound (a / 64 * 64) ⟨[], false⟩).write a bs).1 = _
  rw [errFound_clean, State.write, hr]
  exact congrArg (fun p : State × MemStat => Host.Outcome.next p.1) (if_neg fun h => h.2 (hw h.1))

section
variable {s : State} {l u : Nat} (h0 : l % 64 = 0) (hp : (s.place l).unit = some u)

section
include h0

theorem writeRaw_line {o : Nat} {bs : List Byte} (hx : s.exists l 64 = true) (hn : 0 < bs.length) (ho : o + bs.length ≤ 64) :
    s.writeRaw (l + o) bs = s.writeLine l o bs := by
  have hoff : (if l + o ≤ l then 0 else l + o - l) = o := by split <;> omega
  have hex : s.exists (l + o) bs.length = true := by
    unfold State.exists at hx ⊢
    rwa [linesOf_within h0 hn ho, ← linesOf_line h0]
  rw [State.writeRaw, if_pos hex, linesOf_within h0 hn ho]
  unfold State.writeLines
  dsimp only
  rw [hoff, List.take_of_length_le (by omega)]
  unfold State.writeLines
  exact Prod.ext rfl (ite_eq_right_iff.2 Eq.symm)

end

/-! ### What the write of a line does to a unit -/

section
include hp

theorem place_count_write : (s.bump64 (cntWr u) 1).place l = s.place l :=
  have h := unit_counters_ne u (place_unit_lt hp).1
  place_congr hp (by rw [rd_bump64, if_neg h.2.1.1]) (by rw [rd_bump64, if_neg h.2.1.2])

theorem writeLine_failed (hf : s.unitFailed u = true) (o : Nat) (bs : List Byte) :
    s.writeLine l o bs = (s.bump64 (cntWr u) 1, .poison) := by
  have hc := (unitFailed_count hp 1).trans hf
  unfold State.writeLine
  rcases (place_unit_lt hp).2 with ⟨hk, -⟩ | ⟨hk, hu⟩
  · rw [hk]
    exact if_pos hc
  · have hn : 16 + (u - 16) = u := by omega
    rw [hk]
    dsimp only
    rw [hn]
    exact if_pos hc

/-- A line with no error of its own comes poisoned where it is stored so. -/
theorem readLine_no_error (hf : s.unitFailed u = false) (he : s.lineErr l = .none) : s.readLine l = (s, s.poisoned l) := by
  unfold State.readLine
  rw [hp]
  dsimp only
  rw [hf, he, if_neg Bool.false_ne_true]
  cases s.poisoned l <;> rfl

theorem writeLine_partial (hf : s.unitFailed u = false) (he : s.lineErr l = .none) (hu : u < 16) {o : Nat} {bs : List Byte}
    (hb : bs.length ≠ 64) : s.writeLine l o bs =
      (if s.poisoned l then s.bump64 (cntWr u) 1 else (s.bump64 (cntWr u) 1).storeBytes (l + o) bs, .ok) := by
  have hc := (unitFailed_count hp 1).trans hf
  have hread := readLine_no_error (s := s.bump64 (cntWr u) 1) ((congrArg _ (place_count_write hp)).trans hp) hc he
  rcases (place_unit_lt hp).2 with ⟨hk, -⟩ | ⟨-, h16⟩
  · unfold State.writeLine
    rw [hk]
    dsimp only
    rw [hc, if_neg Bool.false_ne_true, if_neg (by simpa using hb), hread]
    exact (apply_ite (fun x : State => (x, MemStat.ok)) _ _ _).symm
  · omega

end

/-- The state in which a whole line is replaced: the write is counted, and a channel has dropped its entry of the line. -/
def State.lineFreed (s : State) (l u : Nat) : State :=
  let b := s.bump64 (cntWr u) 1
  if u < 16 then b else (b.wcDrop l).wcOcc (u - 16)

include hp in
theorem writeLine_whole (hf : s.unitFailed u = false) {bs : List Byte} (hb : bs.length = 64) :
    s.writeLine l 0 bs = ((s.lineFreed l u).storeLine l bs, .ok) := by
  have hc := (unitFailed_count hp 1).trans hf
  unfold State.writeLine State.lineFreed
  dsimp only
  rw [hb, decide_eq_true rfl]
  rcases (place_unit_lt hp).2 with ⟨hk, hu⟩ | ⟨hk, hu⟩
  · rw [hk, if_pos (show u < 16 by omega)]
    dsimp only
    rw [hc, if_neg Bool.false_ne_true, if_pos rfl]
  · have hn : 16 + (u - 16) = u := by omega
    rw [hk, if_neg (show ¬ u < 16 by omega)]
    dsimp only
    rw [hn, hc, if_neg Bool.false_ne_true, if_pos rfl]

/-- Entries before a whole line is replaced: those of other lines. -/
theorem wcOf_lineFreed_same (hw : u < 16 → s.wcOf l = none) : (s.lineFreed l u).wcOf l = none := by
  unfold State.lineFreed
  dsimp only
  split
  · exact hw ‹_›
  · unfold State.wcOf
    rw [wcOcc_mem]
    exact List.find?_eq_none.2 fun e he => by
      have := (List.mem_filter.1 he).2
      simpa using this

theorem wcOf_lineFreed_other {m : Nat} (hm : m ≠ l) : (s.lineFreed l u).wcOf m = s.wcOf m := by
  unfold State.lineFreed
  dsimp only
  split
  · rfl
  · unfold State.wcOf
    rw [wcOcc_mem]
    exact find_filter_line _ hm

theorem data_lineFreed : (s.lineFreed l u).mem.data = s.mem.data := by
  unfold State.lineFreed
  dsimp only
  split
  · rfl
  · rw [wcOcc_mem]
    rfl

theorem sameBut_lineFreed : s.sameBut (s.lineFreed l u) [cntWr u, Reg.MEMC_CH_STATUS (Reg.chanWin (u - 16))] := by
  intro a ha
  rw [List.mem_cons, List.mem_singleton, not_or] at ha
  have hb : (s.bump64 (cntWr u) 1).rd a = s.rd a := by rw [rd_bump64, if_neg ha.1]
  unfold State.lineFreed
  dsimp only
  split
  · exact hb
  · rw [State.wcOcc, rd_setFld, if_neg ha.2]
    exact hb

include hp in
theorem homeWins_lineFreed (hw : s.homeWins = []) : (s.lineFreed l u).homeWins = [] := by
  obtain ⟨hc, hs⟩ := unit_counters_no_window u (place_unit_lt hp).1
  have hb : (s.bump64 (cntWr u) 1).homeWins = [] := homeWins_wr hw hc
  unfold State.lineFreed
  dsimp only
  split
  · exact hb
  · exact homeWins_wr (s := (s.bump64 (cntWr u) 1).wcDrop l) hb (hs (by omega)).1

/-! ### A line after it is replaced -/

section
variable {bs : List Byte} (hb : bs.length = 64)

include h0 hb in
theorem bytes_storeLine (hw : s.wcOf l = none) : (s.storeLine l bs).bytes l 64 = bs := by
  have hbyte (i : Nat) (hi : i < 64) : (s.storeLine l bs).byte (l + i) = byteAt (putBytes s.mem.data l bs) (l + i) := by
    have hbase : (l + i) / 64 * 64 = l := by omega
    unfold State.byte
    rw [hbase, show (s.storeLine l bs).wcOf l = none from hw]
    rfl
  rw [bytes_eq_map _ _ 64 l hbyte]
  refine List.ext_getElem (by simp [hb]) fun i _ hi => ?_
  rw [List.getElem_map, List.getElem_range, byteAt_putBytes_same hi]

include hb in
theorem byteAt_storeLine_other {a : Nat} (ha : a < l ∨ l + 64 ≤ a) : byteAt (s.storeLine l bs).mem.data a = byteAt s.mem.data a :=
  byteAt_putBytes_other (by rw [hb]; exact ha)

theorem poisoned_storeLine : (s.storeLine l bs).poisoned l = false :=
  sGet_sSet_same (d := noMark) s.mem.poison l false

theorem lineErr_storeLine : (s.storeLine l bs).lineErr l = .none :=
  sGet_sSet_same (d := noErr) s.mem.errs l .none

end

/-! ### The commands -/

section
include h0 hp

/-- A read of a line whose stored error the lanes found have set. -/
theorem exec_memoryRead_found (hx : s.exists l 64 = true) (hf : s.unitFailed u = false) (hq : s.poisoned l = false) (e : LaneErr) :
    (s.codeOut l e.lanes = .clean → s.lineErr l = .none → exec (.memoryRead l e) s = .next (s.bump64 (cntRd u) 1)) ∧
      (s.codeOut l e.lanes = .corrects → exec (.memoryRead l e) s =
        .next (((s.setErr l (.ce (laneSymbol e true))).bump64 (cntRd u) 1).corrected u l (laneSymbol e true))) ∧
      (s.codeOut l e.lanes = .detects → exec (.memoryRead l e) s =
        .next (((s.setErr l (.ue (laneSymbol e e.located))).bump64 (cntRd u) 1).ueRead u l (laneSymbol e e.located))) := by
  obtain ⟨hclean, hce, hue⟩ := errFound_unit hp hq e
  have hread (y : LineErr) := line_read (s := s.setErr l y) h0 hp hx hf hq
  have hstored (y : LineErr) : (s.setErr l y).lineErr l = y := sGet_sSet_same _ _ _
  rw [exec_memoryRead_line h0]
  refine ⟨fun hc hn => ?_, fun hc => ?_, fun hc => ?_⟩
  · rw [hclean hc, line_read h0 hp hx hf hq, hn]
  · rw [hce hc, hread, hstored]
  · rw [hue hc, hread, hstored]

theorem exec_memoryWrite_whole (hx : s.exists l 64 = true) (hf : s.unitFailed u = false) (hw : s.homeWins = [])
    {bs : List Byte} (hb : bs.length = 64) :
    exec (.memoryWrite l bs ⟨[], false⟩) s = .next ((s.lineFreed l u).storeLine l bs) :=
  exec_memoryWrite_unmarked ((writeRaw_line h0 hx (by omega) (by omega)).trans (writeLine_whole hp hf hb))
    fun _ => homeWins_lineFreed hp hw

theorem exec_memoryWrite_failed (hx : s.exists l 64 = true) (hf : s.unitFailed u = true) {bs : List Byte} (hb : bs.length = 64) :
    exec (.memoryWrite l bs ⟨[], false⟩) s = .next (s.bump64 (cntWr u) 1) :=
  exec_memoryWrite_unmarked ((writeRaw_line h0 hx (by omega) (by omega)).trans (writeLine_failed hp hf 0 bs)) nofun

/-- A partial write to the fast tier is counted, and changes its bytes alone where the line is sound. -/
theorem exec_memoryWrite_partial (hx : s.exists l 64 = true) (hf : s.unitFailed u = false) (hw : s.homeWins = []) (hu : u < 16)
    (he : s.lineErr l = .none) {o : Nat} {bs : List Byte} (hn : 0 < bs.length) (ho : o + bs.length ≤ 64) (hb : bs.length ≠ 64) :
    exec (.memoryWrite (l + o) bs ⟨[], false⟩) s =
      .next (if s.poisoned l then s.bump64 (cntWr u) 1 else (s.bump64 (cntWr u) 1).storeBytes (l + o) bs) := by
  have hwin : (s.bump64 (cntWr u) 1).homeWins = [] := homeWins_wr hw (unit_counters_no_window u (place_unit_lt hp).1).1
  refine exec_memoryWrite_unmarked ((writeRaw_line h0 hx hn ho).trans (writeLine_partial hp hf he hu hb)) fun _ => ?_
  dsimp only
  split <;> exact hwin

end

end

/-- Settles O39: a read by what the code makes of its lanes, a write by whether its unit works and whether it fills the line. -/
theorem lineReadsAndWrites : Obligations.LineReadsAndWrites := by
  intro s l u h0 hp _ hx
  refine ⟨fun _ => codeOut_lane hp, fun hf hq e => exec_memoryRead_found h0 hp hx hf hq e, fun hf hw hwc bs hb => ?whole,
    fun hf hw hu he o bs hn ho hb => ?part, fun hf _ bs hb => exec_memoryWrite_failed h0 hp hx hf hb⟩
  case whole =>
    refine ⟨_, exec_memoryWrite_whole h0 hp hx hf hw hb, bytes_storeLine h0 hb (wcOf_lineFreed_same hwc), poisoned_storeLine,
      lineErr_storeLine, fun a ha => ?_, sameBut_lineFreed⟩
    refine byte_of_same_entry ?_ (wcOf_lineFreed_other (by omega))
    rw [byteAt_storeLine_other hb ha, data_lineFreed]
  case part =>
    have hsame : s.sameBut (s.bump64 (cntWr u) 1) [cntWr u] := fun a ha => by rw [rd_bump64, if_neg (by simpa using ha)]
    refine ⟨_, exec_memoryWrite_partial h0 hp hx hf hw hu he hn ho hb, fun hq => ?_, fun hq => ?_, ?_⟩
    · rw [if_pos hq]
      exact ⟨rfl, hq⟩
    · rw [if_neg (by rw [hq]; decide)]
      exact ⟨rfl, rfl⟩
    · split <;> exact hsame

end Sys2Proof.Machine
end

section
/-! PROOFS. A reset and the strapped clock source (R66, R451, R453): registers outside the standby domain are not all at their reset
values, since HLY_STATUS.CLK_SRC shows the strap. -/

namespace Sys2Proof.Machine

theorem rd_warm_kept {a : Nat} (h : warmReg a = true) (s : State) (keep : Bool) : (s.warm keep).rd a = s.rd a :=
  sGet_filter_kept _ _ _ h

/-- With no write-combining entry to flush, registers stand before a reset. -/
theorem rd_wcBeforeReset_no_entry {s : State} (h : s.mem.wc = []) (srcs : List Nat) (a : Nat) : (s.wcBeforeReset srcs).rd a = s.rd a := by
  unfold State.wcBeforeReset
  split
  · rfl
  · rw [State.wcFlushAll, h]
    rfl

/-- CLK_SRC after a reset is the strap as sampled, which the standby domain keeps (R451). -/
theorem fld_clkSrc_resetEffect (s : State) (srcs : List Nat) : (s.resetEffect srcs).fld Reg.HLY_STATUS Fld.HLY_STATUS_CLK_SRC =
    (s.wcBeforeReset (resetSources srcs)).fld Reg.RST_STRAP Fld.RST_STRAP_CLK_MODE := by
  have hset (t : State) (x : Nat) : (t.setFld Reg.HLY_STATUS Fld.HLY_STATUS_CLK_SRC x).fld Reg.HLY_STATUS Fld.HLY_STATUS_CLK_SRC = x % 4 :=
    fld_setFld_same _ _ _ _ (by decide)
  refine (hset _ _).trans ((Nat.mod_eq_of_lt (getF_lt _ _)).trans ?_)
  unfold State.fld
  rw [rd_wr_other _ _ (by decide), rd_wr_other _ _ (by decide), rd_wr_other _ _ (by decide), rd_setFlds, if_neg (by decide),
    rd_warm_kept (by decide), rd_setFld, if_neg (by decide)]

theorem fld_clkSrc_takeReset {s : State} (h : s.mem.wc = []) : (s.takeReset [srcLANYARD]).fld Reg.HLY_STATUS Fld.HLY_STATUS_CLK_SRC =
    s.fld Reg.RST_STRAP Fld.RST_STRAP_CLK_MODE := by
  have hcause : s.resetCauses [srcLANYARD] = s.event Reg.RST_CAUSE ⟨srcLANYARD, srcLANYARD⟩ (Reg.RST_CNT_SBPOR + 8 * srcLANYARD) := rfl
  rw [State.takeReset, fld_clkSrc_resetEffect, State.fld, rd_wcBeforeReset_no_entry, hcause,
    rd_event _ _ _ _ _ _ (by decide) (by decide) (by decide) (by decide) (by decide), State.fld]
  rw [hcause, event_mem, h]

/-- Refutes O59: with CLK_MODE strapped to 01, HLY_STATUS.CLK_SRC reads 1 after a reset from Lanyard, and its reset value is 0. -/
theorem not_aResetLeavesTheStandbyDomain : ¬ Obligations.AResetLeavesTheStandbyDomain := by
  intro h
  obtain ⟨hregs, -⟩ := h.1 (State.reset.setFld Reg.RST_STRAP Fld.RST_STRAP_CLK_MODE 1) [srcLANYARD]
  have hshown := fld_clkSrc_takeReset (s := State.reset.setFld Reg.RST_STRAP Fld.RST_STRAP_CLK_MODE 1) rfl
  rw [State.fld, hregs Reg.HLY_STATUS (by decide), fld_setFld_same _ _ _ _ (by decide)] at hshown
  exact absurd hshown (by decide)

end Sys2Proof.Machine
end

section
/-! PROOFS. Write-combining flushes, refresh, patrol scrub and failure in operation (R322, R328, R331, R334 to R337, R556). -/

namespace Sys2Proof.Machine

/-! ### Write-combining (R331) -/

theorem exec_wcAgeExpiry_held {s : State} {l : Nat} {e : WcEntry} (h : s.wcOf l = some e) : exec (.wcAgeExpiry l) s =
    .next ((s.timeTo (e.born + 1000 * s.fld Reg.MEMC_WC_CTRL Fld.MEMC_WC_CTRL_AGE_US)).wcFlush e) := by
  show execWcAgeExpiry l s = _
  unfold execWcAgeExpiry
  rw [h]

section
variable {g : State} {e : WcEntry}

theorem wcOf_wcFlush : (g.wcFlush e).wcOf e.line = none :=
  List.find?_eq_none.2 fun x hx => by simpa using (wcFlush_wc g e x hx).2

variable {c : Nat} (hk : g.place e.line = .cap c) (hf : g.unitFailed (16 + c) = false)
include hk hf

/-- A whole entry replaces its line. -/
theorem mem_wcFlush_whole (hb : e.bytes.length = 64) :
    (g.wcFlush e).mem = ((((g.wcDrop e.line).wcStore e).setPoison e.line false).setErr e.line .none).mem := by
  have hd : (g.wcDrop e.line).unitFailed (16 + c) = false := hf
  unfold State.wcFlush
  rw [hk]
  dsimp only
  rw [wcOcc_mem, hd, if_neg Bool.false_ne_true, hb, if_pos (beq_self_eq_true 64)]
  rfl

/-- Over a poisoned line a partial entry is discarded. -/
theorem mem_wcFlush_poisoned (hq : g.poisoned e.line = true) (hb : e.bytes.length ≠ 64) : (g.wcFlush e).mem = (g.wcDrop e.line).mem := by
  have hd : (g.wcDrop e.line).unitFailed (16 + c) = false := hf
  have hp : ((g.wcDrop e.line).bump64 (cntWcRmw c) 1).poisoned e.line = true := hq
  unfold State.wcFlush
  rw [hk]
  dsimp only
  rw [wcOcc_mem, hd, if_neg Bool.false_ne_true, if_neg (by simpa using hb), hp]
  exact event_mem _ _ _ _ _

/-- Over a sound line the bytes of an entry are merged. -/
theorem mem_wcFlush_sound (hq : g.poisoned e.line = false) (he : g.lineErr e.line = .none) (hb : e.bytes.length ≠ 64) :
    (g.wcFlush e).mem = ((g.wcDrop e.line).wcStore e).mem := by
  have hd : (g.wcDrop e.line).unitFailed (16 + c) = false := hf
  have hp : ((g.wcDrop e.line).bump64 (cntWcRmw c) 1).poisoned e.line = false := hq
  have hn : ((g.wcDrop e.line).bump64 (cntWcRmw c) 1).lineErr e.line = .none := he
  unfold State.wcFlush
  rw [hk]
  dsimp only
  rw [wcOcc_mem, hd, if_neg Bool.false_ne_true, if_neg (by simpa using hb), hp, hn]
  rfl

theorem data_wcFlush (hq : g.poisoned e.line = false) (he : g.lineErr e.line = .none) :
    (g.wcFlush e).mem.data = putEntry g.mem.data e.line e.bytes := by
  by_cases hb : e.bytes.length = 64
  · rw [mem_wcFlush_whole hk hf hb]
    rfl
  · rw [mem_wcFlush_sound hk hf hq he hb]
    rfl

theorem wcFlush_whole_replaces (hb : e.bytes.length = 64) :
    (g.wcFlush e).mem.data = putEntry g.mem.data e.line e.bytes ∧ (g.wcFlush e).poisoned e.line = false := by
  rw [State.poisoned, mem_wcFlush_whole hk hf hb]
  exact ⟨rfl, sGet_sSet_same (d := noMark) g.mem.poison e.line false⟩

theorem wcFlush_partial_discarded (hq : g.poisoned e.line = true) (hb : e.bytes.length ≠ 64) :
    (g.wcFlush e).mem.data = g.mem.data ∧ (g.wcFlush e).poisoned e.line = true := by
  rw [State.poisoned, mem_wcFlush_poisoned hk hf hq hb]
  exact ⟨rfl, hq⟩

end

theorem exec_memcWcFlush_held {s : State} {agent : Agent} (ha : (s.ctx agent).priv = true) (h : s.mem.wc ≠ []) : exec (.memcWcFlush agent) s =
    .next ((s.setFld Reg.MEMC_WC_CTRL Fld.MEMC_WC_CTRL_FLUSHING 1).wcFlushList s.mem.wc) :=
  congrArg _ ((if_pos ha).trans (if_neg h))

/-- Flushing every entry leaves none. -/
theorem wcFlushList_all {s : State} {l : List WcEntry} (h : s.mem.wc = l) : (s.wcFlushList l).mem.wc = [] :=
  List.eq_nil_iff_forall_not_mem.2 fun x hx =>
    have ⟨hin, hne⟩ := wcFlushList_wc l s x hx
    hne x (h ▸ hin) rfl

/-! ### Refresh (R322) -/

theorem exec_dramRefresh_stack {s : State} {u : Nat} (hu : u < 12) (hs : s.unitState u = 2) :
    let temp := sext 16 (s.fld (Reg.MEMF_ST_TEMP (unitWin u)) Fld.MEMF_ST_TEMP_TEMP)
    exec (.dramRefresh u) s = .next (s.setFld (Reg.MEMF_ST_STATUS (unitWin u)) Fld.MEMF_ST_STATUS_REFRESH (if 85 * 16 < temp then 1 else 0)) := by
  intro temp
  refine congrArg _ ((if_pos ⟨hu, hs⟩).trans ?_)
  simp only [temp, ← not_le, ite_not]

/-! ### Scrub (R334 to R336) -/

section
variable {s : State} {u : Nat} (hs : s.scrubs u = true)
include hs

theorem exec_scrubRead_next (e : LaneErr) (hx : sGet noPlace s.mem.scrub u + 64 < s.unitSize u) :
    let a := s.unitOffset u (sGet noPlace s.mem.scrub u)
    let d := (s.errFound a e).scrubLine u a
    exec (.scrubRead u e) s = .next { d with mem := { d.mem with
      scrub := sSet noPlace d.mem.scrub u (sGet noPlace s.mem.scrub u + 64) } } :=
  congrArg _ ((if_neg (ne_false_of_eq_true hs)).trans (if_pos hx))

theorem exec_scrubRead_last (e : LaneErr) (hx : s.unitSize u ≤ sGet noPlace s.mem.scrub u + 64) :
    let a := s.unitOffset u (sGet noPlace s.mem.scrub u)
    let d := (s.errFound a e).scrubLine u a
    let p := d.bump32 (cntScrubPass u) 1
    exec (.scrubRead u e) s = .next { p with mem := { p.mem with
      scrub := sSet noPlace p.mem.scrub u 0
      scrubAt := sSet noPlace p.mem.scrubAt u d.time
      scrubLate := sSet noMark p.mem.scrubLate u false } } :=
  congrArg _ ((if_neg (ne_false_of_eq_true hs)).trans (if_neg (by omega)))

/-- The running pass is late. -/
theorem exec_scrubPeriodEnd_first (hl : sGet noMark s.mem.scrubLate u = false) :
    let hours := s.fld (if u < 16 then Reg.MEMF_SCRUB else Reg.MEMC_SCRUB) Fld.MEMF_SCRUB_PERIOD_H
    let late := s.timeTo (sGet noPlace s.mem.scrubAt u + 3600000000000 * hours)
    exec (.scrubPeriodEnd u) s = .next ({ late with mem := { late.mem with
      scrubLate := sSet noMark late.mem.scrubLate u true } }.event (unitEvent u) Fld.MEMC_CH_EVENT_SCRUB_LATE (cntScrubLate u)) :=
  congrArg _ (if_neg (by rw [hs, hl]; decide))

end

section
variable {g : State} {u l : Nat}

theorem scrubLine_poisoned (hq : g.poisoned l = true) : g.scrubLine u l = g := if_pos hq

theorem scrubLine_counted (hq : g.poisoned l = false) : g.scrubLine u l =
    let n := g.bump64 (cntScrubLines u) 1
    match g.lineErr l with
    | .none => n
    | .ce y => n.corrected u l y
    | .ue y => ((((n.setPoison l true).event (unitEvent u) Fld.MEMC_CH_EVENT_SCRUB_UE (cntScrubUe u)).bump32
        (Reg.RAS_D_CNT_UE (unitDie u)) 1).setErr l .none).capture (unitUeAddr u) l y := by
  rw [State.scrubLine, hq]
  rfl

/-- A scrub read poisons a line that it finds uncorrectable. -/
theorem scrubLine_uncorrectable {y : Nat} (hq : g.poisoned l = false) (he : g.lineErr l = .ue y) :
    (g.scrubLine u l).poisoned l = true ∧ (g.scrubLine u l).lineErr l = .none := by
  have hmem : (g.scrubLine u l).mem = ((g.setPoison l true).setErr l .none).mem := by
    rw [scrubLine_counted hq, he]
    dsimp only
    rw [capture_mem, State.setErr, State.bump32_mem, event_mem]
    rfl
  unfold State.poisoned State.lineErr
  rw [hmem]
  exact ⟨sGet_sSet_same (d := noMark) g.mem.poison l true, sGet_sSet_same (d := noErr) g.mem.errs l .none⟩

end

/-! ### Failure (R337, R556) -/

section
variable {s : State} {u : Nat}

theorem exec_memoryFail_working (hs : s.unitState u = 2) (hw : s.working (unitCap u) = true) :
    exec (.memoryFail u) s = .next ((s.unitWcLost u).unitFail u) :=
  congrArg _ (if_neg fun h => h.elim (absurd hs) (by rw [hw]; decide))

theorem mem_unitWcLost (hu : 16 ≤ u) (e : WcEntry) : e ∈ (s.unitWcLost u).mem.wc ↔ e ∈ s.mem.wc ∧ s.place e.line ≠ .cap (u - 16) := by
  rw [State.unitWcLost, if_neg (by omega), wcOcc_mem, List.mem_filter, decide_eq_true_eq]

theorem ueWatch_last (hs : s.unitState u = 2)
    (hl : 63 ≤ ((sGet noTimes s.mem.ueAt u).filter fun t => s.time ≤ 1000000000 + t).length) :
    let late := (sGet noTimes s.mem.ueAt u).filter fun t => s.time ≤ 1000000000 + t
    s.ueWatch u = (State.unitWcLost { s with mem := { s.mem with ueAt := sSet noTimes s.mem.ueAt u (late ++ [s.time]) } } u).unitFail u :=
  if_pos ⟨by rw [List.length_append, List.length_singleton]; omega, hs⟩

end

/-- The registers of a unit and its capability as it fails. -/
def State.unitDown (s : State) (u : Nat) : State :=
  (((s.setFld (unitStatus u) Fld.MEMC_CH_STATUS_STATE 4).capClear (unitCap u)).setFld (unitEvent u) Fld.MEMC_CH_EVENT_FAIL 1).log
    (unitEvent u) Fld.MEMC_CH_EVENT_FAIL.lo 0 0

/-- A failure is an event of the package, a loss and a cause for service. -/
def State.lossShown (s : State) (f : Field) (cnt kind index : Nat) (cause : Field) : State :=
  ((s.event Reg.RAS_EVENT f cnt).addLoss kind index).service cause

theorem unitFail_stack {g : State} {u : Nat} (hu : u < 16) : g.unitFail u = (g.unitDown u).lossShown Fld.RAS_EVENT_STACK_FAIL
    Reg.RAS_CNT_STACK_FAIL lossStack u Fld.RAS_SERVICE_REQUEST_STACK := if_pos hu

theorem unitFail_channel {g : State} {u : Nat} (hu : 16 ≤ u) : g.unitFail u = (g.unitDown u).lossShown Fld.RAS_EVENT_CHAN_FAIL
    Reg.RAS_CNT_CHAN_FAIL lossChannel (u - 16) Fld.RAS_SERVICE_REQUEST_CHANNEL := if_neg (by omega)

/-- Registers that the log, the service request and the package's events change. -/
def failureRegs : List Nat :=
  [Reg.BWL_LOG_STATUS, Reg.BWL_EVENT, Reg.BWL_CNT 0, Reg.RAS_EVENT, Reg.RAS_CNT_STACK_FAIL, Reg.RAS_CNT_CHAN_FAIL,
    Reg.RAS_SERVICE_REQUEST, Reg.RAS_CNT_SERVICE]

/-- The registers of a unit are its own. -/
theorem unit_registers_apart : ∀ u, u < 28 → unitStatus u ∉ failureRegs ∧ unitEvent u ∉ failureRegs ∧ unitStatus u ≠ unitEvent u ∧
    unitStatus u ≠ Reg.ID_CAPS_EFFECTIVE ∧ unitEvent u ≠ Reg.ID_CAPS_EFFECTIVE ∧ unitEvent u ≠ Reg.ID_SERIAL ∧
    unitStatus u ≠ Reg.ID_SERIAL := by decide

section
variable {s : State} {f cause : Field} {cnt kind index a : Nat}

theorem rd_lossShown (hc : cnt ∈ failureRegs) (ha : a ∉ failureRegs) : (s.lossShown f cnt kind index cause).rd a = s.rd a := by
  have hne (b : Nat) (hb : b ∈ failureRegs) : a ≠ b := fun h => ha (h ▸ hb)
  have hlog := hne Reg.BWL_LOG_STATUS (by decide)
  have hfull := hne Reg.BWL_EVENT (by decide)
  have hlost := hne (Reg.BWL_CNT 0) (by decide)
  have hev := hne Reg.RAS_EVENT (by decide)
  rw [State.lossShown, rd_service _ _ _ (hne _ (by decide)) hev (hne _ (by decide)) hlog hfull hlost,
    rd_addLoss _ _ _ _ hlog hfull hlost, rd_event _ _ _ _ _ _ hev (hne _ hc) hlog hfull hlost]

theorem losses_congr {t : State} (hn : t.nvm = s.nvm) (hr : t.rd Reg.ID_SERIAL = s.rd Reg.ID_SERIAL) : t.losses = s.losses := by
  unfold State.losses State.lossRec State.lossOnB State.serial
  rw [hn, hr]

theorem losses_lossShown (hc : cnt ∈ failureRegs) (hn : s.bwl.cfgNew = none) (hl : s.losses.length < 1000) :
    (kind, index) ∈ (s.lossShown f cnt kind index cause).losses := by
  have hev : (s.event Reg.RAS_EVENT f cnt).losses = s.losses :=
    losses_congr (State.event_nvm ..) (rd_event _ _ _ _ _ _ (by decide) (fun h => absurd (h ▸ hc) (by decide)) (by decide) (by decide)
      (by decide))
  have hserv (t : State) : (t.service cause).losses = t.losses :=
    losses_congr (State.service_nvm ..) (rd_service _ _ _ (by decide) (by decide) (by decide) (by decide) (by decide) (by decide))
  rw [State.lossShown, hserv]
  exact losses_addLoss _ _ _ (by rw [State.event_bwl, hn]) (by rw [hev]; exact hl)

end

/-! ### The unit that fails -/

section
variable {g : State} {u : Nat}

theorem rd_unitDown {a : Nat} (ha : a ∉ failureRegs) : (g.unitDown u).rd a =
    (((g.setFld (unitStatus u) Fld.MEMC_CH_STATUS_STATE 4).capClear (unitCap u)).setFld (unitEvent u) Fld.MEMC_CH_EVENT_FAIL 1).rd a :=
  rd_log _ _ _ _ _ _ (fun h => ha (h ▸ by decide)) (fun h => ha (h ▸ by decide)) (fun h => ha (h ▸ by decide))

theorem nvm_unitDown : (g.unitDown u).nvm = g.nvm := by
  rw [State.unitDown, State.log_nvm, State.setFld_nvm, State.capClear, State.wr_nvm, State.setFld_nvm]

theorem bwl_unitDown : (g.unitDown u).bwl = g.bwl := by
  rw [State.unitDown, State.log_bwl, State.setFld_bwl, State.capClear, State.wr_bwl, State.setFld_bwl]

theorem working_unitDown (hu : u < 28) : (g.unitDown u).working (unitCap u) = false := by
  obtain ⟨-, -, -, -, hcap, -⟩ := unit_registers_apart u hu
  rw [State.working, rd_unitDown (by decide), rd_setFld, if_neg hcap.symm]
  exact working_capClear _ _

theorem unitState_unitDown (hu : u < 28) : (g.unitDown u).unitState u = 4 := by
  obtain ⟨hst, -, hev, hcap, -⟩ := unit_registers_apart u hu
  rw [State.unitState, State.fld, rd_unitDown hst, rd_setFld, if_neg hev, State.capClear, rd_wr_other _ _ hcap]
  exact fld_setFld_same _ _ _ _ (by decide)

theorem flag_unitDown (hu : u < 28) : (g.unitDown u).flag (unitEvent u) Fld.MEMC_CH_EVENT_FAIL = true := by
  obtain ⟨-, hev, -⟩ := unit_registers_apart u hu
  rw [State.flag, State.fld, rd_unitDown hev, ← State.fld, fld_setFld_same _ _ _ _ (by decide)]
  rfl

theorem losses_unitDown (hu : u < 28) : (g.unitDown u).losses = g.losses := by
  obtain ⟨-, -, -, -, -, hev, hst⟩ := unit_registers_apart u hu
  refine losses_congr nvm_unitDown ?_
  rw [rd_unitDown (by decide), rd_setFld, if_neg hev.symm, State.capClear, rd_wr_other _ _ (by decide), rd_setFld, if_neg hst.symm]

theorem unitDown_lossShown {f cause : Field} {cnt kind index : Nat} (hu : u < 28) (hc : cnt ∈ failureRegs) (hok : cause.ok = true)
    (ha : Fld.RAS_SERVICE_REQUEST_ANY.apart cause = true) (hw : cause.hi = cause.lo) :
    let t := (g.unitDown u).lossShown f cnt kind index cause
    t.unitState u = 4 ∧ t.flag (unitEvent u) Fld.MEMC_CH_EVENT_FAIL = true ∧ t.working (unitCap u) = false ∧
      t.flag Reg.RAS_SERVICE_REQUEST cause = true ∧ (g.bwl.cfgNew = none → g.losses.length < 1000 → (kind, index) ∈ t.losses) := by
  obtain ⟨hst, hev, -⟩ := unit_registers_apart u hu
  refine ⟨?state, ?event, ?capability, flag_service _ _ hok ha hw,
    fun hn hl => losses_lossShown hc (by rw [bwl_unitDown, hn]) (by rw [losses_unitDown hu]; exact hl)⟩
  case state =>
    rw [State.unitState, State.fld, rd_lossShown hc hst]
    exact unitState_unitDown hu
  case event =>
    rw [State.flag, State.fld, rd_lossShown hc hev]
    exact flag_unitDown hu
  case capability =>
    rw [State.working, rd_lossShown hc (by decide)]
    exact working_unitDown hu

/-- What the failure of a unit records (R337, R497, R556). -/
theorem unitFail_records (hu : u < 28) :
    let t := g.unitFail u
    t.unitState u = 4 ∧ t.flag (unitEvent u) Fld.MEMC_CH_EVENT_FAIL = true ∧ t.working (unitCap u) = false ∧
      t.flag Reg.RAS_SERVICE_REQUEST (if u < 16 then Fld.RAS_SERVICE_REQUEST_STACK else Fld.RAS_SERVICE_REQUEST_CHANNEL) = true ∧
      (g.bwl.cfgNew = none → g.losses.length < 1000 → (if u < 16 then (lossStack, u) else (lossChannel, u - 16)) ∈ t.losses) := by
  by_cases h : u < 16
  · rw [unitFail_stack h, if_pos h, if_pos h]
    exact unitDown_lossShown hu (by decide) (by decide) (by decide) rfl
  · rw [unitFail_channel (Nat.not_lt.1 h), if_neg h, if_neg h]
    exact unitDown_lossShown hu (by decide) (by decide) (by decide) rfl

end

/-- Settles O40: each command by the branch that its hypotheses select, a write-back by the state of its line. -/
theorem memoryUnitsAtWork : Obligations.MemoryUnitsAtWork := by
  intro s u
  refine ⟨fun _ _ => exec_wcAgeExpiry_held, fun _ _ _ hk hf =>
      ⟨wcOf_wcFlush, data_wcFlush hk hf, fun _ => wcFlush_whole_replaces hk hf, wcFlush_partial_discarded hk hf⟩,
    fun _ ha h => ⟨exec_memcWcFlush_held ha h, wcFlushList_all rfl⟩, rfl, exec_dramRefresh_stack,
    fun hs e => ⟨exec_scrubRead_next hs e, exec_scrubRead_last hs e⟩, fun g l => ?scrub, fun hs hl => ?late,
    fun hs hw => ⟨exec_memoryFail_working hs hw, mem_unitWcLost⟩, ueWatch_last, fun hu g => unitFail_records (by omega)⟩
  case scrub =>
    refine ⟨scrubLine_poisoned, fun hq he => ?_, fun y hq he => ?_, fun y => scrubLine_uncorrectable⟩
    · rw [scrubLine_counted hq, he]
    · rw [scrubLine_counted hq, he]
  case late =>
    refine ⟨_, exec_scrubPeriodEnd_first hs hl, ?_, ?_⟩
    · rw [event_mem]
      exact sGet_sSet_same (d := noMark) _ u true
    · rw [event_mem]

end Sys2Proof.Machine
end

section
/-! PROOFS. Requests at the home: what stops one (R351, R354, R360, R363), the recorded answer of one that comes again (R358), and what
each type does (R350, R355, R366, R372, R376, R520). -/

namespace Sys2Proof.Machine

/-! ### The commands -/

/-- A request command is the arrival of a request of its type, which Table HWS-3 knows. -/
theorem exec_request {type : Nat} {i : Packet → Instr} (h : (type, i) ∈ [(ptRD, Instr.rd), (ptWR, Instr.wr), (ptATOMIC, Instr.atomic),
    (ptACC, Instr.acc), (ptREFRESH, Instr.refresh), (ptTFENCE, Instr.tfence)]) :
    typeKnown type = true ∧ ∀ p s, exec (i p) s = .next (s.hwsRequest type p) := by
  simp only [List.mem_cons, List.not_mem_nil, or_false, Prod.mk.injEq] at h
  obtain ⟨rfl, rfl⟩ | ⟨rfl, rfl⟩ | ⟨rfl, rfl⟩ | ⟨rfl, rfl⟩ | ⟨rfl, rfl⟩ | ⟨rfl, rfl⟩ := h
  · exact ⟨rfl, fun _ _ => rfl⟩
  · exact ⟨rfl, fun _ _ => rfl⟩
  · exact ⟨rfl, fun _ _ => rfl⟩
  · exact ⟨rfl, fun _ _ => rfl⟩
  · exact ⟨rfl, fun _ _ => rfl⟩
  · exact ⟨rfl, fun _ _ => rfl⟩

/-! ### Checks 1 to 4 (R351) -/

section
variable {s t : State} {p : Packet} {type : Nat}

theorem hwsAccept_badCrc (h : packetCrcOk p = false) : (s.rxTake p).hwsAccept p = ((s.arrived p).bump32 Reg.HWS_CNT_CRC_DROP 1, false) :=
  (hwsAccept_eq s p).trans (if_pos h)

section
variable (hc : packetCrcOk p = true)
include hc

theorem hwsAccept_misshapen (h : (classOk (pType p) (pTc p) && pDst p == s.ownNode) = false) :
    (s.rxTake p).hwsAccept p = ((s.arrived p).bump32 Reg.HWS_CNT_MALFORMED 1, false) := by
  have hbad : (!typeKnown (pType p) || !classOk (pType p) (pTc p) || pDst p != s.ownNode) = true := by
    rw [Bool.or_assoc, bne, ← Bool.not_and, h, Bool.not_false, Bool.or_true]
  rw [hwsAccept_eq, if_neg (by rw [hc]; decide), if_pos hbad]

variable (hk : typeKnown (pType p) = true) (hs : (classOk (pType p) (pTc p) && pDst p == s.ownNode) = true)
include hk hs

/-- A packet of a known type, whole, of a class that its type allows and for this node goes on to checks 3 and 4. -/
theorem hwsAccept_shaped : (s.rxTake p).hwsAccept p =
    if s.hwsOn = false then (s.arrived p, false)
    else if s.flag Reg.HWS_PART Fld.HWS_PART_VALID = false ∨ pPart p ≠ s.fld Reg.HWS_PART Fld.HWS_PART_PARTITION then
      ((s.arrived p).event Reg.HWS_EVENT Fld.HWS_EVENT_PART_DROP Reg.HWS_CNT_PART_DROP, false)
    else if pEpoch p ≠ s.fld Reg.HWS_PART Fld.HWS_PART_EPOCH then
      ((s.arrived p).event Reg.HWS_EVENT Fld.HWS_EVENT_STALE_EPOCH Reg.HWS_CNT_STALE_EPOCH, false)
    else (s.arrived p, true) := by
  have hgood : ¬ (!typeKnown (pType p) || !classOk (pType p) (pTc p) || pDst p != s.ownNode) = true := by
    rw [Bool.or_assoc, bne, ← Bool.not_and, hs, hk]; decide
  rw [hwsAccept_eq, if_neg (by rw [hc]; decide), if_neg hgood]

theorem hwsAccept_off (h : s.hwsOn = false) : (s.rxTake p).hwsAccept p = (s.arrived p, false) := by
  rw [hwsAccept_shaped hc hk hs, if_pos h]

variable (ho : s.hwsOn = true)
include ho

theorem hwsAccept_foreign
    (h : (s.flag Reg.HWS_PART Fld.HWS_PART_VALID && pPart p == s.fld Reg.HWS_PART Fld.HWS_PART_PARTITION) = false) :
    (s.rxTake p).hwsAccept p = ((s.arrived p).event Reg.HWS_EVENT Fld.HWS_EVENT_PART_DROP Reg.HWS_CNT_PART_DROP, false) := by
  rw [Bool.and_eq_false_iff, beq_eq_false_iff_ne] at h
  rw [hwsAccept_shaped hc hk hs, if_neg (by rw [ho]; decide), if_pos h]

theorem hwsAccept_stale
    (hm : (s.flag Reg.HWS_PART Fld.HWS_PART_VALID && pPart p == s.fld Reg.HWS_PART Fld.HWS_PART_PARTITION) = true)
    (h : pEpoch p ≠ s.fld Reg.HWS_PART Fld.HWS_PART_EPOCH) :
    (s.rxTake p).hwsAccept p = ((s.arrived p).event Reg.HWS_EVENT Fld.HWS_EVENT_STALE_EPOCH Reg.HWS_CNT_STALE_EPOCH, false) := by
  obtain ⟨hv, hq⟩ := (Bool.and_eq_true _ _).mp hm
  rw [hwsAccept_shaped hc hk hs, if_neg (by rw [ho]; decide), if_neg (by rw [hv, eq_of_beq hq]; simp), if_pos h]

end

theorem hwsRequest_dropped (hw : s.working (capFdie 0) = true) (ht : pType p = type) (h : (s.rxTake p).hwsAccept p = (t, false)) :
    s.hwsRequest type p = t := by
  rw [hwsRequest_eq _ _ _ hw ht, h]
  exact if_pos rfl

/-! ### Age and time (R363) -/

section
variable (ha : s.admits type p) (hk : typeKnown type = true)
include ha hk

theorem hwsRequest_aged (h : s.ageOk p = false) : s.hwsRequest type p =
    ((s.arrived p).bump64 Reg.HWS_CNT_RX_REQ 1).event Reg.HWS_EVENT Fld.HWS_EVENT_AGED Reg.HWS_CNT_AGED := by
  rw [hwsRequest_eq _ _ _ ha.1 ha.2.1, hwsAccept_of_admits ha hk]
  dsimp only
  rw [if_neg (by decide), if_pos ((ageOk_arrived s p).trans h)]

theorem hwsRequest_untimed (h : s.ageOk p = true) (ht : s.ticking = false) : s.hwsRequest type p =
    (((s.arrived p).bump64 Reg.HWS_CNT_RX_REQ 1).bump32 Reg.HWS_CNT_NOT_READY 1).respond p (answerType type) csNotReady [] := by
  rw [hwsRequest_eq _ _ _ ha.1 ha.2.1, hwsAccept_of_admits ha hk]
  dsimp only
  rw [if_neg (by decide), if_neg (by rw [ageOk_arrived, h]; decide), if_pos ((ticking_arrived s p).trans ht)]

end

/-! ### Replay and waiting (R354, R358, R360) -/

/-- The recorded answer `e` of request `p` goes out again: its lease begins anew, and the hit is counted. -/
def State.replays (v : State) (p : Packet) (e : ReplayEntry) : State :=
  let hit (x : ReplayEntry) : Bool := x.src == e.src && x.sport == e.sport && x.tag == e.tag
  let w := { v with hws := { v.hws with
    cache := v.hws.cache.map fun (x : ReplayEntry) => if hit x then { x with until_ := v.leaseEnd } else x } }
  (w.bump32 Reg.HWS_CNT_REPLAY_HIT 1).respond p (answerType (pType p)) e.status e.old

theorem replays_mem (v : State) (p : Packet) (e : ReplayEntry) : (v.replays p e).mem = v.mem := respond_mem ..

theorem replays_parked (v : State) (p : Packet) (e : ReplayEntry) : (v.replays p e).hws.parked = v.hws.parked := respond_parked ..

theorem keepsEntry_eq_false_iff : keepsEntry type = false ↔ type = ptRD := bne_eq_false_iff_eq

theorem keepsEntry_eq_true_iff : keepsEntry type = true ↔ type ≠ ptRD := bne_iff_ne

section
variable {n : State} {q : Option Nat}

theorem hwsServe_replayed {e : ReplayEntry} (hn : (s.tagSeen (pSrc p) (pSport p) (pTag p)).2 = n) (hk : pType p ≠ ptRD)
    (he : n.cacheFind (pSrc p) (pSport p) (pTag p) = some e) : s.hwsServe q p = n.replays p e := by
  unfold State.hwsServe
  dsimp only
  rw [hn, if_pos (keepsEntry_eq_true_iff.2 hk), he]
  rfl

/-- No entry answers a request that keeps none, or whose key has none. -/
theorem entry_eq_none (h : pType p = ptRD ∨ n.cacheFind (pSrc p) (pSport p) (pTag p) = none) :
    (if keepsEntry (pType p) = true then n.cacheFind (pSrc p) (pSport p) (pTag p) else none) = none := by
  rcases h with h | h
  · exact if_neg (ne_true_of_eq_false (keepsEntry_eq_false_iff.2 h))
  · rw [h, ite_self]

theorem hwsServe_parked (hn : (s.tagSeen (pSrc p) (pSport p) (pTag p)).2 = n)
    (he : pType p = ptRD ∨ n.cacheFind (pSrc p) (pSport p) (pTag p) = none)
    (hw : n.behind p = true ∨ (pType p ≠ ptRD ∧ 32768 ≤ n.hws.cache.length)) : s.hwsServe q p = n.park q p := by
  have hwaits : (n.behind p || keepsEntry (pType p) && decide (n.hws.cache.length ≥ 32768)) = true := by
    rw [Bool.or_eq_true, Bool.and_eq_true, keepsEntry_eq_true_iff, decide_eq_true_iff]
    exact hw
  unfold State.hwsServe
  dsimp only
  rw [hn, entry_eq_none he]
  exact if_pos hwaits

end

/-! ### What stops a request -/

section
variable (hk : typeKnown type = true) (hs : s.serves type p)
include hk hs

theorem hwsRequest_replayed {e : ReplayEntry} (ht : type ≠ ptRD) (he : (s.noted p).cacheFind (pSrc p) (pSport p) (pTag p) = some e) :
    s.hwsRequest type p = ((s.noted p).replays p e).refreshGoes p := by
  rw [hwsRequest_of_serves hs hk]
  exact congrArg (State.refreshGoes · p) (hwsServe_replayed rfl (hs.1.2.1.symm ▸ ht) he)

theorem hwsRequest_waits (he : type = ptRD ∨ (s.noted p).cacheFind (pSrc p) (pSport p) (pTag p) = none)
    (hw : (s.noted p).behind p = true ∨ (type ≠ ptRD ∧ 32768 ≤ (s.noted p).hws.cache.length)) :
    s.hwsRequest type p = ((s.noted p).park (s.rxPort p) p).refreshGoes p := by
  rw [hwsRequest_of_serves hs hk]
  rw [← hs.1.2.1] at he hw
  exact congrArg (State.refreshGoes · p) (hwsServe_parked rfl he hw)

end

/-- A replay leaves memory as it was where no request waits. -/
theorem refreshGoes_replays_mem (p : Packet) (e : ReplayEntry) (h : s.hws.parked = []) :
    (((s.noted p).replays p e).refreshGoes p).mem = s.mem := by
  obtain ⟨hmem, hnone⟩ := noted_nil p h
  rw [refreshGoes_nil p ((replays_parked _ _ _).trans hnone), replays_mem, hmem]

end

/-- Settles O30: each check by the branch of `hwsAccept` that it takes, a served request by the replay cache and by what waits. -/
theorem requestsAreCheckedAndReplayed : Obligations.RequestsAreCheckedAndReplayed := by
  intro s p type i hi hw ht
  obtain ⟨hk, hexec⟩ := exec_request hi
  have hdrop {t : State} (h : (s.rxTake p).hwsAccept p = (t, false)) : exec (i p) s = .next t :=
    (hexec p s).trans (next_congr (hwsRequest_dropped hw ht h))
  have hnext {t : State} (h : s.hwsRequest type p = t) : exec (i p) s = .next t := (hexec p s).trans (next_congr h)
  subst ht
  exact ⟨fun hc => hdrop (hwsAccept_badCrc hc), fun hc hs => hdrop (hwsAccept_misshapen hc hs),
    fun hc hs ho => hdrop (hwsAccept_off hc hk hs ho), fun hc hs ho hm => hdrop (hwsAccept_foreign hc hk hs ho hm),
    fun hc hs ho hm he => hdrop (hwsAccept_stale hc hk hs ho hm he), fun ha hg => hnext (hwsRequest_aged ha hk hg),
    fun ha hg hn => hnext (hwsRequest_untimed ha hk hg hn),
    fun e hs hr he => ⟨hnext (hwsRequest_replayed hk hs hr he), replays_mem _ _ _, refreshGoes_replays_mem p e⟩,
    fun hs he hb => hnext (hwsRequest_waits hk hs he hb)⟩

/-! ### A new request that every check passes -/

/-- Request `p` of type `type` reaches its effect, at physical offset `pa` in state `v`: it is served, has no replay entry and finds
room for one, is behind none of its agent, meets an open checkpoint gate, is well formed, passes the ingress table, and waits for no
application and no data of its set. -/
abbrev State.reachesHome (s : State) (p : Packet) (v : State) (pa type : Nat) : Prop :=
  s.serves type p ∧
    (type ≠ ptRD → (s.noted p).cacheFind (pSrc p) (pSport p) (pTag p) = none ∧ (s.noted p).hws.cache.length < 32768) ∧
    (s.noted p).behind p = false ∧ ((s.noted p).ckp.closed = false ∨ ((type = ptWR ∨ type = ptTFENCE) ∧ pAgent p = 0x0D00)) ∧
    shapeOk p = true ∧ (s.noted p).ingressXlat p = (v, .inr pa) ∧ v.windowBusy type (pOff p) = false ∧ v.markWaits p = false

section
variable {s n v : State} {p : Packet} {pa type : Nat} {q : Option Nat}

/-- The gate of a checkpoint lets the request through (R513). -/
theorem gate_open (h : n.ckp.closed = false ∨ ((pType p = ptWR ∨ pType p = ptTFENCE) ∧ pAgent p = 0x0D00)) :
    (n.ckp.closed && !((pType p == ptWR || pType p == ptTFENCE) && pAgent p == 0x0D00)) = false := by
  rcases h with h | ⟨ht, ha⟩
  · rw [h, Bool.false_and]
  · rw [ha, show (pType p == ptWR || pType p == ptTFENCE) = true by simpa using ht]
    exact Bool.and_false _

theorem hwsServe_new {ext : Nat} (hn : s.tagSeen (pSrc p) (pSport p) (pTag p) = (ext, n))
    (he : pType p = ptRD ∨ n.cacheFind (pSrc p) (pSport p) (pTag p) = none)
    (hroom : (n.behind p || keepsEntry (pType p) && decide (n.hws.cache.length ≥ 32768)) = false)
    (hgate : n.ckp.closed = false ∨ ((pType p = ptWR ∨ pType p = ptTFENCE) ∧ pAgent p = 0x0D00)) (hshape : shapeOk p = true)
    (hx : n.ingressXlat p = (v, .inr pa)) (hbusy : v.windowBusy (pType p) (pOff p) = false) (hmark : v.markWaits p = false) :
    s.hwsServe q p = hwsAnswer p ext (v.hwsEffect p pa) := by
  unfold State.hwsServe
  dsimp only
  rw [hn]
  dsimp only
  rw [entry_eq_none he]
  dsimp only
  rw [hroom, gate_open hgate, hshape, hx]
  dsimp only
  rw [hbusy, hmark, if_neg Bool.false_ne_true, if_neg Bool.false_ne_true, if_neg (by decide), if_neg Bool.false_ne_true,
    if_neg Bool.false_ne_true]

/-- A request that reaches its effect has it and is answered. -/
theorem hwsRequest_of_reachesHome (hk : typeKnown type = true) (h : s.reachesHome p v pa type) :
    s.hwsRequest type p = (hwsAnswer p (s.tagPlace p).1 (v.hwsEffect p pa)).refreshGoes p := by
  obtain ⟨hs, hnew, hbehind, hgate, hshape, hx, hbusy, hmark⟩ := h
  obtain ⟨-, rfl, -⟩ := id hs.1
  have hroom : ((s.noted p).behind p || keepsEntry (pType p) && decide ((s.noted p).hws.cache.length ≥ 32768)) = false := by
    rw [hbehind, Bool.false_or, Bool.and_eq_false_iff, keepsEntry_eq_false_iff, decide_eq_false_iff_not, Nat.not_le]
    exact (em (pType p = ptRD)).imp_right fun ht => (hnew ht).2
  rw [hwsRequest_of_serves hs hk]
  exact congrArg (State.refreshGoes · p) (hwsServe_new rfl ((em _).imp_right fun ht => (hnew ht).1) hroom hgate hshape hx hbusy hmark)

/-- The command of a request that reaches its effect `r` answers with it. -/
theorem exec_reachesHome {i : Packet → Instr} {r : Applied} (hi : (type, i) ∈ [(ptRD, Instr.rd), (ptWR, Instr.wr),
    (ptATOMIC, Instr.atomic), (ptACC, Instr.acc), (ptREFRESH, Instr.refresh), (ptTFENCE, Instr.tfence)])
    (h : s.reachesHome p v pa type) (hr : pType p = type → v.hwsEffect p pa = r) :
    exec (i p) s = .next ((hwsAnswer p (s.tagPlace p).1 r).refreshGoes p) := by
  obtain ⟨hk, hexec⟩ := exec_request hi
  rw [hexec, hwsRequest_of_reachesHome hk h, hr h.1.1.2.1]

/-! ### What each type does -/

theorem hwsEffect_rd (ht : pType p = ptRD) (hr : (v.read pa (pLen p)).stat = .ok) :
    v.hwsEffect p pa = ((v.read pa (pLen p)).st, csOK, (v.read pa (pLen p)).data) := by
  unfold State.hwsEffect State.applyRd
  dsimp only
  rw [if_pos ht, hr]

theorem hwsEffect_fence (ht : pType p = ptTFENCE) : v.hwsEffect p pa = v.applyFence p := by
  unfold State.hwsEffect
  dsimp only
  rw [ht, if_neg (by decide), if_pos rfl]

section
variable (ho : (v.winAt 0 (pOff p)).isSome = true)
include ho

/-- A WR or ACC into a tick-ordered window is held (R366). -/
theorem hwsEffect_held (ht : pType p = ptWR ∨ pType p = ptACC) : v.hwsEffect p pa = v.applyHold p pa := by
  unfold State.hwsEffect
  dsimp only
  rw [ho]
  rcases ht with ht | ht
  · rw [ht, if_neg (by decide), if_neg (by decide), if_neg (by decide), if_pos rfl]
  · rw [ht, if_neg (by decide), if_neg (by decide), if_neg (by decide), if_pos rfl]

theorem hwsEffect_refused (ht : pType p = ptATOMIC) : v.hwsEffect p pa = (v, csToRefused, []) := by
  unfold State.hwsEffect
  dsimp only
  rw [ho, ht, if_neg (by decide), if_neg (by decide), if_pos ⟨rfl, .inl rfl⟩]

end

section
variable (ho : (v.winAt 0 (pOff p)).isSome = false)
include ho

/-- Away from the tick-ordered windows a type that writes acts at once. -/
theorem hwsEffect_unordered (hr : pType p ≠ ptRD) (hf : pType p ≠ ptTFENCE) : v.hwsEffect p pa =
    if pType p = ptWR then v.applyWr pa p.payload
    else if pType p = ptATOMIC then v.applyAtomic pa (pLen p) (pOp p) p.payload
    else if pType p = ptACC then v.applyAcc pa (pFmt p) p.payload
    else v.applyRefresh p pa := by
  unfold State.hwsEffect
  dsimp only
  rw [ho, if_neg hr, if_neg hf, if_neg (fun h => Bool.false_ne_true h.1), if_neg Bool.false_ne_true]

theorem hwsEffect_wr (ht : pType p = ptWR) (hl : partialLines pa p.payload.length = []) (hw : (v.write pa p.payload).2 = .ok) :
    v.hwsEffect p pa = ((v.write pa p.payload).1, csOK, []) := by
  rw [hwsEffect_unordered ho (by rw [ht]; decide) (by rw [ht]; decide), if_pos ht, State.applyWr, hl]
  dsimp only [State.readLines]
  rw [hw, if_pos rfl]

theorem hwsEffect_atomic (ht : pType p = ptATOMIC) (hr : (v.read pa (pLen p)).stat = .ok) :
    v.hwsEffect p pa = (((v.read pa (pLen p)).st.write pa (natLE (pLen p)
      (atomicNew (pOp p) (pLen p) (leNat (v.read pa (pLen p)).data) (leNat p.payload)))).1, csOK, (v.read pa (pLen p)).data) := by
  rw [hwsEffect_unordered ho (by rw [ht]; decide) (by rw [ht]; decide), if_neg (by rw [ht]; decide), if_pos ht, State.applyAtomic,
    hr]

theorem hwsEffect_acc (ht : pType p = ptACC) (ha : (v.accApply pa (pFmt p) (leNat p.payload)).2 = true) :
    v.hwsEffect p pa = ((v.accApply pa (pFmt p) (leNat p.payload)).1, csOK, []) := by
  rw [hwsEffect_unordered ho (by rw [ht]; decide) (by rw [ht]; decide), if_neg (by rw [ht]; decide), if_neg (by rw [ht]; decide),
    if_pos ht]
  exact if_pos ha

theorem hwsEffect_refresh (ht : pType p = ptREFRESH) : v.hwsEffect p pa = v.applyRefresh p pa := by
  rw [hwsEffect_unordered ho (by rw [ht]; decide) (by rw [ht]; decide), if_neg (by rw [ht]; decide), if_neg (by rw [ht]; decide),
    if_neg (by rw [ht]; decide)]

end

end

/-- Settles O31: a request that reaches its effect has the one of its type and of the window that it meets. -/
theorem requestsTakeEffectAtTheHome : Obligations.RequestsTakeEffectAtTheHome := by
  intro s p v pa
  exact ⟨fun h hr => exec_reachesHome (by simp) h fun ht => hwsEffect_rd ht hr,
    fun h ho hl hw => exec_reachesHome (by simp) h fun ht => hwsEffect_wr ho ht hl hw,
    fun h ho hr => exec_reachesHome (by simp) h fun ht => hwsEffect_atomic ho ht hr,
    fun h ho ha => exec_reachesHome (by simp) h fun ht => hwsEffect_acc ho ht ha,
    fun h ho => exec_reachesHome (by simp) h fun ht => hwsEffect_held ho (.inl ht),
    fun h ho => exec_reachesHome (by simp) h fun ht => hwsEffect_held ho (.inr ht),
    fun h ho => exec_reachesHome (by simp) h fun ht => hwsEffect_refused ho ht,
    fun h ho => exec_reachesHome (by simp) h fun ht => hwsEffect_refresh ho ht,
    fun h => exec_reachesHome (by simp) h hwsEffect_fence⟩

end Sys2Proof.Machine
end

section
/-! PROOFS. Hawser's other events: the home's releases, leases, applications and windows (R358, R359, R365, R369, R371, R373, R376, R377),
and the requester's responses, retries, failures, releases and back-offs (R359, R361, R364, R382). -/

namespace Sys2Proof.Machine

/-! ### The replay cache -/

section
variable {s : State} {p : Packet}

/-- An admitted packet frees the entries that it names. -/
theorem exec_releaseCmd_admitted (h : s.admits ptRELEASE p) : exec (.releaseCmd p) s =
    .next (((s.arrived p).cacheFree (fun e => (releaseKeys (pSrc p) p.payload).contains (e.src, e.sport, e.tag)) false).unpark) := by
  refine next_congr ?_
  rw [if_neg (by rw [h.1, h.2.1]; simp), hwsAccept_of_admits h rfl]
  dsimp only
  rw [if_neg (by decide)]

theorem exec_replayLeaseExpiry_held {src sport tag : Nat} {e : ReplayEntry} (h : s.cacheFind src sport tag = some e) :
    exec (.replayLeaseExpiry src sport tag) s =
      .next (((s.timeTo e.until_).cacheFree (fun x => x.src == src && x.sport == sport && x.tag == tag) true).unpark) := by
  show execReplayLeaseExpiry src sport tag s = _
  unfold execReplayLeaseExpiry
  rw [h]

/-! ### Applications and windows -/

theorem exec_toApplyComplete_busy (h : s.hws.toBusy = true) :
    exec .toApplyComplete s = .next { s with hws := { s.hws with toBusy := false } }.unpark := next_congr (if_pos h)

theorem exec_replicaApplyComplete_busy {w : Nat} (h : s.hws.repBusy.contains w = true) : exec (.replicaApplyComplete w) s =
    .next ((({ s with hws := { s.hws with repBusy := s.hws.repBusy.filter fun x => x != w } } : State).setFld
      (Reg.HWS_WIN_STATUS (Reg.winWin w)) Fld.HWS_WIN_STATUS_PENDING_APPLY 0).unpark) := next_congr (if_pos h)

theorem exec_hwsWinCfg_taken {agent : Agent} {w : Nat} {value : Word} (hw : w < 64) (hf : s.working (capFdie 0) = true)
    (ha : (s.ctx agent).serves = true) : exec (.hwsWinCfg agent w value) s = .next (s.writeWinCfg w value) := by
  refine next_congr ?_
  rw [ha, hf, decide_eq_true hw]
  exact if_pos rfl

end

/-- Settles O32: each event by the branch that its hypotheses select, a window write by `writeWinCfg`. -/
theorem homeEventsAndWindows : Obligations.HomeEventsAndWindows := fun _ =>
  ⟨fun _ => exec_releaseCmd_admitted, fun _ _ _ _ => exec_replayLeaseExpiry_held, exec_toApplyComplete_busy,
    fun _ => exec_replicaApplyComplete_busy, fun _ _ _ => exec_hwsWinCfg_taken⟩

/-! ### Responses (R364) -/

section
variable {s : State} {r : Req}

/-- A response command is the arrival of a response of its type, which Table HWS-3 knows. -/
theorem exec_response {type : Nat} {i : Packet → Instr}
    (h : (type, i) ∈ [(ptCPL, Instr.cpl), (ptRD_DATA, Instr.rdData), (ptATOMIC_DATA, Instr.atomicData)]) :
    typeKnown type = true ∧ ∀ p s, exec (i p) s = .next (s.hwsResponse type p) := by
  simp only [List.mem_cons, List.not_mem_nil, or_false, Prod.mk.injEq] at h
  obtain ⟨rfl, rfl⟩ | ⟨rfl, rfl⟩ | ⟨rfl, rfl⟩ := h
  · exact ⟨rfl, fun _ _ => rfl⟩
  · exact ⟨rfl, fun _ _ => rfl⟩
  · exact ⟨rfl, fun _ _ => rfl⟩

/-- The open request that an admitted response answers completes. -/
theorem hwsResponse_completes {type : Nat} {p : Packet} {a : State} (hk : typeKnown type = true) (h : s.admits type p)
    (ha : (if type = ptRD_DATA then s.arrived p else (s.arrived p).releaseAdd (pSrc p) (pSport p) (pTag p)) = a)
    (hr : (a.hws.reqs.find? fun r => r.sport == pSport p && r.tag == pTag p && r.dst == pSrc p && answerType r.type == type) = some r)
    (hb : bits p.w2.toNat 63 48 = 0) : s.hwsResponse type p = ((a.dropReq r).finishReq r (pStatus p) p.payload).flushHeld := by
  unfold State.hwsResponse
  rw [if_neg (by rw [h.1, h.2.1]; simp), hwsAccept_of_admits h hk]
  dsimp only
  rw [if_neg (by decide), ha, hr]
  dsimp only
  rw [if_pos hb]

/-! ### Retries and failures (R361) -/

theorem exec_requestRetry_sent {port tag q : Nat} (hr : s.reqOf port tag = some r) (hl : (r.sends + 1) * r.reqUs ≤ r.leaseUs)
    (hq : (s.timeTo (r.t0 + 1000 * (r.sends * r.reqUs))).reqPort r.tc r.dst r.off = some q) :
    let t := s.timeTo (r.t0 + 1000 * (r.sends * r.reqUs))
    let r' := { r with sends := r.sends + 1, paths := q :: r.paths }
    let u := { t with hws := { t.hws with reqs := t.hws.reqs.map fun (x : Req) => if x = r then r' else x } }
    exec (.requestRetry port tag) s =
      .next (((u.bump32 Reg.HWS_CNT_RETRY 1).bump64 Reg.HWS_CNT_TX_REQ 1).emit q (u.reqPacket r' true)) := by
  show execRequestRetry port tag s = _
  unfold execRequestRetry
  rw [hr]
  dsimp only
  rw [if_neg (Nat.not_lt.2 hl), hq]
  rfl

section
variable {port tag : Nat} (hr : s.reqOf port tag = some r)
include hr

theorem exec_requestFailure_answered (ha : s.answered r = true) : exec (.requestFailure port tag) s = .next s := by
  show execRequestFailure port tag s = _
  unfold execRequestFailure
  rw [hr]
  exact next_congr (if_pos ha)

/-- The first request whose outcome is not known leaves its record in HWS_AMBIG (R361). -/
def State.ambigRecorded (e : State) (r : Req) : State :=
  if e.flag Reg.HWS_AMBIG Fld.HWS_AMBIG_VALID then e
  else (e.wr Reg.HWS_AMBIG (packF [(Fld.HWS_AMBIG_VALID, 1), (Fld.HWS_AMBIG_SPORT, r.sport), (Fld.HWS_AMBIG_TAG, r.tag),
    (Fld.HWS_AMBIG_AGENT, r.agent), (Fld.HWS_AMBIG_NODE, r.dst)])).wr Reg.HWS_AMBIG_ADDR (BitVec.ofNat 64 r.off)

theorem exec_requestFailure_unanswered (ha : s.answered r = false) :
    let t := (s.timeTo (r.t0 + 1000 * (((r.leaseUs - r.reqUs) / r.reqUs + 1) * r.reqUs))).dropReq r
    let u := { t with hws := { t.hws with declared := t.hws.declared ++ [(r.sport, r.tag)] } }
    exec (.requestFailure port tag) s = .next (if r.type = ptRD then
        ((u.bump32 Reg.HWS_CNT_TIMEOUT 1).finishReq r csTimeout []).flushHeld
      else (((u.event Reg.HWS_EVENT Fld.HWS_EVENT_AMBIGUOUS Reg.HWS_CNT_AMBIGUOUS).ambigRecorded r).finishReq r csAmbiguous []).flushHeld) := by
  show execRequestFailure port tag s = _
  unfold execRequestFailure
  rw [hr]
  exact next_congr (if_neg (ne_true_of_eq_false ha))

end

/-! ### RELEASE and back-off (R359, R382) -/

/-- What RELEASE_SEND sends to a node with a port and words that wait for it. -/
theorem releaseSend_sends {dst q : Nat} (hq : s.respPort dst = some q)
    (hm : (s.hws.release.filter fun (e : Nat × Nat × Nat) => e.1 == dst).take 32 ≠ []) :
    let mine := (s.hws.release.filter fun (e : Nat × Nat × Nat) => e.1 == dst).take 32
    ∃ p : Packet, pType p = ptRELEASE ∧ p.payload = mine.flatMap (fun e => natLE 4 (2 ^ 20 * e.2.1 + e.2.2)) ∧ packetCrcOk p = true ∧
      (s.releaseSend dst).hws.release = mine.foldl List.erase s.hws.release ∧ (s.releaseSend dst).hws.out = s.hws.out ++ [(q, p)] ∧
      (s.releaseSend dst).mem = s.mem := by
  unfold State.releaseSend
  rw [hq]
  dsimp only
  rw [if_neg hm]
  exact ⟨_, pType_mkPacket _ _ _ _ _ (by decide) (by decide), rfl, packetCrcOk_mkPacket .., rfl, rfl, rfl⟩

theorem exec_backoffExpiry_held {agent dst line : Nat} {e : Nat × Nat × Nat × Nat}
    (h : (s.hws.backoff.find? fun (e : Nat × Nat × Nat × Nat) => e.1 == agent && e.2.1 == dst && e.2.2.1 == line) = some e) :
    exec (.backoffExpiry agent dst line) s = .next { s.timeTo e.2.2.2 with
      hws := { (s.timeTo e.2.2.2).hws with backoff := (s.timeTo e.2.2.2).hws.backoff.erase e } }.flushHeld := by
  show execBackoffExpiry agent dst line s = _
  unfold execBackoffExpiry
  rw [h]

end

/-- Settles O33: a response by `hwsResponse_completes`, the other events by the branch that their hypotheses select. -/
theorem responsesRetriesAndFailures : Obligations.ResponsesRetriesAndFailures := by
  intro s
  refine ⟨fun p r type i hi ha => ?response, fun _ _ _ _ => exec_requestRetry_sent, fun _ _ _ => exec_requestFailure_answered,
    fun _ _ _ => exec_requestFailure_unanswered, fun dst q hq => ?release, fun _ _ _ _ => exec_backoffExpiry_held⟩
  case response =>
    obtain ⟨hk, hexec⟩ := exec_response hi
    exact fun hr hb => (hexec p s).trans (next_congr (hwsResponse_completes hk ha rfl hr hb))
  case release =>
    intro mine hm
    obtain ⟨p, hp⟩ := releaseSend_sends hq hm
    exact ⟨_, p, rfl, hp⟩

end Sys2Proof.Machine
end

section
/-! PROOFS. Lanyard: session packets and FABRIC resets (R351, R485 to R488, R490, R492), time-outs (R485, R489), and the commands that
read and write registers or close a session (R486, R489, R493). -/

namespace Sys2Proof.Machine

section
variable {s : State} {p : Packet}

/-! ### Set-up -/

section
variable {port : Nat}

theorem exec_hello1_whole (hv : s.lyServed = true) (h : s.lyGets lyHello1 p) (h0 : lySession p = 0) (hl : 137 ≤ (lyBody p).length) :
    exec (.hello1 port p) s = .next ((s.arrived p).hello1 port p) := by
  refine next_congr ?_
  rw [hv, if_neg (by decide), lyPacket_of_gets h]
  exact if_pos ⟨h0, hl⟩

theorem exec_hello3_taken (hv : s.lyServed = true) (h : s.lyGets lyHello3 p) :
    exec (.hello3 port p) s = .next ((s.arrived p).hello3 port p) := by
  refine next_congr ?_
  rw [hv, if_neg (by decide), lyPacket_of_gets h]
  rfl

/-- A set-up whose proofs hold opens where fewer than four sessions are open. -/
theorem hello3_opens {x y : Session} (hx : (s.bwl.sessions.find? fun x => x.id == lySession p && !x.up && x.peer == pSrc p) = some x)
    (hn : (s.bwl.sessions.filter Session.up).length < 4) (hy : s.hello3Open x (lyBody p) = some y) :
    s.hello3 port p = s.setSession y := by
  unfold State.hello3
  rw [hx]
  dsimp only
  rw [if_neg (Nat.not_le.2 hn), hy]

end

/-! ### DATA and CLOSE -/

theorem exec_dataCmd_taken (hv : s.lyServed = true) (h : s.lyGets lyData p) :
    exec (.dataCmd p) s = .next ((s.arrived p).lyDataIn p) := by
  refine next_congr ?_
  rw [hv, if_neg (by decide), lyPacket_of_gets h]
  rfl

/-- A command that opens under the key of its session, with a fresh COUNTER and within the rate, arrives. -/
theorem lyDataIn_arrives {x : Session} {plain : List Byte} (h1 : lyMajor p = 1)
    (hx : (s.bwl.sessions.find? fun x => x.id == lySession p && x.up) = some x)
    (ho : gcmOpen x.rxKey (x.rxSalt ++ natLE 8 (lyCounter p)) (wordsToBytes [p.w0, p.w1] ++ p.payload.take 16) (lyBody p) = some plain)
    (hc : counterOk x.seen (lyCounter p) = true) (h48 : lyCounter p < 2 ^ 48) (h8 : 8 ≤ plain.length)
    (hr : (s.setSession { x with seen := counterAdd x.seen (lyCounter p), last := s.time }).rateOver.2 = false) :
    s.lyDataIn p = (s.setSession { x with seen := counterAdd x.seen (lyCounter p), last := s.time }).rateOver.1.lyArrive
      (some x.id) plain := by
  unfold State.lyDataIn
  dsimp only
  rw [if_neg (not_not_intro h1), hx]
  dsimp only
  rw [ho]
  dsimp only
  rw [if_neg (ne_false_of_eq_true hc), if_neg (Nat.not_le.2 h48), if_neg (Nat.not_lt.2 h8), if_neg (ne_true_of_eq_false hr)]

theorem exec_closeCmd_counted (h : s.lyGets lyClose p) : exec (.closeCmd p) s = .next (s.arrived p) :=
  next_congr (lyPacket_of_gets h _)

/-! ### FRESET (R492) -/

section
variable (h : s.lyGets lyFreset p)
include h

theorem exec_freset_valid (hv : (s.arrived p).fresetOk (lyBody p) = true) : exec (.freset p) s =
    .next (((s.arrived p).wr Reg.BWL_FRESET_CTR (BitVec.ofNat 64 (leNat (((lyBody p).drop 8).take 8)))).takeReset [srcFABRIC]) :=
  next_congr ((lyPacket_of_gets h _).trans (if_pos hv))

theorem exec_freset_rejected (hv : (s.arrived p).fresetOk (lyBody p) = false) : exec (.freset p) s =
    .next ((s.arrived p).event Reg.BWL_EVENT Fld.BWL_EVENT_FRESET_REJECT (Reg.BWL_CNT 10)) :=
  next_congr ((lyPacket_of_gets h _).trans (if_neg (ne_true_of_eq_false hv)))

end

/-! ### Time-outs -/

theorem exec_sessionTimeout_over {id : Nat} {x : Session} (hx : s.sessionOf id = some x)
    (h : x.last + 300 * 10 ^ 9 ≤ s.time ∨ x.since + 86400 * 10 ^ 9 ≤ s.time) : exec (.sessionTimeout id) s = .next (s.expire x) := by
  show execSessionTimeout id s = _
  unfold execSessionTimeout
  rw [hx]
  exact next_congr (if_pos h)

/-- A command under way that was not told yet is told IN_PROGRESS, once. -/
theorem exec_commandProgressTimeout_tells {c : LyCmd} (hc : c ∈ s.bwl.running) (ht : c.told = false) :
    exec (.commandProgressTimeout c.via c.req) s = .next (State.lyReply { s with bwl := { s.bwl with
      running := tellCmd c.via c.req s.bwl.running
      cmds := tellCmd c.via c.req (s.bwl.cmds.take 1) ++ s.bwl.cmds.drop 1 } } c.via (lyResponse c.req lyIN_PROGRESS [])) :=
  next_congr (if_pos (List.any_eq_true.2 ⟨c, List.mem_append_left _ hc, by rw [ht, beq_self_eq_true, beq_self_eq_true]; rfl⟩))

/-! ### Commands -/

section
variable {c : LyCmd} {r : List LyCmd}

/-- An aligned address of control space is one that REG_READ and REG_WRITE accept. -/
theorem regAddress_good {a : Nat} {q : Prop} (h8 : a % 8 = 0) (hlo : ctrlBase ≤ a) (hhi : a < 2 ^ 48) (hq : ¬ q) :
    ¬ (a % 8 ≠ 0 ∨ a < ctrlBase ∨ 2 ^ 48 ≤ a ∨ q) := by
  rintro (h | h | h | h)
  · exact h h8
  · exact absurd hlo (Nat.not_le.2 h)
  · exact absurd hhi (Nat.not_lt.2 h)
  · exact hq h

theorem exec_getInfo_good (h : s.lyFirst 0x01 c r) (g : c.has 0 = true) :
    exec .getInfo s = .next ((s.lyTaken r).lyEnds c lyOK (s.lyTaken r).infoBytes) :=
  lyRun_answers h g _ rfl

theorem exec_regRead_good {pcie : List Word} (h : s.lyFirst 0x02 c r) (g : c.has 16 = true) (h8 : c.w 1 % 8 = 0)
    (hlo : ctrlBase ≤ c.w 1) (hhi : c.w 1 < 2 ^ 48) (hn : within 1 27 (c.w 2) = true) : exec (.regRead pcie) s =
    .next (((s.lyTaken r).lyRegs (c.w 1) pcie (c.w 2)).1.lyEnds c lyOK
      (wordsToBytes ((s.lyTaken r).lyRegs (c.w 1) pcie (c.w 2)).2)) :=
  lyRun_answers h g _ (if_neg (regAddress_good h8 hlo hhi (ne_false_of_eq_true hn)))

theorem exec_regWrite_good {man : List Byte} (h : s.lyFirst 0x03 c r) (g : c.has 16 = true) (h8 : c.w 1 % 8 = 0)
    (hlo : ctrlBase ≤ c.w 1) (hhi : c.w 1 < 2 ^ 48) : exec (.regWrite man) s =
    .next (((s.lyTaken r).regWrite .lanyard (c.w 1) (BitVec.ofNat 64 (c.w 2)) man true).lyEnds c lyOK []) :=
  lyRun_answers h g _ (if_neg fun hbad => regAddress_good h8 hlo hhi not_false (hbad.imp_right (Or.imp_right Or.inl)))

/-- The session that asks is closed after its answer. -/
theorem exec_closeSession_good {id : Nat} (h : s.lyFirst 0x04 c r) (g : c.has 0 = true) (hv : c.via = some id) :
    let t := ((s.lyTaken r).lyAnswer c lyOK []).dropSession id
    exec .closeSession s = .next (t.lyDrain t.bwl.cmds) := by
  show execCloseSession s = _
  unfold execCloseSession
  rw [lyFront_of_first h]
  dsimp only
  rw [g, hv]
  rfl

end

end

/-- Settles O52: packets by `lyPacket_of_gets` and the branch that their checks select, commands by `lyRun_answers`. -/
theorem lanyardSessions : Obligations.LanyardSessions := by
  intro s p port
  refine ⟨exec_hello1_whole, fun hv h => ⟨exec_hello3_taken hv h, fun _ _ => hello3_opens⟩,
    fun hv h => ⟨exec_dataCmd_taken hv h, fun _ _ => lyDataIn_arrives⟩, exec_closeCmd_counted,
    fun h => ⟨exec_freset_valid h, exec_freset_rejected h⟩, fun _ _ => exec_sessionTimeout_over, fun via req c hc hv hr ht => ?progress,
    fun _ _ => exec_getInfo_good, fun _ _ _ => exec_regRead_good, fun _ _ _ => exec_regWrite_good, fun _ _ _ => exec_closeSession_good⟩
  case progress =>
    subst hv hr
    exact ⟨_, exec_commandProgressTimeout_tells hc ht, rfl, rfl⟩

end Sys2Proof.Machine
end

section
/-! PROOFS. What a port sends in a period, repeated NAKs and replays (R397, R403), the steps of training (R406, R407, R412) and the light
(R388, R391). -/

namespace Sys2Proof.Machine

section
variable {s : State} {p : Nat}

/-! ### A codeword period, and flits sent again -/

section
variable (hw : s.working (capPort p) = true)
include hw

theorem exec_flitTransmit_traffic (h : s.portState p = optUp ∨ s.portState p = optCal) :
    let b := s.setPort p { s.port p with period := (s.port p).period + 1 }
    let sent := (List.range (b.fld (Reg.OPT_STATUS (pw p)) Fld.OPT_STATUS_TX_WIDTH)).foldl (fun (s : State) k => s.slotSend p k) b
    exec (.flitTransmit p) s = .next (((List.range 18).filter fun l => sent.txRole p l == roleSpare).foldl
      (fun (s : State) l => s.flitOpen p l (if s.calibrating p then ftCAL else ftIDLE) (s.port p).txSeq) sent) :=
  congrArg _ ((if_neg (ne_false_of_eq_true hw)).trans (if_pos h))

theorem exec_flitTransmit_train (hn : s.portState p ≠ optNegotiate) (ha : optAlign ≤ s.portState p) (hd : s.portState p < optDelay) :
    exec (.flitTransmit p) s = .next ((List.range 18).foldl (fun (t : State) l => t.flitOpen p l ftTRAIN 0) s) := by
  have quiet : ¬ (s.portState p = optUp ∨ s.portState p = optCal) := by
    rintro (h | h) <;> exact absurd (h ▸ hd) (by decide)
  show execFlitTransmit p s = _
  unfold execFlitTransmit
  dsimp only
  rw [if_neg (ne_false_of_eq_true hw), if_neg quiet, if_neg hn, if_neg hd.ne, if_pos ⟨ha, hd.le⟩]

theorem exec_nakResend_lost (ht : s.traffic p = true) (hl : (s.port p).rxLost = true) :
    let nak := s.timeTo ((s.port p).nakAt + 2000)
    exec (.nakResend p) s = .next (nak.setPort p { nak.port p with nakDue := true, nakAt := nak.time }) := by
  refine congrArg _ (if_pos ?_)
  rw [hw, ht, hl]
  rfl

theorem exec_replayTimeout_waiting {e : ReplayFlit} {r : List ReplayFlit} (ht : s.traffic p = true) (hr : (s.port p).replay = e :: r) :
    exec (.replayTimeout p) s = .next ((s.timeTo (e.sentAt + 4000)).replayFrom p 0) := by
  show execReplayTimeout p s = _
  unfold execReplayTimeout
  rw [hr, hw, ht]
  rfl

/-! ### Training -/

theorem exec_trainingStepDone_light {x : List Nat} {m : List (Nat × Nat)} (h : s.portState p = optLight) :
    let low (i : Nat) (t : State) : State := if t.laserLow p i then t.laserEvent p else t
    let lit := low 1 (low 0 (s.setLasers p x))
    exec (.trainingStepDone p x m) s = .next (if lit.anyUsable p then
      ((List.range 18).foldl (fun (t : State) l => t.setRx p l roleNone laneTraining) lit).setOpt p optAcquire else lit) :=
  congrArg _ ((if_neg (ne_false_of_eq_true hw)).trans (if_pos h))

theorem exec_trainingStepTimeout_overrun {silent : Bool} (hlo : optLight ≤ s.portState p) (hhi : s.portState p ≤ optCal)
    (hl : ¬ (s.portState p = optLight ∧ s.anyUsable p = false)) (ha : ¬ (s.portState p = optAcquire ∧ silent = true)) :
    exec (.trainingStepTimeout p silent) s = .next (s.trainFail p) := by
  have trains : ¬ (s.working (capPort p) = false ∨ s.portState p < optLight ∨ optCal < s.portState p) := by
    rintro (h | h | h)
    · exact ne_false_of_eq_true hw h
    · exact absurd hlo (Nat.not_le.2 h)
    · exact absurd hhi (Nat.not_le.2 h)
  exact congrArg _ ((if_neg trains).trans (if_neg (not_or.2 ⟨hl, ha⟩)))

theorem exec_trainingRetry_waiting (h : (s.port p).waiting = true) :
    exec (.trainingRetry p) s = .next ((s.timeTo ((s.port p).waitAt + 10000000)).trainBegin p) :=
  congrArg _ (if_pos (Bool.and_eq_true_iff.2 ⟨hw, h⟩))

end

/-! ### The light -/

/-- The readings of port `p` are taken, and inputs with one that falls below 13.0 dBm have set LASER_LOW. -/
def State.lasersTaken (s : State) (p : Nat) (x : List Nat) : State :=
  let changed (i : Nat) (t : State) : State := if (s.setLasers p x).laserFell s p i then t.laserEvent p else t
  changed 1 (changed 0 (s.setLasers p x))

theorem laserFell_iff {t : State} {i : Nat} : t.laserFell s p i = true ↔ ∃ k, k < 6 ∧ 104 ≤ s.laser p i k ∧ t.laser p i k < 104 := by
  simp only [State.laserFell, List.any_eq_true, List.mem_range, Bool.and_eq_true, decide_eq_true_eq]

/-- Lane `l` rides wavelength `l mod 6` (R388). -/
theorem mem_darkLanes {l : Nat} (hl : l < 18) : l ∈ s.darkLanes p ↔ s.usable p (l % 6) = false := by
  simp only [State.darkLanes, waveLanes, laneWave, List.mem_flatMap, List.mem_filter, List.mem_range, Bool.not_eq_true', beq_iff_eq]
  constructor
  · rintro ⟨k, ⟨-, dark⟩, -, rfl⟩
    exact dark
  · exact fun dark => ⟨l % 6, ⟨Nat.mod_lt _ (by decide), dark⟩, hl, rfl⟩

/-- New readings, by the light and the state that they leave. -/
theorem exec_laserInputChange_working {x : List Nat} (hw : s.working (capPort p) = true) :
    let u := s.lasersTaken p x
    exec (.laserInputChange p x) s = .next (if u.anyUsable p = false ∧ optAcquire ≤ u.portState p ∧ u.portState p ≤ optUp then u.linkDown p
      else if u.portState p = optUp then (u.spareFail p (u.darkLanes p)).degradeAll p fun l => (u.darkLanes p).contains l else u) :=
  congrArg _ (if_neg (ne_false_of_eq_true hw))

section
variable {x : List Nat} (hw : s.working (capPort p) = true)
include hw

theorem exec_laserInputChange_training (ha : (s.lasersTaken p x).anyUsable p = true) (hu : (s.lasersTaken p x).portState p ≠ optUp) :
    exec (.laserInputChange p x) s = .next (s.lasersTaken p x) :=
  (exec_laserInputChange_working hw).trans
    (congrArg _ ((if_neg fun h => ne_false_of_eq_true ha h.1).trans (if_neg hu)))

theorem exec_laserInputChange_up (ha : (s.lasersTaken p x).anyUsable p = true) (hu : (s.lasersTaken p x).portState p = optUp) :
    let u := s.lasersTaken p x
    exec (.laserInputChange p x) s =
      .next ((u.spareFail p (u.darkLanes p)).degradeAll p fun l => (u.darkLanes p).contains l) :=
  (exec_laserInputChange_working hw).trans
    (congrArg _ ((if_neg fun h => ne_false_of_eq_true ha h.1).trans (if_pos hu)))

theorem exec_laserInputChange_dark (ha : (s.lasersTaken p x).anyUsable p = false) (hlo : optAcquire ≤ (s.lasersTaken p x).portState p)
    (hhi : (s.lasersTaken p x).portState p ≤ optUp) : exec (.laserInputChange p x) s = .next ((s.lasersTaken p x).linkDown p) :=
  (exec_laserInputChange_working hw).trans (congrArg _ (if_pos ⟨ha, hlo, hhi⟩))

end

end

/-- Settles O44: a period and a step of training by the state of the port, the others by the branch that their hypotheses select. -/
theorem portsTransmitAndTrain : Obligations.PortsTransmitAndTrain := by
  intro s p x m hw
  refine ⟨exec_flitTransmit_traffic hw, ?caps, ?timed, exec_flitTransmit_train hw,
    exec_nakResend_lost hw, fun _ _ => exec_replayTimeout_waiting hw,
    fun h ha => (exec_trainingStepDone_light hw h).trans (congrArg _ (if_pos ha)),
    fun h ha => (exec_trainingStepDone_light hw h).trans (congrArg _ (if_neg (ne_true_of_eq_false ha))),
    ?acquire, ?align, ?qualify, ?map, ?negotiate, ?delay, ?cal,
    fun _ => exec_trainingStepTimeout_overrun hw, exec_trainingRetry_waiting hw, fun _ => laserFell_iff,
    exec_laserInputChange_training hw, exec_laserInputChange_up hw, fun _ => mem_darkLanes, exec_laserInputChange_dark hw⟩
  case caps | timed =>
    intro h
    show execFlitTransmit p s = _
    unfold execFlitTransmit
    dsimp only
    rw [hw, h]
    rfl
  case acquire | align | qualify | map | negotiate | delay | cal =>
    intro h
    show execTrainingStepDone p x m s = _
    unfold execTrainingStepDone
    dsimp only
    rw [hw, h]
    rfl

end Sys2Proof.Machine
end

section
/-! PROOFS. Lanes lost in operation and remappings (R408, R409), calibration bursts (R414 to R416), the failure of an engine (R561) and the
control register of a port (R411, R417). -/

namespace Sys2Proof.Machine

section
variable {s : State} {p : Nat}

/-! ### Remappings and the end of a burst -/

/-- The scheduled change `r` of a direction is carried out: its spare takes over the lane, or the direction narrows. -/
theorem exec_remapTakeEffect_up {rx : Bool} {r : Remap} (hu : s.portState p = optUp)
    (hr : ((s.port p).remaps.find? fun (q : Remap) =>
      q.rx == rx && decide (q.period ≤ 1 + (if rx then (s.port p).rxPeriod else (s.port p).period))) = some r) :
    let rest := listTake r (s.port p).remaps
    let t := s.setPort p { s.port p with remaps := rest }
    let down (q : Remap) : Remap := if q.rx = rx ∧ r.lane < q.lane then { q with lane := q.lane - 1 } else q
    let u := s.setPort p { s.port p with remaps := rest.map down }
    (∀ l, r.spare = some l → l < 18 →
      exec (.remapTakeEffect p rx) s = .next (if rx then t.spareRx p r.lane l else t.spareTx p r.lane l)) ∧
    (r.spare = none → exec (.remapTakeEffect p rx) s =
      .next ((if rx then u.narrowRx p r.lane else u.narrowTx p r.lane).widthService p)) := by
  have carried : exec (.remapTakeEffect p rx) s = execRemapTakeEffect p rx s := rfl
  unfold execRemapTakeEffect at carried
  dsimp only at carried
  rw [hr] at carried
  dsimp only at carried
  rw [if_neg (not_not_intro hu)] at carried
  constructor
  · intro l hl h18
    rw [carried, hl]
    exact congrArg _ (if_pos h18)
  · intro hl
    rw [carried, hl]

theorem exec_calBurstEnd_up (hu : s.portState p = optUp) (hc : s.calibrating p = true) :
    exec (.calBurstEnd p) s = .next (s.calEnd p).slipUpdate :=
  congrArg _ (if_pos (Bool.and_eq_true_iff.2 ⟨hc, beq_iff_eq.2 hu⟩))

section
variable (hw : s.working (capPort p) = true)
include hw

/-! ### Lanes lost in operation -/

/-- Port `p` works and its link is up. -/
theorem working_and_up (hu : s.portState p = optUp) : (s.working (capPort p) && s.portState p == optUp) = true := by
  rw [hw, hu]
  rfl

theorem exec_laneWindowEnd_up (hu : s.portState p = optUp) : exec (.laneWindowEnd p) s = .next ((s.windowBegin p).degradeAll p
    fun l => decide (57000 < (s.laneSince p l).1) || decide (4 ≤ (s.laneSince p l).2)) :=
  congrArg _ (if_pos (working_and_up hw hu))

theorem exec_laneSignalLoss_up (lanes : List Nat) (hu : s.portState p = optUp) :
    exec (.laneSignalLoss p lanes) s = .next (s.degradeAll p fun l => lanes.contains l) :=
  congrArg _ (if_pos (working_and_up hw hu))

/-! ### Bursts that fall due, and an engine that fails -/

theorem exec_calDue_up (hu : s.portState p = optUp) (hd : (s.port p).calDue = false) (hc : s.calibrating p = false) :
    let due := s.timeTo ((s.port p).calAt + 1000000 * s.fld (Reg.OPT_CAL (pw p)) Fld.OPT_CAL_PERIOD_MS)
    exec (.calDue p) s = .next (due.setPort p { due.port p with calDue := true }).calIdle := by
  refine congrArg _ (if_pos ?_)
  rw [working_and_up hw hu, hd, hc]
  rfl

theorem exec_opticalEngineFail_working : exec (.opticalEngineFail p) s = .next ((((((s.linkDown p).setOpt p optMappedOut).capClear
    (capPort p)).service Fld.RAS_SERVICE_REQUEST_PORT_ENGINE).addLoss lossPort p).slipUpdate.chooseServe.flushHeld) :=
  congrArg _ (if_pos hw)

end

end

/-! ### The control register -/

/-- The control register after a write: MIN_WIDTH keeps its value where it is given none of 4 to 16, and RETRAIN reads 0. -/
def State.portCtrlWord (s : State) (p : Nat) (v : Word) : Word :=
  let m := getF v Fld.OPT_CTRL_MIN_WIDTH
  packF [(Fld.OPT_CTRL_MIN_WIDTH, if 4 ≤ m ∧ m ≤ 16 then m else s.fld (Reg.OPT_CTRL (pw p)) Fld.OPT_CTRL_MIN_WIDTH),
    (Fld.OPT_CTRL_MGMT_ONLY, getF v Fld.OPT_CTRL_MGMT_ONLY), (Fld.OPT_CTRL_ENABLE, getF v Fld.OPT_CTRL_ENABLE)]

/-- Only the control register is written before the link goes down. -/
def State.portCtrlWritten (s : State) (p : Nat) (v : Word) : State := s.wr (Reg.OPT_CTRL (pw p)) (s.portCtrlWord p v)

section
variable {s : State} {p : Nat} {v : Word}

theorem portCtrlWord_mgmtOnly : getF (s.portCtrlWord p v) Fld.OPT_CTRL_MGMT_ONLY = getF v Fld.OPT_CTRL_MGMT_ONLY :=
  getF_packF (fs := [Fld.OPT_CTRL_MIN_WIDTH, Fld.OPT_CTRL_MGMT_ONLY, Fld.OPT_CTRL_ENABLE]) (by decide) rfl (by simp) (getF_lt _ _)

theorem portCtrlWritten_reads : s.sameBut (s.portCtrlWritten p v) [Reg.OPT_CTRL (pw p)] ∧
    getF ((s.portCtrlWritten p v).rd (Reg.OPT_CTRL (pw p))) Fld.OPT_CTRL_MGMT_ONLY = getF v Fld.OPT_CTRL_MGMT_ONLY := by
  refine ⟨fun a ha => rd_wr_other _ _ (by simpa using ha), ?_⟩
  rw [State.portCtrlWritten, rd_wr_same]
  exact portCtrlWord_mgmtOnly

/-- The control register is not the one that shows the state. -/
theorem portState_portCtrlWritten : (s.portCtrlWritten p v).portState p = s.portState p := by
  have apart : Reg.OPT_STATUS (Reg.portWin p) ≠ Reg.OPT_CTRL (pw p) := by
    unfold Reg.OPT_STATUS Reg.OPT_CTRL pw
    omega
  rw [State.portState, State.fld, State.portCtrlWritten, rd_wr_other _ _ apart]
  rfl

/-- RETRAIN, and a change of MGMT_ONLY or ENABLE, take the link down after the write. -/
theorem writePortCtrl_eq : s.writePortCtrl p v =
    let old := s.rd (Reg.OPT_CTRL (pw p))
    let new := s.portCtrlWord p v
    let t := s.portCtrlWritten p v
    if getF v Fld.OPT_CTRL_RETRAIN = 1 ∨ (getF old Fld.OPT_CTRL_MGMT_ONLY ≠ getF new Fld.OPT_CTRL_MGMT_ONLY ∧ t.portState p ≠ optIncompatible) ∨
        getF old Fld.OPT_CTRL_ENABLE ≠ getF new Fld.OPT_CTRL_ENABLE then t.linkDown p
    else t := rfl

theorem writePortCtrl_retrains (h : getF v Fld.OPT_CTRL_RETRAIN = 1) : s.writePortCtrl p v = (s.portCtrlWritten p v).linkDown p :=
  writePortCtrl_eq.trans (if_pos (.inl h))

theorem writePortCtrl_changes_mgmtOnly (h : getF (s.rd (Reg.OPT_CTRL (pw p))) Fld.OPT_CTRL_MGMT_ONLY ≠ getF v Fld.OPT_CTRL_MGMT_ONLY)
    (hi : s.portState p ≠ optIncompatible) : s.writePortCtrl p v = (s.portCtrlWritten p v).linkDown p := by
  rw [writePortCtrl_eq]
  dsimp only
  rw [portCtrlWord_mgmtOnly, portState_portCtrlWritten]
  exact if_pos (.inr (.inl ⟨h, hi⟩))

/-- MGMT_ONLY as the command gives it. -/
theorem mgmtOnly_given (v : Word) (on : Bool) :
    getF (setF v Fld.OPT_CTRL_MGMT_ONLY (if on then 1 else 0)) Fld.OPT_CTRL_MGMT_ONLY = if on then 1 else 0 := by
  rw [getF_setF_same _ _ _ (by decide)]
  cases on <;> rfl

section
variable {agent : Agent} (hw : s.working (capPort p) = true) (hp : (s.ctx agent).priv = true)
include hw hp

theorem exec_retrain_linkDown :
    let v := setF (s.rd (Reg.OPT_CTRL (pw p))) Fld.OPT_CTRL_RETRAIN 1
    exec (.retrain agent p) s = .next ((s.portCtrlWritten p v).linkDown p) :=
  congrArg _ ((if_pos (Bool.and_eq_true_iff.2 ⟨hp, hw⟩)).trans (writePortCtrl_retrains (getF_setF_same _ _ _ (by decide))))

theorem exec_mgmtOnly_linkDown {on : Bool} (hi : s.portState p ≠ optIncompatible)
    (h : getF (s.rd (Reg.OPT_CTRL (pw p))) Fld.OPT_CTRL_MGMT_ONLY ≠ if on then 1 else 0) :
    let v := setF (s.rd (Reg.OPT_CTRL (pw p))) Fld.OPT_CTRL_MGMT_ONLY (if on then 1 else 0)
    exec (.mgmtOnly agent p on) s = .next ((s.portCtrlWritten p v).linkDown p) :=
  congrArg _ ((if_pos (Bool.and_eq_true_iff.2 ⟨hp, hw⟩)).trans
    (writePortCtrl_changes_mgmtOnly ((mgmtOnly_given _ on).symm ▸ h) hi))

end

end

/-- Settles O45: the link by the branch that its hypotheses select, the control register by what its write leaves. -/
theorem portLanesBurstsAndControl : Obligations.PortLanesBurstsAndControl := by
  intro s p hw
  refine ⟨exec_laneWindowEnd_up hw, exec_laneSignalLoss_up hw, fun _ _ => exec_remapTakeEffect_up, exec_calDue_up hw, exec_calBurstEnd_up,
    exec_opticalEngineFail_working hw, fun agent hp => ⟨?retrain, fun on hc hi => ?mgmtOnly⟩⟩
  case retrain =>
    obtain ⟨frame, mgmt⟩ := portCtrlWritten_reads
    exact ⟨_, exec_retrain_linkDown hw hp, frame, mgmt.trans (getF_setF_apart _ _ _ _ (by decide) (by decide) (by decide))⟩
  case mgmtOnly =>
    obtain ⟨frame, mgmt⟩ := portCtrlWritten_reads
    exact ⟨_, exec_mgmtOnly_linkDown hw hp hi hc, frame, mgmt.trans (mgmtOnly_given _ on)⟩

end Sys2Proof.Machine
end

section
/-! PROOFS. The fuses over a step (R473, R476, R480, R481): every command but a confirmation of health leaves them as they are. -/

namespace Sys2Proof.Machine

/-- The fuses after a command are those before, or those that the confirmation of one image blows. -/
theorem exec_fuse {i : Instr} {s t : State} (h : exec i s = .next t) : t.fuse = s.fuse ∨ ∃ u, t.fuse = s.fuse.confirm u := by
  have kept (k : s.kept (exec i s)) : t.fuse = s.fuse ∨ ∃ u, t.fuse = s.fuse.confirm u := by
    rw [h, kept_next] at k
    exact .inl k.2
  cases i
  case healthConfirm agent v ok =>
    obtain ⟨u, e, -, hu⟩ := execHealthConfirm_keep agent v ok s
    obtain rfl : t = u := Host.Outcome.next.inj (h.symm.trans e)
    exact hu
  case registerWrite agent a v man ok =>
    obtain ⟨u, e, -, hu⟩ := execRegisterWrite_keep agent a v man ok s
    obtain rfl : t = u := Host.Outcome.next.inj (h.symm.trans e)
    exact hu
  all_goals exact kept (by simp [exec])

theorem idle_fuse (s : State) : s.idle.fuse = s.fuse := by
  unfold State.idle
  split <;> simp

theorem exec_forward {i : Instr} {s t : State} (h : exec i s = .next t) : s.fuse.forward t.fuse := by
  obtain e | ⟨u, e⟩ := exec_fuse h
  · exact e ▸ s.fuse.forward_refl
  · exact e ▸ s.fuse.confirm_forward u

theorem step_forward {s t : State} (h : step s = .next t) : s.fuse.forward t.fuse := by
  cases hp : s.pending with
  | nil =>
    obtain rfl : s.idle = t := Host.Outcome.next.inj ((step_of_pending_nil hp).symm.trans h)
    exact (idle_fuse s).symm ▸ s.fuse.forward_refl
  | cons i r =>
    have f : ({ s with pending := r } : State).fuse.forward t.fuse := exec_forward ((step_of_pending_cons hp).symm.trans h)
    exact f

/-- Settles O58: what goes forward under a confirmation, and stands under every other command and without one, goes forward
under a step. -/
theorem fusesOnlyGoForward : Obligations.FusesOnlyGoForward := fun _ _ => step_forward

end Sys2Proof.Machine
end

section
/-! PROOFS. Cuts (R514 to R522): what each of their commands does, by the branch that the state of the part selects, and what the end of
a part or of a restore leaves in the registers (R523). -/

namespace Sys2Proof.Machine

/-! ### The end of a part or of a restore -/

/-- An event of one bit is shown in its register. -/
theorem flag_event (s : State) {reg cnt : Nat} {f : Field} (detail : Nat) (hf : f.ok = true) (hw : f.hi = f.lo) (hc : reg ≠ cnt)
    (h1 : reg ≠ Reg.BWL_LOG_STATUS) (h2 : reg ≠ Reg.BWL_EVENT) (h3 : reg ≠ Reg.BWL_CNT 0) :
    (s.event reg f cnt detail).flag reg f = true := by
  rw [State.flag, State.fld, State.event, rd_log _ _ _ _ _ _ h1 h2 h3, rd_bump32, if_neg hc, ← State.fld, fld_setFld_same _ _ _ _ hf, hw,
    Nat.add_sub_cancel_left]
  rfl

/-- The event of a cut (or of a restore) that ends with result `r`. -/
def ckpEndEvent (r : Nat) (restore : Bool) : Field :=
  if r = crOk then if restore then Fld.CKP_EVENT_RESTORE_DONE else Fld.CKP_EVENT_CUT_DONE else Fld.CKP_EVENT_FAIL

/-- The counter of that event. -/
def ckpEndCount (r : Nat) (restore : Bool) : Nat :=
  if r = crOk then if restore then Reg.CKP_CNT_RESTORE else Reg.CKP_CNT_CUT else Reg.CKP_CNT_FAIL

section
variable {g : State} {r : Nat} {restore : Bool}

theorem ckpResult_eq : g.ckpResult r restore = (g.setFld Reg.CKP_STATUS Fld.CKP_STATUS_RESULT r).event Reg.CKP_EVENT
    (ckpEndEvent r restore) (ckpEndCount r restore) := by
  unfold State.ckpResult ckpEndEvent ckpEndCount
  by_cases h : r = crOk
  · cases restore <;> simp [h]
  · simp [h]

theorem rd_ckpResult {a : Nat} (ha : a ∉ [Reg.CKP_EVENT, Reg.CKP_CNT_RESTORE, Reg.CKP_CNT_CUT, Reg.CKP_CNT_FAIL, Reg.BWL_LOG_STATUS,
    Reg.BWL_EVENT, Reg.BWL_CNT 0]) : (g.ckpResult r restore).rd a = (g.setFld Reg.CKP_STATUS Fld.CKP_STATUS_RESULT r).rd a := by
  simp only [List.mem_cons, List.not_mem_nil, or_false, not_or] at ha
  obtain ⟨event, restored, cut, fail, log, bwl, cnt⟩ := ha
  have counter : a ≠ ckpEndCount r restore := by
    unfold ckpEndCount
    split_ifs <;> assumption
  rw [ckpResult_eq, rd_event _ _ _ _ _ _ event counter log bwl cnt]

theorem flag_ckpResult : (g.ckpResult r restore).flag Reg.CKP_EVENT (ckpEndEvent r restore) = true := by
  rw [ckpResult_eq]
  refine flag_event _ _ ?_ ?_ ?_ (by decide) (by decide) (by decide)
  · unfold ckpEndEvent
    split_ifs <;> decide
  · unfold ckpEndEvent
    split_ifs <;> rfl
  · unfold ckpEndCount
    split_ifs <;> decide

/-- The state in which a part or a restore of result `r` is IDLE, with its event. -/
def State.ckpEnded (g : State) (r : Nat) (restore : Bool) : State := (g.ckpResult r restore).setCkpPhase ckpIdle

theorem ckpPhase_ckpEnded : (g.ckpEnded r restore).ckpPhase = ckpIdle := fld_setFld_same _ _ _ _ (by decide)

theorem result_ckpEnded (hr : r < 256) : (g.ckpEnded r restore).fld Reg.CKP_STATUS Fld.CKP_STATUS_RESULT = r := by
  rw [State.ckpEnded, State.setCkpPhase, fld_setFld_apart _ _ _ _ _ (by decide) (by decide) (by decide), State.fld,
    rd_ckpResult (by decide), ← State.fld, fld_setFld_same _ _ _ _ (by decide)]
  exact Nat.mod_eq_of_lt hr

theorem flag_ckpEnded : (g.ckpEnded r restore).flag Reg.CKP_EVENT (ckpEndEvent r restore) = true := by
  rw [State.ckpEnded, State.setCkpPhase, State.flag, fld_setFld_other _ _ _ _ (by decide)]
  exact flag_ckpResult

/-- Registers and the log alone tell of the end. -/
theorem ckpEnded_eq : ∃ regs ring n, g.ckpEnded r restore = { g with regs := regs, logRing := ring, logNext := n } := by
  rw [State.ckpEnded, ckpResult_eq, event_eq]
  exact ⟨_, _, _, rfl⟩

/-- The part holds the tick no longer, and nothing of it is under way. -/
def State.ckpOver (t : State) : State := { t with ckp := { t.ckp with stage := 0 }, hly := { t.hly with cutHold := false } }

/-- The end of a part whose host asked for no event entry. -/
theorem ckpPartEnd_quiet (h : g.flag Reg.CKP_CTRL Fld.CKP_CTRL_EVQ_EN = false) :
    g.ckpPartEnd r = (g.ckpEnded r false).ckpOver.slipUpdate := by
  have quiet : (g.ckpEnded r false).flag Reg.CKP_CTRL Fld.CKP_CTRL_EVQ_EN = false := by
    rw [State.ckpEnded, State.setCkpPhase, State.flag, fld_setFld_other _ _ _ _ (by decide), State.fld, rd_ckpResult (by decide),
      rd_setFld, if_neg (by decide)]
    exact h
  exact congrArg (fun t : State => t.ckpOver.slipUpdate) (if_neg (ne_true_of_eq_false quiet))

/-- What a part that ends leaves (R521 to R523). -/
theorem ckpPartEnd_leaves (hr : r < 256) (h : g.flag Reg.CKP_CTRL Fld.CKP_CTRL_EVQ_EN = false) :
    let t := g.ckpPartEnd r
    t.ckpPhase = ckpIdle ∧ t.fld Reg.CKP_STATUS Fld.CKP_STATUS_RESULT = r ∧ t.ckp.stage = 0 ∧ t.hly.cutHold = false ∧
      t.flag Reg.CKP_EVENT (ckpEndEvent r false) = true ∧ t.mem = g.mem ∧ t.hws = g.hws := by
  dsimp only
  rw [ckpPartEnd_quiet h]
  obtain ⟨regs, ring, n, e⟩ := ckpEnded_eq (g := g) (r := r) (restore := false)
  obtain ⟨regs', sent, slip, stands⟩ := slipUpdate_form (g.ckpEnded r false).ckpOver
  have rd (a : Nat) (ha : a ≠ Reg.HLY_STATUS) : (g.ckpEnded r false).ckpOver.slipUpdate.rd a = (g.ckpEnded r false).rd a := stands a ha
  refine ⟨?_, ?_, ?_, ?_, ?_, ?_, ?_⟩
  · rw [State.ckpPhase, State.fld, rd _ (by decide)]
    exact ckpPhase_ckpEnded
  · rw [State.fld, rd _ (by decide)]
    exact result_ckpEnded hr
  · rw [slip, State.ckpOver]
  · rw [slip, State.ckpOver]
  · rw [State.flag, State.fld, rd _ (by decide)]
    exact flag_ckpEnded
  · rw [slip, State.ckpOver, e]
  · rw [slip, State.ckpOver, e]

end

/-! ### The held shard and the shards of the plan -/

section
variable {s : State}

/-- The drained part on its way: to its gather record where it has failed, else to its held shard. -/
theorem exec_cutDrained_drained (hs : s.ckp.stage = 1) (hr : s.hws.reqs = []) (hh : s.hws.held = []) :
    let f := s.wcFlushAll
    let b := heldBytes f.heldOps
    exec .cutDrained s = .next (if f.ckp.bad.isSome then f.ckpGatherSend
      else State.ckpBegin { f with ckp := { f.ckp with stage := 2, helds := f.ckp.helds ++ [(b, f.heldOps)] } } 0 f.cutMkind
        (f.cutW 7) (b, 0, 0)) := by
  refine congrArg _ (if_neg ?_)
  simp [hs, hr, hh]

/-- Where the store of `slot` goes: 1 to memory, 2 to PCI Express. -/
def State.slotKind (s : State) (slot : Nat) : Nat :=
  if slot = 0 then s.cutMkind
  else if peXform (s.ckp.plan.getD (slot - 1) []) = 3 then 1 else peKind (s.ckp.plan.getD (slot - 1) [])

/-- The bytes that the store of `slot` has written. -/
def State.slotStored (s : State) (slot : Nat) : Nat := ((s.ckp.recs.find? fun r => r.slot == slot).map CkpRec.stored).getD 0

section
variable {slot : Nat} {ok : Bool} (hm : slot ≠ ckpManSlot) (hs : s.ckp.stage = 2) (ho : s.ckpOpen slot = some 0)
include hm hs ho

theorem exec_shardWritten_ends : exec (.shardWritten slot ok) s =
    let t := (s.ckpClose slot).bump64 Reg.CKP_CNT_BYTES_OUT (s.slotStored slot)
    .next (if s.slotKind slot = 2 ∧ ok = false then s.ckpFail slot crStoreFail (some 0xFF)
      else ((if slot = 0 then t else t.setFld Reg.CKP_STATUS Fld.CKP_STATUS_SHARDS_DONE
        (t.fld Reg.CKP_STATUS Fld.CKP_STATUS_SHARDS_DONE + 1)).shardFill 8).shardsOver) := by
  refine congrArg _ ((if_neg hm).trans (if_neg ?_))
  simp [hs, ho]

theorem exec_shardWritten_failed (hk : s.slotKind slot = 2) (h : ok = false) :
    exec (.shardWritten slot ok) s = .next (s.ckpFail slot crStoreFail (some 0xFF)) :=
  (exec_shardWritten_ends hm hs ho).trans (congrArg _ (if_pos ⟨hk, h⟩))

theorem exec_shardWritten_written (h : s.slotKind slot ≠ 2 ∨ ok = true) : exec (.shardWritten slot ok) s =
    let t := (s.ckpClose slot).bump64 Reg.CKP_CNT_BYTES_OUT (s.slotStored slot)
    .next ((if slot = 0 then t else t.setFld Reg.CKP_STATUS Fld.CKP_STATUS_SHARDS_DONE
      (t.fld Reg.CKP_STATUS Fld.CKP_STATUS_SHARDS_DONE + 1)).shardFill 8).shardsOver := by
  refine (exec_shardWritten_ends hm hs ho).trans (congrArg _ (if_neg ?_))
  rintro ⟨hk, hf⟩
  exact h.elim (· hk) (ne_true_of_eq_false hf)

end

/-! ### Manifests -/

/-- A PCIe read under the slot of the manifest ends a stage of it, or fails the part. -/
theorem exec_shardWritten_manifest {ok : Bool} (hs : s.ckp.stage ∈ [3, 4, 5, 8, 9, 10]) (ho : s.ckpOpen ckpManSlot = some 0)
    (hk : s.cutMkind = 2) :
    exec (.shardWritten ckpManSlot ok) s = .next (if ok = false then s.ckpFail ckpManSlot crStoreFail (some 0xFF) else s.manNext) := by
  refine congrArg _ ((if_pos rfl).trans (if_neg ?_))
  rintro (h | h | h)
  · exact h hk
  · exact h ho
  · exact h hs

/-- The counted bytes of the manifest that is written. -/
def State.manCounted (s : State) : State := s.bump64 Reg.CKP_CNT_BYTES_OUT (512 + s.ckp.man.length)

theorem exec_nodeManifestCommit_written (hs : s.ckp.stage = 5) (ho : s.ckpOpen ckpManSlot = some 0) :
    exec .nodeManifestCommit s = .next s.manCounted.ckpGatherSend :=
  congrArg _ (if_pos ⟨hs, ho⟩)

section
variable {x y : List Byte}

theorem exec_partitionManifestCommit_written (hs : s.ckp.stage = 10) (ho : s.ckpOpen ckpManSlot = some 0) :
    exec (.partitionManifestCommit x y) s = .next (s.manCounted.ckpPartEnd crOk) := by
  refine congrArg _ ((if_neg ?_).trans (if_pos ⟨hs, ho⟩))
  rintro ⟨h, -⟩
  omega

/-- The designated node, for whose part the fences are counted. -/
abbrev State.gathering (s : State) : Prop := (s.ckp.stage = 6 ∨ s.ckp.stage = 7) ∧ s.cutDesig = true

/-- The gather records were read: the part fails with a node's, or its partition manifest begins in the next slot. -/
def State.gathered (x y : List Byte) (g : State × Option (List Byte)) : State :=
  let p := partSlot (partSeq x) (partSeq y)
  match g.2 with
  | none => g.1.ckpPartEnd crNodeFailed
  | some recs => State.manBegin { g.1 with ckp := { g.1.ckp with mseq := p.2 } } 8 (g.1.cutW 3 + 0x1000000 * p.1)
      (manRecord 1 g.1.ckp.seeds ++ recs)

theorem exec_partitionManifestCommit_gathered (hw : s.gathering) (hf : s.cutNodes ≤ s.fld Reg.CKP_FENCES Fld.CKP_FENCES_COUNT)
    {g : State × Option (List Byte)} (hg : s.gatherAll 0 s.cutNodes = g) :
    exec (.partitionManifestCommit x y) s = .next (State.gathered x y g) :=
  hg ▸ congrArg _ (if_pos ⟨hw.1, hw.2, hf⟩)

end

/-! ### Timeouts -/

theorem exec_gatherTimeout_missing (hw : s.gathering) (hf : s.fld Reg.CKP_FENCES Fld.CKP_FENCES_COUNT < s.cutNodes) :
    exec .gatherTimeout s = .next ((s.timeTo (s.ckp.holdAt + 1000000 * (s.cutTimeout + 100))).ckpPartEnd crGatherTimeout) :=
  congrArg _ (if_pos ⟨hw.1, hw.2, hf⟩)

theorem exec_cutTimeout_unwritten (h1 : 1 ≤ s.ckp.stage) (h5 : s.ckp.stage ≤ 5) :
    exec .cutTimeout s = .next ((s.timeTo (s.ckp.holdAt + 1000000 * s.cutTimeout)).ckpFail ckpManSlot crTimeout none) :=
  congrArg _ (if_pos ⟨h1, h5⟩)

end

/-- Settles O41: each command by the branch that its hypotheses select, the end of a part by `ckpPartEnd_leaves`. -/
theorem cutsWriteShardsAndManifests : Obligations.CutsWriteShardsAndManifests := by
  intro s
  refine ⟨fun hs hr hh => ⟨fun hb => ?held, fun x hb => ?bad⟩,
    fun slot ok hm hs ho => ⟨fun h h0 => ?first, fun h h0 => ?entry, exec_shardWritten_failed hm hs ho⟩,
    fun ok hs ho hk => ⟨fun h => ?next, fun h => ?fail⟩, exec_nodeManifestCommit_written,
    fun x y => exec_partitionManifestCommit_written, fun x y t hw hf hg => exec_partitionManifestCommit_gathered hw hf hg,
    fun x y t recs hw hf hg => exec_partitionManifestCommit_gathered hw hf hg, exec_gatherTimeout_missing, exec_cutTimeout_unwritten,
    fun g r hr h => ckpPartEnd_leaves hr h⟩
  case held => exact (exec_cutDrained_drained hs hr hh).trans (congrArg _ (if_neg (by simp [hb])))
  case bad => exact (exec_cutDrained_drained hs hr hh).trans (congrArg _ (if_pos (by simp [hb])))
  case first =>
    exact (exec_shardWritten_written hm hs ho h).trans
      (congrArg _ (congrArg (fun t : State => (t.shardFill 8).shardsOver) (if_pos h0)))
  case entry =>
    exact (exec_shardWritten_written hm hs ho h).trans
      (congrArg _ (congrArg (fun t : State => (t.shardFill 8).shardsOver) (if_neg h0)))
  case next => exact (exec_shardWritten_manifest hs ho hk).trans (congrArg _ (if_neg (by simp [h])))
  case fail => exact (exec_shardWritten_manifest hs ho hk).trans (congrArg _ (if_pos h))

end Sys2Proof.Machine
end

section
/-! PROOFS. The end of a cut hold (R510, R511), and restores (R524 to R527): each command by the branch that the state selects, and what
TICK_FINAL and the end of a restore leave. -/

namespace Sys2Proof.Machine

/-! ### Holds -/

section
variable {s : State}

theorem exec_cutHoldEnd_free (hm : s.isMaster = true) (hh : s.hlyState = hlyHoldFinal) (hc : s.ckp.closed = true)
    (hp : s.ckpPhase ≠ ckpRestoreHold) (hf : s.hly.final = none) (ha : s.aggPending = false) :
    let t := s.timeTo (s.tickEnd + s.fld Reg.HLY_TREE Fld.HLY_TREE_MIN_GUARD)
    exec .cutHoldEnd s = .next (t.sendFinal (t.time + t.lead)) := by
  refine congrArg _ (if_pos ?_)
  simp [hm, hh, hc, hp, hf, ha]

/-- The child of node `n` is not pending. -/
def Child.quietOf (n : Nat) (c : Child) : Child := if c.node = n then { c with pending := false } else c

theorem exec_childSilence_heard (hc : s.ckp.closed = true) (hp : s.ckpPhase ≠ ckpRestoreHold) (hh : s.hlyState = hlyHoldFinal) {n : Nat}
    {c : Child} (hn : (s.hly.children.find? fun (c : Child) => c.node == n) = some c) :
    let t := s.timeTo (c.heard + 500000)
    exec (.childSilence n) s =
      .next (State.slipUpdate { t with hly := { t.hly with children := t.hly.children.map (Child.quietOf n) } }) := by
  refine congrArg _ ((if_pos ?_).trans ?_)
  · simp [hc, hp, hh]
  · rw [hn]
    rfl

/-- TICK_FINAL fixes the end of the step, and goes to every child (R52, R510). -/
theorem sendFinal_fixes (g : State) (e : Nat) :
    let t := g.sendFinal e
    (∃ b, t.hly.final = some (g.step, e, b)) ∧ t.rd Reg.HLY_TICK_END = BitVec.ofNat 64 e ∧
      ∃ y : TickSymbol, y.step = g.step ∧ y.timeA = e ∧
        t.hly.sent = g.hly.sent ++ g.hly.children.map fun c => ⟨c.node, symTickFinal, y⟩ :=
  have step : (g.wr Reg.HLY_TICK_END (BitVec.ofNat 64 e)).step = g.step :=
    congrArg (getF · Fld.HLY_STEP_STEP) (rd_wr_other g _ (by decide))
  ⟨⟨e + (g.paramsAt (nextStep g.step)).period, congrArg (fun n => some (n, e, _)) step⟩, rd_wr_same _ _ _, _, rfl, rfl, rfl⟩

end

/-! ### The checks of a restore (R524, R525) -/

section
variable {s : State} {agent : Agent} {v : Word} {man : List Byte}

/-- The state that holds the descriptor of a restore, as it was read. -/
def ReadRes.described (r : ReadRes) : State := { r.st with ckp := { r.st.ckp with rdesc := bytesToWords 8 r.data } }

/-- Word 0 of the descriptor. -/
def ReadRes.restoreW0 (r : ReadRes) : Nat := (wordAt (bytesToWords 8 r.data) 0).toNat

/-- A descriptor of a restore that is well formed (Table CKP-9). -/
abbrev restoreSound (w : Nat) : Prop := bits w 63 56 = 1 ∧ bits w 51 0 = 0 ∧ (bits w 53 52 = 1 ∨ bits w 53 52 = 2)

/-- A restore from the answer to the read of its descriptor. -/
def ReadRes.restored (r : ReadRes) (man : List Byte) : State :=
  match r.stat with
  | .poison => r.st.restoreEnd crPoison
  | .absent => r.st.restoreEnd crInvalid
  | .ok =>
    if bits r.restoreW0 63 56 ≠ 1 ∨ bits r.restoreW0 51 0 ≠ 0 ∨ (bits r.restoreW0 53 52 ≠ 1 ∧ bits r.restoreW0 53 52 ≠ 2) then
      r.described.restoreEnd crInvalid
    else if r.described.restoreState (bit r.restoreW0 55) = false then r.described.restoreEnd crState
    else r.described.restoreCheck man

section
variable (hm : (s.ctx agent).serves = true) (hw : s.working capCkp = true) (hp : s.ckpPhase = ckpIdle)
include hm hw hp

theorem exec_ckpRestore_idle : exec (.ckpRestore agent v man) s = .next (if getF v Fld.CKP_RESTORE_DESC % 64 ≠ 0 then s.restoreEnd crInvalid
    else (s.readDesc 4 (getF v Fld.CKP_RESTORE_DESC)).restored man) := by
  refine congrArg _ (if_neg ?_)
  simp [hm, hw, hp]

theorem exec_ckpRestore_unaligned (ha : getF v Fld.CKP_RESTORE_DESC % 64 ≠ 0) :
    exec (.ckpRestore agent v man) s = .next (s.restoreEnd crInvalid) :=
  (exec_ckpRestore_idle hm hw hp).trans (congrArg _ (if_pos ha))

theorem exec_ckpRestore_aligned (ha : getF v Fld.CKP_RESTORE_DESC % 64 = 0) :
    exec (.ckpRestore agent v man) s = .next ((s.readDesc 4 (getF v Fld.CKP_RESTORE_DESC)).restored man) :=
  (exec_ckpRestore_idle hm hw hp).trans (congrArg _ (if_neg (not_not_intro ha)))

end

variable {r : ReadRes}

theorem restored_poison (h : r.stat = .poison) : r.restored man = r.st.restoreEnd crPoison := by
  rw [ReadRes.restored, h]

theorem restored_absent (h : r.stat = .absent) : r.restored man = r.st.restoreEnd crInvalid := by
  rw [ReadRes.restored, h]

theorem restored_unsound (h : r.stat = .ok) (hs : ¬ restoreSound r.restoreW0) : r.restored man = r.described.restoreEnd crInvalid := by
  rw [ReadRes.restored, h]
  refine if_pos ?_
  unfold restoreSound at hs
  tauto

/-- A sound descriptor is judged by the state of the node, then by its manifest. -/
theorem restored_sound (h : r.stat = .ok) (hs : restoreSound r.restoreW0) : r.restored man =
    if r.described.restoreState (bit r.restoreW0 55) = false then r.described.restoreEnd crState else r.described.restoreCheck man := by
  rw [ReadRes.restored, h]
  refine if_neg ?_
  unfold restoreSound at hs
  tauto

end

/-! ### The manifest of a restore (R525) -/

/-- A field of a manifest header: `n` bytes from byte `o`. -/
abbrev manField (m : List Byte) (o n : Nat) : Nat := leNat ((m.drop o).take n)

theorem leNat_lt (l : List Byte) : leNat l < 256 ^ l.length := by
  induction l with
  | nil => exact Nat.one_pos
  | cons b l ih =>
    have hb : b.toNat < 256 := b.isLt
    rw [leNat, List.length_cons, Nat.pow_succ]
    omega

theorem manField_lt (m : List Byte) (o n : Nat) : manField m o n < 256 ^ n :=
  (leNat_lt _).trans_le (Nat.pow_le_pow_right (by decide) (List.length_take_le _ _))

section
variable {u : State} {m : List Byte}

/-- The digest of the header, as the descriptor gives it. -/
def State.restoreDigest (u : State) : List Byte := ((u.ckp.rdesc.drop 2).take 6).flatMap fun x => natLE 8 x.toNat

/-- The state with the bytes of the manifest that were read counted: its header, and its body where the digest agrees. -/
def State.manIn (u : State) (m : List Byte) : State := u.bump64 Reg.CKP_CNT_BYTES_IN
  (if sha384 (m.take 256) = u.restoreDigest then min m.length (256 + manField m 52 4) else min m.length 256)

/-- The manifest was made under other numerics than this device's. -/
abbrev State.sigDiffers (u : State) (m : List Byte) : Prop := manField m 24 8 ≠ (u.rd Reg.ID_NUMERICS_SIG).toNat

theorem ownNode_manIn : (u.manIn m).ownNode = u.ownNode := by
  rw [State.ownNode, State.fld, State.manIn, rd_bump64, if_neg (by decide)]
  rfl

theorem restoreCheck_corrupt (h : sha384 (m.take 256) ≠ u.restoreDigest ∨ manParse m = none) :
    u.restoreCheck m = (u.manIn m).restoreEnd crManifestCorrupt :=
  if_pos (h.imp_right Option.isNone_iff_eq_none.2)

/-- The step and the cut of manifest `m` are shown. -/
def State.restoreShown (s : State) (m : List Byte) : State :=
  (s.wr Reg.CKP_STEP (BitVec.ofNat 64 (manField m 16 6))).setFlds Reg.CKP_STATUS
    [(Fld.CKP_STATUS_CUT_ID, manField m 12 4), (Fld.CKP_STATUS_PHASE, ckpRestoring), (Fld.CKP_STATUS_SHARDS_DONE, 0)]

theorem fld_restoreShown (s : State) {f : Field} {x : Nat} (hf : (f, x) ∈ [(Fld.CKP_STATUS_CUT_ID, manField m 12 4),
    (Fld.CKP_STATUS_PHASE, ckpRestoring), (Fld.CKP_STATUS_SHARDS_DONE, 0)]) (hx : x < 2 ^ (f.hi + 1 - f.lo)) :
    (s.restoreShown m).fld Reg.CKP_STATUS f = x := by
  rw [State.fld, State.restoreShown, rd_setFlds, if_pos rfl]
  exact (getF_setFields (fs := [Fld.CKP_STATUS_CUT_ID, Fld.CKP_STATUS_PHASE, Fld.CKP_STATUS_SHARDS_DONE]) (by decide) _ rfl _ hf).trans
    (Nat.mod_eq_of_lt hx)

/-- A restore of manifest `m` begins, with its step and its cut. -/
def State.restoreBegun (s : State) (m : List Byte) : State :=
  { s.restoreShown m with ckp := { (s.restoreShown m).ckp with stage := 11, rman := m } }

theorem rd_restoreBegun (s : State) (a : Nat) : (s.restoreBegun m).rd a = (s.restoreShown m).rd a :=
  congrArg (sGet regReset · a) (show (s.restoreBegun m).regs = (s.restoreShown m).regs from rfl)

theorem restoreBegun_leaves (s : State) (m : List Byte) :
    let t := s.restoreBegun m
    t.ckp.stage = 11 ∧ t.ckp.rman = m ∧ t.fld Reg.CKP_STATUS Fld.CKP_STATUS_CUT_ID = manField m 12 4 ∧ t.ckpPhase = ckpRestoring ∧
      t.rd Reg.CKP_STEP = BitVec.ofNat 64 (manField m 16 6) := by
  refine ⟨rfl, rfl, ?_, ?_, ?_⟩
  · rw [State.fld, rd_restoreBegun]
    exact fld_restoreShown s List.mem_cons_self (manField_lt m 12 4)
  · rw [State.ckpPhase, State.fld, rd_restoreBegun]
    exact fld_restoreShown s (List.mem_cons_of_mem _ List.mem_cons_self) (by decide)
  · rw [rd_restoreBegun, State.restoreShown, rd_setFlds, if_neg (by decide), rd_wr_same]

section
variable (hd : sha384 (m.take 256) = u.restoreDigest) (hp : manParse m ≠ none)
include hd hp

/-- What a manifest that is whole is judged by. -/
theorem restoreCheck_whole : u.restoreCheck m = if manField m 32 2 ≠ u.ownNode then (u.manIn m).restoreEnd crNodeMismatch
    else if decide (u.sigDiffers m) = true ∧ bit (wordAt u.ckp.rdesc 0).toNat 54 = true then (u.manIn m).restoreEnd crSigMismatch
    else State.restoreBegun (if decide (u.sigDiffers m) then
      (u.manIn m).event Reg.CKP_EVENT Fld.CKP_EVENT_SIG_MISMATCH Reg.CKP_CNT_SIG_MISMATCH else u.manIn m) m := by
  rw [← ownNode_manIn (m := m)]
  refine if_neg ?_
  rintro (h | h)
  · exact h hd
  · exact hp (Option.isNone_iff_eq_none.1 h)

theorem restoreCheck_otherNode (hn : manField m 32 2 ≠ u.ownNode) : u.restoreCheck m = (u.manIn m).restoreEnd crNodeMismatch :=
  (restoreCheck_whole hd hp).trans (if_pos hn)

theorem restoreCheck_otherSig (hn : manField m 32 2 = u.ownNode) (hs : u.sigDiffers m) (hb : bit (wordAt u.ckp.rdesc 0).toNat 54 = true) :
    u.restoreCheck m = (u.manIn m).restoreEnd crSigMismatch :=
  (restoreCheck_whole hd hp).trans ((if_neg (not_not_intro hn)).trans (if_pos ⟨decide_eq_true hs, hb⟩))

theorem restoreCheck_sound (hn : manField m 32 2 = u.ownNode) (hs : ¬ u.sigDiffers m ∨ bit (wordAt u.ckp.rdesc 0).toNat 54 = false) :
    ∃ t : State, u.restoreCheck m = t.restoreBegun m := by
  refine ⟨_, (restoreCheck_whole hd hp).trans ((if_neg (not_not_intro hn)).trans (if_neg ?_))⟩
  rintro ⟨h, hb⟩
  exact hs.elim (· (of_decide_eq_true h)) (ne_true_of_eq_false · hb)

end

end

/-! ### The end of a restore (R526, R527) -/

section
variable {s u : State} {data : List (List Byte)} {res : Nat}

/-- The records of the manifest in the order of their restoring: SHARD before HELD. -/
def State.restoreOrder (s : State) : List ManRec :=
  let l := (manParse s.ckp.rman).getD []
  (l.filter fun (r : ManRec) => !isHeld r) ++ l.filter isHeld

/-- A restored master holds at its step until it is released. -/
def State.restoreHeldAt (s : State) : State :=
  let t := (s.wr Reg.HLY_STEP (BitVec.ofNat 64 s.ckpStep)).setHlyState hlyHoldFinal
  { t.setCkpPhase ckpRestoreHold with
    ckp := { t.ckp with closed := true, holdAt := t.time }
    hly := { t.hly with final := none, lateHold := false } }

/-- A restore ends by the result of restoring its records. -/
def restoreOver (x : State × Nat) : State :=
  if x.2 ≠ crOk then
    (if x.2 = crDigestFail then x.1.event Reg.CKP_EVENT Fld.CKP_EVENT_DIGEST_FAIL Reg.CKP_CNT_DIGEST_FAIL else x.1).restoreEnd x.2
  else if bit (wordAt (x.1.restoreEnd crOk).ckp.rdesc 0).toNat 55 then (x.1.restoreEnd crOk).restoreHeldAt else x.1.restoreEnd crOk

theorem exec_restoreComplete_over (hs : s.ckp.stage = 11) (hr : s.restoreAll s.restoreOrder data = (u, res)) :
    exec (.restoreComplete data) s = .next (restoreOver (u, res)) :=
  hr ▸ congrArg _ (if_neg (not_not_intro hs))

theorem restoreOver_failed (h : res ≠ crOk) : restoreOver (u, res) =
    (if res = crDigestFail then u.event Reg.CKP_EVENT Fld.CKP_EVENT_DIGEST_FAIL Reg.CKP_CNT_DIGEST_FAIL else u).restoreEnd res :=
  if_pos h

theorem restoreOver_ok : restoreOver (u, crOk) =
    if bit (wordAt (u.restoreEnd crOk).ckp.rdesc 0).toNat 55 then (u.restoreEnd crOk).restoreHeldAt else u.restoreEnd crOk :=
  if_neg (not_not_intro rfl)

theorem exec_ckpRelease_held {agent : Agent} (hm : (s.ctx agent).serves = true) (hp : s.ckpPhase = ckpRestoreHold) (hf : s.hly.final = none) :
    exec (.ckpRelease agent) s = .next (s.sendFinal (s.time + s.lead)) := by
  refine congrArg _ (if_pos ?_)
  simp [hm, hp, hf]

/-- What a restore that ends leaves (R523). -/
theorem restoreEnd_leaves (g : State) {r : Nat} (hr : r < 256) :
    let t := g.restoreEnd r
    t.ckpPhase = ckpIdle ∧ t.fld Reg.CKP_STATUS Fld.CKP_STATUS_RESULT = r ∧ t.ckp = { g.ckp with stage := 0 } ∧
      t.flag Reg.CKP_EVENT (ckpEndEvent r true) = true ∧ t.mem = g.mem := by
  obtain ⟨regs, ring, n, e⟩ := ckpEnded_eq (g := g) (r := r) (restore := true)
  exact ⟨ckpPhase_ckpEnded, result_ckpEnded hr, rfl, flag_ckpEnded, show (g.ckpEnded r true).mem = g.mem by rw [e]⟩

end

/-- Settles O42: each command by the branch that its hypotheses select, TICK_FINAL by `sendFinal_fixes`, the end of a restore by
`restoreEnd_leaves`. -/
theorem holdsAndRestores : Obligations.HoldsAndRestores := by
  intro s agent
  refine ⟨exec_cutHoldEnd_free, fun n c hc hp hh hn => exec_childSilence_heard hc hp hh hn, fun v man hm hw hp => ?restore,
    fun data u res hs hr => ⟨fun h hb => ?ends, fun h hb => ?holds, fun h => ?digest, fun h hd => ?fails⟩, exec_ckpRelease_held,
    sendFinal_fixes, fun g r => restoreEnd_leaves g⟩
  case restore =>
    have aligned (ha : getF v Fld.CKP_RESTORE_DESC % 64 = 0) := exec_ckpRestore_aligned (man := man) hm hw hp ha
    refine ⟨exec_ckpRestore_unaligned hm hw hp, fun ha h => (aligned ha).trans (congrArg _ (restored_poison h)), fun ha h => ?invalid,
      fun ha h hs hst => ?state, fun ha h hs hst => ?manifest⟩
    case invalid =>
      rcases h with h | ⟨h, hs⟩
      · exact ⟨_, (aligned ha).trans (congrArg _ (restored_absent h)), .inl rfl⟩
      · exact ⟨_, (aligned ha).trans (congrArg _ (restored_unsound h hs)), .inr rfl⟩
    case state => exact (aligned ha).trans (congrArg _ ((restored_sound h hs).trans (if_pos hst)))
    case manifest =>
      have checked := (aligned ha).trans (congrArg _ ((restored_sound h hs).trans (if_neg (ne_false_of_eq_true hst))))
      refine ⟨fun hc => checked.trans (congrArg _ (restoreCheck_corrupt hc)),
        fun hd hp hn => checked.trans (congrArg _ (restoreCheck_otherNode hd hp hn)),
        fun hd hp hn hs hb => checked.trans (congrArg _ (restoreCheck_otherSig hd hp hn (of_decide_eq_false hs) hb)),
        fun hd hp hn hs => ?sound⟩
      case sound =>
        obtain ⟨t, e⟩ := restoreCheck_sound hd hp hn (hs.imp_left fun h => not_not_intro (of_decide_eq_true h))
        exact ⟨_, checked.trans (congrArg _ e), restoreBegun_leaves t man⟩
  case ends =>
    subst h
    exact (exec_restoreComplete_over hs hr).trans (congrArg _ (restoreOver_ok.trans (if_neg (ne_true_of_eq_false hb))))
  case holds =>
    subst h
    exact (exec_restoreComplete_over hs hr).trans (congrArg _ (restoreOver_ok.trans (if_pos hb)))
  case digest =>
    subst h
    exact (exec_restoreComplete_over hs hr).trans (congrArg _ (restoreOver_failed (by decide)))
  case fails =>
    exact (exec_restoreComplete_over hs hr).trans
      (congrArg _ ((restoreOver_failed h).trans (congrArg (State.restoreEnd · res) (if_neg hd))))

end Sys2Proof.Machine
end

section
/-! PROOFS. The sources of reset (R447 to R457, R472, R478, R580, R582) and fatal errors (R557): what each command does, by the branch that
the state selects. -/

namespace Sys2Proof.Machine

section
variable {s : State}

/-! ### Pins and supplies -/

theorem exec_pwrok_falls (hv : s.rst.vsb = true) (hp : s.rst.pwrOk = true) (l : List Nat) :
    exec (.pwrok l) s = .next (s.takeAll srcPWROK l) :=
  congrArg _ (if_pos (Bool.and_eq_true_iff.2 ⟨hv, hp⟩))

theorem exec_pwrOkRise_powered (hv : s.rst.vsb = true) : exec .pwrOkRise s = .next { s with rst := { s.rst with pwrOk := true } } :=
  congrArg _ (if_pos hv)

theorem exec_vin48OutOfRange_resets (hv : s.rst.vsb = true) (hp : s.rst.pwrOk = true) (hf : s.rst.vinFault = false) :
    exec .vin48OutOfRange s = .next (State.takeReset { s with rst := { s.rst with vinFault := true } } [srcPWROK]) := by
  refine congrArg _ (if_pos ?_)
  rw [hv, hp, hf]
  rfl

theorem exec_pin_resets (hv : s.rst.vsb = true) (hr : s.rst.resetN = true) (l : List Nat) :
    exec (.pin l) s = .next (s.takeAll srcPIN l) :=
  congrArg _ ((if_neg (ne_false_of_eq_true hv)).trans (if_pos hr))

theorem exec_pin_unpowered (hv : s.rst.vsb = false) (l : List Nat) : exec (.pin l) s = .next (s.pinsFall [srcPIN]) :=
  congrArg _ (if_pos hv)

/-- A TAP instruction that drives pins gives way to Test-Logic-Reset (R585). -/
def State.tapCalm (s : State) : State :=
  if s.rst.tapIr = tapEXTEST ∨ s.rst.tapIr = tapHIGHZ ∨ s.rst.tapIr = tapCLAMP then s.tap tapIDCODE (some (tapId s.fuse.part)) else s

theorem exec_resetNRelease_samples (hv : s.rst.vsb = true) (hr : s.rst.resetN = false) (boot clk sb : Nat) :
    exec (.resetNRelease boot clk sb) s =
      .next { (s.tapCalm.wr Reg.RST_STRAP (packF [(Fld.RST_STRAP_BOOT_SRC, boot), (Fld.RST_STRAP_CLK_MODE, clk),
        (Fld.RST_STRAP_SB_ADDR, sb), (Fld.RST_STRAP_SMB_ADDR, 0x58 + sb % 8)])).setFld Reg.HLY_STATUS Fld.HLY_STATUS_CLK_SRC clk with
          rst := { s.tapCalm.rst with resetN := true } } := by
  refine congrArg _ (if_pos ?_)
  rw [hv, hr]
  rfl

/-! ### The hold after THERM (R456) -/

/-- Every junction is below 95 °C. -/
abbrev State.cooled (s : State) : Prop := ∀ l ∈ s.pwr.junction, ∀ x ∈ l, x < 95 * 16

/-- The test of the junctions, as the model makes it. -/
theorem cooled_iff : (s.pwr.junction.all fun l => l.all fun t => decide (t < degRestart)) = true ↔ s.cooled := by
  simp only [List.all_eq_true, decide_eq_true_eq]
  exact Iff.rfl

theorem exec_thermRestart_begins (hb : s.mayBegin = true) (hc : s.cooled) :
    exec .thermRestart s = .next { s with rst := { s.rst with thermHold := false } } :=
  congrArg _ (if_pos (Bool.and_eq_true_iff.2 ⟨hb, cooled_iff.2 hc⟩))

theorem exec_thermRestart_holds (h : s.mayBegin = false ∨ ¬ s.cooled) : exec .thermRestart s = .next s := by
  refine congrArg _ (if_neg fun q => ?_)
  obtain ⟨hb, hc⟩ := Bool.and_eq_true_iff.1 q
  exact h.elim (ne_false_of_eq_true hb) (· (cooled_iff.1 hc))

/-! ### The host's write and the watchdog (R472, R478) -/

theorem exec_rstCtrlReset_keyed {agent : Agent} {v : Word} (hp : (s.ctx agent).priv = true) (hk : getF v Fld.RST_CTRL_KEY = 0xA5)
    (hr : getF v Fld.RST_CTRL_RESET = 1) (l : List Nat) : exec (.rstCtrlReset agent v l) s = .next (s.takeAll srcHOST l) :=
  congrArg _ (if_pos ⟨hp, hk, hr⟩)

theorem exec_watchdogExpiry_due (h : s.start = 1 ∨ s.start = 2 ∧
    s.bwl.kickAt + 1000000 * s.fld Reg.BWL_WDOG Fld.BWL_WDOG_PERIOD_MS ≤ s.time) (l : List Nat) :
    exec (.watchdogExpiry l) s = .next (s.takeAll srcWDOG l) :=
  congrArg _ (if_pos (h.imp_right (And.imp_right decide_eq_true)))

/-- The state with the period that a kick gives, where it is in range. -/
def State.wdogPeriod (s : State) (v : Word) : State :=
  let p := getF (setF v Fld.BWL_WDOG_KICK 1) Fld.BWL_WDOG_PERIOD_MS
  if within 100 60000 p then s.setFld Reg.BWL_WDOG Fld.BWL_WDOG_PERIOD_MS p else s

theorem wdogPeriod_sameBut (v : Word) : s.sameBut (s.wdogPeriod v) [Reg.BWL_WDOG] := by
  intro a ha
  unfold State.wdogPeriod
  dsimp only
  split
  · rw [rd_setFld, if_neg fun h => ha (List.mem_singleton.2 h)]
  · rfl

theorem exec_wdogKick_kicks (hm : s.fld Reg.BWL_STATUS Fld.BWL_STATUS_MODE = 1) (v : Word) :
    exec (.wdogKick .bowline v) s =
      .next { s.wdogPeriod v with bwl := { (s.wdogPeriod v).bwl with kickAt := (s.wdogPeriod v).time } } :=
  congrArg _ ((if_pos ⟨rfl, hm⟩).trans (if_pos (getF_setF_same _ _ _ (by decide))))

/-- A kick begins the watchdog's period anew and writes no other register. -/
theorem wdogKick_leaves (hm : s.fld Reg.BWL_STATUS Fld.BWL_STATUS_MODE = 1) (v : Word) :
    ∃ t, exec (.wdogKick .bowline v) s = .next t ∧ t.bwl.kickAt = s.time ∧ s.sameBut t [Reg.BWL_WDOG] :=
  ⟨_, exec_wdogKick_kicks hm v, congrArg BitVec.toNat (wdogPeriod_sameBut v Reg.HLY_TIMEBASE (by decide)),
    fun a ha => (rd_with_bwl _ _ a).trans (wdogPeriod_sameBut v a ha)⟩

/-! ### Fatal errors (R557) -/

/-- The first fatal error of a reset is shown and logged. -/
def State.fatalTold (s : State) (code die : Nat) : State :=
  (s.wr Reg.RAS_FATAL (packF [(Fld.RAS_FATAL_VALID, 1), (Fld.RAS_FATAL_MULTI, 0), (Fld.RAS_FATAL_NO_RECORD,
    if code = 8 then 1 else 0), (Fld.RAS_FATAL_DIE, die), (Fld.RAS_FATAL_CODE, code), (Fld.RAS_FATAL_STEP, s.step)])).log Reg.RAS_FATAL 63 0 0

section
variable {code die : Nat} {ok : Bool} (h : s.rst.fatal = false)
include h

theorem exec_fatalError_first : exec (.fatalError [(code, die)] ok) s =
    let t := s.fatalTold code die
    .next (if code = 8 then t.takeReset [srcFATAL]
      else if (ok && t.nvmBusy) = true then
        State.nvmLater { t with rst := { t.rst with fatal := true } } (.fatal true (t.fatalNew (2 ^ srcFATAL)) (some srcFATAL))
      else if ok = true then (t.fatalWrite true (2 ^ srcFATAL)).takeReset [srcFATAL]
      else { t with rst := { t.rst with fatal := true } }) := by
  have bowline : ([(code, die)].any fun x => x.1 == 8) = true ↔ code = 8 := by simp
  refine congrArg _ ((if_neg (ne_true_of_eq_false h)).trans ?_)
  dsimp only
  simp only [bowline]
  rfl

theorem exec_fatalError_bowline (hc : code = 8) :
    exec (.fatalError [(code, die)] ok) s = .next ((s.fatalTold code die).takeReset [srcFATAL]) :=
  (exec_fatalError_first h).trans (congrArg _ (if_pos hc))

variable (hc : code ≠ 8)
include hc

theorem exec_fatalError_recorded (ho : ok = true) (hb : (s.fatalTold code die).nvmBusy = false) :
    exec (.fatalError [(code, die)] ok) s = .next (((s.fatalTold code die).fatalWrite true (2 ^ srcFATAL)).takeReset [srcFATAL]) :=
  (exec_fatalError_first h).trans (congrArg _ ((if_neg hc).trans ((if_neg (by simp [hb])).trans (if_pos ho))))

theorem exec_fatalError_waits (ho : ok = true) (hb : (s.fatalTold code die).nvmBusy = true) :
    let t := s.fatalTold code die
    exec (.fatalError [(code, die)] ok) s =
      .next (State.nvmLater { t with rst := { t.rst with fatal := true } } (.fatal true (t.fatalNew (2 ^ srcFATAL)) (some srcFATAL))) :=
  (exec_fatalError_first h).trans (congrArg _ ((if_neg hc).trans (if_pos (Bool.and_eq_true_iff.2 ⟨ho, hb⟩))))

theorem exec_fatalError_unrecorded (ho : ok = false) :
    let t := s.fatalTold code die
    exec (.fatalError [(code, die)] ok) s = .next { t with rst := { t.rst with fatal := true } } :=
  (exec_fatalError_first h).trans (congrArg _ ((if_neg hc).trans ((if_neg (by simp [ho])).trans (if_neg (by simp [ho])))))

end

theorem exec_fatalError_again (h : s.rst.fatal = true) (c : Nat × Nat) (l : List (Nat × Nat)) (ok : Bool) :
    exec (.fatalError (c :: l) ok) s = .next (s.setFld Reg.RAS_FATAL Fld.RAS_FATAL_MULTI 1) :=
  congrArg Host.Outcome.next (if_pos h)

theorem exec_fatalRecordTimeout_fatal (h : s.rst.fatal = true) :
    exec .fatalRecordTimeout s = .next ((s.setFld Reg.RAS_FATAL Fld.RAS_FATAL_NO_RECORD 1).takeReset [srcFATAL]) :=
  congrArg _ (if_pos h)

end

/-- Settles O46: each source by the branch that its hypotheses select, what a warm reset keeps by `rd_warm_kept`. -/
theorem resetSourcesAndFatalErrors : Obligations.ResetSourcesAndFatalErrors := fun s =>
  ⟨⟨rfl, rfl, fun _ => ⟨rfl, rfl, rfl, rfl⟩⟩, exec_pwrok_falls, fun _ _ => ⟨rfl, rfl⟩, exec_pwrOkRise_powered,
    exec_vin48OutOfRange_resets, rfl, exec_pin_resets, exec_pin_unpowered, exec_resetNRelease_samples, exec_thermRestart_begins,
    exec_thermRestart_holds, rfl, fun _ _ l hp hk hr => exec_rstCtrlReset_keyed hp hk hr l, fun l h => exec_watchdogExpiry_due h l,
    fun v hm => wdogKick_leaves hm v,
    fun _ _ _ h => ⟨exec_fatalError_bowline h, exec_fatalError_recorded h, exec_fatalError_waits h, exec_fatalError_unrecorded h⟩,
    fun c l ok h => exec_fatalError_again h c l ok, exec_fatalRecordTimeout_fatal,
    fun keep => ⟨rfl, rfl, rfl, rfl, fun _ ha => rd_warm_kept ha s keep⟩⟩

end Sys2Proof.Machine
end

section
/-! PROOFS. Bring-up (R461, R462), the choice of the configuration (R433, R435, R443, R445, R466) and of the firmware (R464, R477, R480, R482),
and the end of a configuration write (R440, R441): what each command does, by the branch that the state selects. -/

namespace Sys2Proof.Machine

section
variable {s : State}

/-! ### The release of steps -/

section
variable {k : Nat}

theorem exec_releaseRequest_next (hm : s.fld Reg.BWL_STATUS Fld.BWL_STATUS_MODE ≠ 0) (hn : s.nextStep = some k) :
    exec (.releaseRequest k) s = .next { s with rst := { s.rst with asked := some k } } :=
  congrArg _ ((if_neg hm).trans (if_pos hn))

theorem exec_releaseRequest_other (hm : s.fld Reg.BWL_STATUS Fld.BWL_STATUS_MODE ≠ 0) (hn : s.nextStep ≠ some k) :
    exec (.releaseRequest k) s = .next (s.logCode 5 k) :=
  congrArg _ ((if_neg hm).trans (if_neg hn))

theorem exec_releaseStep_released (hn : s.nextStep = some k) (hr : s.mayRun = true)
    (hl : s.stepsReady = true ∨ s.rst.released = []) (ha : k < 3 ∨ s.rst.asked = some k) (hf : ¬ (k = 4 ∧ s.bwl.fabric = true)) :
    let t := s.setFld Reg.RST_STATUS Fld.RST_STATUS_STEP k
    exec .releaseStep s = .next (State.releaseEffect { t with rst := { t.rst with
      running := true, asked := none, released := t.rst.released ++ [k]
      ready := if k = 7 then t.rst.ready ++ [k] else t.rst.ready } } k) := by
  show execReleaseStep s = _
  unfold execReleaseStep
  rw [hn]
  refine congrArg _ (if_pos ?_)
  have hl' : (s.stepsReady || s.rst.released.isEmpty) = true := by simpa using hl
  have ha' : (decide (k < 3) || s.rst.asked == some k) = true := by simpa using ha
  have hf' : (!(k == 4 && s.bwl.fabric)) = true := by simpa [imp_iff_not_or] using hf
  rw [hr, hl', ha', hf']
  rfl

theorem exec_stepReady_met (found : Found) (hr : s.rst.released.contains k = true) (hn : s.rst.ready.contains k = false)
    (hf : s.fld Reg.RST_STATUS Fld.RST_STATUS_FAIL_STEP = 0) :
    let t := { s with rst := { s.rst with ready := s.rst.ready ++ [k] } }
    exec (.stepReady k found) s = .next (if k = 2 then t.fuseSense else if k = 4 then t.memoryReady found
      else if k = 5 then t.strandsReady found else if k = 6 then t.opticsReady found else t) := by
  refine congrArg _ (if_pos ?_)
  rw [hr, hn, hf]
  rfl

theorem exec_stepTimeout_overruns (ok : Bool) (hk : s.rst.released.getLast? = some k) (hr : s.stepsReady = false)
    (hf : s.fld Reg.RST_STATUS Fld.RST_STATUS_FAIL_STEP = 0) :
    exec (.stepTimeout ok) s = .next (((s.setFld Reg.RST_STATUS Fld.RST_STATUS_FAIL_STEP k).event Reg.RST_EVENT
      Fld.RST_EVENT_STEP_TIMEOUT Reg.RST_CNT_STEP_TIMEOUT).fatalWrite ok 0) := by
  show execStepTimeout ok s = _
  unfold execStepTimeout
  rw [hk]
  exact congrArg _ (if_pos ⟨hr, hf⟩)

end

/-! ### The configuration -/

/-- The state in which ROM chooses the configuration: it shows the flash and the boot state, and takes no old cause of Belay mode. -/
def State.choosing (s : State) : State :=
  let t := (s.setFlds Reg.RST_STATUS [(Fld.RST_STATUS_BELAY, 0), (Fld.RST_STATUS_BELAY_CAUSE, 0)]).showNvm.bootShow
  { t with rst := { t.rst with freset := t.authorised } }

/-- The choice of ROM by the strap, the flash and the failed starts (R433). -/
def State.romChoice (c : State) (ok : Bool) : State :=
  if c.bootSrc = 3 then c.copiesUnread.enterBelay 2 4
  else if c.nvmPresent = false then c.copiesUnread.enterBelay 4 2
  else if c.nvmHeaderOk = false then c.copiesUnread.enterBelay 5 3
  else if 4 ≤ c.rst.failed then (c.showCopies.enterBelay 1 0).bootShow
  else if c.bootSrc = 2 then
    let t := c.copiesUnread.bootShow.loadStandby
    { t with bwl := { t.bwl with chosen := true, fabric := true } }
  else c.chooseFlash ok 0 1

theorem exec_configurationChoice_chooses (hr : s.rst.ready.contains 2 = true) (hc : s.bwl.chosen = false) (ok : Bool) :
    exec (.configurationChoice ok) s = .next (s.choosing.romChoice ok) := by
  refine congrArg _ (if_pos ?_)
  rw [hr, hc]
  rfl

section
variable {c : State} {ok : Bool}

theorem romChoice_forced (h : c.bootSrc = 3) : c.romChoice ok = c.copiesUnread.enterBelay 2 4 := if_pos h

theorem romChoice_noFlash (h : c.bootSrc ≠ 3) (hp : c.nvmPresent = false) : c.romChoice ok = c.copiesUnread.enterBelay 4 2 :=
  (if_neg h).trans (if_pos hp)

variable (h : c.bootSrc ≠ 3) (hp : c.nvmPresent = true)
include h hp

theorem romChoice_noHeader (hh : c.nvmHeaderOk = false) : c.romChoice ok = c.copiesUnread.enterBelay 5 3 :=
  (if_neg h).trans ((if_neg (ne_false_of_eq_true hp)).trans (if_pos hh))

variable (hh : c.nvmHeaderOk = true)
include hh

/-- With a sound flash the failed starts and the strap choose. -/
theorem romChoice_flash : c.romChoice ok = if 4 ≤ c.rst.failed then (c.showCopies.enterBelay 1 0).bootShow
    else if c.bootSrc = 2 then
      let t := c.copiesUnread.bootShow.loadStandby
      { t with bwl := { t.bwl with chosen := true, fabric := true } }
    else c.chooseFlash ok 0 1 :=
  (if_neg h).trans ((if_neg (ne_false_of_eq_true hp)).trans (if_neg (ne_false_of_eq_true hh)))

theorem romChoice_failedStarts (hf : 4 ≤ c.rst.failed) : c.romChoice ok = (c.showCopies.enterBelay 1 0).bootShow :=
  (romChoice_flash h hp hh).trans (if_pos hf)

theorem romChoice_copies (h2 : c.bootSrc ≠ 2) (hf : c.rst.failed < 4) : c.romChoice ok = c.chooseFlash ok 0 1 :=
  (romChoice_flash h hp hh).trans ((if_neg (Nat.not_le.2 hf)).trans (if_neg h2))

end

theorem romChoice_fabric {c : State} {ok : Bool} (h2 : c.bootSrc = 2) (hp : c.nvmPresent = true) (hh : c.nvmHeaderOk = true)
    (hf : c.rst.failed < 4) :
    let t := c.copiesUnread.bootShow.loadStandby
    c.romChoice ok = { t with bwl := { t.bwl with chosen := true, fabric := true } } :=
  (romChoice_flash (by omega) hp hh).trans ((if_neg (Nat.not_le.2 hf)).trans (if_pos h2))

/-- Every port that is UP was asked for an image. -/
def State.fabricAsked (s : State) : State := s.fabricPorts.foldl State.fabricAsk s

/-- The image that the partners gave is used, where one of them passes. -/
def State.fabricTaken (t : State) : Option (List Byte) → State
  | none => t
  | some m => (t.useImage m (cfgCheck t.fuse t.serial true none m) 3 0 false).reload

theorem exec_fabricConfigRequest_asks (hf : s.bwl.fabric = true) {l : List (Nat × List Byte)} {o : Option (List Byte)}
    (ho : s.fabricAsked.fabricImage l = o) : exec (.fabricConfigRequest l) s = .next (s.fabricAsked.fabricTaken o) := by
  subst ho
  refine congrArg _ ((if_neg (ne_false_of_eq_true hf)).trans ?_)
  unfold State.fabricTaken
  rfl

theorem exec_fabricConfigTimeout_late (ok : Bool) (hf : s.bwl.fabric = true) : exec (.fabricConfigTimeout ok) s =
    .next ((s.event Reg.CFG_EVENT Fld.CFG_EVENT_FABRIC_TIMEOUT Reg.CFG_CNT_FABRIC_TIMEOUT).chooseFlash ok 5 5).reload :=
  congrArg Host.Outcome.next (if_neg (ne_false_of_eq_true hf))

/-! ### The firmware -/

section
variable (hc : s.bwl.chosen = true) (hb : s.belay = false) (hf : s.bwl.fw = none) {ok : Bool} {t : State}
include hc hb hf

/-- ROM looks for a slot to enter. -/
theorem firmware_wanted : ¬ (s.bwl.chosen && !s.belay && s.bwl.fw.isNone) = false := by
  rw [hc, hb, hf]
  decide

theorem exec_firmwareEntry_none (h : s.chooseFirmware ok = (t, none)) :
    exec (.firmwareEntry ok) s = .next (t.enterBelay 6 (t.fld Reg.CFG_STATUS Fld.CFG_STATUS_RESULT)) := by
  refine congrArg _ ((if_neg (firmware_wanted hc hb hf)).trans ?_)
  rw [h]

theorem exec_firmwareEntry_enters {slot : Nat} {trial bad : Bool} (h : s.chooseFirmware ok = (t, some (slot, trial, bad))) :
    ∃ u, exec (.firmwareEntry ok) s = .next u ∧ u.bwl.fw = some (fwUse (t.slotBytes slot)) ∧ u.bwl.kickAt = u.time ∧
      u.pending = t.pending := by
  have entered : ∃ u, execFirmwareEntry ok s = .next u ∧ u.bwl.fw = some (fwUse (t.slotBytes slot)) ∧ u.bwl.kickAt = u.time := by
    unfold execFirmwareEntry
    rw [if_neg (firmware_wanted hc hb hf), h]
    exact ⟨_, rfl, rfl, rfl⟩
  obtain ⟨u, e, fw, kick⟩ := entered
  have queue : u.pending = s.pending := by
    have kept := execFirmwareEntry_keep ok s
    rw [e, kept_next] at kept
    exact kept.1
  have queue' : t.pending = s.pending := by
    have kept := State.chooseFirmware_keep s ok
    rw [h] at kept
    exact kept.1
  exact ⟨u, e, fw, kick, queue.trans queue'.symm⟩

end

section
variable {v : Word} {ok : Bool} (hk : getF v Fld.BWL_HEALTH_CONFIRM_KEY = 0x5A) (hc : getF v Fld.BWL_HEALTH_CONFIRM_CONFIRM = 1)
  (hs : s.start = 1) (hr : s.rst.released.contains 7 = true) (hf : s.fld Reg.RST_STATUS Fld.RST_STATUS_FAIL_STEP = 0)
include hk hc hs hr hf

theorem exec_healthConfirm_keyed : exec (.healthConfirm .bowline v ok) s = .next (if s.mayConfirm = true then s.confirm ok else s) := by
  by_cases hm : s.mayConfirm = true
  · exact congrArg _ ((if_pos ⟨rfl, hk, hc, hs, hr, hf, hm⟩).trans (if_pos hm).symm)
  · refine congrArg _ ((if_neg ?_).trans (if_neg hm).symm)
    rintro ⟨-, -, -, -, -, -, h⟩
    exact hm h

/-- A start on trial, or with a fallback configuration. -/
abbrev State.tried (s : State) : Bool := s.flag Reg.BWL_STATUS Fld.BWL_STATUS_TRIAL || s.flag Reg.CFG_STATUS Fld.CFG_STATUS_FALLBACK

theorem exec_healthConfirm_confirms (h : s.bwl.answered = true ∨ s.tried = false) :
    exec (.healthConfirm .bowline v ok) s = .next (s.confirm ok) := by
  refine (exec_healthConfirm_keyed hk hc hs hr hf).trans (congrArg _ (if_pos ?_))
  exact Bool.or_eq_true_iff.2 (h.imp_right fun h => congrArg not h)

theorem exec_healthConfirm_early (ha : s.bwl.answered = false) (ht : s.tried = true) :
    exec (.healthConfirm .bowline v ok) s = .next s := by
  refine (exec_healthConfirm_keyed hk hc hs hr hf).trans (congrArg _ (if_neg ?_))
  exact ne_true_of_eq_false (Bool.or_eq_false_iff.2 ⟨ha, congrArg not ht⟩)

end

theorem exec_otherSlotCheck_bad (hs : s.start = 2)
    (hv : s.slotValid (1 - s.fld Reg.BWL_STATUS Fld.BWL_STATUS_RUNNING_SLOT) = false)
    (hw : (s.flash (fwSlot (1 - s.fld Reg.BWL_STATUS Fld.BWL_STATUS_RUNNING_SLOT)) 4096).any (· != 0xFF) = true) :
    exec .otherSlotCheck s =
      .next ((s.event Reg.BWL_EVENT Fld.BWL_EVENT_SLOT_BAD (Reg.BWL_CNT 3)).service Fld.RAS_SERVICE_REQUEST_FW_SLOT) :=
  congrArg _ (if_pos ⟨hs, hv, hw⟩)

/-! ### The end of a configuration write -/

/-- A configuration write ends with a result other than DONE. -/
def State.cfgWriteFailed (s : State) (r : Nat) : State :=
  (s.setFld Reg.CFG_WRITE Fld.CFG_WRITE_RESULT r).event Reg.CFG_EVENT Fld.CFG_EVENT_WRITE_FAIL Reg.CFG_CNT_WRITE_FAIL

/-- The state in which no configuration write holds the flash. -/
def State.cfgOver (s : State) : State := { s with bwl := { s.bwl with cfgNew := none } }

/-- An image that reads back as it must (R440). -/
def State.readsBack (s : State) (back : List Byte) : Bool := (cfgCheck s.fuse s.serial s.fuse.signReq none back).reason == 0

/-- The flash and the result after the write of an image that reads back as `back`; `ok`: erase and program succeed. -/
def State.cfgWritten (s : State) (ok : Bool) (back : List Byte) : State :=
  if (ok && s.nvmPresent) = false then (s.cfgOver.flashErase s.cfgTargetAt cfgLen).cfgWriteFailed cwNvmError
  else if (ok && s.nvmPresent && s.readsBack back) = true then
    (s.cfgOver.flashLoad s.cfgTargetAt back).setFld Reg.CFG_WRITE Fld.CFG_WRITE_RESULT cwDone
  else (s.cfgOver.flashLoad s.cfgTargetAt back).cfgWriteFailed cwVerifyFail

/-- The command that committed the image, if one did, receives its final response. -/
def State.cfgTell (s : State) (good : Bool) : State :=
  match s.bwl.running.find? fun c => c.cmd == 0x72 with
  | none => s
  | some c => (s.putRunning (s.bwl.running.filter fun x => x != c)).lyAnswer c (if good then lyOK else lyFAILED) s.cfgWriteData

theorem running_cfgWritten (ok : Bool) (back : List Byte) : (s.cfgWritten ok back).bwl.running = s.bwl.running := by
  have failed (t : State) (r : Nat) : (t.cfgWriteFailed r).bwl = t.bwl := by simp [State.cfgWriteFailed]
  unfold State.cfgWritten
  split_ifs
  · rw [failed]
    rfl
  · rfl
  · rw [failed]
    rfl

section
variable {m : List Byte} {ok : Bool} {flaws : List (Nat × Byte)} (hm : s.bwl.cfgNew = some m)
  (hr : (s.bwl.running.find? fun c => c.cmd == 0x72) = none)
include hm

theorem exec_cfgWriteDone_ends : exec (.cfgWriteDone ok flaws) s =
    .next ((s.cfgWritten ok (withFlaws m flaws)).cfgTell (ok && s.nvmPresent && s.readsBack (withFlaws m flaws))).nvmFree.smbResume := by
  show execCfgWriteDone ok flaws s = _
  unfold execCfgWriteDone
  rw [hm]
  rfl

include hr

/-- Where no command waits for the write, its end is the flash, the result and what waited for the flash. -/
theorem exec_cfgWriteDone_untold :
    exec (.cfgWriteDone ok flaws) s = .next (s.cfgWritten ok (withFlaws m flaws)).nvmFree.smbResume := by
  refine (exec_cfgWriteDone_ends hm).trans (congrArg _ (congrArg (fun t : State => t.nvmFree.smbResume) ?_))
  rw [State.cfgTell, running_cfgWritten, hr]

end

section
variable {ok : Bool} {back : List Byte}

theorem cfgWritten_unwritten (h : ok = false ∨ s.nvmPresent = false) :
    s.cfgWritten ok back = (s.cfgOver.flashErase s.cfgTargetAt cfgLen).cfgWriteFailed cwNvmError :=
  if_pos (Bool.and_eq_false_iff.2 h)

variable (ho : ok = true) (hp : s.nvmPresent = true)
include ho hp

theorem cfgWritten_read : s.cfgWritten ok back =
    if s.readsBack back = true then (s.cfgOver.flashLoad s.cfgTargetAt back).setFld Reg.CFG_WRITE Fld.CFG_WRITE_RESULT cwDone
    else (s.cfgOver.flashLoad s.cfgTargetAt back).cfgWriteFailed cwVerifyFail := by
  unfold State.cfgWritten
  rw [ho, hp]
  rfl

theorem cfgWritten_valid (h : (cfgCheck s.fuse s.serial s.fuse.signReq none back).reason = 0) : s.cfgWritten ok back =
    (s.cfgOver.flashLoad s.cfgTargetAt back).setFld Reg.CFG_WRITE Fld.CFG_WRITE_RESULT cwDone :=
  (cfgWritten_read ho hp).trans (if_pos (beq_iff_eq.2 h))

theorem cfgWritten_invalid (h : ¬ (cfgCheck s.fuse s.serial s.fuse.signReq none back).reason = 0) :
    s.cfgWritten ok back = (s.cfgOver.flashLoad s.cfgTargetAt back).cfgWriteFailed cwVerifyFail :=
  (cfgWritten_read ho hp).trans (if_neg (mt beq_iff_eq.1 h))

end

end

/-- Settles O47: each command by the branch that its hypotheses select, the choice of ROM by the lemmas on `romChoice`. -/
theorem bringUpConfigurationAndFirmware : Obligations.BringUpConfigurationAndFirmware := by
  intro s
  refine ⟨fun k hm => ⟨exec_releaseRequest_next hm, exec_releaseRequest_other hm⟩,
    fun k hn hr hl ha hf => exec_releaseStep_released hn hr hl ha hf, fun k found hr hn hf => exec_stepReady_met found hr hn hf,
    fun k ok hk hr hf => exec_stepTimeout_overruns ok hk hr hf,
    fun hr hc => ?choice, fun l m hf ho => exec_fabricConfigRequest_asks hf ho, fun l hf ho => exec_fabricConfigRequest_asks hf ho,
    fun ok hf => exec_fabricConfigTimeout_late ok hf,
    fun hc hb hf ok t => ⟨exec_firmwareEntry_none hc hb hf, fun slot trial bad => exec_firmwareEntry_enters hc hb hf⟩,
    fun v ok hk hc hs hr hf => ⟨exec_healthConfirm_confirms hk hc hs hr hf, exec_healthConfirm_early hk hc hs hr hf⟩,
    exec_otherSlotCheck_bad, fun m ok flaws hm hr => ?write⟩
  case choice =>
    have chooses (ok : Bool) := exec_configurationChoice_chooses hr hc ok
    exact ⟨fun h ok => (chooses ok).trans (congrArg _ (romChoice_forced h)),
      fun h hp ok => (chooses ok).trans (congrArg _ (romChoice_noFlash h hp)),
      fun h hp hh ok => (chooses ok).trans (congrArg _ (romChoice_noHeader h hp hh)),
      fun h hp hh hf ok => (chooses ok).trans (congrArg _ (romChoice_failedStarts h hp hh hf)),
      fun h2 hp hh hf ok => (chooses ok).trans (congrArg _ (romChoice_fabric h2 hp hh hf)),
      fun h h2 hp hh hf ok => (chooses ok).trans (congrArg _ (romChoice_copies h hp hh h2 hf))⟩
  case write =>
    have ends {t : State} (h : s.cfgWritten ok (withFlaws m flaws) = t) : exec (.cfgWriteDone ok flaws) s = .next t.nvmFree.smbResume :=
      h ▸ exec_cfgWriteDone_untold hm hr
    exact ⟨fun h => ends (cfgWritten_unwritten h), fun ho hp h => ends (cfgWritten_valid ho hp h),
      fun ho hp h => ends (cfgWritten_invalid ho hp h)⟩

end Sys2Proof.Machine
end

section
/-! PROOFS. The SMBus target (R438, R441, R451, R468, R503 to R505): its transactions, by whether their PEC is right, in and out of Belay
mode. -/

namespace Sys2Proof.Machine

section
variable {s : State}

/-! ### What becomes of a transaction -/

section
variable (ho : s.smbOn = true) (f : State → State)
include ho

/-- A whole transaction gives what its command gives. -/
theorem smb_whole {t : State} (h : f s = t) : nextOf (s.smb true f) = .next t :=
  congrArg nextOf ((if_neg (ne_false_of_eq_true ho)).trans ((if_neg (by decide)).trans h))

/-- A transaction whose PEC fails is discarded and counted (R504). -/
theorem smb_damaged : nextOf (s.smb false f) = .next (s.event Reg.BWL_EVENT Fld.BWL_EVENT_SMB_PEC (Reg.BWL_CNT 9)) :=
  congrArg nextOf ((if_neg (ne_false_of_eq_true ho)).trans (if_pos rfl))

variable (hb : s.belay = true)
include hb

theorem smbBelay_whole {t : State} (h : f s = t) : nextOf (s.smbBelay true f) = .next t :=
  (congrArg nextOf (if_neg (ne_false_of_eq_true hb))).trans (smb_whole ho f h)

theorem smbBelay_damaged : nextOf (s.smbBelay false f) = .next (s.event Reg.BWL_EVENT Fld.BWL_EVENT_SMB_PEC (Reg.BWL_CNT 9)) :=
  (congrArg nextOf (if_neg (ne_false_of_eq_true hb))).trans (smb_damaged ho f)

end

/-! ### Reads, the reset and the alert -/

section
variable (ho : s.smbOn = true)
include ho

theorem exec_smbStatus_reads :
    exec .smbStatus s = .next { s with bwl := { s.bwl with smbOut := s.smbStatus, smbSeen := s.smbStatus } } :=
  congrArg _ (if_neg (ne_false_of_eq_true ho))

theorem exec_smbIdentity_reads : exec .smbIdentity s =
    .next (s.smbRead (wordsToBytes [s.rd Reg.ID_SERIAL, s.rd Reg.ID_DEVICE, s.rd Reg.ID_STEPPING, s.rd Reg.ID_NUMERICS_SIG])) :=
  congrArg _ (if_neg (ne_false_of_eq_true ho))

theorem exec_smbLog_reads {d : List Byte} {e : LogEntry} {l : List LogEntry} (hd : d.length = 4)
    (he : (s.logRing.dropWhile fun x => decide (x.eseq < leNat d)) = e :: l) : exec (.smbLog true d) s = .next (s.smbRead e.bytes) := by
  refine smb_whole ho _ ((if_neg (not_not_intro hd)).trans ?_)
  rw [State.smbEntry, he]

theorem exec_smbFatal_reads {i c : Byte} (hi : i.toNat ≤ 223) (hc : c.toNat ≤ 7) :
    exec (.smbFatal true [i, c]) s = .next (s.smbRead (((s.fatalBytes i.toNat).drop (32 * c.toNat)).take 32)) := by
  refine smb_whole ho _ (if_neg ?_)
  rintro (h | h)
  · exact absurd hi (Nat.not_le.2 h)
  · exact absurd hc (Nat.not_le.2 h)

theorem exec_smbReset_keyed : exec (.smbReset true 0xA5) s = .next (s.takeReset [srcLANYARD]) :=
  smb_whole ho _ (if_pos rfl)

theorem exec_smbAlertResponse_low (ha : s.alertLow = true) :
    exec .smbAlertResponse s = .next { s with bwl := { s.bwl with smbAck := s.smbStatus } } := by
  refine congrArg _ (if_neg ?_)
  rintro (h | h)
  · exact ne_false_of_eq_true ho h
  · exact ne_false_of_eq_true ha h

end

/-! ### Belay mode -/

section
variable (ho : s.smbOn = true) (hb : s.belay = true)
include ho hb

theorem exec_smbCfgBegin_begins {d : List Byte} (hd : d.length = 4) (hl : leNat d = cfgLen) (hn : s.bwl.cfgBuf = none) :
    exec (.smbCfgBegin true d) s = .next (s.putBuf (some [])) := by
  refine smbBelay_whole ho _ hb (if_neg ?_)
  simp [hd, hl, hn]

theorem exec_smbCfgData_fills {d : List Byte} (h4 : 4 ≤ d.length) (h244 : d.length ≤ 244) :
    exec (.smbCfgData true d) s = .next (s.cfgData (leNat (d.take 4)) (d.drop 4)).1 := by
  refine smbBelay_whole ho _ hb (if_neg ?_)
  omega

theorem exec_smbCfgCommit_commits {l : List (Nat × List Byte)} (hl : s.bwl.cfgBuf = some l) :
    exec (.smbCfgCommit true) s = .next (s.cfgCommit l).1 := by
  refine smbBelay_whole ho _ hb ?_
  rw [State.smbCommit, hl]

theorem exec_smbCfgResult_reads : exec .smbCfgResult s = .next (s.smbRead s.cfgWriteData) :=
  smbBelay_whole ho _ hb rfl

theorem exec_smbFwResult_reads : exec .smbFwResult s = .next (s.smbRead (natLE 1 s.bwl.smbFw.1 ++ natLE 1 s.bwl.smbFw.2)) :=
  smbBelay_whole ho _ hb rfl

/-- A staging command with none before it that waits: it runs, or waits for the flash (R441). -/
theorem smbFwCmd_taken {code : Nat} {x : List Byte} {ok : Bool} (hn : s.bwl.smbHeld = none) :
    nextOf (s.smbFwCmd true code x ok) = .next (if s.stageWaits then
      { s with bwl := { s.bwl with smbHeld := some (code, x, ok), smbFw := (1, 0) } } else s.smbStage code x ok) := by
  refine smbBelay_whole ho _ hb (if_neg ?_)
  rw [hn]
  decide

/-- BELAY_EXIT exits, waits for the flash, or is not taken where a command waits already. -/
theorem exec_smbBelayExit_whole (ok : Bool) : exec (.smbBelayExit true ok) s =
    .next (if s.nvmBusy = false then (s.belayExit ok).1 else if s.bwl.smbHeld.isSome then s
      else { s with bwl := { s.bwl with smbHeld := some (0x20, [], ok) } }) :=
  smbBelay_whole ho _ hb rfl

theorem exec_smbBelayExit_free {ok : Bool} (hf : s.nvmBusy = false) : exec (.smbBelayExit true ok) s = .next (s.belayExit ok).1 :=
  (exec_smbBelayExit_whole ho hb ok).trans (congrArg _ (if_pos hf))

theorem exec_smbBelayExit_waits {ok : Bool} (hf : s.nvmBusy = true) (hn : s.bwl.smbHeld = none) :
    exec (.smbBelayExit true ok) s = .next { s with bwl := { s.bwl with smbHeld := some (0x20, [], ok) } } := by
  refine (exec_smbBelayExit_whole ho hb ok).trans (congrArg _ ((if_neg (ne_false_of_eq_true hf)).trans (if_neg ?_)))
  rw [hn]
  decide

end

/-- Under cause 3 the exit is a reset of LANYARD (R468). -/
theorem belayExit_cause3 (hb : s.belay = true) (hc : s.fld Reg.RST_STATUS Fld.RST_STATUS_BELAY_CAUSE = 3) (ok : Bool) :
    (s.belayExit ok).1 = s.takeReset [srcLANYARD] := by
  rw [State.belayExit, hb, hc]
  rfl

end

/-- Settles O51: each transaction by the branch that its hypotheses select, a failed PEC by `smb_damaged` and `smbBelay_damaged`. -/
theorem smbusTransactions : Obligations.SmbusTransactions := by
  intro s ho
  refine ⟨exec_smbStatus_reads ho, exec_smbIdentity_reads ho, fun _ _ _ => exec_smbLog_reads ho, fun _ _ => exec_smbFatal_reads ho,
    exec_smbReset_keyed ho, fun ha => ⟨_, exec_smbAlertResponse_low ho ha, rfl, rfl⟩, fun d b => ?damaged, fun hb => ?belay⟩
  case damaged =>
    simp only [List.forall_mem_cons, List.not_mem_nil, false_implies, implies_true, and_true]
    exact ⟨smb_damaged ho _, smb_damaged ho _, smb_damaged ho _⟩
  case belay =>
    refine ⟨fun _ => exec_smbCfgBegin_begins ho hb, fun _ => exec_smbCfgData_fills ho hb, fun _ => exec_smbCfgCommit_commits ho hb,
      exec_smbCfgResult_reads ho hb, exec_smbFwResult_reads ho hb, fun d ok hn => ?staging, fun _ => exec_smbBelayExit_free ho hb,
      fun _ => exec_smbBelayExit_waits ho hb,
      fun ok hf hc => (exec_smbBelayExit_free ho hb hf).trans (congrArg _ (belayExit_cause3 hb hc ok)), fun d ok => ?damaged⟩
    case staging =>
      exact ⟨smbFwCmd_taken ho hb hn, smbFwCmd_taken ho hb hn, smbFwCmd_taken ho hb hn⟩
    case damaged =>
      simp only [List.forall_mem_cons, List.not_mem_nil, false_implies, implies_true, and_true]
      exact ⟨smbBelay_damaged ho _ hb, smbBelay_damaged ho _ hb, smbBelay_damaged ho _ hb, smbBelay_damaged ho _ hb,
        smbBelay_damaged ho _ hb, smbBelay_damaged ho _ hb, smbBelay_damaged ho _ hb⟩

end Sys2Proof.Machine
end

section
/-! PROOFS. The commands of Lanyard that read records, transfer images, reset and attest (R438, R441, R452, R468, R483, R489, R495 to R497):
each by the branch that the state selects. -/

namespace Sys2Proof.Machine

section
variable {s : State} {c : LyCmd} {r : List LyCmd}

/-! ### Records -/

theorem exec_logRead_good (h : s.lyFirst 0x60 c r) (g : c.has 16 = true) (h1 : 1 ≤ c.w 2) (h6 : c.w 2 ≤ 6) : exec .logRead s =
    .next ((s.lyTaken r).lyEnds c lyOK
      ((((s.lyTaken r).logRing.dropWhile fun e => decide (e.eseq < c.w 1)).take (c.w 2)).flatMap LogEntry.bytes)) :=
  lyRun_answers h g _ (if_neg (ne_false_of_eq_true (within_iff.2 ⟨h1, h6⟩)))

theorem exec_fatalRead_good (h : s.lyFirst 0x61 c r) (g : c.has 16 = true) (hi : c.w 1 ≤ 223) (hp : c.w 2 ≤ 1) : exec .fatalRead s =
    .next ((s.lyTaken r).lyEnds c lyOK ((((s.lyTaken r).fatalBytes (c.w 1)).drop (128 * c.w 2)).take 128)) :=
  lyRun_answers h g _ (if_neg (by omega))

theorem exec_lossRead_good (h : s.lyFirst 0x62 c r) (g : c.has 8 = true) (ho : c.w 1 + 192 ≤ 4096) :
    exec .lossRead s = .next ((s.lyTaken r).lyEnds c lyOK (((s.lyTaken r).lossBytes.drop (c.w 1)).take 192)) :=
  lyRun_answers h g _ (if_neg (Nat.not_lt.2 ho))

theorem exec_lossClear_busy {nvm : Bool} (hb : s.nvmBusy = true) : exec (.lossClear nvm) s = .next s := congrArg _ (if_pos hb)

section
variable {nvm : Bool} (h : s.lyFirst 0x63 c r) (g : c.has 8 = true) (hb : s.nvmBusy = false)
  (hn : lossKeep (c.w 1) (s.lyTaken r).losses ≠ (s.lyTaken r).losses)
include h g hb hn

theorem exec_lossClear_clears (hk : nvm = true) (hp : (s.lyTaken r).nvmPresent = true) : exec (.lossClear nvm) s =
    .next (((s.lyTaken r).lossWrite (lossKeep (c.w 1) (s.lyTaken r).losses)).lyEnds c lyOK []) :=
  (congrArg nextOf (if_neg (ne_true_of_eq_false hb))).trans
    (lyRun_answers h g _ ((if_neg hn).trans (if_pos (Bool.and_eq_true_iff.2 ⟨hk, hp⟩))))

/-- A flash that does not take the record is counted, and the command fails. -/
theorem exec_lossClear_fails (hk : nvm = false ∨ (s.lyTaken r).nvmPresent = false) :
    let f := ((s.lyTaken r).event Reg.BWL_EVENT Fld.BWL_EVENT_NVM_FAIL (Reg.BWL_CNT 11)).free 14
    exec (.lossClear nvm) s = .next (f.2.lyEnds c lyFAILED (natLE 8 f.1.toNat)) :=
  (congrArg nextOf (if_neg (ne_true_of_eq_false hb))).trans
    (lyRun_answers h g _ ((if_neg hn).trans (if_neg (ne_true_of_eq_false (Bool.and_eq_false_iff.2 hk)))))

end

/-! ### Configuration images -/

theorem exec_cfgBegin_good (h : s.lyFirst 0x70 c r) (g : c.has 8 = true) (hl : c.w 1 = cfgLen) (hb : (s.lyTaken r).cfgBusy = false) :
    exec .cfgBegin s = .next (((s.lyTaken r).putBuf (some [])).lyEnds c lyOK []) := by
  have begins : (s.lyTaken r).cfgBegin (c.w 1) = ((s.lyTaken r).putBuf (some []), lyOK) :=
    (if_neg (not_not_intro hl)).trans (if_neg (ne_true_of_eq_false hb))
  exact lyRun_answers h g _ (by rw [begins])

/-- A command whose data follow an offset has room for both. -/
theorem lengths_good {n : Nat} (h8 : 8 ≤ c.len) (hn : c.len ≤ n) (g : c.has c.len = true) :
    ¬ (c.len < 8 ∨ n < c.len ∨ c.has c.len = false) := by
  rintro (h | h | h)
  · omega
  · omega
  · exact ne_false_of_eq_true g h

theorem exec_cfgData_good (h : s.lyFirst 0x71 c r) (h8 : 8 ≤ c.len) (hn : c.len ≤ 200) (g : c.has c.len = true)
    {l : List (Nat × List Byte)} (hl : (s.lyTaken r).bwl.cfgBuf = some l) (hf : c.w 1 + (c.args.drop 8).length ≤ cfgLen) :
    exec .cfgData s = .next (((s.lyTaken r).putBuf (some ((c.w 1, c.args.drop 8) :: l))).lyEnds c lyOK []) := by
  have fills : (s.lyTaken r).cfgData (c.w 1) (c.args.drop 8) = ((s.lyTaken r).putBuf (some ((c.w 1, c.args.drop 8) :: l)), lyOK) := by
    rw [State.cfgData, hl]
    exact if_neg (Nat.not_lt.2 hf)
  refine congrArg nextOf ((lyRun_of_first h _).trans ?_)
  dsimp only
  rw [if_neg (lengths_good h8 hn g), fills]

/-- Command `c` is under way from stage 1, after the commands that `u` has under way. -/
def State.lyUnderWay (u : State) (c : LyCmd) : State := u.putRunning (u.bwl.running ++ [{ c with stage := 1 }])

/-- The commit of a received image is answered where it is refused, and stays under way where it is accepted. -/
theorem exec_cfgCommit_good (h : s.lyFirst 0x72 c r) (g : c.has 0 = true) {l : List (Nat × List Byte)}
    (hl : (s.lyTaken r).bwl.cfgBuf = some l) :
    let x := (s.lyTaken r).cfgCommit l
    let u := if x.2 = true then x.1.lyUnderWay c else x.1.lyAnswer c lyFAILED x.1.cfgWriteData
    exec .cfgCommit s = .next (u.lyDrain u.bwl.cmds) := by
  show execCfgCommit s = _
  unfold execCfgCommit
  rw [lyFront_of_first h]
  dsimp only
  rw [g, hl]
  rfl

theorem exec_cfgCommit_refused (h : s.lyFirst 0x72 c r) (g : c.has 0 = true) {l : List (Nat × List Byte)}
    (hl : (s.lyTaken r).bwl.cfgBuf = some l) (hx : ((s.lyTaken r).cfgCommit l).2 = false) :
    let x := (s.lyTaken r).cfgCommit l
    exec .cfgCommit s = .next (x.1.lyEnds c lyFAILED x.1.cfgWriteData) :=
  (exec_cfgCommit_good h g hl).trans (congrArg (fun u : State => nextOf (u.lyDrain u.bwl.cmds)) (if_neg (ne_true_of_eq_false hx)))

theorem exec_cfgCommit_accepted (h : s.lyFirst 0x72 c r) (g : c.has 0 = true) {l : List (Nat × List Byte)}
    (hl : (s.lyTaken r).bwl.cfgBuf = some l) (hx : ((s.lyTaken r).cfgCommit l).2 = true) :
    let u := ((s.lyTaken r).cfgCommit l).1.lyUnderWay c
    exec .cfgCommit s = .next (u.lyDrain u.bwl.cmds) :=
  (exec_cfgCommit_good h g hl).trans (congrArg (fun u : State => nextOf (u.lyDrain u.bwl.cmds)) (if_pos hx))

/-! ### Firmware staging -/

/-- A staging command runs while no configuration write holds the flash. -/
theorem fwRun_free (hw : s.stageWaits = false) (cmd : Nat) (f : State → LyCmd → State × Nat × List Byte) :
    s.fwRun cmd f = s.lyRun cmd f := if_neg (ne_true_of_eq_false hw)

/-- A staging command with arguments of its length is answered with what its meaning gives. -/
theorem fwRun_answers {cmd n : Nat} (hw : s.stageWaits = false) (h : s.lyFirst cmd c r) (g : c.has n = true)
    (f : State → LyCmd → State × Nat × List Byte) :
    nextOf (s.fwRun cmd (lyArgs n f)) = .next ((f (s.lyTaken r) c).1.lyEnds c (f (s.lyTaken r) c).2.1 (f (s.lyTaken r) c).2.2) :=
  (congrArg nextOf (fwRun_free hw _ _)).trans (lyRun_answers h g f rfl)

theorem exec_fwData_good {nvm : Bool} (hw : s.stageWaits = false) (h : s.lyFirst 0x79 c r) (h8 : 8 ≤ c.len) (hn : c.len ≤ 200)
    (g : c.has c.len = true) :
    let x := (s.lyTaken r).fwData (c.w 1) (c.args.drop 8) nvm
    exec (.fwData nvm) s = .next (x.1.lyEnds c x.2.1 x.2.2) := by
  refine congrArg nextOf ((fwRun_free hw _ _).trans ((lyRun_of_first h _).trans ?_))
  rw [if_neg (lengths_good h8 hn g)]

/-! ### Resets and attestation -/

/-- The state in which a command that ends in a reset has been answered and is under way. -/
def State.lyTold (s : State) (c : LyCmd) (r : List LyCmd) : State := ((s.lyTaken r).lyAnswer c lyOK []).lyUnderWay c

theorem exec_resetCmd_good (h : s.lyFirst 0x80 c r) (g : c.has 8 = true) (hk : bits (c.w 1) 7 0 = 0xA5)
    (hr : ∀ x ∈ s.bwl.running, x.cmd ≠ 0x80) : exec .resetCmd s =
    .next (if (s.lyTold c r).lySent c.via = true then (s.lyTold c r).takeReset [srcLANYARD]
      else (s.lyTold c r).lyDrain (s.lyTold c r).bwl.cmds) :=
  congrArg nextOf (lyReset_begins h _ _ (if_pos ⟨g, hk⟩) hr _ rfl)

theorem exec_belayExit_good {nvm : Bool} (h : s.lyFirst 0x81 c r) (g : c.has 0 = true) (hb : s.belay = true)
    (h2 : s.fld Reg.RST_STATUS Fld.RST_STATUS_BELAY_CAUSE ≠ 2) (h4 : s.fld Reg.RST_STATUS Fld.RST_STATUS_BELAY_CAUSE ≠ 4)
    (hr : ∀ x ∈ s.bwl.running, x.cmd ≠ 0x81) : exec (.belayExit nvm) s =
    .next (if (s.lyTold c r).lySent c.via = true then
        if (s.lyTold c r).nvmBusy then s.lyTold c r else ((s.lyTold c r).belayExit nvm).1
      else (s.lyTold c r).lyDrain (s.lyTold c r).bwl.cmds) := by
  refine congrArg nextOf (lyReset_begins h _ _ ((if_neg (ne_false_of_eq_true g)).trans (if_neg ?_)) hr _ rfl)
  rintro (q | q | q)
  · exact ne_false_of_eq_true hb q
  · exact h2 q
  · exact h4 q

end

/-- Settles O54: each command by the branch that its hypotheses select, resets by whether the answer has left. -/
theorem lanyardRecordsImagesAndResets : Obligations.LanyardRecordsImagesAndResets := by
  intro s c r nvm
  refine ⟨fun ⟨h, g⟩ => exec_logRead_good h g, fun ⟨h, g⟩ => exec_fatalRead_good h g, fun ⟨h, g⟩ => exec_lossRead_good h g,
    fun ⟨h, g⟩ => exec_lossClear_clears h g, exec_lossClear_busy, fun ⟨h, g⟩ => exec_lossClear_fails h g,
    fun ⟨h, g⟩ => exec_cfgBegin_good h g, fun l h h8 hn g => exec_cfgData_good h h8 hn g,
    fun l ⟨h, g⟩ hl => ⟨exec_cfgCommit_refused h g hl, exec_cfgCommit_accepted h g hl⟩, fun ⟨h, g⟩ hw => fwRun_answers hw h g _,
    fun h hw => exec_fwData_good hw h, fun ⟨h, g⟩ hw => fwRun_answers hw h g _, fun ⟨h, g⟩ hw => fwRun_answers hw h g _,
    fun ⟨h, g⟩ hk hr => ⟨fun hs => ?resets, fun hs => ?resetWaits⟩,
    fun ⟨h, g⟩ hb h2 h4 hr => ⟨fun hs => ?exits, fun hs => ?exitWaits⟩, fun ⟨h, g⟩ => lyRun_answers h g _ rfl⟩
  case resets => exact (exec_resetCmd_good h g hk hr).trans (congrArg _ (if_pos hs))
  case resetWaits => exact (exec_resetCmd_good h g hk hr).trans (congrArg _ (if_neg (ne_true_of_eq_false hs)))
  case exits => exact (exec_belayExit_good h g hb h2 h4 hr).trans (congrArg _ (if_pos hs))
  case exitWaits => exact (exec_belayExit_good h g hb h2 h4 hr).trans (congrArg _ (if_neg (ne_true_of_eq_false hs)))

end Sys2Proof.Machine
end
